-- ==== Sys2Proof/Word.lean ====
section
/-! DEFINITION. The machine words of Fatia and nothing more (00_scope.md R5 to R8). -/
namespace Sys2Proof

/-- One byte (R5). -/
abbrev Byte := BitVec 8
/-- A register of the block or a slot word (R8, R77). -/
abbrev W32 := BitVec 32
/-- A scalar register, predicate register or CSR (Table 3-3). -/
abbrev W64 := BitVec 64
/-- A bundle of four slots (R77). -/
abbrev W128 := BitVec 128
/-- A vector register or an address-generator descriptor (Table 3-3). -/
abbrev W512 := BitVec 512
/-- A move number (R31). -/
abbrev MoveNo := BitVec 48
/-- The exact sum E behind an accumulator entry, guard included (R148). -/
abbrev Acc := BitVec 192

end Sys2Proof
end

