-- ==== Sys2Proof/Syntax.lean ====
section
/-! DEFINITION. The commands of the block: one constructor of Instr per row of the table of operations and events, with
the operands the row's rule gives it, and the types of those operands. -/
namespace Sys2Proof

/-- The four directions of a switch or a die edge (R186, Table 7-3). -/
inductive Dir where | n | e | s | w
  deriving DecidableEq, Repr

/-- The four slots of a bundle (R77). -/
inductive Slot where | c | v | m | x
  deriving DecidableEq, Repr

/-- Which kind of halt (R53). -/
inductive HaltKind where | abort | stop
  deriving DecidableEq, Repr

/-- A request of another engine for a bank in the cycle of this command: engine code of Table 3-19 and bank (R158). -/
structure Rival where
  engine : BitVec 4
  bank : BitVec 4
  deriving DecidableEq, Repr

/-- The bundle that a slot instruction issues in: the core, the header of this slot, the whole bundle (the field of this
slot's own 32 bits is not used) and the other engines' bank requests of the cycle (R67, R77, Table 3-6, R158). -/
structure Issue where
  core : Fin 39168
  pn : Bool
  pred : BitVec 3
  rest : W128
  rivals : List Rival
  deriving DecidableEq, Repr

/-! ### Operand formats of Table 3-7, bits [20:0]; a reserved field keeps its bits (R78) -/

structure CR where
  xd : BitVec 5
  xs1 : BitVec 5
  xs2 : BitVec 5
  fn : BitVec 6
  deriving DecidableEq, Repr
structure CI where
  xd : BitVec 5
  xs1 : BitVec 5
  imm : BitVec 11
  deriving DecidableEq, Repr
structure CS where
  xs2 : BitVec 5
  xs1 : BitVec 5
  imm : BitVec 11
  deriving DecidableEq, Repr
structure CB where
  xs1 : BitVec 5
  xs2 : BitVec 5
  off : BitVec 11
  deriving DecidableEq, Repr
structure CU where
  xd : BitVec 5
  imm : BitVec 16
  deriving DecidableEq, Repr
structure CJ where
  xd : BitVec 5
  rsv : BitVec 3
  target : BitVec 13
  deriving DecidableEq, Repr
structure CP where
  pd : BitVec 3
  xs1 : BitVec 5
  xs2 : BitVec 5
  cond : BitVec 3
  rsv : BitVec 5
  deriving DecidableEq, Repr
structure CL where
  pd : BitVec 3
  pa : BitVec 3
  pb : BitVec 3
  fn : BitVec 2
  x : BitVec 5
  rsv : BitVec 5
  deriving DecidableEq, Repr
structure CC where
  x : BitVec 5
  rsv : BitVec 4
  csr : BitVec 12
  deriving DecidableEq, Repr
structure CA where
  an : BitVec 4
  x : BitVec 5
  imm : BitVec 12
  deriving DecidableEq, Repr
structure CH where
  level : BitVec 4
  rsv : BitVec 4
  lead : BitVec 13
  deriving DecidableEq, Repr
structure CO where
  xs1 : BitVec 5
  rsv : BitVec 5
  len : BitVec 11
  deriving DecidableEq, Repr
structure VR where
  vd : BitVec 5
  vs1 : BitVec 5
  vs2 : BitVec 5
  fmt : BitVec 4
  fn : BitVec 2
  deriving DecidableEq, Repr
structure VM where
  v : BitVec 5
  an : BitVec 4
  rsv : BitVec 12
  deriving DecidableEq, Repr
structure VX where
  d : BitVec 5
  src : BitVec 5
  lane : BitVec 6
  fmt : BitVec 4
  rsv : BitVec 1
  deriving DecidableEq, Repr
structure VC where
  pd : BitVec 3
  vs1 : BitVec 5
  vs2 : BitVec 5
  cond : BitVec 3
  fmt : BitVec 4
  rsv : BitVec 1
  deriving DecidableEq, Repr
structure VV where
  vd : BitVec 5
  vs1 : BitVec 5
  fmtOut : BitVec 4
  fmtIn : BitVec 4
  rnd : BitVec 3
  deriving DecidableEq, Repr
structure VS where
  vd : BitVec 5
  aA : BitVec 4
  aB : BitVec 4
  aD : BitVec 4
  fn : BitVec 4
  deriving DecidableEq, Repr
structure MM where
  aS : BitVec 4
  fmt : BitVec 4
  acc : BitVec 8
  t : Bool
  z : Bool
  sw : Bool
  pass : BitVec 2
  deriving DecidableEq, Repr
structure ML where
  aS : BitVec 4
  fmt : BitVec 4
  rsv : BitVec 13
  deriving DecidableEq, Repr
structure MO where
  aX : BitVec 4
  aY : BitVec 4
  fmt : BitVec 4
  z : Bool
  rsv : BitVec 8
  deriving DecidableEq, Repr
structure MD where
  aD : BitVec 4
  fmt : BitVec 4
  acc : BitVec 8
  rnd : BitVec 3
  clr : Bool
  src : Bool
  deriving DecidableEq, Repr
structure MW where
  w : BitVec 10
  mode : Bool
  rsv : BitVec 10
  deriving DecidableEq, Repr
structure XP where
  set : BitVec 8
  rsv : BitVec 13
  deriving DecidableEq, Repr
structure XC where
  cn : BitVec 4
  x : BitVec 5
  imm : BitVec 12
  deriving DecidableEq, Repr
structure XT where
  g : BitVec 6
  x : BitVec 5
  pd : BitVec 3
  rsv : BitVec 7
  deriving DecidableEq, Repr
structure XH where
  rsv : BitVec 5
  code : BitVec 16
  deriving DecidableEq, Repr

/-- A slot's instruction as decode reads it, in any slot (Tables 3-8, 3-10, 3-11, 3-12). -/
inductive SlotOp where
  | nop | trap
  | reserved (op : BitVec 7)
  | alu (f : CR)
  | addi (f : CI) | andi (f : CI) | ori (f : CI) | xori (f : CI)
  | slli (f : CI) | srli (f : CI) | srai (f : CI) | clti (f : CI)
  | li (f : CU) | insh1 (f : CU) | insh2 (f : CU) | insh3 (f : CU)
  | ld (f : CI) | lws (f : CI) | lwz (f : CI) | st (f : CS) | sw (f : CS)
  | brcEq (f : CB) | brcNe (f : CB) | brcLt (f : CB) | brcGe (f : CB) | brcLtu (f : CB) | brcGeu (f : CB)
  | j (f : CJ) | jr (f : CR) | loop (f : CO)
  | pcmp (f : CP) | plog (f : CL) | pset (f : CL) | pget (f : CL)
  | csrr (f : CC) | csrw (f : CC)
  | agld (f : CA) | agrst (f : CA) | agbase (f : CA) | agpos (f : CA)
  | loadhint (f : CH)
  | vadd (f : VR) | vsub (f : VR) | vmul (f : VR) | vfma (f : VR) | vfms (f : VR)
  | vmax (f : VR) | vmin (f : VR) | vabs (f : VR) | vneg (f : VR)
  | vand (f : VR) | vor (f : VR) | vxor (f : VR)
  | vexp (f : VR) | vlog (f : VR) | vrcp (f : VR) | vrsqrt (f : VR) | vrowstat (f : VR)
  | vcmp (f : VC) | vmov (f : VR) | vbcast (f : VX) | vext (f : VX) | vcvt (f : VV)
  | vld (f : VM) | vst (f : VM)
  | smerge (f : VS) | sprobe (f : VS) | scompact (f : VS) | ssort (f : VS)
  | mmul (f : MM) | mload (f : ML) | mouter (f : MO) | mdrain (f : MD) | mcfg (f : MW)
  | xply (f : XP) | cpy (f : XC) | cwait (f : XC) | crd (f : XC) | bclm (f : XP)
  | arr (f : XT) | wrel (f : XT) | rres (f : XT) | rflg (f : XT)
  | halt (f : XH) | xfence (f : XH) | endp (f : XT)
  deriving DecidableEq, Repr

/-- A packet of the fabric: the header fields of Table 11-3 and the payload bytes (R275). -/
structure Packet where
  opc : BitVec 4
  cls : BitVec 2
  esc : Bool
  mark : Bool
  len : BitVec 4
  bcast : Bool
  resend : Bool
  dl : Bool
  rsv1 : Bool
  dpanel : BitVec 16
  spanel : BitVec 16
  sep : Byte
  rsv7 : Byte
  ssite : BitVec 16
  part : BitVec 4
  tree : BitVec 12
  eseq : W32
  tag : BitVec 16
  attr : BitVec 16
  addr : W64
  ecrc : W32
  payload : List Byte
  deriving DecidableEq, Repr

/-- A 24-byte tempo message (Table 2-3). `ok` says whether its parity or forward error correction passes (R40). `hi` is the upper
half of the exact 128-bit partial of an ARRIVE (R38), for which Table 2-3 has no room (DESIGN CHOICE, log entry 97). -/
structure TempoMsg where
  ty : BitVec 4
  late : Bool
  ovf : Bool
  proxy : Bool
  port : Bool
  group : BitVec 6
  op : BitVec 4
  tree : BitVec 12
  move : MoveNo
  seq : BitVec 16
  value : W64
  hi : W64
  delay : BitVec 24
  lvl : BitVec 3
  ok : Bool
  deriving DecidableEq, Repr

/-- A node of the tempo network (R39): a core's tempo unit, a die hub, a tile hub, the panel hub, or a remote panel. -/
inductive TNode where
  | core (k : Fin 39168)
  | die (d : Fin 144)
  | tile (t : Fin 12)
  | panel
  | remote (q : Fin 4096)
  deriving DecidableEq, Repr

/-- One end of a flit link (R201, R202, Table 11-1): a segment end of a die-crossing mesh channel (its die, edge, core rank
or logical core file, and segment), an edge port, stack port or I/O port (`near` the die, stack or I/O end), the end of a
photonic pair at tile t facing u, or a system-link port. -/
inductive LinkEnd where
  | mesh (d : Fin 144) (dir : Dir) (lane : Fin 16) (seg : Fin 3)
  | edge (d : Fin 144) (dir : Dir) (near : Bool)
  | stack (s : Fin 48) (port : Fin 4) (near : Bool)
  | photon (t : Fin 12) (u : Fin 12)
  | io (i : Fin 8) (near : Bool)
  | sys (p : Fin 32)
  deriving DecidableEq, Repr

/-- A beat of the inbound lane of a rank bus with its sideband (Table 7-9), the ATTR of the packet that it belongs to (AOP and ATYPE of
an atomic), the router that drives it, and whether the other router has a beat ready for the bus in the same cycle (R206). -/
structure Beat where
  fmask : BitVec 16
  diebc : Bool
  row : BitVec 15
  wen : Byte
  last : Bool
  kind : BitVec 3
  rmask : BitVec 16
  data : W512
  attr : BitVec 16
  fromE : Bool
  both : Bool
  deriving DecidableEq, Repr

/-- A die hub of a panel. -/
structure DieRef where
  panel : Fin 4096
  die : Fin 144
  deriving DecidableEq, Repr

/-- A partition with the milliseconds that its root has waited for arrivals (R55). -/
structure Waited where
  part : Fin 16
  ms : Nat
  deriving DecidableEq, Repr

/-- A tempo slot as a port receives it: the FEC could correct it, and the port's clock in ps (R43, R287). -/
structure SlotRx where
  fecOk : Bool
  now : W64
  deriving DecidableEq, Repr

/-- A fetched command of a ring: the ring and the descriptor's number (R312). -/
structure Ref where
  ring : Fin 1024
  seq : W32
  deriving DecidableEq, Repr

/-- How the host answered a transfer (R320): every byte, or it stopped at byte `n` with a host-side address error, or with
uncorrectable data. -/
inductive HostAns where
  | ok
  | addrAt (n : Nat)
  | dataAt (n : Nat)
  deriving DecidableEq, Repr

/-- Bytes the host has stored at a bus address of its own memory (R312, R334). -/
structure HostStore where
  addr : W64
  bytes : List Byte
  deriving DecidableEq, Repr

/-- A pair of sensors or a single (Table 14-2): kind code, and the index of the pair among those of its kind: region, router
(die × 4 + N, E, S, W), stack × 9 + pair (8: the base die), tile × 2 + pair, module, 0 inlet and 1 outlet. -/
structure UnitId where
  kind : BitVec 4
  idx : Nat
  deriving DecidableEq, Repr

/-- A defect as a test or the operator reports it (Table 15-9a without SEQ and LIFE). -/
structure Found where
  kind : Byte
  cause : Byte
  source : Byte
  loc : W64
  detail : W64
  deriving DecidableEq, Repr

/-- A capability record and the site that sent it (Table 15-6); `site` counts dies of one KIND. -/
structure CapRec where
  kind : Byte
  site : Nat
  rev : Byte
  passed : Bool
  level : Byte
  caps : W64
  serial : W128
  deriving DecidableEq, Repr

/-- What a start measures outside the digital state: straps, PUFs that give the seed, flashes that read, inlet in °C, flow in
0.1 L/min, records and test results, duration in tenths of a second
(R337, R382, R379, R445, R391, R392, Table 15-9). -/
structure StartReport where
  pm : BitVec 2
  hpsel : Bool
  pufA : Bool
  pufB : Bool
  flashA : Bool
  flashB : Bool
  inlet : Nat
  flow : Nat
  records : List CapRec
  found : List Found
  tenths : W32
  deriving DecidableEq, Repr

/-- Results of the short tests of a recovery (R411): sites that failed and dies whose link end failed. -/
structure TestReport where
  sites : List (Nat × Nat)
  linkDies : List Nat
  deriving DecidableEq, Repr

/-- Why a halt was raised (R53, Table 16-1), with the unit that raised it; `member` is another panel of the linked partition, whose
HALT has come up or down the tree. -/
inductive HaltSrc where
  | core (k : Fin 39168)
  | hub (d : Fin 144)
  | tempoLink (d : Fin 144)
  | quarantine (d : Fin 144) (other : Fin 144)
  | region (r : Fin 1152)
  | breaker (d : Fin 144)
  | thermal (r : Fin 1152)
  | tile (t : Fin 12)
  | tileDark (t : Fin 12)
  | stackTrip (s : Fin 48)
  | stackLost (s : Fin 48)
  | power
  | parity (k : Fin 39168)
  | stalemate
  | exhausted
  | unreachable
  | member
  | host
  deriving DecidableEq, Repr

/-- What a training state machine trained (R391). -/
inductive TrainUnit where
  | link (l : LinkEnd)
  | stack (s : Fin 48)
  deriving DecidableEq, Repr

/-- Where an SPDM request came from (R384, R446): the path (0 DOE, 1 to 3 the I3C buses, 4 PCIe VDM), and the session it is in,
if any. -/
structure SpdmCtx where
  path : Nat
  session : Option Nat
  deriving DecidableEq, Repr

/-- The commands of the block: one constructor per row of the table of operations and events, in the table's order. -/
inductive Instr where
  | nop (w : Issue) (slot : Slot)
  | trap (w : Issue) (slot : Slot)
  | alu (w : Issue) (f : CR)
  | addi (w : Issue) (f : CI)
  | andi (w : Issue) (f : CI)
  | ori (w : Issue) (f : CI)
  | xori (w : Issue) (f : CI)
  | slli (w : Issue) (f : CI)
  | srli (w : Issue) (f : CI)
  | srai (w : Issue) (f : CI)
  | clti (w : Issue) (f : CI)
  | li (w : Issue) (f : CU)
  | insh1 (w : Issue) (f : CU)
  | insh2 (w : Issue) (f : CU)
  | insh3 (w : Issue) (f : CU)
  | ld (w : Issue) (f : CI)
  | lws (w : Issue) (f : CI)
  | lwz (w : Issue) (f : CI)
  | st (w : Issue) (f : CS)
  | sw (w : Issue) (f : CS)
  | brcEq (w : Issue) (f : CB)
  | brcNe (w : Issue) (f : CB)
  | brcLt (w : Issue) (f : CB)
  | brcGe (w : Issue) (f : CB)
  | brcLtu (w : Issue) (f : CB)
  | brcGeu (w : Issue) (f : CB)
  | j (w : Issue) (f : CJ)
  | jr (w : Issue) (f : CR)
  | loop (w : Issue) (f : CO)
  | pcmp (w : Issue) (f : CP)
  | plog (w : Issue) (f : CL)
  | pset (w : Issue) (f : CL)
  | pget (w : Issue) (f : CL)
  | csrr (w : Issue) (f : CC)
  | csrw (w : Issue) (f : CC)
  | agld (w : Issue) (f : CA)
  | agrst (w : Issue) (f : CA)
  | agbase (w : Issue) (f : CA)
  | agpos (w : Issue) (f : CA)
  | loadhint (w : Issue) (f : CH)
  | vadd (w : Issue) (f : VR)
  | vsub (w : Issue) (f : VR)
  | vmul (w : Issue) (f : VR)
  | vfma (w : Issue) (f : VR)
  | vfms (w : Issue) (f : VR)
  | vmax (w : Issue) (f : VR)
  | vmin (w : Issue) (f : VR)
  | vabs (w : Issue) (f : VR)
  | vneg (w : Issue) (f : VR)
  | vand (w : Issue) (f : VR)
  | vor (w : Issue) (f : VR)
  | vxor (w : Issue) (f : VR)
  | vexp (w : Issue) (f : VR)
  | vlog (w : Issue) (f : VR)
  | vrcp (w : Issue) (f : VR)
  | vrsqrt (w : Issue) (f : VR)
  | vrowstat (w : Issue) (f : VR)
  | vcmp (w : Issue) (f : VC)
  | vmov (w : Issue) (f : VR)
  | vbcast (w : Issue) (f : VX)
  | vext (w : Issue) (f : VX)
  | vcvt (w : Issue) (f : VV)
  | vld (w : Issue) (f : VM)
  | vst (w : Issue) (f : VM)
  | smerge (w : Issue) (f : VS)
  | sprobe (w : Issue) (f : VS)
  | scompact (w : Issue) (f : VS)
  | ssort (w : Issue) (f : VS)
  | setEngineDone (core : Fin 39168)
  | mmul (w : Issue) (f : MM)
  | mload (w : Issue) (f : ML)
  | mouter (w : Issue) (f : MO)
  | mdrain (w : Issue) (f : MD)
  | mcfg (w : Issue) (f : MW)
  | feedQueueLeave (core : Fin 39168)
  | mcfgZeroing (core : Fin 39168)
  | xply (w : Issue) (f : XP)
  | cpy (w : Issue) (f : XC)
  | cwait (w : Issue) (f : XC)
  | crd (w : Issue) (f : XC)
  | bclm (w : Issue) (f : XP)
  | arr (w : Issue) (f : XT)
  | wrel (w : Issue) (f : XT)
  | rres (w : Issue) (f : XT)
  | rflg (w : Issue) (f : XT)
  | halt (w : Issue) (f : XH)
  | xfence (w : Issue) (f : XH)
  | endp (w : Issue) (f : XT)
  | patrolScrubber (core : Fin 39168) (bank : BitVec 4)
  | scratchpadWriteBack (core : Fin 39168)
  | copyStart (core : Fin 39168) (rivals : List Rival)
  | transferSend (core : Fin 39168) (dir : Dir)
  | transferReceive (core : Fin 39168) (dir : Dir) (data : BitVec 256) (parity : BitVec 4) (rivals : List Rival)
  | deliveryAcknowledgement (core : Fin 39168) (dir : Dir)
  | dataFlit (l : LinkEnd) (flit : BitVec 288)
  | idleFlit (l : LinkEnd) (flit : BitVec 288)
  | ackFlit (l : LinkEnd) (flit : BitVec 288)
  | nakFlit (l : LinkEnd) (flit : BitVec 288)
  | quarantine (l : LinkEnd)
  | beat (d : Fin 144) (rank : Fin 16) (b : Beat) (rivals : List Rival)
  | arrive (hub : TNode) (child : TNode) (m : TempoMsg)
  | release (node : TNode) (m : TempoMsg)
  | releaseInstant (node : TNode) (part : Fin 16) (group : BitVec 6)
  | tempoHalt (part : Fin 16) (kind : HaltKind) (src : HaltSrc) (tests : TestReport)
  | tempoAck (node : TNode) (peer : TNode) (m : TempoMsg)
  | tempoResend (node : TNode) (peer : TNode) (seq : BitVec 16) (group : BitVec 6)
  | echoReq (node : TNode) (parent : TNode) (m : TempoMsg)
  | echoRsp (node : TNode) (child : TNode) (m : TempoMsg) (now : W64)
  | cal (node : TNode) (m : TempoMsg)
  | reMeasurement (node : TNode) (child : TNode) (port : Bool) (now : W64)
  | stalemateDetector (wait : Waited)
  | censusReq (d : Fin 144) (part : Fin 16)
  | censusRsp (part : Fin 16) (d : DieRef) (group : BitVec 6) (heat : Bool) (bits : BitVec 256)
  | censusAbsent (part : Fin 16) (d : DieRef)
  | tpoPhaltAbort (part : Fin 16)
  | tpoPhaltStop (part : Fin 16)
  | recal
  | tpoPmoveLo (part : Fin 16)
  | tpoPresultLo (part : Fin 16)
  | coreFmoveLo (core : Fin 39168)
  | memSerrLo (s : Fin 48)
  | mgtPmoveLo (part : Fin 16)
  | read (p : Packet)
  | write (p : Packet)
  | atomic (p : Packet)
  | readRsp (p : Packet)
  | ack (p : Packet)
  | errRsp (p : Packet)
  | e2eAck (p : Packet)
  | e2eAckInterval (panel : Fin 4096) (cls : BitVec 2)
  | openStream (p : Packet)
  | openRsp (p : Packet)
  | stale (p : Packet)
  | mgt (p : Packet)
  | storePut (p : Packet)
  | storeGet (p : Packet)
  | storeCtlOpen (p : Packet)
  | storeCtlCommit (p : Packet)
  | storeCtlDrop (p : Packet)
  | storeCtlQuery (p : Packet)
  | tempoSlot (port : Fin 32) (slot : BitVec 288) (rx : SlotRx)
  | fabricLinkFailed (l : LinkEnd)
  | retraining (l : LinkEnd)
  | retrainComplete (l : LinkEnd) (lanes : Nat)
  | noLight (port : Fin 32)
  | handoverRequest (a : Fin 12) (b : Fin 12)
  | handoverReply (a : Fin 12) (b : Fin 12) (ackseq : W32)
  | requestTimeout (core : Fin 39168) (tag : BitVec 16)
  | escapeWait (port : Fin 32) (p : Packet)
  | e2eTimeout (panel : Fin 4096) (cls : BitVec 2)
  | trainingComplete (u : TrainUnit) (ok : Bool) (peer : BitVec 13) (lanes : Nat)
  | refresh (s : Fin 48) (pc : Fin 64) (bank : Nat)
  | stackPatrol (s : Fin 48)
  | unitWriteBack (s : Fin 48)
  | stackLost (s : Fin 48)
  | capturePageRead (slice : Fin 3072)
  | jobStart (s : Fin 48)
  | jobComplete (s : Fin 48)
  | doorbellPoll (stores : List HostStore)
  | hifWake (value : W32)
  | postCompletion (ring : Fin 1024)
  | postEvent
  | commandNop (r : Ref)
  | copyIn (r : Ref) (ans : HostAns)
  | copyOut (r : Ref) (ans : HostAns)
  | loadProgram (r : Ref)
  | launch (r : Ref)
  | waitMove (r : Ref)
  | position (r : Ref)
  | restore (r : Ref)
  | fence (r : Ref)
  | castle (r : Ref)
  | queryPartition (r : Ref)
  | queryPanel (r : Ref)
  | signal (r : Ref)
  | ringCreate (r : Ref)
  | ringDelete (r : Ref)
  | partitionSet (r : Ref)
  | licenseInstall (r : Ref)
  | licenseList (r : Ref)
  | licenseRemove (r : Ref)
  | fwStage (r : Ref)
  | fwActivateWarm (r : Ref)
  | fwActivateLive (r : Ref)
  | fwActivateCommit (r : Ref)
  | fwActivateRevert (r : Ref)
  | defectQuery (r : Ref)
  | defectQueryAdd (r : Ref)
  | defectQueryExtended (r : Ref)
  | gambitArm (r : Ref)
  | gambitList (r : Ref)
  | gambitCancel (r : Ref)
  | gambitDuration (id : W32)
  | resumeContinue (r : Ref)
  | resumeFlush (r : Ref)
  | trustQueryChain (r : Ref)
  | trustQueryMeasurements (r : Ref)
  | trustQueryQuote (r : Ref)
  | trustQueryCounters (r : Ref)
  | bar2Read (off : Nat) (len : Nat)
  | bar2Write (off : Nat) (bytes : List Byte)
  | enPassantHeaderRead (ring : Fin 64)
  | hifCtlEnable
  | hifCtlDisable
  | sylRoute (panel : Fin 4096) (value : W32)
  | mgtBuddy (value : W32)
  | mgtRst (value : W32) (rep : StartReport)
  | registerWrite (off : BitVec 26) (value : W32)
  | linkDown
  | failover
  | hcxPerst (port : Bool)
  | flr
  | feedLost (feed : Bool) (cause : Byte)
  | feedRestored (feed : Bool)
  | converterFailed (m : Fin 96)
  | dieBreaker (d : Fin 144)
  | spineRegulatorTrip (d : Fin 144)
  | phaseCheck (r : Fin 1152) (phase : Fin 8) (amps : List Nat)
  | suspectBond (r : Fin 1152) (mv : BitVec 16)
  | hintArrival (core : Fin 39168)
  | levelChange (core : Fin 39168)
  | droopStretching (r : Option (Fin 1152)) (d : Fin 144)
  | stretchEnd (r : Option (Fin 1152)) (d : Fin 144)
  | powerTrip (r : Fin 1152)
  | regionShort (r : Fin 1152)
  | inputPowerSample (now : BitVec 16) (avg : BitVec 16) (over10ms : Bool) (over100us : Bool) (below1s : Bool)
  | regionPowerOn (r : Fin 1152)
  | admissionCheck (r : Fin 1152)
  | deferredPowerOn (r : Fin 1152)
  | softStartDone (r : Fin 1152)
  | vmidOvervoltage
  | vmidUndervoltage
  | sensorSample (kind : BitVec 4) (idx : Nat) (reading : Int) (flow : Nat) (dtUs : Nat)
  | fluidTrip
  | fluidLimitEnd
  | sensorFlagged (u : UnitId)
  | sensorLost (u : UnitId)
  | levelExit (u : UnitId)
  | thermalCap (r : Fin 1152)
  | routerCap (d : Fin 144) (dir : Dir)
  | restPowerOn (r : Fin 1152)
  | converterRestart (m : Fin 96)
  | coldStart (rep : StartReport)
  | takeover
  | mrst
  | tapInstruction (ir : Nat)
  | getVersion (c : SpdmCtx)
  | getCapabilities (c : SpdmCtx)
  | negotiateAlgorithms (c : SpdmCtx) (algs : List Nat)
  | getDigests (c : SpdmCtx)
  | getCertificate (c : SpdmCtx) (slot : Nat) (off : Nat) (len : Nat)
  | challenge (c : SpdmCtx) (slot : Nat) (nonce : List Byte)
  | getMeasurements (c : SpdmCtx) (index : Nat)
  | keyExchange (c : SpdmCtx) (id : Nat)
  | finish (c : SpdmCtx) (macOk : Bool)
  | keyUpdate (c : SpdmCtx)
  | heartbeat (c : SpdmCtx)
  | endSession (c : SpdmCtx)
  | setCertificate (c : SpdmCtx) (slot : Nat) (chain : List Byte)
  | requestUpdate
  | activateFirmware
  | copyCompletion (core : Fin 39168)
  | controlFlitInterval (l : LinkEnd)
  | hostLinkUp (port : Bool)
  | waitMoveTimeout (r : Ref)
  | commandFinishes (r : Ref)
  | tapActiveTimeout
  | vendorWarmResetRequest (c : SpdmCtx) (rep : StartReport)
  | eventReceiverRegistration
  | entdaa (bus : Fin 3) (addr : BitVec 7)
  | endpointIdAssignment (binding : Fin 4) (eid : Byte)
  | ideKeySetUp (c : SpdmCtx) (stream : Fin 5) (key : BitVec 256)
  | pldmComponentTransfer (obj : List Byte)
  deriving DecidableEq, Repr

end Sys2Proof
end

