-- ==== Sys2Proof/Decode.lean ====
section
/-! DEFINITION. The command that a word of the opcode table spells. No row of the table gives bits (the block takes
commands, it decodes no instruction words of its own at this interface), so no word spells a command (DESIGN CHOICE, log entry 1). The
words of slots, flits and packets are decoded where the manual decodes them: Machine/Slots.lean, Machine/Packets.lean. -/
namespace Sys2Proof

/-- The command of a word of `nbits` bits: none, for every word. -/
def decodeTableWord (_nbits _w : Nat) : Option Instr := none

end Sys2Proof
end

