-- ==== Sys2Proof/Config.lean ====
section
/-! DEFINITION. What the manual leaves to the part or to standards outside it: free values and uninterpreted
functions. None has a body, so no proof can rest on a value of one. -/
namespace Sys2Proof

/-- Cycles a presented bundle takes beyond one (Table 3-2, R68, R75, R86): timing is left out, so the number is free.
The argument is the State's free-value counter (DESIGN CHOICE, log entry 5). -/
opaque Config.stall : Nat → W64

/-- A byte that the manual leaves undefined, drawn at the State's free-value counter and an index
(R174: the bytes that two runs of one copy both write; DESIGN CHOICE, log entry 4). -/
opaque Config.freeByte : Nat → Nat → Byte

/-- The internal hash of a base die (R248): bank and row of a 64-byte unit of a slice; timing only.
(DESIGN CHOICE, log entry 39.) -/
opaque Config.hbmBank : Nat → Nat
opaque Config.hbmRow : Nat → Nat

/-- Refresh-management threshold of a stack's mode registers (R262). -/
opaque Config.rfmThreshold : Nat → Nat

/-- Does the code of a unit detect that more than 5 of its symbols, by number, are wrong (R257 promises it up to 5)? Where it does not, it
takes them for another codeword (DESIGN CHOICE, log entry 111). -/
opaque Config.rsDetects : List Nat → Bool

/-- Elements that a near-memory job has done by the time it is next looked at: how far a job has come is timing (R244; DESIGN CHOICE, log
entry 112). -/
opaque Config.jobPace : Nat → Nat

/-- Does an uncorrectable error occur while a program is written into the instruction stores (R106), by free-value counter? The manual
does not say when one occurs (DESIGN CHOICE, log entry 109). -/
opaque Config.writeFails : Nat → Bool

/-- System-link levels below the root of a linked partition, by tree ID, but for two bits: a partition record names a panel's
children, not theirs (R42, Table 2-6; DESIGN CHOICE, log entry 81). -/
opaque Config.treeLevels : Nat → Nat

/-- Has a group of the linked partition with a tree ID members in the subtree of a child panel; has it members outside the subtree
of a panel? Each panel's image names the groups of its own cores alone (R34, R42, R101; DESIGN CHOICE, log entry 45). -/
opaque Config.groupBelow : Nat → Nat → Nat → Bool
opaque Config.groupAbove : Nat → Nat → Nat → Bool

/-- Have the dies of a child panel's subtree all reported idle for a move (R91)? The reports reach the root outside the tempo
messages (DESIGN CHOICE, log entry 45). -/
opaque Config.panelEnded : Nat → Nat → Nat → Bool

/-- Has a child panel of a linked partition signalled that its subtree's cores are ready for a launch (R32), by tree, panel and
free-value counter? (DESIGN CHOICE, log entry 45.) -/
opaque Config.panelReady : Nat → Nat → Nat → Bool

/-- The upper half of the 128-bit partial that a tempo slot's ARRIVE stands for (R38, Table 2-3; DESIGN CHOICE, log entry 97). -/
opaque Config.partialHigh : BitVec 288 → W64

/-- The seed of a linked partition's launch at a member panel: how it comes there from the root is not stated (R145, R308;
DESIGN CHOICE, log entry 45). -/
opaque Config.memberSeed : Nat → Nat → W64

/-- SHA-384 (R377, R385, R402): fixed by a standard outside the manual (DESIGN CHOICE, log entry 6). -/
opaque Config.sha384 : List Byte → BitVec 384

/-- ECDSA on brainpoolP384r1 over SHA-384: does the 96-byte signature of a digest verify under a 97-byte public key
(R377; DESIGN CHOICE, log entry 6)? -/
opaque Config.ecdsaVerify : List Byte → BitVec 384 → List Byte → Bool

/-- The security block's signature with the identity key over a digest (R381, R402; DESIGN CHOICE, log entry 6). -/
opaque Config.identitySign : BitVec 384 → List Byte

/-- The identity public key, 97 bytes, that the security block derives from the seed (R381; DESIGN CHOICE, log entry 6). -/
opaque Config.identityKey : List Byte

/-- The digest of the root public key in the mask boot ROM (R377; DESIGN CHOICE, log entry 6). -/
opaque Config.romRootDigest : BitVec 384

/-- The digest of the mask boot ROM, measurement 1 of Table 15-4 (R385; DESIGN CHOICE, log entry 6). -/
opaque Config.romDigest : BitVec 384

/-- The certificate chain of SPDM slot 0 in DER form (R383; DESIGN CHOICE, log entry 6). -/
opaque Config.chain0 : List Byte

/-- A number that the manual leaves open, drawn at the State's free-value counter and an index: an island's frequency within
its caps, a cap that keeps a plane within its limit (R66, Table 13-2; DESIGN CHOICE, log entry 4). -/
opaque Config.freeNat : Nat → Nat → Nat

/-- What another panel's memory answers a read of a byte with, by free-value counter, panel and address: another panel is
outside the model (DESIGN CHOICE, log entry 24). -/
opaque Config.remoteByte : Nat → Nat → Nat → Byte

/-- How a reading below 0 °C or above 254 °C reads in the byte of a temperature register: the manual gives the byte for 0 °C to
254 °C and 0xFF for a discarded reading only (Tables 10-10, 14-6; DESIGN CHOICE, log entry 18). -/
opaque Config.coldByte : Int → Nat

/-- The public key and the mask of TYPE families that the body of a key certificate or of the root object carries
(R377): the manual gives their sizes, not their places (DESIGN CHOICE, log entry 6). -/
opaque Config.certKey : List Byte → List Byte
opaque Config.certMask : List Byte → W64

/-- What the body of the panel manifest says (R392), its layout being left open: the digest of the serial number at a site of
a KIND, the REQUIRED mask, and whether a list of revisions (KIND, revision) is an allowed pairing (DESIGN CHOICE, log entry 6). -/
opaque Config.manifestSerial : List Byte → Byte → Nat → BitVec 384
opaque Config.manifestRequired : List Byte → W64
opaque Config.manifestPairs : List Byte → List (Byte × Byte) → Bool

/-- Does the manifest list a firmware object for the revisions present (Table 15-13, 0x07; DESIGN CHOICE, log entry 6)? -/
opaque Config.firmwareAllowed : List Byte → List Byte → Bool

/-- The DMTF measurement block of an index and its value (R385), and the list of parts on another image of index 12, whose
encodings standards outside the manual fix (DESIGN CHOICE, log entry 6). -/
opaque Config.measureBlock : Nat → List Byte → List Byte
opaque Config.partList : List (Nat × Nat × BitVec 384) → List Byte

/-- The body of an SPDM response, whose encoding DMTF fixes outside the manual, by request code and the values it carries
(R384; DESIGN CHOICE, log entry 6). -/
opaque Config.spdmBody : Nat → List (List Byte) → List Byte

/-- The body of a PLDM Firmware Update response, whose codes DSP0267 fixes outside the manual: 0 success, 1
RETRY_REQUEST_UPDATE, 2 another refusal (R448; DESIGN CHOICE, log entry 6). -/
opaque Config.pldmBody : Nat → List Byte

/-- The leaf key of a certificate chain in DER form (R383; DESIGN CHOICE, log entry 6). -/
opaque Config.chainKey : List Byte → List Byte

/-- I/O die stepping and Karelle's JEDEC identity in the TAP's IDCODE (R441). -/
opaque Config.ioStepping : BitVec 4
opaque Config.jedecId : BitVec 11

end Sys2Proof
end

