-- ==== Sys2Proof/Machine/Bits.lean ====
section
/-! DEFINITION. Bit fields, sign extension, byte order and small list helpers shared by every unit (R5, R6, R8). -/
namespace Sys2Proof.Machine

/-- Little-endian value of a byte string (R8). -/
def leNat : List Byte → Nat
  | [] => 0
  | b :: bs => b.toNat + 256 * leNat bs

/-- The n little-endian bytes of a value (R8). -/
def leBytes : Nat → Nat → List Byte
  | 0, _ => []
  | n + 1, v => BitVec.ofNat 8 v :: leBytes n (v / 256)

/-- Bits [lo + len − 1 : lo] of a natural number. -/
def field (v lo len : Nat) : Nat := (v / 2 ^ lo) % 2 ^ len

/-- Bit i of a natural number. -/
def bit (v i : Nat) : Bool := (v / 2 ^ i) % 2 == 1

/-- One bit of a value as a number. -/
def bitN (b : Bool) : Nat := if b then 1 else 0

/-- Signed value of the low w bits of a natural number. -/
def sgn (w v : Nat) : Int :=
  let u := v % 2 ^ w
  if w ≠ 0 ∧ 2 ^ (w - 1) ≤ u then (u : Int) - (2 ^ w : Nat) else u

/-- Two's complement of an integer in w bits, as a natural number. -/
def wrapN (w : Nat) (i : Int) : Nat := (i % (2 ^ w : Nat)).toNat

/-- n bytes of a byte string from an offset; missing bytes read as zero. -/
def bytesAt (bs : List Byte) (off n : Nat) : List Byte :=
  let l := (bs.drop off).take n
  l ++ List.replicate (n - l.length) 0

/-- Little-endian value of n bytes at an offset of a byte string. -/
def leAt (bs : List Byte) (off n : Nat) : Nat := leNat ((bs.drop off).take n)

/-- The bits of a mask, as a number, from a list of Booleans, bit 0 first. -/
def maskOf : List Bool → Nat
  | [] => 0
  | b :: bs => bitN b + 2 * maskOf bs

/-- Clamp a number into a range. -/
def clampN (lo hi v : Nat) : Nat := max lo (min hi v)

/-- Is a natural number a multiple of another? -/
def mult (v k : Nat) : Bool := v % k == 0

/-- Saturating count (R130, R182, R212). -/
def satAdd (w v k : Nat) : Nat := min (2 ^ w - 1) (v + k)

/-- Do two byte ranges share a byte? -/
def overlaps (a la b lb : Nat) : Bool := decide (a < b + lb) && decide (b < a + la) && decide (0 < la) && decide (0 < lb)

/-- Every element differs from every other. -/
def noDup {α : Type} [DecidableEq α] : List α → Bool
  | [] => true
  | a :: l => !l.contains a && noDup l

/-- Insert a value into a list of values without repeats, at its end. -/
def addNew {α : Type} [DecidableEq α] (a : α) (l : List α) : List α := if l.contains a then l else l ++ [a]

/-- Elements that occur in the first list and not in the second. -/
def minus {α : Type} [DecidableEq α] (l k : List α) : List α := l.filter (fun a => !k.contains a)

end Sys2Proof.Machine
end

