-- ==== Sys2Proof/Machine/RegMap.lean ====
section
/-! DEFINITION. The register map of BAR0 (17_ratings_connections_registers.md Tables 17-8 and 17-9) and the reset values
of the register tables. A register that is not a view of other state is held by its offset. -/
namespace Sys2Proof.Machine

namespace Reg
def hifId : Nat := 0x0000000
def hifCtl : Nat := 0x0000004
def hifStatus : Nat := 0x0000008
def asqLo : Nat := 0x0000010
def acqLo : Nat := 0x0000018
def acfg : Nat := 0x0000020
def dbp0Lo : Nat := 0x0000028
def dbp1Lo : Nat := 0x0000030
def evqLo : Nat := 0x0000038
def evcfg : Nat := 0x0000040
def evhdLo : Nat := 0x0000044
def evhdHi : Nat := 0x0000048
def apctl : Nat := 0x0000050
def aperr : Nat := 0x0000054
def dmember (i : Nat) : Nat := 0x0000100 + i * 4
def rhalt (w : Nat) : Nat := 0x0000200 + w * 4
def msix : Nat := 0x0010000
def msixPba : Nat := 0x0018000
def calCtl : Nat := 0x0100000
def calStatus : Nat := 0x0100004
def alignLost : Nat := 0x0100008
def tpo (p off : Nat) : Nat := 0x0101000 + p * 0x100 + off
def pmoveLo (p : Nat) : Nat := tpo p 0x00
def pmoveHi (p : Nat) : Nat := tpo p 0x04
def pstale (p : Nat) : Nat := tpo p 0x08
def pstatus (p : Nat) : Nat := tpo p 0x0C
def phalt (p : Nat) : Nat := tpo p 0x10
def phold (p : Nat) : Nat := tpo p 0x14
def presultLo (p : Nat) : Nat := tpo p 0x18
def presultHi (p : Nat) : Nat := tpo p 0x1C
def mshCfg : Nat := 0x0200000
def mshQuar : Nat := 0x0200004
def pkfCfg : Nat := 0x0300000
def pkfCong : Nat := 0x0300004
def pkfE2e : Nat := 0x0300008
def pkfErr : Nat := 0x030000C
def plink (t u : Nat) : Nat := 0x0300400 + (12 * t + u) * 4
def sylPanelId : Nat := 0x0400000
def sylLead : Nat := 0x0400004
def sylResend : Nat := 0x0400010
def sylDupdrop : Nat := 0x0400014
def sylMarks : Nat := 0x0400018
def sylUnreach : Nat := 0x040001C
def sylPort (p : Nat) : Nat := 0x0400100 + p * 0x10
def sylPortCfg (p : Nat) : Nat := sylPort p + 0x4
def sylPcrc (p : Nat) : Nat := sylPort p + 0x8
def sylPreplay (p : Nat) : Nat := sylPort p + 0xC
def sylRoute (q : Nat) : Nat := 0x0404000 + q * 4
def mem (s off : Nat) : Nat := 0x0500000 + s * 0x40 + off
def sstat (s : Nat) : Nat := mem s 0x00
def stemp (s : Nat) : Nat := mem s 0x04
def sce (s : Nat) : Nat := mem s 0x08
def sue (s : Nat) : Nat := mem s 0x0C
def serrLo (s : Nat) : Nat := mem s 0x10
def serrHi (s : Nat) : Nat := mem s 0x14
def srfm (s : Nat) : Nat := mem s 0x18
def dtemp (s w : Nat) : Nat := 0x0501000 + s * 0x20 + w * 4
def pspread (p : Nat) : Nat := 0x0502000 + p * 0x10
def pcap (p : Nat) : Nat := 0x0502000 + p * 0x10 + 4
def pheld (p : Nat) : Nat := 0x0502000 + p * 0x10 + 8
def memCfg : Nat := 0x0503000
def nmjob (s : Nat) : Nat := 0x0504000 + s * 0x40
def nmerr : Nat := 0x0504C00
def nmdone : Nat := 0x0504C04
def nmqmax : Nat := 0x0504C08
def grant (s : Nat) : Nat := 0x0508000 + s * 4
def dirty (s w : Nat) : Nat := 0x05C0000 + s * 0x40 + w * 4
def pwrStatus : Nat := 0x0600000
def feedA : Nat := 0x0600004
def feedB : Nat := 0x0600008
def plim : Nat := 0x060000C
def pin : Nat := 0x0600010
def pwrCm (m : Nat) : Nat := 0x0600100 + m * 4
def pwrTile (t : Nat) : Nat := 0x0600300 + t * 4
def thmCfg : Nat := 0x0700000
def thmFluid : Nat := 0x0700004
def thmStatus : Nat := 0x0700008
def thmTile (t : Nat) : Nat := 0x0700100 + t * 4
def thmCm (m : Nat) : Nat := 0x0700200 + m * 4
def cpair (p e : Nat) : Nat := 0x0701000 + p * 0x40 + e * 4
def mgtState : Nat := 0x0800000
def mgtRst : Nat := 0x0800004
def mgtLife : Nat := 0x0800008
def buddy : Nat := 0x0800010
def pstore : Nat := 0x0800014
def gcfg : Nat := 0x0800018
def rcnt : Nat := 0x080001C
def mgt (p off : Nat) : Nat := 0x0801000 + p * 0x20 + off
def pcfg (p : Nat) : Nat := mgt p 0x00
def pgen (p : Nat) : Nat := mgt p 0x04
def mgtPmoveLo (p : Nat) : Nat := mgt p 0x08
def mgtPmoveHi (p : Nat) : Nat := mgt p 0x0C
def pstat (p : Nat) : Nat := mgt p 0x10
def plost (p : Nat) : Nat := mgt p 0x14
def puseful (p : Nat) : Nat := mgt p 0x18
def pwall (p : Nat) : Nat := mgt p 0x1C
def secStatus : Nat := 0x0900000
def svn (i : Nat) : Nat := 0x0900100 + i * 4
def lfeat : Nat := 0x0A00000
def lports : Nat := 0x0A00004
def llim : Nat := 0x0A00008
def capsLo : Nat := 0x0A00010
def capsHi : Nat := 0x0A00014
def defect : Nat := 0x0A00018
def dhole (n : Nat) : Nat := 0x0A00100 + n * 4
def pctx (p : Nat) : Nat := 0x0A01000 + p * 4
def dbgStatus : Nat := 0x0F00000
def dbgIdcode : Nat := 0x0F00004
def die (d off : Nat) : Nat := 0x1000000 + d * 0x40000 + off
def dieId (d : Nat) : Nat := die d 0x0
def dieCapLo (d : Nat) : Nat := die d 0x4
def dieCapHi (d : Nat) : Nat := die d 0x8
def chole (d n : Nat) : Nat := die d (0x100 + n * 4)
/-- MSH_DLINK by direction, N 0 to W 3. -/
def dlink (d i : Nat) : Nat := die d (0x1000 + i * 4)
def crcerr (d : Nat) : Nat := die d 0x1010
def replay (d : Nat) : Nat := die d 0x1014
def parerr (d : Nat) : Nat := die d 0x1018
/-- PKF_ER by direction. -/
def er (d i : Nat) : Nat := die d (0x2000 + i * 4)
def pwrDie (d : Nat) : Nat := die d 0x3000
def pwrReg (r : Nat) : Nat := die (r / 8) (0x3010 + (r % 8) * 4)
def pwrRstat (r : Nat) : Nat := die (r / 8) (0x3030 + (r % 8) * 4)
def thmReg (d n : Nat) : Nat := die d (0x4000 + n * 4)
def thmEr (d : Nat) : Nat := die d 0x4008
def dlevel (d : Nat) : Nat := die d 0x400C
def dflag (d : Nat) : Nat := die d 0x4010
/-- A core block register. -/
def core (k off : Nat) : Nat := die (k / 272) (0x20000 + (k % 272) * 0x100 + off)
end Reg

/-- Value of a register that no write has changed: the reset column of the register tables; zero where they give a zero
or no value (DESIGN CHOICE, log entry 3). An MSI-X vector is masked after reset, as the PCIe specification has it.
(PRESUMED, log entry 56.) -/
def regReset (off : Nat) : W32 :=
  if 0x1000000 ≤ off then
    let o := (off - 0x1000000) % 0x40000
    if 0x100 ≤ o ∧ o < 0x110 then 0x10101010
    else if 0x1000 ≤ o ∧ o < 0x1010 then 0x55555555
    else if 0x2000 ≤ o ∧ o < 0x2010 then 0x000007D0
    else if o = 0x3000 then 0x00B40000
    else if 0x3010 ≤ o ∧ o < 0x3030 then 0x08000CE4
    else 0
  else if off = Reg.hifId then 0x01280001
  else if off = Reg.acfg then 0xFFFF0004
  else if off = Reg.evcfg then 0xFFFF0008
  else if Reg.msix ≤ off ∧ off < Reg.msixPba ∧ off % 16 = 12 then 1
  else if off = Reg.calCtl then 0x000A00C8
  else if 0x0101000 ≤ off ∧ off < 0x0102000 then
    if off % 0x100 = 0x08 then 0x64 else if off % 0x100 = 0x0C then 0x03000000 else 0
  else if off = Reg.mshCfg then 0x00100014
  else if off = Reg.pkfCfg then 0x00641014
  else if off = Reg.pkfCong then 0x00401004
  else if off = Reg.pkfE2e then 0x10400014
  else if 0x0300400 ≤ off ∧ off < 0x0300640 then 0x0000FF80
  else if 0x0400100 ≤ off ∧ off < 0x0400300 ∧ off % 0x10 = 4 then 0x80000000
  else if off = Reg.memCfg then 0x00180010
  else if off = Reg.plim then 0x00005208
  else if 0x0600300 ≤ off ∧ off < 0x0600330 then 0x8000050C
  else if off = Reg.thmCfg then 0xC0000000
  else if 0x0801000 ≤ off ∧ off < 0x0801200 ∧ off % 0x20 = 0 then 0x80000FA0
  else if off = Reg.dhole 0 ∨ off = Reg.dhole 1 then 0x88888888
  else 0

end Sys2Proof.Machine
end

