-- ==== Sys2Proof/Machine/CoreState.lean ====
section
/-! DEFINITION. The state of one core site and of a loaded program, as plain data. Replicated units are sparse maps (an
unlisted unit holds its reset record); memories are sparse byte maps. -/
namespace Sys2Proof.Machine

/-- A finite map in canonical form: keys rising, no entry equal to what an unlisted key reads as. -/
abbrev SMap (α : Type) := List (Nat × α)

/-- A byte memory: addresses strictly rising, no zero byte listed (DESIGN CHOICE, log entry 2: an unlisted byte reads as zero). -/
abbrev Mem := List Host.Cell

/-! ### The core (03_core.md to 07, 09) -/

/-- An exception: code, slot and detail of CORE_FAULT (Tables 3-13 and 3-14). -/
structure Exc where
  code : Byte
  slot : BitVec 4
  detail : BitVec 16
  deriving DecidableEq, Repr

/-- Why the last presented bundle waits (R86). -/
inductive Hold where
  | register | drainBank | cwait | wrel | copies64 | setBusy | mcfg | drainRow | fence | release
  deriving DecidableEq, Repr

/-- An a-register: descriptor, cursor as a step of the odometer, and the steps AGPOS counts (R72, R73). -/
structure AGReg where
  desc : W512
  cur : Nat
  steps : W64
  deriving DecidableEq, Repr

/-- An active hardware loop (R80): first bundle of the body, length, iterations left including the present one. -/
structure LoopRec where
  start : BitVec 13
  len : Nat
  left : Nat
  deriving DecidableEq, Repr

/-- A stationary tile (R107, R110): valid mark, format, tile bytes followed by the scale row of block formats. -/
structure Tile where
  valid : Bool
  fmt : BitVec 4
  bytes : List Byte
  deriving DecidableEq, Repr

/-- A matrix instruction in the feed queue, with the operands it latched at issue (R88, R115). (DEDUCED, log entry 10.) -/
inductive FeedOp where
  | mmul (f : MM) (row : Nat) (stream : List Byte)
  | mload (fmt : BitVec 4) (bytes : List Byte)
  | mouter (fmt : BitVec 4) (z : Bool) (x y : List Byte)
  | mdrain (f : MD) (row : Nat) (seed ctr : W64) (dst : List (Option Nat))
  | mcfg (mode : Bool) (w : BitVec 10)
  deriving DecidableEq, Repr

/-- An entry of the feed queue: the a-registers it holds, the extra read cycles, the banks an MDRAIN writes; `mute` where a later
CSRW has written FFLAGS, which the flags of this entry then no longer reach (R69). -/
structure FeedEntry where
  op : FeedOp
  ags : List (BitVec 4)
  extra : Nat
  banks : List Nat
  mute : Bool
  deriving DecidableEq, Repr

/-- A running set-engine instruction (R230, R231): its registers, the result lanes and the cursor steps of its end. -/
structure SetRun where
  vd : BitVec 5
  adv : List (BitVec 4 × Nat)
  result : W512
  deriving DecidableEq, Repr

/-- Where the data of a copy's request goes or comes from on the core's side: an offset of the own scratchpad, or a hall
address of a copy whose two sides are both remote (R172). -/
inductive Side where
  | spad (off : Nat)
  | hall (addr : Nat)
  deriving DecidableEq, Repr

/-- An outstanding request of a copy: tag, opcode of the request, destination panel, where a read's data goes, its length
in bytes. -/
structure Req where
  tag : BitVec 16
  opc : BitVec 4
  panel : Nat
  dst : Side
  len : Nat
  deriving DecidableEq, Repr

/-- A copy (R173): counter, descriptor address, started, descriptor fields latched at step 2, requests not yet answered,
bytes it moves; `drains` counts the entries of the feed queue up to the last MDRAIN issued before it (R88). -/
structure Copy where
  cn : BitVec 4
  addr : Nat
  started : Bool
  local2 : Bool
  failed : Bool
  id : Nat
  desc : W512
  reqs : List Req
  bytes : Nat
  drains : Nat
  deriving DecidableEq, Repr

/-- A transfer that left a switch input by its branches: the input, and the branches whose acknowledgement is awaited
(R197). -/
structure Route where
  inp : Dir
  wait : List Dir
  deriving DecidableEq, Repr

/-- The link switch and link engines of a site (R190 to R199); maps by direction, N 0, E 1, S 2, W 3: input FIFOs, list
positions, transfers sent and not acknowledged, credits spent, acknowledgements travelling back to an output, transfers on the on-die
wire towards an input. `drains` and `setWait` say which earlier scratchpad writes the output engines still wait for (R196); inputs in `dead`
have met an error and deliver nothing more in the move (R161, R200). -/
structure Switch where
  set : Byte
  active : Bool
  standing : Bool
  xc : BitVec 16
  fifo : SMap (List (BitVec 256))
  outSent : SMap Nat
  inTaken : SMap Nat
  unack : SMap Nat
  spent : SMap Nat
  ackWire : SMap Nat
  wire : SMap (List (BitVec 256))
  dead : List Dir
  routes : List Route
  drains : Nat
  setWait : Bool
  sent : W32
  rcvd : W32
  pass : W32
  deriving DecidableEq, Repr

/-- An arrival the tempo unit holds until R30 lets it go, or has sent: group, operand, END, copies issued before it that
are still to complete. -/
structure Arrival where
  group : Nat
  value : W64
  isEnd : Bool
  seq : Nat
  deriving DecidableEq, Repr

/-- One core site, fenced or not. `istoreCe` and `istoreUe` hold the 64-bit halves of the instruction store with an error: half h of
bundle n is 2n + h (R97). `rx` is the receive buffer of its rank-bus port (R207); `owed` counts the array cycles that extra
reads and zeroing still take beyond the core cycles that have passed (R115, R127); `ueRows` are the rows whose double-bit error has been
reported to the management controller without an exception (R162, R164, R165). -/
structure Core where
  st : BitVec 4
  cls : BitVec 12
  pc : BitVec 13
  x : SMap W64
  p : SMap W64
  v : SMap W512
  a : SMap AGReg
  c : SMap W32
  cycle : W64
  move : MoveNo
  fflags : BitVec 5
  rmode : BitVec 3
  srseed : W64
  srctr : W64
  bankcol : W64
  hintshort : W64
  eccfix : W64
  loops : List LoopRec
  claim : Byte
  arrOut : W64
  arrHeld : List Arrival
  gres : SMap W64
  govf : W64
  xplyDone : Bool
  fresh : Bool
  ended : Bool
  stopReq : Bool
  hold : Option Hold
  excPend : List Exc
  fault : Exc
  fmove : MoveNo
  fmoveHi : BitVec 16
  fflagsReg : BitVec 5
  mhz : BitVec 12
  capped : Bool
  istore : SMap W128
  istoreCe : List Nat
  istoreUe : List Nat
  active : Tile
  shadow : Tile
  acc : SMap Acc
  cell : SMap Acc
  mode : Bool
  w : BitVec 10
  zeroing : Bool
  queue : List FeedEntry
  owed : Nat
  mtxOps : W32
  mtxBubbles : W32
  mtxQmax : BitVec 5
  setRun : Option SetRun
  copies : List Copy
  copySeq : Nat
  copyCause : Byte
  copyBytes : Nat
  nextTag : BitVec 16
  poison : SMap (Option (BitVec 8))
  spadCe : List Nat
  spadUe : List Nat
  spadWb : List Nat
  spdColl : W32
  spdRbwait : W32
  spdEccCount : BitVec 16
  spdEccUe : Bool
  spdEccBank : BitVec 4
  spdEccRow : BitVec 11
  spdScrub : BitVec 16
  scrub : SMap Nat
  sw : Switch
  rx : List Beat
  level : BitVec 4
  hints : List (BitVec 4 × Nat × Bool)
  ueRows : List Nat
  eccHours : List Nat
  parHours : List Nat
  deriving DecidableEq, Repr

/-- The trap bundle (R97). -/
def trapBundle : W128 := 0xFE000000FE000000FE000000FE000000#128

/-- No exception recorded (Table 3-14). -/
def Exc.none : Exc := ⟨0x00, 0xF, 0x0000⟩

/-- An invalid tile. -/
def Tile.empty : Tile := ⟨false, 0, []⟩

/-- A switch after reset. -/
def Switch.reset : Switch :=
  { set := 0, active := false, standing := false, xc := 0, fifo := [], outSent := [], inTaken := [], unack := [],
    spent := [], ackWire := [], wire := [], dead := [], routes := [], drains := 0, setWait := false, sent := 0, rcvd := 0, pass := 0 }

/-- A core after reset: Tables 3-14, 4-10, 6-12 and 7-13 where they state a value, zero elsewhere (DESIGN CHOICE, log entry 3). -/
def Core.reset : Core :=
  { st := 0x0, cls := 0, pc := 0, x := [], p := [], v := [], a := [], c := [], cycle := 0, move := 0, fflags := 0,
    rmode := 0, srseed := 0, srctr := 0, bankcol := 0, hintshort := 0, eccfix := 0, loops := [], claim := 0, arrOut := 0,
    arrHeld := [], gres := [], govf := 0, xplyDone := false, fresh := true, ended := false, stopReq := false,
    hold := Option.none, excPend := [], fault := Exc.none, fmove := 0, fmoveHi := 0, fflagsReg := 0, mhz := 0,
    capped := false, istore := [], istoreCe := [], istoreUe := [], active := Tile.empty,
    shadow := Tile.empty, acc := [], cell := [], mode := false, w := 0, zeroing := false, queue := [], owed := 0, mtxOps := 0,
    mtxBubbles := 0, mtxQmax := 0, setRun := Option.none, copies := [], copySeq := 0, copyCause := 0, copyBytes := 0, nextTag := 0,
    poison := [], spadCe := [], spadUe := [], spadWb := [], spdColl := 0, spdRbwait := 0, spdEccCount := 0,
    spdEccUe := false, spdEccBank := 0, spdEccRow := 0, spdScrub := 0, scrub := [], sw := Switch.reset, rx := [],
    level := 0, hints := [], ueRows := [], eccHours := [], parHours := [] }

/-! ### Programs (R99 to R105, R194) -/

/-- An entry of an exchange list (Table 7-6). -/
structure XEntry where
  zero : Bool
  count : Nat
  stride : Int
  addr : Nat
  deriving DecidableEq, Repr

/-- An exchange-list set (Table 7-5): cross-connect, and the lists of the engines by direction. -/
structure XSet where
  xc : BitVec 16
  out : List (List XEntry)
  inp : List (List XEntry)
  deriving DecidableEq, Repr

/-- An EXCHANGE section (R194). -/
structure Exchange where
  standing : Option Nat
  sets : List XSet
  deriving DecidableEq, Repr

/-- A class of the loaded program (Table 3-18). -/
structure ClassRec where
  bundles : List W128
  entry : BitVec 13
  exch : Option Exchange
  claims : List W64
  resident : List (Nat × Nat)
  data : List (Nat × List Byte)
  groups : W64
  deriving DecidableEq, Repr

/-- A loaded program (R99 to R104). -/
structure Program where
  strict : Bool
  features : W32
  classes : List ClassRec
  cmap : List Nat
  stale : Nat
  ops : List (BitVec 4)
  overlap : BitVec 256
  digest : W32
  size : Nat
  deriving DecidableEq, Repr

end Sys2Proof.Machine
end

