-- ==== Sys2Proof/Machine/State.lean ====
section
/-! DEFINITION. The state of the block as plain data: every register, store, queue, counter, mode and pin the manual
gives the panel, and the queue of waiting commands. Replicated units are sparse maps (an unlisted unit holds its reset
record); registers that hold a value of their own are kept by their BAR0 offset. -/
namespace Sys2Proof.Machine

/-! ### Why a step stops -/

/-- No rule of the manual stops the block itself: core exceptions, halts, failures and trips are all next states. The one
constructor is never raised (safe): it keeps the type inhabited. -/
inductive Fault where
  /-- Raised by no meaning. Safe. -/
  | none
  deriving DecidableEq, Repr

/-- Commands the model does not run. -/
inductive Refusal where
  /-- A command whose meaning has not been written, by its mnemonic. Safe. -/
  | notModelled (mnemonic : String)
  deriving DecidableEq, Repr

/-! ### Links (07_scheduled_mesh.md R201 to R204; 11_packet_fabric_and_hall.md R278 to R281, R287) -/

/-- One end of a flit link: what it has sent and not had acknowledged, what it has received, its credit and
acknowledgement counts by virtual channel (a mesh link uses channel 0), the control flit it last sent, packets under
assembly, packets that wait for credits or for a detour, and whether bulk copy is served before requests next (R274), at a retimer the transfers that wait for replay room (R202); tempo-slot counters and disagreements of a system-link
port, and the messages that its tempo lane has been given (R39, R287); whether a gambit corrupts the next flit it receives
(R429). -/
structure Link where
  failed : Bool
  stopped : Bool
  sendSeq : Nat
  replay : List (BitVec 288)
  expSeq : Nat
  sinceAck : Nat
  nakked : Bool
  fails : Nat
  spent : SMap Nat
  owe : SMap Nat
  credSent : SMap Nat
  credRcvd : SMap Nat
  dackSent : Nat
  dackRcvd : Nat
  awaited : Nat
  uncovered : Bool
  ctl : Option (BitVec 288)
  asm : SMap (List Byte)
  held : List Packet
  bulk : Bool
  wait : List (BitVec 256)
  done : Nat
  txSlot : Nat
  rxSlot : Nat
  wrong : Nat
  lane : List TempoMsg
  corrupt : Bool
  deriving DecidableEq, Repr

def Link.reset : Link :=
  { failed := false, stopped := false, sendSeq := 0, replay := [], expSeq := 0, sinceAck := 0, nakked := false, fails := 0,
    spent := [], owe := [], credSent := [], credRcvd := [], dackSent := 0, dackRcvd := 0, awaited := 0,
    uncovered := false, ctl := none, asm := [], held := [], bulk := false, wait := [], done := 0, txSlot := 0, rxSlot := 0, wrong := 0, lane := [], corrupt := false }

/-! ### Streams between panels (11_packet_fabric_and_hall.md R291 to R296) -/

/-- A stream pair with one panel in one traffic class: open, OPEN sent, next ESEQ, unacknowledged packets with the port
they took, packets that wait for the window, timeouts in a row; next ESEQ expected, reorder buffer, marked packets and
packets since the last acknowledgement. -/
structure Stream where
  opened : Bool
  opening : Bool
  next : Nat
  una : List (Packet × Nat)
  waiting : List Packet
  timeouts : Nat
  expect : Nat
  buf : List Packet
  marks : Nat
  sinceAck : Nat
  deriving DecidableEq, Repr

def Stream.reset : Stream :=
  { opened := false, opening := false, next := 0, una := [], waiting := [], timeouts := 0, expect := 0, buf := [],
    marks := 0, sinceAck := 0 }

/-- System-link homes: streams by panel × 4 + class, congestion windows, unreachable panels, last port chosen by panel,
throttled ports. -/
structure Homes where
  streams : SMap Stream
  cws : SMap Nat
  unreach : List Nat
  lastPort : SMap Nat
  throttled : List Nat
  deriving DecidableEq, Repr

def Homes.reset : Homes := { streams := [], cws := [], unreach := [], lastPort := [], throttled := [] }

/-! ### Memory stacks (10_memory_stacks.md; 09_sets_and_graphs.md R245) -/

/-- A slice: its last tenant, and the current and capture bitmaps of its 512 pages (R256, R264). -/
structure Slice where
  tenant : Option W32
  cur : BitVec 512
  cap : BitVec 512
  deriving DecidableEq, Repr

def Slice.reset : Slice := ⟨none, 0, 0⟩

/-- A bank: its open row, the activations of its rolling count, rows refreshed (R261, R262). -/
structure Bank where
  row : Option Nat
  acts : Nat
  refreshed : Nat
  deriving DecidableEq, Repr

def Bank.reset : Bank := ⟨none, 0, 0⟩

/-- A near-memory job: the window write that brought it, and the elements it has done. -/
structure Job where
  pkt : Packet
  next : Nat
  deriving DecidableEq, Repr

/-- A stack: queued and running jobs; the unit its patrol reads next; high half and UE mark of the last error; the unit in the combining
buffer of its near-memory unit, with the updates served since its row was activated (R262). -/
structure Stack where
  queue : List Job
  running : List Job
  patrol : Nat
  errHi : Nat
  hot : Option (Nat × Nat)
  deriving DecidableEq, Repr

def Stack.reset : Stack := ⟨[], [], 0, 0, none⟩

/-- What is wrong with a stored codeword (R257): symbols, 0 to 63 data and 64 to 71 check, or it is another address's. -/
inductive UnitErr where
  | symbols (l : List Nat)
  | misplaced
  deriving DecidableEq, Repr

/-- The memory system: codewords with errors by unit (placed-view address / 64), poisoned units, units waiting for write-back,
corrected errors per row, rows marked for repair, writes held for a capture. -/
structure Hbm where
  stackMap : SMap Stack
  slices : SMap Slice
  banks : SMap Bank
  errs : SMap UnitErr
  poison : List Nat
  wb : List Nat
  rowErr : SMap Nat
  repair : List Nat
  held : List Packet
  deriving DecidableEq, Repr

def Hbm.reset : Hbm :=
  { stackMap := [], slices := [], banks := [], errs := [], poison := [], wb := [], rowErr := [], repair := [], held := [] }

/-! ### The tempo network (02_moves_and_tempo.md R35 to R51) -/

/-- Combining of one group at a hub (R37, R38, R44): children that have arrived, the exact combined operand in 128 bits,
and the largest path delay below, in ps. -/
structure Comb where
  arrived : List Nat
  any : Bool
  value : BitVec 128
  delay : Nat
  deriving DecidableEq, Repr

/-- A release that a node has issued or received and will act on (R45): result, overflow, lateness, hold-back in ps, move; at a
panel hub, whether it ends the move of a stop halt, and whether it is a launch's final release (R91, R95). -/
structure Sched where
  value : W64
  ovf : Bool
  late : Bool
  hold : Nat
  move : MoveNo
  stop : Bool
  final : Bool
  deriving DecidableEq, Repr

/-- A message that is sent and not acknowledged (R50): the peer's key, the message, resends so far. -/
structure Unacked where
  peer : Nat
  msg : TempoMsg
  resends : Nat
  deriving DecidableEq, Repr

/-- A tempo unit or hub. Maps by peer and group have the key peer × 64 + group; path delays the key level × 2 + port,
port delays the key child × 2 + port; combining and releases the key partition × 64 + group; move numbers, held by hubs (a
core's own copy is `Core.move`), the partition. `acted` lists the sequence numbers acted on, newest first; `out` holds
acknowledgements and calibrations on their way to nodes of this panel; `late` is the move and the child of the last resent release
(R51). -/
structure TempoNode where
  moves : SMap MoveNo
  path : SMap Nat
  ports : SMap Nat
  fresh : SMap Nat
  recal : List Nat
  sent : SMap Nat
  acted : SMap (List Nat)
  unacked : List Unacked
  out : List (Nat × TempoMsg)
  late : Option (MoveNo × Nat)
  comb : SMap Comb
  sched : SMap Sched
  deriving DecidableEq, Repr

def TempoNode.reset : TempoNode :=
  { moves := [], path := [], ports := [], fresh := [], recal := [], sent := [], acted := [], unacked := [], out := [],
    late := none, comb := [], sched := [] }

/-- An entry of a census (Table 2-5): panel, die, group, state code and mask of cores that have not arrived. -/
structure CensusEntry where
  panel : Nat
  die : Nat
  group : Nat
  code : Byte
  cores : BitVec 256
  deriving DecidableEq, Repr

/-- A census under way (R56): its block's address, the dies of this panel and the child panels still to answer, how many child
panels did not answer, and the entries. -/
structure Census where
  addr : Nat
  waiting : List Nat
  panels : List Nat
  silent : Nat
  entries : List CensusEntry
  move : MoveNo
  deriving DecidableEq, Repr

/-! ### Partitions and dies -/

/-- A position (R413, Tables 16-4 and 16-5): generation, move, band, tenant, tree and member; results and overflow flags
of the groups, castling table, context entries; core records by linear logical index, their scratchpads at index × 2 MiB;
program, and the bytes of the program part, 0 where it is an earlier generation's; memory of the owned slices at the move release and its
poisoned units; delta pages; whether the local and the buddy copy can be read. -/
structure Position where
  gen : Nat
  move : MoveNo
  first : Nat
  height : Nat
  tenant : W32
  tree : Nat
  member : Nat
  results : SMap W64
  ovfs : W64
  castle : List W32
  ctx : Mem
  cores : SMap Core
  spad : Mem
  prog : Option Program
  progLen : Nat
  hbm : Mem
  poison : List Nat
  pages : Nat
  mine : Bool
  buddy : Bool
  deriving DecidableEq, Repr, Inhabited

/-- A running LAUNCH (R326, Table 12-8a): its command, operands, the move number before its first release, the generation that it began from unchanged, whether that release is
past, whether its last is, how it ends, whether it was rolled back, and its result block. -/
structure Launch where
  ring : Nat
  seq : Nat
  seed : W64
  scrub : Bool
  resLen : Nat
  resCore : Nat
  resOff : Nat
  resAddr : Nat
  first : MoveNo
  base : Option Nat
  begun : Bool
  closing : Bool
  status : Nat
  recovered : Bool
  block : List Byte
  value : W64
  endMove : MoveNo
  endOvf : Bool
  deriving DecidableEq, Repr

/-- A recovery under way (R421, R422, R425): faults so far, the move that must complete, gambit ID, host abort seen. -/
structure Recov where
  faults : Nat
  untilMove : MoveNo
  gambit : W32
  rung : Nat
  deriving DecidableEq, Repr

/-- A castling under way (R370 to R373): the command, the two units, kind (1 region), moving back. -/
structure CastleReq where
  ring : Nat
  seq : Nat
  a : Nat
  b : Nat
  kind : Nat
  deriving DecidableEq, Repr

/-- A program being broadcast (R106): checked, from a hall address, with the dies of the band that were fenced when it began. -/
structure Loading where
  prog : Program
  source : Nat
  fenced : List Nat
  deriving DecidableEq, Repr

/-- A partition: its record (Table 12-11), move number, state of TPO_PSTATUS, program, program being loaded, halt on its way to the root and whether the
root has sent it to every node, launch, at a member panel the move before a launch's first release and its seed, results of its
groups, census, positions (newest first), STORE_PUTs of the capture that the buddy has not acknowledged, whether no complete generation
holds the program part, recovery, the moves lost while it waits for links to be trained (R189), castling, and the
gambit whose fault is on its way. -/
structure Part where
  first : Nat
  height : Nat
  tenant : W32
  tree : Nat
  member : Nat
  parent : Option Nat
  upPorts : Nat × Nat
  children : List (Nat × Nat × Nat)
  repeats : List W32
  move : MoveNo
  st : BitVec 4
  prog : Option Program
  loading : Option Loading
  haltPend : Option (HaltKind × HaltSrc)
  haltRoot : Bool
  haltSrc : BitVec 2
  late : Bool
  ovf : Bool
  result : W64
  results : SMap W64
  ovfs : W64
  launch : Option Launch
  opened : Option (MoveNo × W64)
  census : Option Census
  positions : List Position
  capturing : Option Position
  puts : Nat
  progNew : Bool
  captureAsk : Bool
  captureFailed : Bool
  recal : Bool
  nextGen : Nat
  full : Bool
  recov : Option Recov
  retrain : Option Nat
  castling : Option CastleReq
  gambit : W32
  deriving DecidableEq, Repr

def Part.reset : Part :=
  { first := 0, height := 0, tenant := 0, tree := 0, member := 0, parent := none, upPorts := (0, 0),
    children := [], repeats := [], move := 0, st := 0, prog := none, loading := none, haltPend := none, haltRoot := false, haltSrc := 3, late := false,
    ovf := false, result := 0, results := [], ovfs := 0, launch := none, opened := none, census := none, positions := [],
    capturing := none, puts := 0, progNew := true, captureAsk := false, captureFailed := false, recal := false, nextGen := 0, full := true, recov := none,
    retrain := none, castling := none, gambit := 0 }

/-- A compute die: dark (R26), fenced whole (R20), fenced sites (R16), which edge router drove each rank bus last
(R206), the quarantines of its links by other die and lifetime hour (Table 16-3), whether a gambit has stopped its clock, and sites that
could not be zeroed when their rank changed tenant (R167). -/
structure Die where
  dark : Bool
  fenced : Bool
  fencedSites : List Nat
  turnE : List Nat
  quar : List (Nat × Nat)
  stopped : Bool
  stale : List Nat
  deriving DecidableEq, Repr

def Die.reset : Die := { dark := false, fenced := false, fencedSites := [], turnE := [], quar := [], stopped := false, stale := [] }

structure EventRec where
  type : BitVec 16
  part : Nat
  move : MoveNo
  detail : List Byte
  deriving DecidableEq, Repr

/-! ### Host interface (12_host_interface.md) -/

/-- A fetched command: its number, its 64 bytes, whether it has started, what it waits for has been seen, a number it keeps
(the generation of POSITION, the move of CASTLE), the commands a FENCE waits for by ring and number, and how it
finished (STATUS, DETAIL, SUMMARY). -/
structure Cmd where
  seq : Nat
  desc : List Byte
  started : Bool
  hit : Bool
  aux : Nat
  waits : List (Nat × Nat)
  fin : Option (Nat × Nat × List Byte)
  deriving DecidableEq, Repr

/-- An en passant window (R331). -/
structure Window where
  state : Nat
  len : Nat
  status : Nat
  count : Nat
  tag : W32
  payload : List Byte
  deriving DecidableEq, Repr

def Window.reset : Window := ⟨0, 0, 0, 0, 0, []⟩

/-- A ring pair (R311 to R313): does it exist, is it halted, 2^n entries, vector, bases, the counts last read, fetched and
posted, commands in flight, completions posted (for R305), invalid words reported (R313), and window. A ring that has been deleted while
commands of it ran keeps them, not live, at its number + 1,024 (R335). -/
structure Ring where
  live : Bool
  halted : Bool
  log2 : Nat
  vector : Nat
  sq : Nat
  cq : Nat
  sqt : Nat
  cqh : Nat
  fetched : Nat
  posted : Nat
  cmds : List Cmd
  log : List (Nat × List Byte)
  badWords : List W64
  window : Window
  deriving DecidableEq, Repr

def Ring.reset : Ring :=
  { live := false, halted := false, log2 := 0, vector := 0xFFFF, sq := 0, cq := 0, sqt := 0, cqh := 0, fetched := 0,
    posted := 0, cmds := [], log := [], badWords := [], window := Window.reset }

/-- Host ports: the active port (strap), which links are up, a failover under way, poll interval in µs, events posted,
EVH last read, events dropped, events that SEQ has counted (R329), whether ENABLE has been set since the start (R390), MSI-X messages sent. -/
structure HostPorts where
  active : Bool
  up0 : Bool
  up1 : Bool
  down : Bool
  poll : Nat
  evPosted : Nat
  evh : Nat
  evLost : Nat
  evSeq : Nat
  started : Bool
  msix : List Nat
  deriving DecidableEq, Repr

def HostPorts.reset : HostPorts :=
  { active := false, up0 := false, up1 := false, down := false, poll := 1, evPosted := 0, evh := 0, evLost := 0, evSeq := 0, started := false,
    msix := [] }

/-! ### The store for other panels' positions (R414, R419) -/

/-- A generation on the store: its header record, its bytes by KIND × 2^56 + OFFSET, the 2 MiB pages of KIND 4 and 5 that it
holds (key div 2 MiB), bytes of its program part, its own or the previous generation's, bytes and pages received, complete or
open. -/
structure StoreGen where
  gen : Nat
  hdr : List Byte
  bytes : Mem
  pages : List Nat
  progLen : Nat
  core : Nat
  prog : Nat
  delta : Nat
  complete : Bool
  deriving DecidableEq, Repr

/-- The records of one describing panel, tree and partition: generations, newest first, and the base image. -/
structure Store where
  gens : List StoreGen
  base : Mem
  deriving DecidableEq, Repr

def Store.reset : Store := ⟨[], []⟩

/-- Gambits (R429): the 32-byte record, fired, and its end. -/
structure Gambit where
  bytes : List Byte
  fired : Bool
  deriving DecidableEq, Repr

/-! ### Defect map (15_bring_up_and_trust.md R395, R396) -/

/-- A defect entry (Table 15-9a). -/
structure Defect where
  seq : Nat
  kind : Byte
  cause : Byte
  source : Byte
  loc : W64
  life : Nat
  detail : W64
  deriving DecidableEq, Repr

/-! ### Power and heat (13_power.md, 14_thermal.md) -/

/-- A region beyond its registers: stretching for its own droop, lost phases, phases out of balance with the checks in a
row, lifetime hours of its power trips, rail at its setpoint with its clocks waiting for a release, extended soft start, braked by its tile,
power-limit steps of 100 MHz, thermal cap in MHz, thermal steps that the next release applies, milliseconds at the floor
cap, and the level sum its regulator is pre-positioned for. -/
structure Region where
  droop : Bool
  lost : List Nat
  out : SMap Nat
  trips : List Nat
  waiting : Bool
  extended : Bool
  braked : Bool
  steps : Nat
  thermal : Nat
  change : Int
  floorMs : Nat
  ready : Nat
  deriving DecidableEq, Repr

def Region.reset : Region :=
  { droop := false, lost := [], out := [], trips := [], waiting := false, extended := false, braked := false, steps := 0, thermal := 3300
    change := 0, floorMs := 0, ready := 0 }

/-- A sensor: its last plausible reading, and whether its latest reading was plausible (R361). -/
structure Sensor where
  last : Option Int
  fresh : Bool
  deriving DecidableEq, Repr

def Sensor.reset : Sensor := ⟨none, false⟩

/-- The power and thermal managers: the panel is dark, the lever of Table 13-4 (0 none, 1 lowering, 2 raising), spine rails
that stretch by die, regions, sensors by kind × 65,536 + index, levels by kind × 65,536 + unit, flagged pairs and blind
pairs, 10 ms periods at the floor by router, routers that are stopped, stacks, tiles and modules that have tripped, light-source dies that
are lost (R11), fluid limit latched, fluid at Warn, castling entries (partition × 16 + entry) used automatically before. -/
structure Rails where
  dark : Bool
  lever : Nat
  spine : List Nat
  regions : SMap Region
  sensors : SMap Sensor
  levels : SMap Nat
  flagged : List Nat
  blind : List Nat
  floor : SMap Nat
  stopped : List Nat
  stacksOff : List Nat
  tilesOff : List Nat
  modulesOff : List Nat
  lightsOff : List Nat
  limited : Bool
  warned : Bool
  castled : List Nat
  deriving DecidableEq, Repr

def Rails.reset : Rails :=
  { dark := false, lever := 0, spine := [], regions := [], sensors := [], levels := [], flagged := [], blind := [], floor := []
    stopped := [], stacksOff := [], tilesOff := [], modulesOff := [], lightsOff := [], limited := false, warned := false, castled := [] }

/-! ### Objects, attestation and management (15_bring_up_and_trust.md, 17_ratings_connections_registers.md) -/

/-- A signed object in a slot of a flash: its generation in the directory and its bytes (R377, R378). -/
structure FlashObj where
  gen : Nat
  bytes : List Byte
  deriving DecidableEq, Repr

/-- An SPDM connection of one path: version, capabilities and algorithms agreed (R384). -/
structure Conn where
  version : Bool
  caps : Bool
  algs : Bool
  deriving DecidableEq, Repr

def Conn.reset : Conn := ⟨false, false, false⟩

/-- A secured session: number, path, established, key updates (R384, R446). -/
structure Session where
  id : Nat
  path : Nat
  live : Bool
  updates : Nat
  deriving DecidableEq, Repr

/-- The management controllers and the security block: both flashes by TYPE × 64 + slot, the active slot by TYPE, parts that
run another slot than the active one by TYPE × 65,536 + unit (slot + 1), slots to take at the next warm reset by TYPE
(slot + 1, and 2 more for a revert), licences to be removed, extended test requested, an image in
RAM, the chain of certificate slot 1, SPDM connections and sessions, IDE keys by stream, the event receiver and the PLDM
events sent (true: as a sensor event), a PLDM update under way, I3C addresses and endpoint IDs, last TAP instruction. -/
structure Mgmt where
  flashA : SMap FlashObj
  flashB : SMap FlashObj
  active : SMap Nat
  image : SMap Nat
  atWarm : SMap Nat
  removing : List W64
  extended : Bool
  ram : List Byte
  chain1 : List Byte
  conns : SMap Conn
  sessions : List Session
  nextSession : Nat
  ide : SMap (BitVec 256)
  receiver : Bool
  sent : List (Bool × EventRec)
  update : Bool
  i3c : SMap (BitVec 7)
  eids : SMap Byte
  tap : Nat
  deriving DecidableEq, Repr

def Mgmt.reset : Mgmt :=
  { flashA := [], flashB := [], active := [], image := [], atWarm := [], removing := [], extended := false
    ram := [], chain1 := [], conns := [], sessions := [], nextSession := 0, ide := [], receiver := false, sent := []
    update := false, i3c := [], eids := [], tap := 0 }

/-- The whole block. `pending` is the queue of waiting commands; `rdata` and `answer` hold what the last read and the last
answer to an outside party gave; `mem` is the panel-local memory by physical address, `hostMem` the host's by bus address;
`regs` are the registers with storage of their own by BAR0 offset; `rankTenants` the last tenant of each die rank, 0 for
none (R167). -/
structure State where
  pending : List Instr
  freeCtr : Nat
  rdata : W32
  answer : List Byte
  mem : Mem
  hostMem : Mem
  regs : SMap W32
  cores : SMap Core
  dies : SMap Die
  parts : SMap Part
  links : SMap Link
  tnodes : SMap TempoNode
  homes : Homes
  hbm : Hbm
  net : List Packet
  events : List EventRec
  rings : SMap Ring
  host : HostPorts
  stores : SMap Store
  gambits : List Gambit
  defects : List Defect
  rails : Rails
  mgmt : Mgmt
  rankTenants : SMap W32
  deriving DecidableEq, Repr

/-- The machine right after reset: every register at the value of its table, nothing listed in a memory, no partition, no
ring, the queue empty. (DESIGN CHOICE, log entry 3.) -/
def State.reset : State :=
  { pending := [], freeCtr := 0, rdata := 0, answer := [], mem := [], hostMem := [], regs := [], cores := [], dies := []
    parts := [], links := [], tnodes := [], homes := Homes.reset, hbm := Hbm.reset, net := [], events := [], rings := []
    host := HostPorts.reset, stores := [], gambits := [], defects := [], rails := Rails.reset, mgmt := Mgmt.reset
    rankTenants := [] }

end Sys2Proof.Machine
end

