-- ==== Sys2Proof/Machine/Ops.lean ====
section
/-! DEFINITION. Named operations over maps, memories, replicated units, places and reports, and taking a core exception. -/
namespace Sys2Proof.Machine

/-! ### Sparse maps and byte memories -/

/-- The value at a key; an unlisted key reads as d. -/
def sget {α : Type} (d : α) : SMap α → Nat → α
  | [], _ => d
  | (k', v) :: t, k => if k' = k then v else sget d t k

/-- Drop every entry of a key. -/
def sdel {α : Type} (m : SMap α) (k : Nat) : SMap α := m.filter (fun e => e.1 != k)

/-- Put an entry before the first larger key. -/
def sins {α : Type} (k : Nat) (v : α) : SMap α → SMap α
  | [] => [(k, v)]
  | (k', v') :: t => if k < k' then (k, v) :: (k', v') :: t else (k', v') :: sins k v t

/-- Store a value at a key, keeping the canonical form: the value an unlisted key reads as removes the entry. -/
def sput {α : Type} [DecidableEq α] (d : α) (m : SMap α) (k : Nat) (v : α) : SMap α :=
  if v = d then sdel m k else sins k v (sdel m k)

/-- Change the value at a key. -/
def smod {α : Type} [DecidableEq α] (d : α) (m : SMap α) (k : Nat) (f : α → α) : SMap α := sput d m k (f (sget d m k))

/-- Keys strictly rise and no entry equals the value of an unlisted key. -/
def smapWf {α : Type} [DecidableEq α] (d : α) : SMap α → Bool
  | [] => true
  | [(_, v)] => decide (v ≠ d)
  | (k, v) :: (k', v') :: t => decide (k < k') && decide (v ≠ d) && smapWf d ((k', v') :: t)

/-- The canonical form of a byte memory. -/
abbrev Memory.wf (m : Mem) : Bool := smapWf (0 : Byte) m

/-- One byte of a memory. (DESIGN CHOICE, log entry 2.) -/
def rd (m : Mem) (a : Nat) : Byte := sget 0 m a

/-- Store one byte. -/
def wr (m : Mem) (a : Nat) (b : Byte) : Mem := sput 0 m a b

/-- n bytes from an address upwards. -/
def rdN (m : Mem) (a : Nat) : Nat → List Byte
  | 0 => []
  | n + 1 => rd m a :: rdN m (a + 1) n

/-- Store bytes from an address upwards. -/
def wrN (m : Mem) (a : Nat) : List Byte → Mem
  | [] => m
  | b :: bs => wrN (wr m a b) (a + 1) bs

/-- Fill a range with zeros. -/
def zeroN (m : Mem) (a n : Nat) : Mem := m.filter (fun e => decide (e.1 < a) || decide (a + n ≤ e.1))

/-- Little-endian value of n bytes. -/
def rdLe (m : Mem) (a n : Nat) : Nat := leNat (rdN m a n)

/-! ### Cores, dies, partitions -/

def State.core (s : State) (k : Nat) : Core := sget Core.reset s.cores k
def State.setCore (s : State) (k : Nat) (c : Core) : State := { s with cores := sput Core.reset s.cores k c }
def State.modCore (s : State) (k : Nat) (f : Core → Core) : State := s.setCore k (f (s.core k))
def State.die (s : State) (d : Nat) : Die := sget Die.reset s.dies d
def State.modDie (s : State) (d : Nat) (f : Die → Die) : State := { s with dies := smod Die.reset s.dies d f }
def State.part (s : State) (p : Nat) : Part := sget Part.reset s.parts p
def State.modPart (s : State) (p : Nat) (f : Part → Part) : State := { s with parts := smod Part.reset s.parts p f }

/-- Apply an update to the core of each key of a list. -/
def State.modCores (s : State) (ks : List Nat) (f : Core → Core) : State := ks.foldl (fun t k => t.modCore k f) s

/-! ### Registers held by their offset -/

/-- A register. -/
def State.reg (s : State) (off : Nat) : W32 := sget (regReset off) s.regs off
/-- Set a register, keeping the canonical form. -/
def State.setReg (s : State) (off : Nat) (v : W32) : State := { s with regs := sput (regReset off) s.regs off v }
/-- Bits [lo + len − 1 : lo] of a register. -/
def State.regF (s : State) (off lo len : Nat) : Nat := field (s.reg off).toNat lo len
/-- Replace bits [lo + len − 1 : lo] of a register. -/
def State.setRegF (s : State) (off lo len v : Nat) : State :=
  let old := (s.reg off).toNat
  s.setReg off (BitVec.ofNat 32 (old - field old lo len * 2 ^ lo + (v % 2 ^ len) * 2 ^ lo))
/-- Add to a counter that saturates at 0xFFFF_FFFF. -/
def State.countReg (s : State) (off n : Nat) : State :=
  s.setReg off (BitVec.ofNat 32 (satAdd 32 (s.reg off).toNat n))
/-- Clear some registers to their reset values. -/
def State.clearRegs (s : State) (p : Nat → Bool) : State := { s with regs := s.regs.filter (fun e => !p e.1) }

/-- The next free value's index; the counter advances (DESIGN CHOICE, log entry 4). -/
def State.freshen (s : State) : State := { s with freeCtr := s.freeCtr + 1 }

/-! ### Places (R7, R13, R14, R16, R17) -/

def coresPerDie : Nat := 272
def dieOf (k : Nat) : Nat := k / 272
def siteOf (k : Nat) : Nat := k % 272
/-- Die rank counted from 0. -/
def rankOfDie (d : Nat) : Nat := d / 9
def fileOfDie (d : Nat) : Nat := d % 9
/-- Core rank counted from 0. -/
def rankOfSite (t : Nat) : Nat := t / 17
def fileOfSite (t : Nat) : Nat := t % 17
/-- Region of a core: die × 8 + k (R14). -/
def regionOf (k : Nat) : Nat := dieOf k * 8 + rankOfSite (siteOf k) / 2
/-- The 34 sites of a region. -/
def coresOfRegion (r : Nat) : List Nat := (List.range 34).map (fun i => (r / 8) * 272 + (r % 8) * 34 + i)
/-- The sites of a die. -/
def coresOfDie (d : Nat) : List Nat := (List.range 272).map (fun i => d * 272 + i)
/-- Base tile of a die (R11). -/
def tileOfDie (d : Nat) : Nat := (rankOfDie d / 4) * 3 + fileOfDie d / 3
/-- Dies of a base tile (Table 1-2). -/
def diesOfTile (t : Nat) : List Nat := (List.range 144).filter (fun d => tileOfDie d == t)

/-- Die-file hole of a die rank; 0xF says the rank is short (Table 1-5). -/
def State.dieHole (s : State) (r : Nat) : Nat := s.regF (Reg.dhole (r / 8)) (4 * (r % 8)) 4
/-- Core-file hole of a core rank of a die (Table 1-6). -/
def State.coreHole (s : State) (d m : Nat) : Nat := s.regF (Reg.chole d (m / 4)) (8 * (m % 4)) 5

/-- Physical file of a logical file in a rank with hole h (R17). -/
def physFile (h l : Nat) : Nat := if l < h then l else l + 1
/-- Logical file of a physical file in a rank with hole h; the hole itself has none. -/
def logFile (h f : Nat) : Option Nat := if f = h then none else if f < h then some f else some (f - 1)

/-- Linear logical index of a physical core (R7, R17). -/
def State.logicalOf (s : State) (k : Nat) : Option Nat :=
  let d := dieOf k
  let r := rankOfDie d
  if s.dieHole r = 15 then none else
  match logFile (s.dieHole r) (fileOfDie d) with
  | none => none
  | some ld =>
    let m := rankOfSite (siteOf k)
    match logFile (s.coreHole d m) (fileOfSite (siteOf k)) with
    | none => none
    | some lc => some ((r * 8 + ld) * 256 + m * 16 + lc)

/-- Physical die of a logical die (rank r, logical file f). -/
def State.physDie (s : State) (r f : Nat) : Nat := r * 9 + physFile (s.dieHole r) f

/-- Physical core of a linear logical index (R17, R25); none in a short die rank. -/
def State.physOf (s : State) (l : Nat) : Option Nat :=
  let r := l / 2048
  if s.dieHole r = 15 then none else
  let d := s.physDie r (l / 256 % 8)
  let m := l / 16 % 16
  some (d * 272 + m * 17 + physFile (s.coreHole d m) (l % 16))

/-- Partition whose band holds a die rank (counted from 0) (R22). -/
def State.partOfRank (s : State) (r : Nat) : Option Nat :=
  (s.parts.find? (fun e => decide (0 < e.2.height) && decide (e.2.first ≤ r + 1) && decide (r + 1 < e.2.first + e.2.height))).map
    (·.1)

/-- Partition of a core by its place. -/
def State.partOfCore (s : State) (k : Nat) : Option Nat := s.partOfRank (rankOfDie (dieOf k))

/-- Die ranks of a partition, counted from 0. -/
def Part.ranks (p : Part) : List Nat := (List.range p.height).map (fun i => p.first - 1 + i)

/-- Dies of a partition, spares included. -/
def Part.dies (p : Part) : List Nat := p.ranks.flatMap (fun r => (List.range 9).map (fun f => r * 9 + f))

/-- Every core site of a partition's die ranks. -/
def Part.sites (p : Part) : List Nat := p.dies.flatMap coresOfDie

/-- Logical core indices of a partition. -/
def Part.logicals (p : Part) : List Nat := (List.range (p.height * 2048)).map (fun n => (p.first - 1) * 2048 + n)

/-- Physical cores that hold the partition's logical places. -/
def State.membersOf (s : State) (p : Nat) : List Nat := (s.part p).logicals.filterMap s.physOf

/-- Is a site fenced, alone or with its die (R16, R24)? -/
def State.siteFenced (s : State) (k : Nat) : Bool := (s.die (dieOf k)).fenced || (s.die (dieOf k)).fencedSites.contains (siteOf k)

/-- Is the feature of the effective grant licensed (R399)? -/
def State.licensed (s : State) (n : Nat) : Bool := (s.reg Reg.lfeat).getLsbD n

/-! ### Reports -/

/-- Raise an event: it waits to be posted (R315, R329); before ENABLE is first set at most 256 wait (R390). Once the event
receiver is registered it also goes out as a PLDM event, a thermal one as a sensor event too (R375, R447). -/
def State.raise (s : State) (type part : Nat) (detail : List Byte) : State :=
  let e : EventRec := ⟨BitVec.ofNat 16 type, part, (s.part part).move, bytesAt detail 0 16⟩
  let s1 : State := if s.host.started = false ∧ 256 ≤ s.events.length then { s with host := { s.host with evLost := s.host.evLost + 1, evSeq := s.host.evSeq + 1 } }
    else { s with events := s.events ++ [e] }
  if s1.mgmt.receiver = false ∨ type = 0xF0 ∨ type = 0xF1 ∨ type = 0xF2 then s1
  else
    let more := if 0x38 ≤ type ∧ type ≤ 0x3F then [(false, e), (true, e)] else [(false, e)]
    { s1 with mgmt := { s1.mgmt with sent := s1.mgmt.sent ++ more } }

/-- A halt is raised towards the root of a partition (R53, R54): an abort replaces a waiting stop, and the first of a
kind stands. (DESIGN CHOICE, log entry 13.) -/
def State.raiseHalt (s : State) (p : Nat) (kind : HaltKind) (src : HaltSrc) : State :=
  s.modPart p (fun q =>
    match q.haltPend, kind with
    | none, _ => { q with haltPend := some (kind, src) }
    | some (.stop, _), .abort => { q with haltPend := some (kind, src) }
    | some _, _ => q)

/-- A halt of the partition that holds a die rank, where one does. -/
def State.haltRank (s : State) (r : Nat) (kind : HaltKind) (src : HaltSrc) : State :=
  match s.partOfRank r with
  | some p => s.raiseHalt p kind src
  | none => s

/-- Word of CORE_FAULT (Table 3-14). -/
def Exc.word (e : Exc) : W32 := e.code ++ e.slot ++ (0 : BitVec 4) ++ e.detail

/-- Taking a core exception (R94, R96): the core stops at the bundle and records it, and an abort halt is raised.
(DEDUCED, log entry 82.) -/
def State.coreException (s : State) (k : Nat) (e : Exc) : State :=
  let s1 := s.modCore k (fun c =>
    { c with st := 0x5, fault := e, fmove := c.move, fflagsReg := c.fflags, hold := none, excPend := [] })
  let s2 := s1.raise 0x0010 ((s.partOfCore k).getD 0)
    (leBytes 4 e.word.toNat ++ leBytes 2 (dieOf k) ++ leBytes 2 (siteOf k))
  s2.haltRank (rankOfDie (dieOf k)) .abort (.core (Fin.ofNat _ k))

/-- An engine has found an exception after its instruction issued (R452): a running core takes it at its next bundle
boundary, a core held at a release stands at one already, any other core has none. (DEDUCED, log entry 36.) -/
def State.engineExc (s : State) (k : Nat) (e : Exc) : State :=
  if (s.core k).st = 3 then s.modCore k (fun c => { c with excPend := c.excPend ++ [e] })
  else if (s.core k).st = 4 then s.coreException k e
  else s

/-- The exception a boundary takes: the lowest code, the earliest of that code (R452). -/
def firstExc : List Exc → Option Exc
  | [] => none
  | e :: es =>
    match firstExc es with
    | none => some e
    | some f => if f.code < e.code then some f else some e

/-! ### Registers of a core (Table 3-3) -/

def Core.getX (c : Core) (i : BitVec 5) : W64 := if i = 0 then 0 else sget 0 c.x i.toNat
def Core.setX (c : Core) (i : BitVec 5) (v : W64) : Core := if i = 0 then c else { c with x := sput 0 c.x i.toNat v }
def Core.getP (c : Core) (i : BitVec 3) : W64 := if i = 0 then -1 else sget 0 c.p i.toNat
def Core.setP (c : Core) (i : BitVec 3) (v : W64) : Core := if i = 0 then c else { c with p := sput 0 c.p i.toNat v }
def Core.getV (c : Core) (i : BitVec 5) : W512 := sget 0 c.v i.toNat
def Core.setV (c : Core) (i : BitVec 5) (v : W512) : Core := { c with v := sput 0 c.v i.toNat v }
def AGReg.zero : AGReg := ⟨0, 0, 0⟩
def Core.getA (c : Core) (i : BitVec 4) : AGReg := sget AGReg.zero c.a i.toNat
def Core.setA (c : Core) (i : BitVec 4) (v : AGReg) : Core := { c with a := sput AGReg.zero c.a i.toNat v }
def Core.getC (c : Core) (i : BitVec 4) : W32 := sget 0 c.c i.toNat
def Core.setC (c : Core) (i : BitVec 4) (v : W32) : Core := { c with c := sput 0 c.c i.toNat v }
/-- The predicate that qualifies a slot: bit i after PN (R70, Table 3-6). -/
def Core.predBit (c : Core) (pn : Bool) (pr : BitVec 3) (i : Nat) : Bool := (c.getP pr).getLsbD i != pn

/-! ### Scratchpads (R23, R154, R162 to R164) -/

/-- Panel-local physical address of a byte of a core's scratchpad (Table 1-7). -/
def spadAddr (k off : Nat) : Nat := 0x80000000000 + dieOf k * 2 ^ 30 + siteOf k * 2 ^ 21 + off
def bankOf (off : Nat) : Nat := off / 2 ^ 17
/-- Row of the whole scratchpad, 0 to 32,767: bank × 2,048 + row. -/
def rowOf (off : Nat) : Nat := off / 64

def State.spadRd (s : State) (k off n : Nat) : List Byte := rdN s.mem (spadAddr k off) n

/-- Words of 8 bytes that n bytes at an offset touch. -/
def wordsOf (off n : Nat) : List Nat := if n = 0 then [] else (List.range ((off + n - 1) / 8 - off / 8 + 1)).map (· + off / 8)
/-- Rows that n bytes at an offset touch. -/
def rowsOf (off n : Nat) : List Nat := if n = 0 then [] else (List.range ((off + n - 1) / 64 - off / 64 + 1)).map (· + off / 64)

/-- SPD_ECC records an error (R163, R164, Table 6-12). (DESIGN CHOICE, log entry 80.) -/
def Core.eccNote (c : Core) (row : Nat) (ue : Bool) : Core :=
  { c with spdEccUe := c.spdEccUe || ue, spdEccBank := BitVec.ofNat 4 (row / 2048), spdEccRow := BitVec.ofNat 11 row }

/-- A single-bit error found in a word: corrected, counted, written back later (R163). (DEDUCED, log entry 28.) -/
def Core.ceFound (c : Core) (w : Nat) (back : Bool) : Core :=
  { c.eccNote (w / 8) false with
    eccfix := c.eccfix + 1
    spdEccCount := BitVec.ofNat 16 (satAdd 16 c.spdEccCount.toNat 1)
    spadWb := if back then addNew w c.spadWb else c.spadWb }

/-- A double-bit error found in a word: its row is poisoned (R164); a row already poisoned forgets that the word was
written whole. -/
def Core.ueFound (c : Core) (w : Nat) : Core :=
  let bit : BitVec 8 := BitVec.ofNat 8 (2 ^ (w % 8))
  let old : BitVec 8 := (sget none c.poison (w / 8)).getD 0
  { c.eccNote (w / 8) true with poison := sput none c.poison (w / 8) (some (old &&& ~~~bit)) }

/-- ECC of the words that a read of some words meets: single-bit errors are corrected and counted, double-bit errors poison
their rows (R163, R164). -/
def Core.eccRead (c : Core) (ws : List Nat) : Core :=
  let ce := ws.filter (fun w => c.spadCe.contains w && !c.spadWb.contains w)
  let ue := ws.filter (fun w => c.spadUe.contains w)
  let c1 := ce.foldl (fun a w => a.ceFound w true) c
  ue.foldl (fun a w => a.ueFound w) { c1 with spadUe := minus c1.spadUe ue }

/-- Is a row poisoned? -/
def Core.poisoned (c : Core) (row : Nat) : Bool := (sget none c.poison row).isSome

/-- The first poisoned row that a read of some rows meets, once its words' errors are found. -/
def Core.badRow (c : Core) (ws : List Nat) : Option Nat := (ws.map (· / 8)).find? (fun r => (c.eccRead ws).poisoned r)

/-- An engine's read of words: what it finds, and a poisoned row recorded in SPD_ECC (R164). (DEDUCED, log entry 27.) -/
def Core.engineRead (c : Core) (ws : List Nat) : Core :=
  match c.badRow ws with
  | some r => (c.eccRead ws).eccNote r true
  | none => c.eccRead ws

/-- Rows whose double-bit error the management controller is told of without an exception (R162, R164, R165). -/
def Core.reported (c : Core) (rows : List Nat) : Core := { c with ueRows := c.ueRows ++ rows }

/-- One word written whole, or in part (R162, R164). -/
def Core.eccWrite (c : Core) (w : Nat) (whole : Bool) : Core :=
  if whole then
    let bit : BitVec 8 := BitVec.ofNat 8 (2 ^ (w % 8))
    let p := match sget none c.poison (w / 8) with
      | none => c.poison
      | some m => sput none c.poison (w / 8) (if m ||| bit = 0xFF then none else some (m ||| bit))
    { c with spadCe := c.spadCe.erase w, spadUe := c.spadUe.erase w, poison := p, spadWb := c.spadWb.filter (· / 8 != w / 8) }
  else
    let c1 := if c.spadCe.contains w then { c.ceFound w false with spadCe := c.spadCe.erase w } else c
    let c2 := if c1.spadUe.contains w then { (c1.ueFound w).reported [w / 8] with spadUe := c1.spadUe.erase w } else c1
    { c2 with spadWb := c2.spadWb.filter (· / 8 != w / 8) }

/-- Is a word covered whole by n bytes at an offset? -/
def coversWord (off n w : Nat) : Bool := decide (off ≤ 8 * w) && decide (8 * w + 8 ≤ off + n)

/-- Write bytes into a core's scratchpad (R162). -/
def State.spadWr (s : State) (k off : Nat) (bs : List Byte) : State :=
  let s1 := { s with mem := wrN s.mem (spadAddr k off) bs }
  s1.modCore k (fun c => (wordsOf off bs.length).foldl (fun a w => a.eccWrite w (coversWord off bs.length w)) c)

/-- Zero a core's whole scratchpad through whole rows; poison clears (R166). -/
def State.spadZero (s : State) (k : Nat) : State :=
  { s with mem := zeroN s.mem (spadAddr k 0) (2 ^ 21) }.modCore k
    (fun c => { c with poison := [], spadCe := [], spadUe := [], spadWb := [] })

/-- Exception 0x05 of a poisoned row, at a slot (R164, R452). -/
def excEcc (slot row : Nat) : Exc := ⟨0x05, BitVec.ofNat 4 slot, BitVec.ofNat 16 (row / 2048)⟩

/-! ### Bank collisions (R158 to R161, Tables 3-19 and 6-2) -/

/-- Rank of an engine in Table 6-2, a claimant first. -/
def bankRank (claimant eng : Nat) : Nat :=
  if eng = claimant ∧ eng ≠ 0 then 1
  else if eng = 1 then 2
  else if eng = 2 then 3
  else if 5 ≤ eng ∧ eng ≤ 12 then eng - 1
  else if eng = 3 then 12
  else if eng = 4 then 13
  else 14

/-- Losers of one bank: every requester but the one that ranks first. -/
def bankLosers (claimant : Nat) (engs : List Nat) : List Nat :=
  let es := engs.eraseDups
  es.filter (fun e => es.any (fun f => decide (bankRank claimant f < bankRank claimant e)))

/-- Every losing engine of a cycle with its bank, banks rising. -/
def cycleLosers (claims : W64) (reqs : List (Nat × Nat)) : List (Nat × Nat) :=
  (List.range 16).flatMap (fun b =>
    (bankLosers (field claims.toNat (4 * b) 4) ((reqs.filter (fun r => r.2 == b)).map (·.1))).map (fun e => (e, b)))

/-- The record of the class that a core runs. -/
def State.classOf (s : State) (k : Nat) : Option ClassRec :=
  match s.partOfCore k with
  | none => none
  | some p =>
    match (s.part p).prog with
    | none => none
    | some g => g.classes[(s.core k).cls.toNat]?

/-- The instruction store that holds a class's bundles from index 0, the trap bundle elsewhere (R97). -/
def storeOf (bs : List W128) : SMap W128 := (bs.zipIdx.filter (fun e => e.1 != trapBundle)).map (fun e => (e.2, e.1))

/-- The program of the partition of a core. -/
def State.progOf (s : State) (k : Nat) : Option Program := (s.partOfCore k).bind (fun p => (s.part p).prog)

/-- The claim word in force at a core (R93, R102). -/
def State.claimsOf (s : State) (k : Nat) : W64 :=
  match s.classOf k with
  | none => 0
  | some r => r.claims.getD (s.core k).claim.toNat 0

/-- The loser that ranks highest in Table 6-2, of its banks the lowest. -/
def topLoser (claims : W64) : List (Nat × Nat) → Option (Nat × Nat)
  | [] => none
  | e :: es =>
    match topLoser claims es with
    | none => some e
    | some f =>
      if bankRank (field claims.toNat (4 * f.2) 4) f.1 < bankRank (field claims.toNat (4 * e.2) 4) e.1 then some f else some e

/-- Requests of one cycle meet at a core's banks: losers are counted (R160), and in strict mode fault (R161). What a
loser loses is time only (R159): the matrix feeder and the drain lose an array cycle (Table 6-1), but for the reads of the instruction
that issues (`own`), whose entry of the feed queue counts its own. -/
def State.collide (s : State) (k : Nat) (reqs : List (Nat × Nat)) (own : Bool := false) : State :=
  let cl := s.claimsOf k
  let losers := cycleLosers cl reqs
  let cnt := (losers.filter (fun e => e.1 != 13)).length
  let rb := (losers.filter (fun e => e.1 == 13)).length
  let running := (s.core k).st = 3 ∨ (s.core k).st = 4
  let s1 := s.modCore k (fun c =>
    { c with
      bankcol := c.bankcol + BitVec.ofNat 64 cnt
      owed := c.owed + bitN (losers.any (fun e => e.1 == 2)) + bitN (!own && losers.any (fun e => e.1 == 1))
      spdColl := if running then BitVec.ofNat 32 (satAdd 32 c.spdColl.toNat cnt) else c.spdColl
      spdRbwait := if running then BitVec.ofNat 32 (satAdd 32 c.spdRbwait.toNat rb) else c.spdRbwait })
  match s.progOf k, topLoser cl (losers.filter (fun e => e.1 != 13)) with
  | some g, some l =>
    if g.strict then s1.engineExc k ⟨0x07, 0xF, BitVec.ofNat 16 (l.2 + 16 * l.1)⟩ else s1
  | _, _ => s1

/-- Does an engine lose a bank of a cycle in strict mode, where the losing access is not performed (R161)? -/
def State.strictLoses (s : State) (k : Nat) (reqs : List (Nat × Nat)) (eng : Nat) : Bool :=
  ((s.progOf k).map (·.strict)).getD false && (cycleLosers (s.claimsOf k) reqs).any (fun e => e.1 == eng)

/-- Banks that an engine loses in a cycle. -/
def State.lostBanks (s : State) (k : Nat) (reqs : List (Nat × Nat)) (eng : Nat) : List Nat :=
  ((cycleLosers (s.claimsOf k) reqs).filter (fun e => e.1 == eng)).map (·.2)

/-- Requests of one cycle meet, where there are any. -/
def State.meet (s : State) (k : Nat) (reqs : List (Nat × Nat)) (own : Bool := false) : State :=
  if reqs.isEmpty then s else s.collide k reqs own

/-- Rival requests of a command as engine and bank numbers. -/
def rivalReqs (l : List Rival) : List (Nat × Nat) := l.map (fun r => (r.engine.toNat, r.bank.toNat))

end Sys2Proof.Machine
end

