-- ==== Sys2Proof/Machine/Links.lean ====
section
/-! DEFINITION. Flit links shared by the mesh and the fabric: CRC-16, keys, flits, replay buffers, go-back-N and running
counts (R201, R202, R278, R279). -/
namespace Sys2Proof

/-! ### Directions -/

def Dir.idx : Dir → Nat
  | .n => 0
  | .e => 1
  | .s => 2
  | .w => 3
def Dir.opp : Dir → Dir
  | .n => .s
  | .e => .w
  | .s => .n
  | .w => .e

/-- Is it an end of a die-crossing mesh link? -/
def LinkEnd.isMesh : LinkEnd → Bool
  | .mesh _ _ _ _ => true
  | _ => false

/-- Modulus of the link's flit sequence numbers (Tables 7-7 and 11-5). -/
def LinkEnd.seqMod (l : LinkEnd) : Nat := if l.isMesh then 128 else 256

/-- Flits of the link's replay buffer (R202, Table 11-1). -/
def LinkEnd.replayMax : LinkEnd → Nat
  | .mesh _ _ _ _ => 64
  | .sys _ => 16384
  | _ => 256

end Sys2Proof

namespace Sys2Proof.Machine

/-- The four directions in port order. -/
def dirs : List Dir := [.n, .e, .s, .w]

/-- Key of a link end. -/
def linkKey : LinkEnd → Nat
  | .mesh d dir lane seg => ((d.val * 4 + dir.idx) * 16 + lane.val) * 3 + seg.val
  | .edge d dir near => 30000 + (d.val * 4 + dir.idx) * 2 + bitN near
  | .stack t port near => 32000 + (t.val * 4 + port.val) * 2 + bitN near
  | .photon t u => 33000 + t.val * 12 + u.val
  | .io i near => 34000 + i.val * 2 + bitN near
  | .sys p => 35000 + p.val

def State.link (s : State) (l : LinkEnd) : Link := sget Link.reset s.links (linkKey l)
def State.modLink (s : State) (l : LinkEnd) (f : Link → Link) : State :=
  { s with links := smod Link.reset s.links (linkKey l) f }

/-! ### CRC-16 (R201) -/

/-- Eight steps of the shift register after a byte has been added to its upper half. -/
def crcBits : Nat → Nat → Nat
  | 0, r => r
  | n + 1, r => crcBits n (if r / 2 ^ 15 % 2 = 1 then (r * 2 % 2 ^ 16) ^^^ 0x1021 else r * 2 % 2 ^ 16)

/-- CRC-16 over bytes in increasing order, most significant bit first, from 0xFFFF, no final XOR. -/
def crc16 (bs : List Byte) : Nat := bs.foldl (fun r b => crcBits 8 (r ^^^ (b.toNat * 256))) 0xFFFF

/-- Byte i of a flit. -/
def flitByte (f : BitVec 288) (i : Nat) : Nat := (f.extractLsb' (8 * i) 8).toNat

/-- Does the flit pass its CRC? -/
def flitOk (f : BitVec 288) : Bool :=
  crc16 (leBytes 34 f.toNat) == flitByte f 34 * 256 + flitByte f 35

/-- A flit from its 32 data bytes and bytes 32 and 33. -/
def mkFlit (data b32 b33 : Nat) : BitVec 288 :=
  let body := data % 2 ^ 256 + 2 ^ 256 * (b32 % 256) + 2 ^ 264 * (b33 % 256)
  let c := crc16 (leBytes 34 body)
  BitVec.ofNat 288 (body + 2 ^ 272 * (c / 256) + 2 ^ 280 * (c % 256))

/-- Data of a flit. -/
def flitData (f : BitVec 288) : BitVec 256 := f.extractLsb' 0 256

/-! ### Sending -/

/-- Credits owed to the far end on a channel that no flit has carried yet. -/
def Link.oweOf (k : Link) (vc : Nat) : Nat := sget 0 k.owe vc

/-- Append a DATA flit of a mesh segment; it carries up to 15 of the credits owed (R201, R202). -/
def Link.sendMesh (k : Link) (data : BitVec 256) : Link :=
  let cr := min 15 (k.oweOf 0)
  { k with
    replay := k.replay ++ [mkFlit data.toNat (k.sendSeq % 128) (0x10 + cr)]
    sendSeq := k.sendSeq + 1
    owe := sput 0 k.owe 0 (k.oweOf 0 - cr)
    credSent := smod 0 k.credSent 0 (fun n => (n + cr) % 2 ^ 16)
    uncovered := k.uncovered || decide (0 < cr) }

/-- A transfer leaves a retimer on the next segment, or waits while its replay buffer is full (R202). -/
def Link.relayMesh (k : Link) (data : BitVec 256) : Link :=
  if k.wait.isEmpty && decide (k.replay.length < 64) then k.sendMesh data else { k with wait := k.wait ++ [data] }

/-- Transfers that wait at a retimer leave while the replay buffer has room. -/
def Link.drainWait : Nat → Link → Link
  | 0, k => k
  | n + 1, k => match k.wait with
    | [] => k
    | t :: ts => if k.replay.length < 64 then drainWait n ({ k with wait := ts }.sendMesh t) else k

/-- The flits that a mesh segment resends: credits travelled with their first sending, so they carry none (R202). -/
def Link.resendMesh (k : Link) : Link := { k with replay := k.replay.map (fun f => mkFlit (flitData f).toNat (flitByte f 32) 0x10) }

/-- The next control flit of a mesh segment: every credit owed is returned through the running count, and the receiver's
acknowledgement covers what it has taken (Table 7-7). `ty` is 2 IDLE, 3 ACK, 4 NAK. (DEDUCED, log entry 34.) -/
def Link.controlMesh (k : Link) (ty : Nat) : Link :=
  let cs := (sget 0 k.credSent 0 + k.oweOf 0) % 2 ^ 16
  { k with
    ctl := some (mkFlit (k.expSeq % 128 + 2 ^ 16 * (k.dackSent % 2 ^ 16) + 2 ^ 32 * cs) 0 (ty * 16))
    credSent := sput 0 k.credSent 0 cs
    owe := sput 0 k.owe 0 0
    sinceAck := 0
    uncovered := false }

/-- The next control flit of a fabric link: ACKSEQ and the credit counts of the twelve channels (Table 11-5). -/
def Link.controlFabric (k : Link) (ty : Nat) : Link :=
  let cs := (List.range 12).map (fun v => (sget 0 k.credSent v + k.oweOf v) % 2 ^ 16)
  let data := k.expSeq % 2 ^ 32 + (cs.zipIdx).foldl (fun a p => a + p.1 * 2 ^ (64 + 16 * p.2)) 0
  { k with
    ctl := some (mkFlit data 0 ty)
    credSent := (cs.zipIdx).foldl (fun m p => sput 0 m p.2 p.1) k.credSent
    owe := []
    sinceAck := 0
    uncovered := false }

/-- A control flit of either kind of link; `ty` is 2 IDLE, 3 ACK, 4 NAK. -/
def Link.control (mesh : Bool) (ty : Nat) (k : Link) : Link := if mesh then k.controlMesh ty else k.controlFabric ty

/-! ### Receiving -/

/-- Flits acknowledged by a sequence number: how many of the oldest unacknowledged flits it covers. -/
def Link.covered (k : Link) (m ack : Nat) : Nat :=
  let first := k.sendSeq - k.replay.length
  let n := (ack % m + m - first % m) % m
  if n ≤ k.replay.length then n else 0

/-- Free the replay entries that an acknowledgement covers. -/
def Link.ackTo (k : Link) (m ack : Nat) : Link := { k with replay := k.replay.drop (k.covered m ack) }

/-- By how much a 16-bit running count is ahead of another, 0 where it is not. -/
def ahead (now old : Nat) : Nat :=
  let d := (now % 2 ^ 16 + 2 ^ 16 - old % 2 ^ 16) % 2 ^ 16
  if d < 2 ^ 15 then d else 0

/-- A flit failed its CRC: a NAK is sent. Failures of one flit in a row mark the link failed at the limit (R202, R279): a DATA flit fails
again where it is the one that is expected, the first in order or one that carries its number. (DEDUCED, log entry 34.) -/
def Link.crcFailed (k : Link) (mesh : Bool) (limit : Nat) (isData : Bool) (seqOk : Bool) : Link :=
  let n := if isData && (!k.nakked || seqOk) then k.fails + 1 else k.fails
  let k1 := { k with fails := n, nakked := true }.control mesh 4
  { k1 with failed := k.failed || (isData && decide (max 1 limit ≤ n)) }

/-- A DATA flit is in order: it is taken and, at every sixteenth, acknowledged (R202). -/
def Link.accept (k : Link) (mesh : Bool) : Link :=
  let k1 := { k with expSeq := k.expSeq + 1, fails := 0, nakked := false, sinceAck := k.sinceAck + 1 }
  if 16 ≤ k1.sinceAck then k1.control mesh 3 else k1

/-- A DATA flit is out of order: the first is answered with NAK, the others are discarded. -/
def Link.gap (k : Link) (mesh : Bool) : Link := if k.nakked then k else { k with nakked := true }.control mesh 4

/-! ### Reports whose DETAIL no chapter states -/

/-- An event whose DETAIL the manual does not state: its bytes are free values (DESIGN CHOICE, log entry 18). -/
def State.raiseFree (s : State) (type part : Nat) : State :=
  (s.raise type part ((List.range 16).map (Config.freeByte s.freeCtr))).freshen

end Sys2Proof.Machine
end

