-- ==== Sys2Proof/Machine/Packets.lean ====
section
/-! DEFINITION. Packets and addresses: headers and CRC-32C (R275), fabric flits of a packet (R278), hall and panel-local
addresses (R23 to R27), the spread view (R250 to R252), grants (R254, R255). -/
namespace Sys2Proof.Machine

/-! ### CRC-32C -/

/-- Eight steps of the reflected CRC-32C register. -/
def crc32Bits : Nat → Nat → Nat
  | 0, r => r
  | n + 1, r => crc32Bits n (if r % 2 = 1 then (r / 2) ^^^ 0x82F63B78 else r / 2)

/-- CRC-32C (Castagnoli) of bytes. -/
def crc32c (bs : List Byte) : Nat := (bs.foldl (fun r b => crc32Bits 8 (r ^^^ b.toNat)) 0xFFFFFFFF) ^^^ 0xFFFFFFFF

/-! ### Headers (Table 11-3) -/

/-- The first two header bytes; `masked` reads ESC, MARK, RESEND and DL as zero. -/
def headFlags (masked : Bool) (p : Packet) : List Byte :=
  [BitVec.ofNat 8 (p.opc.toNat * 16 + p.cls.toNat * 4 + (if masked then 0 else bitN p.esc * 2 + bitN p.mark)),
   BitVec.ofNat 8 (p.len.toNat * 16 + bitN p.bcast * 8 + (if masked then 0 else bitN p.resend * 4 + bitN p.dl * 2) + bitN p.rsv1)]

/-- Header bytes 2 to 27. -/
def headRest (p : Packet) : List Byte :=
  leBytes 2 p.dpanel.toNat ++ leBytes 2 p.spanel.toNat ++ [p.sep, p.rsv7] ++ leBytes 2 p.ssite.toNat ++
  leBytes 2 (p.part.toNat * 4096 + p.tree.toNat) ++ leBytes 4 p.eseq.toNat ++ leBytes 2 p.tag.toNat ++
  leBytes 2 p.attr.toNat ++ leBytes 8 p.addr.toNat

/-- The ECRC that a packet must carry. -/
def ecrcOf (p : Packet) : Nat := crc32c (headFlags true p ++ headRest p ++ p.payload)

/-- A packet with its ECRC set. -/
def sealed (p : Packet) : Packet := { p with ecrc := BitVec.ofNat 32 (ecrcOf p) }

/-- The bytes of a packet. -/
def packetBytes (p : Packet) : List Byte := headFlags false p ++ headRest p ++ leBytes 4 p.ecrc.toNat ++ p.payload

/-- A packet from its bytes. -/
def parsePacket (bs : List Byte) : Packet :=
  let b0 := leAt bs 0 1
  let b1 := leAt bs 1 1
  { opc := BitVec.ofNat 4 (b0 / 16), cls := BitVec.ofNat 2 (field b0 2 2), esc := bit b0 1, mark := bit b0 0,
    len := BitVec.ofNat 4 (b1 / 16), bcast := bit b1 3, resend := bit b1 2, dl := bit b1 1, rsv1 := bit b1 0,
    dpanel := BitVec.ofNat 16 (leAt bs 2 2), spanel := BitVec.ofNat 16 (leAt bs 4 2), sep := BitVec.ofNat 8 (leAt bs 6 1),
    rsv7 := BitVec.ofNat 8 (leAt bs 7 1), ssite := BitVec.ofNat 16 (leAt bs 8 2),
    part := BitVec.ofNat 4 (leAt bs 10 2 / 4096), tree := BitVec.ofNat 12 (leAt bs 10 2),
    eseq := BitVec.ofNat 32 (leAt bs 12 4), tag := BitVec.ofNat 16 (leAt bs 16 2), attr := BitVec.ofNat 16 (leAt bs 18 2),
    addr := BitVec.ofNat 64 (leAt bs 20 8), ecrc := BitVec.ofNat 32 (leAt bs 28 4), payload := bs.drop 32 }

/-- WORDS of a packet. -/
def wordsField (p : Packet) : Nat := field p.attr.toNat 0 7

/-- Virtual channel of a packet (R274). -/
def vcOf (p : Packet) : Nat := 3 * p.cls.toNat + (if p.esc then (if p.dl then 2 else 1) else 0)

/-- The flits of a packet from a running count (Table 11-5). -/
def packetFlits (p : Packet) (seq : Nat) : List (BitVec 288) :=
  let bs := packetBytes p
  (List.range (bs.length / 32)).map (fun i =>
    mkFlit (leNat (bytesAt bs (32 * i) 32)) ((seq + i) % 256) (vcOf p * 16 + (if i = 0 then 8 else 0) + 1))

/-- A blank packet. -/
def Packet.blank : Packet :=
  { opc := 0, cls := 0, esc := false, mark := false, len := 0, bcast := false, resend := false, dl := false, rsv1 := false,
    dpanel := 0, spanel := 0, sep := 0, rsv7 := 0, ssite := 0, part := 0, tree := 0, eseq := 0, tag := 0, attr := 0,
    addr := 0, ecrc := 0, payload := [] }

/-- Is SEP a code of Table 11-3? -/
def sepOk (b : Byte) : Bool := let n := b.toNat; decide (n ≤ 0xC7) || n == 0xD0 || n == 0xD1 || n == 0xD8

/-- LEN that Table 11-4 gives an opcode with WORDS. -/
def lenOf (opc words : Nat) : Nat :=
  if opc = 0x2 ∨ opc = 0x3 ∨ opc = 0x5 ∨ opc = 0xC ∨ opc = 0xD then (words + 7) / 8 else if opc = 0xF then 1 else 0

/-- Traffic classes that Table 11-4 gives an opcode. -/
def classOk (opc cls : Nat) : Bool :=
  match opc with
  | 1 => cls == 0 || cls == 2
  | 2 => cls != 1
  | 3 => cls == 0 || cls == 2
  | 5 => cls == 1
  | 6 => cls == 1
  | 7 => cls == 1
  | 0xD => cls == 2
  | 0xE => cls == 2
  | _ => cls == 3

/-- ATTR of the opcodes without WORDS (Table 11-4): the acknowledgement and the opening of streams, and the FUNCTION of STORE_CTL. -/
def attrOk (opc attr : Nat) : Bool :=
  match opc with
  | 6 => attr == 0
  | 8 => decide (attr < 4)
  | 9 => attr == 0
  | 0xA => attr == 0
  | 0xB => decide (attr < 4)
  | 0xF => decide (1 ≤ attr ∧ attr ≤ 4)
  | _ => true

/-- Does a packet keep to Tables 11-3 and 11-4 and to R276: fields, class, ATTR, LEN, alignment, one aligned 4 KiB block?
(DEDUCED, log entry 47.) -/
def packetOk (p : Packet) : Bool :=
  let o := p.opc.toNat
  let w := wordsField p
  let a := p.addr.toNat
  let withWords := o == 1 || o == 2 || o == 3 || o == 5 || o == 0xC || o == 0xD || o == 0xE
  let addressed := o == 1 || o == 2 || o == 3
  !p.rsv1 && p.rsv7 == 0 && decide (p.dpanel.toNat < 4096) && decide (p.spanel.toNat < 4096) && sepOk p.sep &&
  decide (p.ssite.toNat < 512) && o != 0 && o != 4 && decide (p.len.toNat ≤ 8) &&
  p.payload.length == 64 * p.len.toNat && (!p.bcast || o == 2) &&
  (!withWords || decide (1 ≤ w ∧ w ≤ 64)) && p.len.toNat == lenOf o w &&
  (if o = 3 then field p.attr.toNat 7 1 == 0 && decide (field p.attr.toNat 12 4 ≤ 5) && decide (field p.attr.toNat 8 4 ≤ 4)
   else if withWords then decide (p.attr.toNat < 128) else attrOk o p.attr.toNat) && classOk o p.cls.toNat &&
  (!addressed || (a % 8 == 0 && decide (a % 4096 + 8 * w ≤ 4096) && (!p.bcast || a % 2 ^ 24 / 2 ^ 21 == 0)))

/-! ### Places (R23 to R27) -/

/-- What an address names. -/
inductive Place where
  | hbm (pa : Nat)
  | beyond
  | spad (k off : Nat)
  | ctx (off : Nat)
  | census (p off : Nat)
  | job (t off : Nat)
  | reg (off : Nat)
  | host (bus : Nat)
  | remote (q loc : Nat)
  | bad
  deriving DecidableEq, Repr

/-- Grant word of a slice (Table 10-7). -/
def State.grantOf (s : State) (sl : Nat) : W32 := s.reg (Reg.grant sl)
def grantOwner (g : W32) : Nat := field g.toNat 24 4
def grantLive (g : W32) : Bool := g.getLsbD 31 && !g.getLsbD 29

/-- Pseudo-channels of a partition's spread set on a stack, rising (R250). -/
def State.spreadPcs (s : State) (p t : Nat) : List Nat :=
  (List.range 64).filter (fun c =>
    let g := s.grantOf (t * 64 + c)
    g.getLsbD 31 && g.getLsbD 30 && grantOwner g == p)

/-- k of a partition's spread set: MEM_PSPREAD.K. -/
def State.spreadK (s : State) (p : Nat) : Nat := (s.spreadPcs p 0).length

/-- Placed-view address of a spread-view address (R251). -/
def State.spreadAddr (s : State) (p a : Nat) : Option Nat :=
  let n := 48 * s.spreadK p
  if n * 2 ^ 30 ≤ a then none
  else
    let pg := a / 4096
    let o := pg / n
    let r := pg % n
    let g := (o * 0x9E3779B1 % 2 ^ 32) % n
    let j := (r + g) % n
    let t := j % 48
    let c := (s.spreadPcs p t).getD (j / 48) 0
    some (0x40000000000 + (t * 64 + c) * 2 ^ 30 + (o * 4096 + a % 4096) % 2 ^ 30)

/-- Panel-local address (Table 1-7), the spread view of a requesting partition. -/
def State.localPlace (s : State) (p : Option Nat) (a : Nat) : Place :=
  if a < 0x30000000000 then
    match p.bind (fun p => s.spreadAddr p a) with
    | some pa => .hbm pa
    | none => .beyond
  else if 0x40000000000 ≤ a ∧ a < 0x70000000000 then .hbm a
  else if 0x80000000000 ≤ a ∧ a < 0x82400000000 then
    let o := a - 0x80000000000
    if 272 * 2 ^ 21 ≤ o % 2 ^ 30 then .bad else .spad (o / 2 ^ 30 * 272 + o % 2 ^ 30 / 2 ^ 21) (o % 2 ^ 21)
  else if 0xA0000000000 ≤ a ∧ a < 0xA1000000000 then
    let o := a - 0xA0000000000
    match s.physOf (o / 2 ^ 21) with
    | some k => .spad k (o % 2 ^ 21)
    | none => .bad
  else if 0xE0000000000 ≤ a ∧ a < 0xE0000010000 then .ctx (a - 0xE0000000000)
  else if 0xE0000100000 ≤ a ∧ a < 0xE0000500000 then
    let o := a - 0xE0000100000
    .census (o / 0x40000) (o % 0x40000)
  else if 0xF0000000000 ≤ a ∧ a < 0xF0004000000 then
    let o := a - 0xF0000000000
    if Reg.nmjob 0 ≤ o ∧ o < Reg.nmjob 48 then .job ((o - Reg.nmjob 0) / 64) (o % 64) else .reg o
  else .bad

/-- The panel's own ID. -/
def State.ownId (s : State) : Nat := s.regF Reg.sylPanelId 0 13

/-- Hall address (Table 1-8). (DEDUCED, log entry 77.) -/
def State.place (s : State) (p : Option Nat) (h : Nat) : Place :=
  let sp := field h 60 4
  if field h 57 3 ≠ 0 then .bad
  else if sp = 1 then .host (h % 2 ^ 57)
  else
    let q := field h 44 13
    let a := h % 2 ^ 44
    if sp = 2 then (if q = 0 then s.localPlace p a else .bad)
    else if sp = 0 then (if 4096 ≤ q then .bad else if q = s.ownId then s.localPlace p a else .remote q a)
    else .bad

/-- Host addresses at 2^57 or above cannot be reached (R27): bits [59:57] of space 0x1 must be zero too. -/
def hallBad (h : Nat) : Bool := field h 57 3 != 0

/-! ### Requesters and grants (R254, R255) -/

/-- The requesting partition of a packet. -/
def State.requester (s : State) (p : Packet) : Option Nat :=
  if p.spanel.toNat = s.ownId then some p.part.toNat
  else if p.tree = 0 then none
  else (s.parts.find? (fun e => e.2.tree == p.tree.toNat && decide (0 < e.2.height))).map (·.1)

/-- May a partition use a slice for a read-only kind, or for a write (Table 10-2)? -/
def State.granted (s : State) (p : Option Nat) (sl : Nat) (write : Bool) : Bool :=
  let g := s.grantOf sl
  match p with
  | none => false
  | some p => grantLive g && (grantOwner g == p || (!write && g.getLsbD p))

/-- Slice of a placed-view address. -/
def sliceOf (pa : Nat) : Nat := (pa - 0x40000000000) / 2 ^ 30
def stackOf (pa : Nat) : Nat := sliceOf pa / 64
/-- Page of a placed-view address within its slice (R264). -/
def pageOf (pa : Nat) : Nat := pa % 2 ^ 30 / 2 ^ 21
/-- Unit of a placed-view address (R248). -/
def unitOf (pa : Nat) : Nat := pa / 64

end Sys2Proof.Machine
end

