-- ==== Sys2Proof/Machine/Fabric.lean ====
section
/-! DEFINITION. The packet fabric and the system links: fixed paths (R272, R273), sending on links and detours (R278, R281),
port choice (R290), streams and windows (R291 to R298). -/
namespace Sys2Proof.Machine

/-! ### Units and paths on the panel (R272, R273) -/

/-- The I/O die of the active host port, and that of the active management controller with its SEP code (R12, R304, R388). -/
def State.hostIo (s : State) : Nat := if s.host.active then 4 else 0
def State.mcIo (s : State) : Nat := if (s.reg Reg.mgtState).getLsbD 27 then 4 else 0
def State.mcSep (s : State) : Byte := if (s.reg Reg.mgtState).getLsbD 27 then 0xD1 else 0xD0

/-- Is a SEP code a management controller's? -/
def isMc (sep : Byte) : Bool := sep == 0xD0 || sep == 0xD1

/-- A source or destination unit of a packet. -/
inductive FUnit where
  | core (k : Nat)
  | pc (t c : Nat)
  | io (i : Nat)
  deriving DecidableEq, Repr

/-- Tile to which an I/O die attaches (R272). -/
def tileOfIo (i : Nat) : Nat := [3, 6, 9, 11, 8, 5, 2, 0].getD i 0

/-- Tile of a unit. -/
def FUnit.tile : FUnit → Nat
  | .core k => tileOfDie (dieOf k)
  | .pc t _ => t / 4
  | .io i => tileOfIo i

/-- Destination unit number (R273). -/
def FUnit.number : FUnit → Nat
  | .core k => siteOf k
  | .pc t c => t * 64 + c
  | .io i => i

def routerDir (n : Nat) : Dir := if n = 0 then .n else if n = 1 then .e else if n = 2 then .s else .w

/-- The edge router by which a core's packet leaves (R209, R273). No beat waits in the outbound lane, so the order in which its sites are
served decides nothing here (DESIGN CHOICE, log entry 118). -/
def leaveBy (k : Nat) (dst : FUnit) : Dir :=
  let west := decide (fileOfSite (siteOf k) < 8)
  if dst.number % 2 = 1 then (if west then .n else .s) else (if west then .w else .e)

/-- The link by which a unit sends. -/
def FUnit.firstLink (src dst : FUnit) : LinkEnd :=
  match src with
  | .core k => .edge (Fin.ofNat _ (dieOf k)) (leaveBy k dst) true
  | .pc t c => .stack (Fin.ofNat _ t) (Fin.ofNat _ (c % 4)) true
  | .io i => .io (Fin.ofNat _ i) true

/-- The link by which a tile router reaches a unit. -/
def FUnit.lastLink : FUnit → LinkEnd
  | .core k => .edge (Fin.ofNat _ (dieOf k)) (routerDir (siteOf k % 4)) false
  | .pc t c => .stack (Fin.ofNat _ t) (Fin.ofNat _ (c % 4)) false
  | .io i => .io (Fin.ofNat _ i) false

def photonEnd (t u : Nat) : LinkEnd := .photon (Fin.ofNat _ t) (Fin.ofNat _ u)

/-- State of a photonic pair in PKF_PLINK: 0 up, 1 narrowed, 2 detour, 3 down. -/
def State.plinkState (s : State) (t u : Nat) : Nat := s.regF (Reg.plink t u) 30 2

/-- The detour tile of a failed pair: the lowest-indexed tile whose pairs with both are up and through which no other
detour passes (R281). -/
def State.detourTile (s : State) (t u : Nat) : Option Nat :=
  let upPair (a b : Nat) : Bool := decide (s.plinkState a b ≤ 1)
  let taken (c : Nat) : Bool := (List.range 12).any (fun a => (List.range 12).any (fun b =>
    a != b && s.plinkState a b == 2 && s.regF (Reg.plink a b) 8 8 == c && !((a == t && b == u) || (a == u && b == t))))
  (List.range 12).find? (fun c => c != t && c != u && upPair t c && upPair c u && !taken c)

/-- Links between two tiles: none where the pair is down without a detour. A pair whose handover runs holds its packets
itself. -/
def State.tilePath (s : State) (t u : Nat) : Option (List LinkEnd × Bool) :=
  if t = u then some ([], false)
  else if (s.link (photonEnd t u)).stopped then some ([photonEnd t u], false)
  else
    match s.plinkState t u with
    | 2 => let c := s.regF (Reg.plink t u) 8 8; some ([photonEnd t c, photonEnd c u], true)
    | 3 => none
    | _ => some ([photonEnd t u], false)

/-- Are the ports of a die marked down: its Dyber links are quarantined (R285), or it is dark? -/
def State.diePortsDown (s : State) (d : Nat) : Bool :=
  let st := (List.range 4).flatMap (fun i => (List.range 16).map (fun l => s.regF (Reg.dlink d i) (2 * l) 2))
  (s.die d).dark || (st.any (· == 2) && !st.any (· == 0))

/-! ### Sending on a link (R274, R278) -/

/-- Flits of a packet. -/
def flitCount (p : Packet) : Nat := 1 + 2 * p.len.toNat

/-- Flits that the router at the far end of a link holds for each virtual channel: one whole packet (R274). What a port of another panel
holds is not stated; its credits are counted and not waited for (DESIGN CHOICE, log entry 110). -/
def vcRoom : LinkEnd → Option Nat
  | .sys _ => none
  | _ => some 17

/-- May a packet's flits leave on a link now: it runs, and has replay room and credits? -/
def Link.fits (l : LinkEnd) (k : Link) (p : Packet) : Bool :=
  !k.stopped && !k.failed && decide (k.replay.length + flitCount p ≤ l.replayMax) &&
    (match vcRoom l with
      | some n => decide (sget 0 k.spent (vcOf p) + flitCount p ≤ n)
      | none => true)

/-- A packet's flits leave on a link. -/
def Link.put (k : Link) (p : Packet) : Link :=
  { k with
    replay := k.replay ++ packetFlits p k.sendSeq, sendSeq := k.sendSeq + flitCount p
    spent := smod 0 k.spent (vcOf p) (· + flitCount p), bulk := if p.cls = 0 then true else if p.cls = 2 then false else k.bulk }

/-- Bytes in the queue of a link for a packet's virtual channel: flits not acknowledged and packets that wait. (DEDUCED, log
entry 38.) -/
def Link.vcBytes (k : Link) (p : Packet) : Nat :=
  32 * (k.replay.filter (fun f => flitByte f 33 / 16 == vcOf p)).length +
    (k.held.filter (fun q => vcOf q == vcOf p)).foldl (fun t q => t + 32 * flitCount q) 0

/-- Throttle mode runs (R298). -/
def State.throttling (s : State) : Bool :=
  match s.regF Reg.pkfCong 30 2 with
  | 1 => false
  | 2 => true
  | _ => decide (63 < (s.regs.filter (fun e =>
      decide (Reg.sylRoute 0 ≤ e.1) && decide (e.1 < Reg.sylRoute 4096) && e.2.getLsbD 31)).length)

/-- Does the router or port that queues a packet on a link set its MARK (R296)? -/
def State.marksOn (s : State) (l : LinkEnd) (p : Packet) : Bool :=
  !s.throttling && decide (max 1 (s.regF Reg.pkfCong 16 8) * 1024 < (s.link l).vcBytes p)

/-- A packet is sent on a link, behind those of its virtual channel that wait, or waits itself; a queue above the mark bound sets
its MARK. -/
def State.sendOn (s : State) (l : LinkEnd) (p : Packet) : State :=
  let p := { p with mark := p.mark || s.marksOn l p }
  s.modLink l (fun k => if k.held.any (fun q => vcOf q == vcOf p) || !k.fits l p then { k with held := k.held ++ [p] } else k.put p)

/-- Order of service at an output: management first, then responses; requests and bulk copy in rotating order. -/
def serveRank (bulk : Bool) (p : Packet) : Nat := if p.cls = 3 then 0 else if p.cls = 1 then 1 else if (p.cls == 2) == bulk then 2 else 3

/-- The packet that a link serves next: of the first ones of each virtual channel that fit, the one whose class comes first. -/
def Link.nextHeld (l : LinkEnd) (k : Link) : Option Packet :=
  let firsts := (List.range 12).filterMap (fun v => (k.held.find? (fun p => vcOf p == v)).filter (k.fits l))
  firsts.foldl (fun b p => match b with
    | none => some p
    | some q => if serveRank k.bulk p < serveRank k.bulk q then some p else some q) none

/-- Send the packets that wait on a link while it has room for one of them. -/
def drainHeld (l : LinkEnd) : Nat → Link → Link
  | 0, k => k
  | n + 1, k =>
    match k.nextHeld l with
    | none => k
    | some p => drainHeld l n ({ k with held := k.held.erase p }.put p)

def State.drainLink (s : State) (l : LinkEnd) : State := s.modLink l (fun k => drainHeld l (k.held.length + 1) k)

/-! ### Responses -/

/-- A response to a request: the requester's tag and source fields travel back, so that it finds its unit (log
entry 19). (PRESUMED, log entry 19.) -/
def respond (own : Nat) (p : Packet) (opc : BitVec 4) (attr : Nat) (payload : List Byte) : Packet :=
  sealed { p with
    opc := opc, cls := 1, esc := false, mark := false, resend := false, dl := false, bcast := false, rsv1 := false,
    dpanel := p.spanel, spanel := BitVec.ofNat 16 own, eseq := 0, attr := BitVec.ofNat 16 attr,
    len := BitVec.ofNat 4 (payload.length / 64), payload := payload }

/-- The copy cause of an error: 0x06 for a read, 0x07 otherwise (R276). -/
def errCause (p : Packet) : Nat := if p.opc = 1 then 0x06 else 0x07

/-- PKF_ERR records the first error until it is cleared (Table 11-10). -/
def State.pkfError (s : State) (unit reason cause : Nat) : State :=
  if (s.reg Reg.pkfErr).getLsbD 31 then s
  else s.setReg Reg.pkfErr (BitVec.ofNat 32 (2 ^ 31 + unit * 2 ^ 16 + reason * 2 ^ 8 + cause))

/-- Unit of a SEP code and site. -/
def State.unitOfSep (s : State) (sep site : Nat) : FUnit :=
  if sep < 0x90 then .core (sep * 272 + site)
  else if sep < 0xC0 then .pc (sep - 0x90) 0
  else if sep < 0xC8 then .io (sep - 0xC0)
  else if sep = 0xD8 then .io s.hostIo
  else if sep = 0xD1 then .io 4 else .io 0

/-- Destination unit of a packet on this panel. -/
def State.unitOfPacket (s : State) (p : Packet) : FUnit :=
  if p.opc = 5 ∨ p.opc = 6 ∨ p.opc = 7 then s.unitOfSep p.sep.toNat p.ssite.toNat
  else if 8 ≤ p.opc.toNat ∧ p.opc.toNat ≤ 0xB then .io (p.spanel.toNat % 8)
  else if 0xC ≤ p.opc.toNat then .io s.mcIo
  else if p.bcast then .core (p.addr.toNat / 2 ^ 56 * 272)
  else
    match s.place (s.requester p) p.addr.toNat with
    | .hbm pa => .pc (stackOf pa) (sliceOf pa % 64)
    | .spad k _ => .core k
    | .job t _ => .pc t 0
    | .host _ => .io s.hostIo
    | _ => .io s.mcIo

/-- Links of the path between two units of this panel, and whether a detour is among them; none where there is no path (R273, R281,
R285). -/
def State.panelPath (s : State) (src dst : FUnit) : Option (List LinkEnd × Bool) :=
  let down : Bool := match dst with
    | .core k => s.diePortsDown (dieOf k)
    | _ => false
  if down then none
  else (s.tilePath src.tile dst.tile).map (fun e => ([src.firstLink dst] ++ e.1 ++ [dst.lastLink], e.2))

/-- A packet travels a path. -/
def State.sendAlong (s : State) (path : List LinkEnd × Bool) (p : Packet) : State :=
  path.1.foldl (fun a l => a.sendOn l (if path.2 then { p with esc := true } else p)) s

/-- A packet has no path on this panel: the requester gets an error response at once (R281, R285). -/
def State.pathless (s : State) (dst : FUnit) (p : Packet) : State :=
  let down : Bool := match dst with
    | .core k => s.diePortsDown (dieOf k)
    | _ => false
  let s1 := if down then s else s.pkfError p.sep.toNat 0x04 (errCause p)
  if p.opc = 1 ∨ p.opc = 2 ∨ p.opc = 3 then { s1 with net := s1.net ++ [respond s.ownId p 7 (errCause p) []] } else s1

/-- Put a packet on its path on this panel. -/
def State.localSend (s : State) (src : FUnit) (p : Packet) : State :=
  let dst := s.unitOfPacket p
  match s.panelPath src dst with
  | none => s.pathless dst p
  | some path => { s with net := s.net ++ [p] }.sendAlong path p

/-! ### Routes and ports (R289, R290, R296 to R298) -/

/-- Is a system-link port up or narrowed, and not held down? -/
def State.portUp (s : State) (p : Nat) : Bool :=
  let st := s.regF (Reg.sylPort p) 28 4
  (st == 2 || st == 3) && (s.reg (Reg.sylPortCfg p)).getLsbD 31

/-- Enabled candidates of a route entry (Table 11-8). -/
def State.candidates (s : State) (q : Nat) : List Nat :=
  (List.range 4).filterMap (fun i =>
    let c := s.regF (Reg.sylRoute q) (6 * i) 6
    if 32 ≤ c then some (c % 32) else none)

/-- Can a packet for a panel be routed (R289)? -/
def State.routable (s : State) (q : Nat) : Bool :=
  (s.reg (Reg.sylRoute q)).getLsbD 31 && (s.candidates q).any s.portUp && !s.homes.unreach.contains q

/-- Bytes queued at a port: data bytes not acknowledged and packets that wait. (DEDUCED, log entry 38.) -/
def State.queued (s : State) (p : Nat) : Nat :=
  let k := s.link (.sys (Fin.ofNat _ p))
  32 * k.replay.length + k.held.foldl (fun t q => t + 32 + 64 * q.len.toNat) 0

/-- TH_LO as it acts (Table 11-10). -/
def State.thLo (s : State) : Nat :=
  let hi := s.regF Reg.pkfCong 8 8
  let lo := s.regF Reg.pkfCong 0 8
  if hi ≤ lo then hi - 1 else lo

/-- A port becomes throttled above TH_HI and stays so until its queue falls below TH_LO (R297). -/
def State.throttleUpdate (s : State) (p : Nat) : State :=
  let n := s.queued p
  let th := s.homes.throttled
  let th' := if s.regF Reg.pkfCong 8 8 * 16384 < n then addNew p th else if n < s.thLo * 16384 then th.erase p else th
  { s with homes := { s.homes with throttled := th' } }

/-- The first port of a list at or after a place, in rotating order. -/
def rotated (start : Nat) (l : List Nat) : List Nat :=
  l.filter (fun p => decide (start ≤ p)) ++ l.filter (fun p => decide (p < start))

/-- The port for a packet (R290): the candidate with the fewest bytes queued, ties in rotating order after the port last
chosen; an escaped packet takes the ESC port. -/
def State.choosePort (s : State) (q : Nat) (p : Packet) : Option Nat :=
  if p.esc then some (s.regF (Reg.sylRoute q) 24 5)
  else
    let ok := (s.candidates q).filter (fun c => s.portUp c && !(s.throttling && s.homes.throttled.contains c))
    let ok := if ok.isEmpty then (s.candidates q).filter s.portUp else ok
    let order := rotated ((sget 31 s.homes.lastPort q + 1) % 32) (ok.eraseDups.mergeSort (· ≤ ·))
    order.foldl (fun best c =>
      match best with
      | none => some c
      | some b => if s.queued c < s.queued b then some c else some b) none

/-- Hand a packet to a port, with the dateline of R290. -/
def State.portSend (s : State) (port : Nat) (p : Packet) : State :=
  let dl := p.dl || (p.esc && (s.reg (Reg.sylPortCfg port)).getLsbD 30)
  (s.sendOn (.sys (Fin.ofNat _ port)) { p with dl := dl }).throttleUpdate port

/-! ### Streams (R291 to R296) -/

def streamKey (q cls : Nat) : Nat := q * 4 + cls
def State.stream (s : State) (q cls : Nat) : Stream := sget Stream.reset s.homes.streams (streamKey q cls)
def State.modStream (s : State) (q cls : Nat) (f : Stream → Stream) : State :=
  { s with homes := { s.homes with streams := smod Stream.reset s.homes.streams (streamKey q cls) f } }

/-- Bytes of a packet under a window (R294). -/
def windowBytes (p : Packet) : Nat := 32 + 64 * p.len.toNat

/-- PKF_E2E.WINDOW in bytes. -/
def State.e2eWindow (s : State) : Nat := max 1 (s.regF Reg.pkfE2e 24 8) * 65536

/-- Bytes unacknowledged to a panel in some classes. -/
def State.inFlight (s : State) (q : Nat) (cls : List Nat) : Nat :=
  cls.foldl (fun t c => (s.stream q c).una.foldl (fun u e => u + windowBytes e.1) t) 0

/-- May the home send one more packet of a stream (R294, R296)? -/
def State.windowOpen (s : State) (q cls : Nat) (p : Packet) : Bool :=
  let w := if s.throttling then s.e2eWindow else min (sget s.e2eWindow s.homes.cws q) s.e2eWindow
  decide ((s.stream q cls).una.length < 2048) &&
    (if cls = 3 then decide (s.inFlight q [3] + windowBytes p ≤ 65536)
     else decide (s.inFlight q [0, 1, 2] + windowBytes p ≤ w))

/-- Send a packet of a stream on a chosen port. -/
def State.streamPort (s : State) (q : Nat) (p : Packet) : State × Nat :=
  match s.choosePort q p with
  | some port => ({ s with homes := { s.homes with lastPort := sput 31 s.homes.lastPort q port } }.portSend port p, port)
  | none => (s, 0)

/-- Send what the window admits of a stream's waiting packets, in order, each with the next ESEQ. -/
def State.trySend (q cls : Nat) : Nat → State → State
  | 0, s => s
  | n + 1, s =>
    let st := s.stream q cls
    match st.waiting with
    | [] => s
    | p :: ps =>
      if st.opened && s.windowOpen q cls p then
        let p' := sealed { p with eseq := BitVec.ofNat 32 st.next }
        let r := s.streamPort q p'
        trySend q cls n (r.1.modStream q cls (fun t =>
          { t with next := (t.next + 1) % 2 ^ 32, una := t.una ++ [(p', r.2)], waiting := ps }))
      else s

/-- A management packet of a home to a panel. -/
def State.homePacket (s : State) (q opc : Nat) : Packet :=
  { Packet.blank with
    opc := BitVec.ofNat 4 opc, cls := 3, dpanel := BitVec.ofNat 16 q, spanel := BitVec.ofNat 16 s.ownId,
    sep := BitVec.ofNat 8 (0xC0 + q % 8) }

/-- Send a control packet, which no stream numbers. -/
def State.sendControl (s : State) (q : Nat) (p : Packet) : State := (s.streamPort q (sealed p)).1

/-- Start the OPEN exchange with a panel (R292). -/
def State.openStreams (s : State) (q : Nat) : State :=
  if (s.stream q 0).opening then s
  else
    let s1 := (List.range 4).foldl (fun a c => a.modStream q c (fun t => { t with opening := true })) s
    s1.sendControl q (s.homePacket q 9)

/-- A packet for another panel joins its stream; the streams are opened first where they are not open. -/
def State.remoteSend (s : State) (p : Packet) : State :=
  let q := p.dpanel.toNat
  let c := p.cls.toNat
  let s1 := s.modStream q c (fun t => { t with waiting := t.waiting ++ [p] })
  if (s1.stream q c).opened then State.trySend q c (s1.stream q c).waiting.length s1 else s1.openStreams q

/-- The home of a panel (R291). -/
def homeOf (q : Nat) : FUnit := .io (q % 8)

/-- Send a packet from a unit of this panel: one for another panel travels to the home of its destination first (R291). -/
def State.inject (s : State) (src : FUnit) (p : Packet) : State :=
  if p.dpanel.toNat = s.ownId then s.localSend src (sealed p)
  else
    let home := homeOf p.dpanel.toNat
    match s.panelPath src home with
    | none => s.pathless home p
    | some path => (s.sendAlong path (sealed p)).remoteSend { p with mark := p.mark || path.1.any (fun l => s.marksOn l p) }

end Sys2Proof.Machine
end

