-- ==== Sys2Proof/Machine/Mesh.lean ====
section
/-! DEFINITION. The scheduled mesh: neighbours, link switches, link engines, die-crossing segments
(07_scheduled_mesh.md). -/
namespace Sys2Proof.Machine

/-! ### Neighbours (R185 to R188) -/

/-- What a switch's external port faces: a switch of the same die, a die-crossing channel, or nothing. -/
inductive Hop where
  | core (k : Nat)
  | edge (d : Nat) (dir : Dir) (lane : Nat)
  | none
  deriving DecidableEq, Repr

/-- What the port of a core's switch faces. -/
def State.hop (s : State) (k : Nat) (dir : Dir) : Hop :=
  let d := dieOf k
  let m := rankOfSite (siteOf k)
  let f := fileOfSite (siteOf k)
  let h := s.coreHole d m
  let site (m f : Nat) : Nat := d * 272 + m * 17 + f
  match logFile h f with
  | Option.none => .none
  | some l =>
    match dir with
    | .e => if l = 15 then .edge d .e m else .core (site m (physFile h (l + 1)))
    | .w => if l = 0 then .edge d .w m else .core (site m (physFile h (l - 1)))
    | .n => if m = 15 then .edge d .n l else .core (site (m + 1) (physFile (s.coreHole d (m + 1)) l))
    | .s => if m = 0 then .edge d .s l else .core (site (m - 1) (physFile (s.coreHole d (m - 1)) l))

/-- The site whose port meets a die-crossing channel. -/
def State.edgeSite (s : State) (d : Nat) (dir : Dir) (lane : Nat) : Nat :=
  match dir with
  | .e => d * 272 + lane * 17 + physFile (s.coreHole d lane) 15
  | .w => d * 272 + lane * 17 + physFile (s.coreHole d lane) 0
  | .n => d * 272 + 15 * 17 + physFile (s.coreHole d 15) lane
  | .s => d * 272 + physFile (s.coreHole d 0) lane

/-- The die that a die's edge faces as logical neighbour (R188); none at the grid's border, for a hole die, and towards a
short rank. -/
def State.dieAcross (s : State) (d : Nat) (dir : Dir) : Option Nat :=
  let r := rankOfDie d
  if s.dieHole r = 15 then none else
  match logFile (s.dieHole r) (fileOfDie d) with
  | none => none
  | some l =>
    match dir with
    | .e => if l = 7 then none else some (s.physDie r (l + 1))
    | .w => if l = 0 then none else some (s.physDie r (l - 1))
    | .n => if r = 15 ∨ s.dieHole (r + 1) = 15 then none else some (s.physDie (r + 1) l)
    | .s => if r = 0 ∨ s.dieHole (r - 1) = 15 then none else some (s.physDie (r - 1) l)

/-- Does MCLK run on a die: its spine rail is up (R15, R183), and no gambit has stopped its clock (R429)? -/
def State.meshOn (s : State) (d : Nat) : Bool := !(s.die d).dark && !(s.die d).stopped

/-- Is a die's edge unconnected, or held closed: a link between die ranks of different partitions, or to a rank outside every partition
(R185)? -/
def State.linkClosed (s : State) (d : Nat) (dir : Dir) : Bool :=
  match dir, s.dieAcross d dir with
  | _, none => true
  | .e, some _ => false
  | .w, some _ => false
  | _, some e => (s.partOfRank (rankOfDie d)).isNone || s.partOfRank (rankOfDie d) != s.partOfRank (rankOfDie e)

/-- State of a die-crossing link in MSH_DLINK: 0 up, 1 unused or closed, 2 quarantined, 3 training. -/
def State.dlink (s : State) (d : Nat) (dir : Dir) (lane : Nat) : Nat :=
  let v := s.regF (Reg.dlink d dir.idx) (2 * lane) 2
  if v = 0 ∧ s.linkClosed d dir = true then 1 else v
def State.setDlink (s : State) (d : Nat) (dir : Dir) (lane v : Nat) : State := s.setRegF (Reg.dlink d dir.idx) (2 * lane) 2 v

/-- Does the channel cross a tile bridge (Table 7-1)? -/
def State.bridged (s : State) (d : Nat) (dir : Dir) : Bool :=
  match s.dieAcross d dir with
  | none => false
  | some e => tileOfDie e != tileOfDie d

/-- Credits of a channel by its class (Table 7-1). -/
def State.channelCredits (s : State) (d : Nat) (dir : Dir) : Nat := if s.bridged d dir then 96 else 48

/-- A segment end of a channel: 0 at the die, 1 and 2 at its retimer (R202). -/
def segEnd (d : Nat) (dir : Dir) (lane seg : Nat) : LinkEnd :=
  .mesh (Fin.ofNat _ d) dir (Fin.ofNat _ lane) (Fin.ofNat _ seg)

/-! ### Switches (R190 to R193) -/

def Core.modSw (c : Core) (f : Switch → Switch) : Core := { c with sw := f c.sw }

/-- Source code of an external output. -/
def xcOut (xc : BitVec 16) (o : Dir) : Nat := field xc.toNat (13 - 3 * o.idx) 3
/-- LOCAL bit of an external input. -/
def xcLocal (xc : BitVec 16) (i : Dir) : Bool := bit xc.toNat (3 - i.idx)
/-- External outputs that an input feeds. -/
def xcBranches (xc : BitVec 16) (i : Dir) : List Dir := dirs.filter (fun o => xcOut xc o == 2 + i.idx)

/-- Is a cross-connect applied? -/
def Switch.on (w : Switch) : Bool := w.active || w.standing

/-- The exchange-list set that a core's switch runs. -/
def State.xset (s : State) (k : Nat) : Option XSet :=
  match s.classOf k with
  | none => none
  | some r => r.exch.bind (fun e => e.sets[(s.core k).sw.set.toNat]?)

/-- Transfers of a list. -/
def listTotal (l : List XEntry) : Nat := l.foldl (fun t e => t + e.count) 0

/-- The list entry of transfer n and its number within the entry (R195). -/
def listAt : List XEntry → Nat → Option (XEntry × Nat)
  | [], _ => none
  | e :: es, n => if n < e.count then some (e, n) else listAt es (n - e.count)

/-- Scratchpad offset of a transfer of a RUN entry (R195). -/
def entryAddr (e : XEntry) (i : Nat) : Nat := (((e.addr : Int) + i * e.stride * 32) % (2 ^ 21 : Nat)).toNat

def State.outList (s : State) (k : Nat) (o : Dir) : List XEntry := ((s.xset k).map (fun x => x.out.getD o.idx [])).getD []
def State.inList (s : State) (k : Nat) (i : Dir) : List XEntry := ((s.xset k).map (fun x => x.inp.getD i.idx [])).getD []

/-- An output list is complete and acknowledged (R197). -/
def State.outDone (s : State) (k : Nat) (o : Dir) : Bool :=
  let w := (s.core k).sw
  !w.active || (decide (listTotal (s.outList k o) ≤ sget 0 w.outSent o.idx) && sget 0 w.unack o.idx == 0)

/-- An input list is complete. -/
def State.inDone (s : State) (k : Nat) (i : Dir) : Bool :=
  let w := (s.core k).sw
  !w.active || decide (listTotal (s.inList k i) ≤ sget 0 w.inTaken i.idx)

/-- The exchange ply of a core is finished (R197). -/
def State.exchangeDone (s : State) (k : Nat) : Bool :=
  dirs.all (fun d => s.outDone k d && s.inDone k d && (sget [] (s.core k).sw.fifo d.idx).isEmpty)

/-- Can an external output take a transfer now: its link is up, holds a credit, and has room for replay? -/
def State.outReady (s : State) (k : Nat) (o : Dir) : Bool :=
  match s.hop k o with
  | .none => false
  | .core _ => decide (sget 0 (s.core k).sw.spent o.idx < 8)
  | .edge d dir lane =>
    let l := s.link (segEnd d dir lane 0)
    s.dlink d dir lane == 0 && decide (sget 0 l.spent 0 < s.channelCredits d dir) && decide (l.replay.length < 64)

/-- Send a transfer on an external output: a credit is spent and, on a die-crossing channel, a DATA flit is queued for
replay. On an on-die link it is on the wire to the neighbour's input until TRANSFER_RECEIVE takes it (R191, R205). -/
def State.sendOut (s : State) (k : Nat) (o : Dir) (t : BitVec 256) : State :=
  match s.hop k o with
  | .none => s
  | .core u => (s.modCore k (fun c => c.modSw (fun w => { w with spent := smod 0 w.spent o.idx (· + 1) }))).modCore u
      (fun c => c.modSw (fun w => { w with wire := smod [] w.wire o.opp.idx (· ++ [t]) }))
  | .edge d dir lane =>
    s.modLink (segEnd d dir lane 0) (fun l =>
      { l.sendMesh t with spent := smod 0 l.spent 0 (· + 1), awaited := l.awaited + 1 })

/-- A switch acknowledges upstream through an input (R197). -/
def State.ackUp (s : State) (k : Nat) (i : Dir) : State :=
  match s.hop k i with
  | .none => s
  | .core u => s.modCore u (fun c => c.modSw (fun w => { w with ackWire := smod 0 w.ackWire i.opp.idx (· + 1) }))
  | .edge d dir lane =>
    s.modLink (segEnd d dir lane 0) (fun l => { l with dackSent := (l.dackSent + 1) % 2 ^ 16, uncovered := true })

/-- Return the credit of a transfer that left an input FIFO; the upstream switch where it is on the die. -/
def State.creditUp (s : State) (k : Nat) (i : Dir) : State × List Nat :=
  match s.hop k i with
  | .none => (s, [])
  | .core u =>
    (s.modCore u (fun c => c.modSw (fun w => { w with spent := smod 0 w.spent i.opp.idx (· - 1) })), [u])
  | .edge d dir lane =>
    (s.modLink (segEnd d dir lane 0) (fun l => { l with owe := smod 0 l.owe 0 (· + 1), uncovered := true }), [])

/-- May the first transfer of an input leave: the switch is clocked, a destination is named and every destination can take it, and no
error of the move holds the input (R183, R191, R198, R200)? -/
def State.canLeave (s : State) (k : Nat) (i : Dir) : Bool :=
  let w := (s.core k).sw
  let outs := xcBranches w.xc i
  let loc := xcLocal w.xc i
  w.on && s.meshOn (dieOf k) && !w.dead.contains i && !(sget [] w.fifo i.idx).isEmpty && (loc || !outs.isEmpty) && outs.all (s.outReady k) &&
    (!loc || (w.active && !s.inDone k i))

/-- The local input engine takes a transfer (R195, R212). -/
def State.deliver (s : State) (k : Nat) (i : Dir) (t : BitVec 256) : State :=
  let n := sget 0 (s.core k).sw.inTaken i.idx
  let s1 := match listAt (s.inList k i) n with
    | some (e, j) => if e.zero then s else s.spadWr k (entryAddr e j) (leBytes 32 t.toNat)
    | none => s
  s1.modCore k (fun c => c.modSw (fun w =>
    { w with inTaken := sput 0 w.inTaken i.idx (n + 1), rcvd := BitVec.ofNat 32 (satAdd 32 w.rcvd.toNat 1) }))

/-- The first transfer of an input leaves it by all its branches (R191, R197); answers also the switch that got a credit
back. -/
def State.leave (s : State) (k : Nat) (i : Dir) : State × List Nat :=
  let w := (s.core k).sw
  match sget [] w.fifo i.idx with
  | [] => (s, [])
  | t :: rest =>
    let outs := xcBranches w.xc i
    let loc := xcLocal w.xc i
    let s1 := s.modCore k (fun c => c.modSw (fun w =>
      { w with
        fifo := sput [] w.fifo i.idx rest
        pass := if outs.isEmpty then w.pass else BitVec.ofNat 32 (satAdd 32 w.pass.toNat 1)
        routes := if outs.isEmpty then w.routes else w.routes ++ [⟨i, outs⟩] }))
    let s2 := outs.foldl (fun a o => a.sendOut k o t) s1
    let s3 := if loc then s2.deliver k i t else s2
    let s4 := if outs.isEmpty then s3.ackUp k i else s3
    s4.creditUp k i

/-- Run switches while transfers can leave: a work list of switches, `fuel` bounding the departures. -/
def State.runSwitches : Nat → List Nat → State → State
  | 0, _, s => s
  | _, [], s => s
  | fuel + 1, k :: ks, s =>
    match dirs.find? (s.canLeave k) with
    | none => runSwitches fuel ks s
    | some i => let r := s.leave k i; runSwitches fuel (k :: r.2 ++ ks) r.1

/-- Run a core's switch and what its departures let run; the fuel covers every waiting transfer and the visits between. -/
def State.runSwitch (s : State) (k : Nat) : State :=
  let n := s.cores.foldl (fun t e => t + e.2.sw.fifo.foldl (fun u f => u + f.2.length) 0) 0
  s.runSwitches (2 * n + 2) [k]

/-- Capacity of an input FIFO (R185): 96 entries towards a die edge, 8 elsewhere. -/
def State.fifoMax (s : State) (k : Nat) (i : Dir) : Nat :=
  match s.hop k i with
  | .edge _ _ _ => 96
  | _ => 8

/-- A transfer enters an input FIFO; one that no credit admits cannot arrive. -/
def State.enterFifo (s : State) (k : Nat) (i : Dir) (t : BitVec 256) : State :=
  if (sget [] (s.core k).sw.fifo i.idx).length < s.fifoMax k i then
    (s.modCore k (fun c => c.modSw (fun w => { w with fifo := smod [] w.fifo i.idx (· ++ [t]) }))).runSwitch k
  else s

/-- A delivery acknowledgement reaches an output of a switch (R197): the local output engine's transfers are counted off;
a route that fanned out acknowledges upstream once every branch has. -/
def State.ackArrives (s : State) (k : Nat) (o : Dir) : State :=
  let w := (s.core k).sw
  if xcOut w.xc o = 1 then s.modCore k (fun c => c.modSw (fun w => { w with unack := smod 0 w.unack o.idx (· - 1) }))
  else
    match w.routes.findIdx? (fun r => r.wait.contains o) with
    | none => s
    | some n =>
      let r := w.routes.getD n ⟨.n, []⟩
      let r' : Route := { r with wait := r.wait.erase o }
      let s1 := s.modCore k (fun c => c.modSw (fun w =>
        { w with routes := if r'.wait.isEmpty then w.routes.eraseIdx n else w.routes.set n r' }))
      if r'.wait.isEmpty then s1.ackUp k r.inp else s1

/-! ### Link engines -/

/-- Engine code of a link input (Table 3-19). -/
def linkInCode (i : Dir) : Nat := 5 + i.idx
/-- Engine code of a link output. -/
def linkOutCode (o : Dir) : Nat := 9 + o.idx

/-- TRANSFER_SEND (R195, R196, R164): the output engine of a direction reads and sends the next transfer of its list, once
the writes of the bundles before the XPLY are complete and the output can take it; else nothing happens. -/
def execTransferSend (core : Fin 39168) (dir : Dir) (s : State) : Host.Outcome State Fault Refusal :=
  let k := core.val
  let c := s.core k
  let w := c.sw
  let n := sget 0 w.outSent dir.idx
  .next (match listAt (s.outList k dir) n with
    | none => s
    | some (e, i) =>
      if w.active = false ∨ s.meshOn (dieOf k) = false ∨ xcOut w.xc dir ≠ 1 ∨ w.drains ≠ 0 ∨ w.setWait = true ∨ s.outReady k dir = false then s else
      let a := entryAddr e i
      let send (s : State) (t : BitVec 256) : State :=
        (s.modCore k (fun c => c.modSw (fun w =>
          { w with
            outSent := sput 0 w.outSent dir.idx (n + 1)
            unack := smod 0 w.unack dir.idx (· + 1)
            sent := BitVec.ofNat 32 (satAdd 32 w.sent.toNat 1) }))).sendOut k dir t
      if e.zero then send s 0
      else
        let s1 := s.modCore k (fun c => c.engineRead (wordsOf a 32))
        match c.badRow (wordsOf a 32) with
        | some r => s1.engineExc k (excEcc 0xF r)
        | none => send s1 (BitVec.ofNat 256 (leNat (s.spadRd k a 32))))

/-- Even parity of each 64 bits of a transfer (R200). -/
def parityOf (t : BitVec 256) : BitVec 4 :=
  BitVec.ofNat 4 (maskOf ((List.range 4).map (fun q =>
    ((List.range 64).filter (fun i => t.getLsbD (64 * q + i))).length % 2 == 1)))

/-- An input delivers nothing more in this move. -/
def Core.deaden (c : Core) (dir : Dir) : Core := c.modSw (fun w => { w with dead := if w.dead.contains dir then w.dead else w.dead ++ [dir] })

/-- A parity error at a switch (R200): the transfer is discarded, nothing behind it is delivered in the move (R57), and the die records
it. A powered core raises exception 0x0C, a running one at its next bundle boundary; at a core that is off, or that has stopped at a fault
already, the die hub raises the halt. -/
def State.parityError (s : State) (k : Nat) (dir : Dir) : State :=
  let d := dieOf k
  let s1 := (s.setReg (Reg.parerr d) (BitVec.ofNat 32 (2 ^ 31 + siteOf k * 2 ^ 16 + dir.idx))).modCore k (fun c => c.deaden dir)
  let e : Exc := ⟨0x0C, 0xF, BitVec.ofNat 16 dir.idx⟩
  if (s.core k).st = 7 ∨ (s.core k).st = 0 ∨ (s.core k).st = 5 then s1.haltRank (rankOfDie d) .abort (.parity (Fin.ofNat _ k))
  else if (s.core k).st = 3 then s1.engineExc k e
  else s1.coreException k e

/-- TRANSFER_RECEIVE (R191, R197 to R200): the oldest transfer on an on-die wire reaches the input of a switch with its parity bits as they
arrive; without one nothing arrives. A delivery that the rivals' bank requests meet is counted as a collision (R158 to R161), and in strict
mode not performed. (DEDUCED, log entry 33.) -/
def execTransferReceive (core : Fin 39168) (dir : Dir) (data : BitVec 256) (parity : BitVec 4) (rivals : List Rival)
    (s : State) : Host.Outcome State Fault Refusal :=
  let k := core.val
  let s0 := s
  .next (match s.hop k dir with
    | .core _ =>
      let w := (s.core k).sw
      let s := s.modCore k (fun c => c.modSw (fun w => { w with wire := smod [] w.wire dir.idx (fun l => l.drop 1) }))
      if s.meshOn (dieOf k) = false ∨ (sget [] w.wire dir.idx).isEmpty = true ∨ (parityOf data = parity ∧ (sget [] w.wire dir.idx).head? ≠ some data) then s0
      else if parityOf data ≠ parity then s.parityError k dir
      else
        let s1 := match listAt (s.inList k dir) (sget 0 w.inTaken dir.idx) with
          | some (e, j) =>
            if w.active && xcLocal w.xc dir && !e.zero && !rivals.isEmpty then
              let reqs := (linkInCode dir, bankOf (entryAddr e j)) :: rivalReqs rivals
              let s2 := s.collide k reqs
              if s.strictLoses k reqs (linkInCode dir) then s2.modCore k (fun c => c.deaden dir) else s2
            else s
          | none => s
        s1.enterFifo k dir data
    | _ => s)

/-- DELIVERY_ACKNOWLEDGEMENT (R197): an acknowledgement on its way to an output of a switch arrives. -/
def execDeliveryAcknowledgement (core : Fin 39168) (dir : Dir) (s : State) : Host.Outcome State Fault Refusal :=
  let k := core.val
  .next (if sget 0 (s.core k).sw.ackWire dir.idx = 0 then s
    else (s.modCore k (fun c => c.modSw (fun w => { w with ackWire := smod 0 w.ackWire dir.idx (· - 1) }))).ackArrives k dir)

/-! ### Die-crossing segments (R201 to R204) -/

/-- The sender beside a retimer's receiver: what enters segment end 1 leaves at 2, and the other way round. -/
def relayEnd (d : Nat) (dir : Dir) (lane seg : Nat) : LinkEnd := segEnd d dir lane (3 - seg)

/-- Credits come back at a segment end: to the switch at the die, on along the channel at a retimer. -/
def State.meshCredits (s : State) (d : Nat) (dir : Dir) (lane seg n : Nat) : State :=
  if n = 0 then s
  else if seg = 0 then
    (s.modLink (segEnd d dir lane 0) (fun l => { l with spent := smod 0 l.spent 0 (· - n) })).runSwitch (s.edgeSite d dir lane)
  else s.modLink (relayEnd d dir lane seg) (fun l => { l with owe := smod 0 l.owe 0 (· + n), uncovered := true })

/-- Delivery acknowledgements come back at a segment end. -/
def State.meshAcks (d : Nat) (dir : Dir) (lane seg : Nat) : Nat → State → State
  | 0, s => s
  | n + 1, s =>
    let s1 := if seg = 0 then
        (s.modLink (segEnd d dir lane 0) (fun l => { l with awaited := l.awaited - 1 })).ackArrives (s.edgeSite d dir lane) dir
      else s.modLink (relayEnd d dir lane seg) (fun l => { l with dackSent := (l.dackSent + 1) % 2 ^ 16, uncovered := true })
    meshAcks d dir lane seg n s1

/-- The CRED field of a valid flit (R202). -/
def State.meshCred (s : State) (d : Nat) (dir : Dir) (lane seg : Nat) (f : BitVec 288) : State :=
  let n := flitByte f 33 % 16
  (s.modLink (segEnd d dir lane seg) (fun l => { l with credRcvd := smod 0 l.credRcvd 0 (fun c => (c + n) % 2 ^ 16) })).meshCredits
    d dir lane seg n

/-- The running counts of a control flit: what is ahead of the own counts is taken (R202). -/
def State.meshCounts (s : State) (d : Nat) (dir : Dir) (lane seg : Nat) (f : BitVec 288) : State :=
  let l := s.link (segEnd d dir lane seg)
  let cc := flitByte f 4 + 256 * flitByte f 5
  let da := flitByte f 2 + 256 * flitByte f 3
  let nc := ahead cc (sget 0 l.credRcvd 0)
  let nd := ahead da l.dackRcvd
  let s1 := s.modLink (segEnd d dir lane seg) (fun l =>
    { l with
      credRcvd := if nc = 0 then l.credRcvd else sput 0 l.credRcvd 0 cc
      dackRcvd := if nd = 0 then l.dackRcvd else da })
  State.meshAcks d dir lane seg nd (s1.meshCredits d dir lane seg nc)

/-- Does the segment end still run: its channel is up, and at the die's end the mesh is clocked? -/
def State.meshUp (s : State) (d : Nat) (dir : Dir) (lane seg : Nat) : Bool := s.dlink d dir lane == 0 && (seg != 0 || s.meshOn d)

/-- A mesh flit fails its CRC. -/
def State.meshCrcFail (s : State) (d : Nat) (dir : Dir) (lane seg : Nat) (isData : Bool) (f : BitVec 288) : State :=
  (s.modLink (segEnd d dir lane seg) (fun l =>
    l.crcFailed true (s.regF Reg.mshCfg 16 8) isData (flitByte f 32 % 128 == l.expSeq % 128))).countReg (Reg.crcerr d) 1

/-- A DATA flit of a mesh segment (R202). -/
def State.meshData (s : State) (d : Nat) (dir : Dir) (lane seg : Nat) (f : BitVec 288) : State :=
  let e := segEnd d dir lane seg
  if s.meshUp d dir lane seg = false then s
  else if flitOk f = false then s.meshCrcFail d dir lane seg true f
  else if flitByte f 33 / 16 ≠ 1 then s
  else
    let s1 := s.meshCred d dir lane seg f
    if flitByte f 32 % 128 = (s1.link e).expSeq % 128 then
      let s2 := s1.modLink e (fun l => l.accept true)
      if seg = 0 then s2.enterFifo (s.edgeSite d dir lane) dir (flitData f)
      else s2.modLink (relayEnd d dir lane seg) (fun l => l.relayMesh (flitData f))
    else s1.modLink e (fun l => l.gap true)

/-- A control flit of a mesh segment; `ty` is the type that the command names. -/
def State.meshControl (s : State) (d : Nat) (dir : Dir) (lane seg ty : Nat) (f : BitVec 288) : State :=
  let e := segEnd d dir lane seg
  if s.meshUp d dir lane seg = false then s
  else if flitOk f = false then s.meshCrcFail d dir lane seg false f
  else if flitByte f 33 / 16 ≠ ty then s
  else
    let s1 := (s.meshCred d dir lane seg f).meshCounts d dir lane seg f
    let a := flitByte f 0
    match ty with
    | 3 => (s1.modLink e (fun l => Link.drainWait 64 (l.ackTo 128 a))).runSwitch (s.edgeSite d dir lane)
    | 4 => (s1.modLink e (fun l => Link.drainWait 64 (l.ackTo 128 a).resendMesh)).countReg (Reg.replay d) 1
    | _ => s1

/-- Does the far end owe something on a channel (R203)? -/
def State.meshOwed (s : State) (d : Nat) (dir : Dir) (lane seg : Nat) : Bool :=
  let l := s.link (segEnd d dir lane seg)
  !l.replay.isEmpty || decide (0 < sget 0 l.spent 0) || decide (0 < l.awaited)

/-- Quarantine a channel (R203): both ends stop and report it, its partition halts. -/
def State.quarantineMesh (s : State) (d : Nat) (dir : Dir) (lane : Nat) : State :=
  let s1 := (s.setDlink d dir lane 2).countReg Reg.mshQuar 1
  let across := s.dieAcross d dir
  let s2 := match across with
    | some e => s1.setDlink e dir.opp lane 2
    | none => s1
  (s2.raiseFree 0x0012 ((s.partOfRank (rankOfDie d)).getD 0)).haltRank (rankOfDie d) .abort
    (.quarantine (Fin.ofNat _ d) (Fin.ofNat _ (across.getD d)))

/-- QUARANTINE (R203): the silence limit has passed at a link end while something is owed, or the link is marked failed.
Only die-crossing mesh links are quarantined. -/
def execQuarantine (l : LinkEnd) (s : State) : Host.Outcome State Fault Refusal :=
  .next (match l with
    | .mesh d dir lane seg =>
      if s.meshUp d dir lane seg && ((s.link l).failed || s.meshOwed d dir lane seg) then s.quarantineMesh d dir lane else s
    | _ => s)

end Sys2Proof.Machine
end

