-- ==== Sys2Proof/Machine/Numbers.lean ====
section
/-! DEFINITION. Number formats, exact values, rounding and flags of 05_number_formats.md (R131 to R153). -/
namespace Sys2Proof.Machine

/-- FFLAGS bits of Table 3-5: 0 invalid, 1 overflow, 2 underflow, 3 inexact, 4 window overflow. -/
abbrev Flags := BitVec 5
def fInvalid : Flags := 1
def fOverflow : Flags := 2
def fUnderflow : Flags := 4
def fInexact : Flags := 8
def fWindow : Flags := 16

/-- An exact value: NaN, an infinity, or (−1)^neg × m × 2^e. -/
inductive FV where
  | nan
  | inf (neg : Bool)
  | fin (neg : Bool) (m : Nat) (e : Int)
  deriving DecidableEq, Repr

/-- How the top exponent is used (Table 5-2): IEEE infinities and NaNs, one NaN only (E4M3), or no special values. -/
inductive FpKind where | ieee | ofp | plain
  deriving DecidableEq, Repr

/-- A floating-point element format of Table 5-1. -/
structure Fp where
  ebits : Nat
  mbits : Nat
  bias : Nat
  kind : FpKind
  deriving DecidableEq, Repr

def fp32 : Fp := ⟨8, 23, 127, .ieee⟩
def bf16 : Fp := ⟨8, 7, 127, .ieee⟩
def fp16 : Fp := ⟨5, 10, 15, .ieee⟩
def e4m3 : Fp := ⟨4, 3, 7, .ofp⟩
def e5m2 : Fp := ⟨5, 2, 15, .ieee⟩
def e2m3 : Fp := ⟨2, 3, 1, .plain⟩
def e3m2 : Fp := ⟨3, 2, 3, .plain⟩
def e2m1 : Fp := ⟨2, 1, 1, .plain⟩

namespace Fp
/-- Element width in bits. -/
def width (F : Fp) : Nat := F.ebits + F.mbits + 1
/-- Exponent of the smallest normal number. -/
def emin (F : Fp) : Int := 1 - (F.bias : Int)
/-- Encoding of the largest finite magnitude (Table 5-2). -/
def maxCode (F : Fp) : Nat :=
  match F.kind with
  | .ieee => (2 ^ F.ebits - 1) * 2 ^ F.mbits - 1
  | .ofp => 2 ^ (F.ebits + F.mbits) - 2
  | .plain => 2 ^ (F.ebits + F.mbits) - 1
/-- The default NaN of Table 5-2 (formats without one have no NaN result: zero bits). -/
def defNan (F : Fp) : Nat :=
  match F.kind with
  | .ieee => (2 ^ F.ebits - 1) * 2 ^ F.mbits + 2 ^ (F.mbits - 1)
  | .ofp => 2 ^ (F.ebits + F.mbits) - 1
  | .plain => 0
/-- Encoding of an infinity's magnitude. -/
def infCode (F : Fp) : Nat := (2 ^ F.ebits - 1) * 2 ^ F.mbits
/-- Attach a sign to a magnitude's encoding. -/
def signed (F : Fp) (neg : Bool) (code : Nat) : Nat := if neg then 2 ^ (F.ebits + F.mbits) + code else code

/-- The exact value of an element's bits (Table 5-1, Table 5-2, R132). -/
def decode (F : Fp) (bits : Nat) : FV :=
  let neg := bit bits (F.ebits + F.mbits)
  let code := bits % 2 ^ (F.ebits + F.mbits)
  let ex := code / 2 ^ F.mbits
  let mant := code % 2 ^ F.mbits
  if code > F.maxCode then
    match F.kind with
    | .ieee => if mant = 0 then .inf neg else .nan
    | _ => .nan
  else if ex = 0 then .fin neg mant (F.emin - F.mbits)
  else .fin neg (2 ^ F.mbits + mant) (F.emin - F.mbits + (ex - 1 : Nat))
end Fp

/-- Rounding modes of Table 3-10's codes; the stochastic mode carries the word R of R143. `rna`, to nearest with halfway values away
from zero, is what R143 does with a magnitude above the largest finite under stochastic rounding. -/
inductive Rnd where
  | rne | rtz | rdn | rup | rna
  | sr (r : Nat)
  deriving DecidableEq, Repr

/-- A magnitude m × 2^e on the grid of step 2^q: the grid point toward zero, the remainder and the step it is taken of. -/
def onGrid (m : Nat) (e q : Int) : Nat × Nat × Nat :=
  if q ≤ e then (m * 2 ^ (e - q).toNat, 0, 1)
  else (m / 2 ^ (q - e).toNat, m % 2 ^ (q - e).toNat, 2 ^ (q - e).toNat)

/-- Does the mode move a value with this remainder away from zero (R139, R143)? -/
def awayFromZero (mode : Rnd) (neg : Bool) (lo rem den : Nat) : Bool :=
  match mode with
  | .rne => decide (den < 2 * rem) || (2 * rem == den && lo % 2 == 1)
  | .rtz => false
  | .rdn => neg && rem != 0
  | .rup => !neg && rem != 0
  | .rna => decide (den ≤ 2 * rem)
  | .sr r => decide (2 ^ 32 ≤ rem * 2 ^ 32 / den + r)

/-- Round a magnitude to the grid of step 2^q: the multiple, and whether it is inexact. -/
def roundGrid (mode : Rnd) (neg : Bool) (m : Nat) (e q : Int) : Nat × Bool :=
  let g := onGrid m e q
  (if awayFromZero mode neg g.1 g.2.1 g.2.2 then g.1 + 1 else g.1, g.2.1 != 0)

/-- The result of a finite value beyond the largest finite (Table 5-5). -/
def overflowCode (F : Fp) (sat : Bool) (mode : Rnd) (neg : Bool) : Nat :=
  if sat || F.kind != .ieee then F.maxCode
  else match mode with
    | .rtz => F.maxCode
    | .rdn => if neg then F.infCode else F.maxCode
    | .rup => if neg then F.maxCode else F.infCode
    | _ => F.infCode

/-- Encode a non-zero finite value (R139, R143, Table 5-5). `sat` says the target is an element of a block.
(DEDUCED, log entry 25.) -/
def roundFin (F : Fp) (sat : Bool) (mode : Rnd) (neg : Bool) (m : Nat) (e : Int) : Nat × Flags :=
  let top : Int := (Nat.log2 m : Int) + e
  let qu : Int := top - F.mbits
  let qs : Int := F.emin - F.mbits
  let q := max qu qs
  let codeOf (r : Nat) : Nat := (q - qs).toNat * 2 ^ F.mbits + r
  let g := onGrid m e q
  let beyond := decide (F.maxCode < codeOf g.1) || (codeOf g.1 == F.maxCode && g.2.1 != 0)
  let mode' := match mode with
    | .sr r => if beyond then Rnd.rna else Rnd.sr r
    | md => md
  let r := roundGrid mode' neg m e q
  let code := codeOf r.1
  if F.maxCode < code then
    (F.signed neg (overflowCode F sat mode' neg), fOverflow ||| fInexact)
  else
    let ru := roundGrid mode' neg m e qu
    -- tiny after rounding: below the smallest normal with the exponent range unbounded
    let tiny := decide (qu < qs) && (decide (qu + 1 < qs) || decide (ru.1 < 2 ^ (F.mbits + 1)))
    let fl : Flags := if r.2 then (if tiny then fUnderflow ||| fInexact else fInexact) else 0
    (F.signed neg code, fl)

/-- Round an exact value to a floating-point format (R132, R139, Table 5-5). -/
def roundFp (F : Fp) (sat : Bool) (mode : Rnd) (v : FV) : Nat × Flags :=
  match v with
  | .nan => (F.defNan, 0)
  | .inf neg => if F.kind == .ieee && !sat then (F.signed neg F.infCode, 0) else (F.signed neg F.maxCode, fOverflow)
  | .fin neg m e => if m = 0 then (F.signed neg 0, 0) else roundFin F sat mode neg m e

/-- Round an exact value to an integer between lo and hi (Table 5-5, INT8 and INT4). (DEDUCED, log entry 26.) -/
def roundInt (lo hi : Int) (mode : Rnd) (v : FV) : Int × Flags :=
  match v with
  | .nan => (0, fInvalid)
  | .inf neg => (if neg then lo else hi, fInvalid)
  | .fin neg m e =>
    let g := onGrid m e 0
    let lim : Nat := if neg then (-lo).toNat else hi.toNat
    let beyond := decide (lim < g.1) || (g.1 == lim && g.2.1 != 0)
    let mode' := match mode with
      | .sr r => if beyond then Rnd.rna else Rnd.sr r
      | md => md
    let r := roundGrid mode' neg m e 0
    if lim < r.1 then (if neg then lo else hi, fOverflow)
    else (if neg then -(r.1 : Int) else r.1, if r.2 then fInexact else 0)

/-- Largest magnitude of an FWA128 value that a conversion gives (Table 5-5, R147). -/
def fwaMax : Nat := 2 ^ 127 - 1

/-- Round an exact value to the grid 2^(W − 64) (R147, Table 5-5). -/
def roundFwa (w : Int) (mode : Rnd) (v : FV) : Int × Flags :=
  match v with
  | .fin neg m e =>
    let g := onGrid m e (w - 64)
    let mode' := match mode with
      | .sr r => if decide (fwaMax < g.1) || (g.1 == fwaMax && g.2.1 != 0) then Rnd.rna else Rnd.sr r
      | md => md
    let r := roundGrid mode' neg m e (w - 64)
    let fl : Flags := if r.2 then fInexact else 0
    if fwaMax < r.1 then (if neg then -(fwaMax : Int) else fwaMax, fWindow)
    else (if neg then -(r.1 : Int) else r.1, fl)
  | _ => (0, fInvalid ||| fWindow)

/-- One product of the array in fixed-window mode: steps 2 to 4 of R147 (a clamped product keeps the inexact flag of
step 2). -/
def productFwa (w : Int) (v : FV) : Int × Flags :=
  match v with
  | .fin neg m e =>
    let r := roundGrid .rne neg m e (w - 64)
    let fl : Flags := if r.2 then fInexact else 0
    if fwaMax < r.1 then (if neg then -(fwaMax : Int) else fwaMax, fl ||| fWindow)
    else (if neg then -(r.1 : Int) else r.1, fl)
  | _ => (0, fInvalid ||| fWindow)

/-- The exact value of an integer times 2^e. -/
def FV.ofInt (i : Int) (e : Int) : FV := .fin (decide (i < 0)) i.natAbs e

/-- Negation of an exact value. -/
def FV.neg : FV → FV
  | .nan => .nan
  | .inf n => .inf (!n)
  | .fin n m e => .fin (!n) m e

/-- Magnitude of an exact value. -/
def FV.abs : FV → FV
  | .nan => .nan
  | .inf _ => .inf false
  | .fin _ m e => .fin false m e

/-- Signed integer of a finite value on the grid 2^q, q at or below its own exponent. -/
def finInt (neg : Bool) (m : Nat) (e q : Int) : Int :=
  let k : Int := (m * 2 ^ (e - q).toNat : Nat)
  if neg then -k else k

/-- Is the value a zero? -/
def FV.isZero : FV → Bool
  | .fin _ m _ => m == 0
  | _ => false

/-- Is the value neither infinite nor NaN? -/
def FV.isFin : FV → Bool
  | .fin _ _ _ => true
  | _ => false

/-- Scale an exact value by a power of two. -/
def FV.scale (v : FV) (k : Int) : FV :=
  match v with
  | .fin n m e => .fin n m (e + k)
  | o => o

/-- Exact sum with IEEE 754 special values and zero signs; an exact zero of opposite signs is −0 toward −∞ only (R132). -/
def FV.add (mode : Rnd) (a b : FV) : FV × Flags :=
  match a, b with
  | .nan, _ => (.nan, 0)
  | _, .nan => (.nan, 0)
  | .inf x, .inf y => if x == y then (.inf x, 0) else (.nan, fInvalid)
  | .inf x, _ => (.inf x, 0)
  | _, .inf y => (.inf y, 0)
  | .fin x m e, .fin y n f =>
    let q := min e f
    let s := finInt x m e q + finInt y n f q
    if s = 0 then
      (.fin (if m = 0 ∧ n = 0 ∧ x = y then x else mode == .rdn) 0 0, 0)
    else (FV.ofInt s q, 0)

/-- Exact product with IEEE 754 special values (R132). -/
def FV.mul (a b : FV) : FV × Flags :=
  match a, b with
  | .nan, _ => (.nan, 0)
  | _, .nan => (.nan, 0)
  | .inf x, .inf y => (.inf (x != y), 0)
  | .inf x, .fin y n _ => if n = 0 then (.nan, fInvalid) else (.inf (x != y), 0)
  | .fin x m _, .inf y => if m = 0 then (.nan, fInvalid) else (.inf (x != y), 0)
  | .fin x m e, .fin y n f => (.fin (x != y) (m * n) (e + f), 0)

/-- Order of two values that are not NaN: −1, 0 or 1; zeros are equal. -/
def FV.cmp (a b : FV) : Int :=
  match a, b with
  | .inf x, .inf y => if x == y then 0 else if x then -1 else 1
  | .inf x, _ => if x then -1 else 1
  | _, .inf y => if y then 1 else -1
  | .fin x m e, .fin y n f =>
    let q := min e f
    let d := finInt x m e q - finInt y n f q
    if d < 0 then -1 else if d = 0 then 0 else 1
  | _, _ => 0

/-- floor(log2 |v|) of a non-zero finite value. -/
def FV.ilog (v : FV) : Int :=
  match v with
  | .fin _ m e => (Nat.log2 m : Int) + e
  | _ => 0

/-! ### Stochastic rounding -/

/-- The counter-based generator of R142. -/
def srBits (seed ctr : W64) (e : Nat) : W64 :=
  let z0 : W64 := seed ^^^ (ctr * 0x9E3779B97F4A7C15#64) ^^^ (BitVec.ofNat 64 e * 0xD1B54A32D192ED03#64)
  let z1 := (z0 ^^^ (z0 >>> 30)) * 0xBF58476D1CE4E5B9#64
  let z2 := (z1 ^^^ (z1 >>> 27)) * 0x94D049BB133111EB#64
  z2 ^^^ (z2 >>> 31)

/-- The rounding mode of a code of Table 3-10 for element e of an instruction that took counter value c (R142, R143). -/
def rndOf (code : BitVec 3) (seed c : W64) (e : Nat) : Rnd :=
  match code with
  | 0 => .rne
  | 1 => .rtz
  | 2 => .rdn
  | 3 => .rup
  | _ => .sr (srBits seed c e >>> 32).toNat

/-! ### Formats by code -/

/-- The floating-point element of a format code (Table 5-1). -/
def fpOf (fmt : BitVec 4) : Option Fp :=
  match fmt with
  | 0x0 => some fp32
  | 0x1 => some bf16
  | 0x2 => some fp16
  | 0x3 => some e4m3
  | 0x4 => some e5m2
  | 0x5 => some e4m3
  | 0x6 => some e5m2
  | 0x7 => some e2m3
  | 0x8 => some e3m2
  | 0x9 => some e2m1
  | 0xA => some e2m1
  | _ => none

/-- Is the code one of the block formats (R133)? -/
def isBlock (fmt : BitVec 4) : Bool :=
  decide (0x5 ≤ fmt.toNat ∧ fmt.toNat ≤ 0xA) || fmt == 0xD

/-- The 4-bit codes (Table 5-3). -/
def isNibble (fmt : BitVec 4) : Bool := fmt == 0x9 || fmt == 0xA || fmt == 0xC

/-- Element bits as stored, in a byte string unit: 4 for nibbles, 8 for 8-bit and 6-bit codes, 16, 32, 128. -/
def elemBits (fmt : BitVec 4) : Nat :=
  match fmt with
  | 0x0 => 32
  | 0x1 => 16
  | 0x2 => 16
  | 0x9 => 4
  | 0xA => 4
  | 0xC => 4
  | 0xE => 128
  | _ => 8

/-- The value of an element's stored bits, before any scale (Table 5-1, R135). -/
def elemVal (fmt : BitVec 4) (bits : Nat) : FV :=
  match fpOf fmt with
  | some F => F.decode (bits % 2 ^ F.width)
  | none =>
    if fmt == 0xC then FV.ofInt (sgn 4 bits) 0
    else if fmt == 0xD then FV.ofInt (sgn 8 bits) (-6)
    else FV.ofInt (sgn 8 bits) 0

/-- The value of an element under its block's scale and nudge (R133, R134). -/
def scaledVal (fmt : BitVec 4) (bits scale nudge : Nat) : FV :=
  if isBlock fmt then
    if scale = 0xFF then .nan
    else (elemVal fmt bits).scale ((scale : Int) - 127 - (if fmt == 0xA then (nudge : Int) else 0))
  else elemVal fmt bits

/-- Largest element exponent of Table 5-6. -/
def emaxOf (fmt : BitVec 4) : Int :=
  match fmt with
  | 0x5 => 8
  | 0x6 => 15
  | 0x7 => 2
  | 0x8 => 4
  | 0xD => 0
  | _ => 2

/-- Encode one element of a block format (R140): the value already divided by the block's scale. -/
def blockElem (fmt : BitVec 4) (mode : Rnd) (v : FV) : Nat × Flags :=
  match fpOf fmt with
  | some F => roundFp F true mode v
  | none =>
    -- MXINT8: the integer times 2^−6; a magnitude above the largest finite, 127 steps, gives that element, overflow and inexact
    let r := roundInt (-127) 127 mode (v.scale 6)
    (wrapN 8 r.1, if r.2 = fOverflow then fOverflow ||| fInexact else r.2)

/-- The largest magnitude of a list of finite values, as the value itself; zero for none. -/
def amax (l : List FV) : FV :=
  l.foldl (fun a v => if FV.cmp a v.abs < 0 then v.abs else a) (.fin false 0 0)

/-- A block in a block format (R133, R134): scale byte, nudges of the four groups, element bits. -/
structure Block where
  scale : Nat
  nudge : List Nat
  elems : List Nat
  deriving DecidableEq, Repr

/-- The nudge of one group (R141). -/
def nudgeOf (top : FV) (grp : List FV) : Nat :=
  let g := amax grp
  if g.isZero then 3 else (min 3 (top.ilog - g.ilog)).toNat

/-- Conversion of 32 exact values into a block format (R140, R141, Table 5-5). Where S is 0xFF the rule gives the element bytes and
is silent on YF4's nudge byte: it is written as zero (DESIGN CHOICE, log entry 117). -/
def toBlock (fmt : BitVec 4) (mode : Nat → Rnd) (vs : List FV) : Block × Flags :=
  if vs.any (fun v => !v.isFin) then
    (⟨0xFF, [0, 0, 0, 0], List.replicate 32 0⟩, fInvalid)
  else
    let top := amax vs
    if top.isZero then
      let nud := if fmt == 0xA then [3, 3, 3, 3] else [0, 0, 0, 0]
      (⟨0, nud, vs.map (fun v => (blockElem fmt .rne v).1)⟩, 0)
    else
      let x : Int := max (-127) (min 127 (top.ilog - emaxOf fmt))
      let nud : List Nat :=
        if fmt == 0xA then (List.range 4).map (fun g => nudgeOf top ((vs.drop (8 * g)).take 8)) else [0, 0, 0, 0]
      let es := vs.zipIdx.map (fun p => blockElem fmt (mode p.2) (p.1.scale ((nud.getD (p.2 / 8) 0 : Int) - x)))
      (⟨(x + 127).toNat, nud, es.map (·.1)⟩, es.foldl (fun f p => f ||| p.2) 0)

/-- The 64 bytes of a block record, as a number (Table 5-3). -/
def recordOf (fmt : BitVec 4) (b : Block) : Nat :=
  if isNibble fmt then
    let el := (b.elems.zipIdx).foldl (fun a p => a + (p.1 % 16) * 2 ^ (4 * p.2)) 0
    let nb := if fmt == 0xA then (b.nudge.zipIdx).foldl (fun a p => a + (p.1 % 4) * 2 ^ (2 * p.2)) 0 else 0
    el + b.scale * 2 ^ 128 + nb * 2 ^ 136
  else
    (b.elems.zipIdx).foldl (fun a p => a + (p.1 % 256) * 2 ^ (8 * p.2)) 0 + b.scale * 2 ^ 256

/-- The 32 exact values of a block record (Table 5-3, R133 to R136). -/
def recordVals (fmt : BitVec 4) (rec : Nat) : List FV :=
  if isNibble fmt then
    (List.range 32).map (fun i => scaledVal fmt (field rec (4 * i) 4) (field rec 128 8) (field rec (136 + 2 * (i / 8)) 2))
  else
    (List.range 32).map (fun i => scaledVal fmt (field rec (8 * i) 8) (field rec 256 8) 0)

/-! ### Fixed-window values -/

/-- The exact value of an integer on the grid of anchor w (R146). -/
def fwaVal (w : Int) (i : Int) : FV := FV.ofInt i (w - 64)

/-- Fixed-window add modulo 2^128 (R152). -/
def fwaAdd (a b : W128) : W128 := a + b

/-! ### Exponential, logarithm, reciprocal and reciprocal square root (R81, Table 3-22) -/

/-- Fraction bits of the intermediate values below; every result carries an odd last bit below them where it is inexact,
so that one rounding to FP32 is the correctly rounded result. -/
def fracBits : Nat := 320

/-- Σ over i < n of t^(2i+1)/(2i+1), scaled, for t = num/den below 1 (the odd series of the inverse hyperbolic tangent). -/
def artanhSeries : Nat → Nat → Nat → Nat → Nat → Nat
  | 0, _, _, _, _ => 0
  | n + 1, i, pw, n2, d2 => pw / (2 * i + 1) + artanhSeries n (i + 1) (pw * n2 / d2) n2 d2

/-- 2^fracBits × artanh(num/den). -/
def artanhFix (num den : Nat) : Nat :=
  artanhSeries 130 0 (num * 2 ^ fracBits / den) (num * num) (den * den)

/-- 2^fracBits × ln 2 (= 2 artanh(1/3)). -/
def ln2Fix : Nat := 2 * artanhFix 1 3

/-- Taylor terms of e^r, scaled. -/
def expSeries : Nat → Nat → Nat → Nat → Nat
  | 0, _, _, _ => 0
  | n + 1, i, term, r => term + expSeries n (i + 1) (term * r / 2 ^ fracBits / i) r

/-- e^x for a finite x, exact up to a sticky last bit. -/
def expV (neg : Bool) (m : Nat) (e : Int) : FV :=
  if m = 0 then .fin false 1 0
  else if decide (8 ≤ (Nat.log2 m : Int) + e) then .fin false 1 (if neg then -1000 else 1000)
  else
    let mag : Nat := (onGrid m e (-(fracBits : Int))).1
    let sticky : Nat := if (onGrid m e (-(fracBits : Int))).2.1 = 0 then 0 else 1
    let x : Int := if neg then -((mag + sticky : Nat) : Int) else mag
    let n : Int := x / (ln2Fix : Int)
    let r : Nat := (x % (ln2Fix : Int)).toNat
    let s := expSeries 90 1 (2 ^ fracBits) r
    .fin false (2 * s + 1) (n - fracBits - 1)

/-- ln x for a finite x > 0 other than 1, exact up to a sticky last bit. -/
def logV (m : Nat) (e : Int) : FV :=
  let k := Nat.log2 m
  let top : Int := (k : Int) + e
  -- x = f × 2^top with f = m / 2^k in [1, 2)
  let l : Nat := 2 * artanhFix (m - 2 ^ k) (m + 2 ^ k)
  let v : Int := top * (ln2Fix : Int) + l
  if m = 2 ^ k ∧ top = 0 then .fin false 0 0
  else .fin (decide (v < 0)) (2 * v.natAbs + 1) (-(fracBits : Int) - 1)

/-- 1/x for a finite non-zero x, exact up to a sticky last bit. -/
def rcpV (neg : Bool) (m : Nat) (e : Int) : FV :=
  let q := 2 ^ fracBits / m
  .fin neg (2 * q + (if 2 ^ fracBits % m = 0 then 0 else 1)) (-(fracBits : Int) - e - 1)

/-- Integer square root from bit b down. -/
def isqrtBits : Nat → Nat → Nat → Nat
  | 0, _, r => r
  | b + 1, n, r => isqrtBits b n (if (r + 2 ^ b) * (r + 2 ^ b) ≤ n then r + 2 ^ b else r)

/-- 1/√x for a finite x > 0, exact up to a sticky last bit. -/
def rsqrtV (m : Nat) (e : Int) : FV :=
  let m' := if e % 2 = 0 then m else 2 * m
  let e' := if e % 2 = 0 then e else e - 1
  let n := 2 ^ (2 * 200) / m'
  let s := isqrtBits 201 n 0
  .fin false (2 * s + (if s * s * m' = 2 ^ (2 * 200) then 0 else 1)) (-200 - e' / 2 - 1)

/-- Table 3-22: the four functions; `fn` is 0 VEXP, 1 VLOG, 2 VRCP, 3 VRSQRT. -/
def special (fn : Nat) (v : FV) : FV × Flags :=
  match v with
  | .nan => (.nan, 0)
  | .inf neg =>
    if fn = 0 then (if neg then .fin false 0 0 else .inf false, 0)
    else if fn = 1 then (if neg then (.nan, fInvalid) else (.inf false, 0))
    else if fn = 2 then (.fin neg 0 0, 0)
    else (if neg then (.nan, fInvalid) else (.fin false 0 0, 0))
  | .fin neg m e =>
    if m = 0 then
      if fn = 0 then (.fin false 1 0, 0)
      else if fn = 1 then (.inf true, 0)
      else (.inf neg, 0)
    else if fn = 0 then (expV neg m e, 0)
    else if fn = 2 then (rcpV neg m e, 0)
    else if neg then (.nan, fInvalid)
    else if fn = 1 then (logV m e, 0)
    else (rsqrtV m e, 0)

/-- One of the four functions rounded once to FP32, ties to even (R81). -/
def special32 (fn : Nat) (v : FV) : Nat × Flags :=
  let s := special fn v
  let r := roundFp fp32 false .rne s.1
  (r.1, s.2 ||| r.2)

/-! ### Arithmetic rounded into a format -/

/-- Round a result into a format and join the flags. -/
def finish (F : Fp) (mode : Rnd) (r : FV × Flags) : Nat × Flags :=
  let c := roundFp F false mode r.1
  (c.1, r.2 ||| c.2)

/-- a + b in a format. -/
def fadd (F : Fp) (mode : Rnd) (a b : Nat) : Nat × Flags := finish F mode (FV.add mode (F.decode a) (F.decode b))
/-- a − b in a format. -/
def fsub (F : Fp) (mode : Rnd) (a b : Nat) : Nat × Flags := finish F mode (FV.add mode (F.decode a) (F.decode b).neg)
/-- a × b in a format. -/
def fmul (F : Fp) (mode : Rnd) (a b : Nat) : Nat × Flags := finish F mode (FV.mul (F.decode a) (F.decode b))
/-- d ± a × b with one rounding; 0 × ∞ is invalid even where d is a NaN (R132). -/
def ffma (F : Fp) (mode : Rnd) (sub : Bool) (d a b : Nat) : Nat × Flags :=
  let p := FV.mul (F.decode a) (F.decode b)
  let s := FV.add mode (F.decode d) (if sub then p.1.neg else p.1)
  let c := roundFp F false mode s.1
  (c.1, p.2 ||| s.2 ||| c.2)

end Sys2Proof.Machine
end

