-- ==== Sys2Proof/Machine/RankBus.lean ====
section
/-! DEFINITION. Combining of atomics (R175) and the rank buses (R206 to R210). -/
namespace Sys2Proof

/-- Is a beat's sideband one that Table 7-9 admits? -/
def Beat.ok (b : Beat) : Bool :=
  let many := decide (1 < ((List.range 16).filter (fun i => b.fmask.getLsbD i)).length)
  decide (1 ≤ b.kind.toNat ∧ b.kind.toNat ≤ 4) && (b.kind == 1 || (!b.diebc && !many))

end Sys2Proof

namespace Sys2Proof.Machine

/-! ### Combining (R175, Tables 6-4 and 6-7) -/

/-- Bytes of an atomic element; none for a reserved code. -/
def atomSize (ty : Nat) : Option Nat := [4, 8, 4, 2, 16][ty]?

/-- Is the pair of Table 6-7 allowed? -/
def atomPair (op ty : Nat) : Bool :=
  decide (op ≤ 5) && decide (ty ≤ 4) &&
    (if op = 0 then true else if op ≤ 2 then ty != 4 else decide (ty ≤ 1))

/-- Smaller or larger of two floating-point codes: any NaN gives the default NaN, −0 lies below +0. -/
def fpMinMax (F : Fp) (isMin : Bool) (a b : Nat) : Nat :=
  match F.decode a, F.decode b with
  | .nan, _ => F.defNan
  | _, .nan => F.defNan
  | x, y =>
    let less := decide (FV.cmp x y < 0) || (FV.cmp x y == 0 && bit a (F.ebits + F.mbits))
    if less == isMin then a else b

/-- One element combined: dst AOP src, each of `w` bits. -/
def combine (op ty dst src : Nat) : Nat :=
  let w := 8 * (atomSize ty).getD 4
  let F := if ty = 3 then bf16 else fp32
  let fp := ty = 2 ∨ ty = 3
  match op with
  | 0 => if fp then (fadd F .rne dst src).1 else (dst + src) % 2 ^ w
  | 1 => if fp then fpMinMax F true dst src else if sgn w dst ≤ sgn w src then dst else src
  | 2 => if fp then fpMinMax F false dst src else if sgn w dst ≤ sgn w src then src else dst
  | 3 => dst &&& src
  | 4 => dst ||| src
  | _ => dst ^^^ src

/-- Combine a byte string with another, element by element. -/
def combineBytes (op ty : Nat) (dst src : List Byte) : List Byte :=
  let z := (atomSize ty).getD 4
  (List.range (src.length / z)).flatMap (fun i => leBytes z (combine op ty (leAt dst (i * z) z) (leAt src (i * z) z)))

/-! ### Rank buses (R206 to R210) -/

/-- Write the words of a beat that WEN names. -/
def State.beatWrite (s : State) (k row : Nat) (wen : Byte) (data : W512) : State :=
  (List.range 8).foldl (fun a w =>
    if wen.getLsbD w then a.spadWr k (row * 64 + 8 * w) (leBytes 8 (data.extractLsb' (64 * w) 64).toNat) else a) s

/-- Rank buses that a beat is driven on: its own, or those that RMASK selects. -/
def beatRanks (rank : Nat) (b : Beat) : List Nat := if b.diebc then (List.range 16).filter (fun m => b.rmask.getLsbD m) else [rank]

/-- Sites that a beat addresses: physical sites of the logical core files; holes are bypassed. -/
def State.beatSites (s : State) (d rank : Nat) (b : Beat) : List Nat :=
  (beatRanks rank b).flatMap (fun m =>
    ((List.range 16).filter (fun l => b.fmask.getLsbD l)).map (fun l => d * 272 + m * 17 + physFile (s.coreHole d m) l))

/-- A beat takes its bank cycle: a write or a response is stored; a read request reads the row with its ECC and answers its words; an
atomic beat combines the words that WEN names with its data, by the AOP and ATYPE of its packet (R175). -/
def State.beatDo (s : State) (k : Nat) (b : Beat) : State :=
  let row := b.row.toNat
  if b.kind = 1 ∨ b.kind = 4 then s.beatWrite k row b.wen b.data
  else
    let ws := if b.kind = 2 then (List.range 8).map (fun w => row * 8 + w) else ((List.range 8).filter (fun w => b.wen.getLsbD w)).map (fun w => row * 8 + w)
    let bad := (s.core k).badRow ws
    let s1 := s.modCore k (fun c => c.engineRead ws)
    match bad with
    | some r => s1.engineExc k (excEcc 0xF r)
    | none =>
      if b.kind = 2 then { s1 with answer := s1.spadRd k (row * 64) 64 }
      else
        let z := (atomSize (field b.attr.toNat 8 4)).getD 4
        let new := combineBytes (field b.attr.toNat 12 4) (field b.attr.toNat 8 4) (s1.spadRd k (row * 64) 64) (leBytes 64 b.data.toNat)
        if z = 16 ∧ b.wen.toNat % 4 % 3 ≠ 0 then s1 else s1.beatWrite k row b.wen (BitVec.ofNat 512 (leNat new))

/-- The buffered beats of a core's rank-bus port take their bank cycles, in order (R207). -/
def State.drainRx (s : State) (k : Nat) : State :=
  (s.core k).rx.foldl (fun t b => t.beatDo k b) (if (s.core k).rx.isEmpty then s else s.modCore k (fun c => { c with rx := [] }))

/-- Has the router that drives a beat a credit at a site: it holds two of the four places of the receive buffer (R207)? Sites that drop
the beat take none. -/
def State.beatCredit (s : State) (k : Nat) (b : Beat) : Bool := decide (((s.core k).rx.filter (fun x => x.fromE == b.fromE)).length < 2)

/-- A beat at one site: fenced and unpowered sites drop it (R210). It waits in the receive buffer behind earlier ones; one that loses
its bank cycle to the rivals stays there and is retried (R155, R207). (DESIGN CHOICE, log entry 35.) -/
def State.beatAt (s : State) (k : Nat) (b : Beat) (rivals : List Rival) : State :=
  if s.siteFenced k ∨ (s.core k).st = 7 then s
  else
    let s0 := s.drainRx k
    let reqs := (13, b.row.toNat / 2048) :: rivalReqs rivals
    let s1 := if rivals.isEmpty then s0 else s0.collide k reqs
    if (cycleLosers (s0.claimsOf k) reqs).any (fun e => e.1 == 13) then s1.modCore k (fun c => { c with rx := c.rx ++ [b] }) else s1.beatDo k b

/-- Is it a router's turn on the buses of a beat: where both have a beat ready they alternate, starting with W (R206)? -/
def Die.turnOf (e : Die) (rank : Nat) (b : Beat) : Bool := !b.both || (beatRanks rank b).all (fun m => e.turnE.contains m == b.fromE)

/-- BEAT (R206 to R210): an inbound beat of a rank bus reaches the sites it addresses, on its router's turn and where the router holds a
credit at every one. A die without spine supply drives nothing. (DESIGN CHOICE, log entry 35.) -/
def execBeat (d : Fin 144) (rank : Fin 16) (b : Beat) (rivals : List Rival) (s : State) : Host.Outcome State Fault Refusal :=
  .next (if b.ok && s.meshOn d.val && (s.die d.val).turnOf rank.val b && (s.beatSites d.val rank.val b).all (fun k => s.beatCredit k b) then
      let s1 := s.modDie d.val (fun e =>
        { e with turnE := (beatRanks rank.val b).foldl (fun l m => if b.fromE then l.erase m else addNew m l) e.turnE })
      (s.beatSites d.val rank.val b).foldl (fun a k => a.beatAt k b rivals) s1
    else s)

end Sys2Proof.Machine
end

