-- ==== Sys2Proof/Machine/Access.lean ====
section
/-! DEFINITION. Performing reads, writes and atomics at their destination: memory stacks with ECC, dirty pages and write
holds (10_memory_stacks.md), scratchpads by packet (R156, R157, R164), context table and census (R177, R178). -/
namespace Sys2Proof.Machine

/-! ### Units of a stack (R248, R257 to R262) -/

def State.modHbm (s : State) (f : Hbm → Hbm) : State := { s with hbm := f s.hbm }
def State.stack (s : State) (t : Nat) : Stack := sget Stack.reset s.hbm.stackMap t
def State.modStack (s : State) (t : Nat) (f : Stack → Stack) : State :=
  s.modHbm (fun h => { h with stackMap := smod Stack.reset h.stackMap t f })
def State.slice (s : State) (sl : Nat) : Slice := sget Slice.reset s.hbm.slices sl
def State.modSlice (s : State) (sl : Nat) (f : Slice → Slice) : State :=
  s.modHbm (fun h => { h with slices := smod Slice.reset h.slices sl f })

/-- Slice and stack of a unit of the placed view. -/
def sliceOfUnit (u : Nat) : Nat := sliceOf (64 * u)
def stackOfUnit (u : Nat) : Nat := stackOf (64 * u)

/-- Key of a unit's bank and of its row; the hash of R248 decides only timing and the rows of R260. -/
def bankKey (u : Nat) : Nat := sliceOfUnit u * 1024 + Config.hbmBank u % 1024
def rowKey (u : Nat) : Nat := bankKey u * 2 ^ 20 + Config.hbmRow u % 2 ^ 20

/-- MEM_SSTAT.STATE of a stack. -/
def State.stackState (s : State) (t : Nat) : Nat := s.regF (Reg.sstat t) 28 4
/-- Is a stack lost (R260)? -/
def State.stackLost (s : State) (t : Nat) : Bool := s.stackState t == 4

/-- A row is marked for repair (R260). -/
def State.markRepair (s : State) (u : Nat) : State :=
  (s.modHbm (fun h => { h with repair := addNew (rowKey u) h.repair })).setRegF (Reg.sstat (stackOfUnit u)) 25 1 1

/-- MEM_SERR records the address of an error. (DEDUCED, log entry 85.) -/
def State.serr (s : State) (u : Nat) (ue : Bool) : State :=
  let t := stackOfUnit u
  (s.setReg (Reg.serrLo t) (BitVec.ofNat 32 (64 * u))).modStack t
    (fun k => { k with errHi := bitN ue * 2 ^ 31 + 64 * u / 2 ^ 32 % 2 ^ 12 })

/-! The code of R257: 64 data and 8 check symbols over GF(2^8), whose check equations include the unit's address. It corrects up to 3 wrong
symbols and detects up to 5; a codeword of another address fails. -/

def Hbm.errAt (h : Hbm) (u : Nat) : UnitErr := sget (.symbols []) h.errs u
/-- Does a unit hold errors that the code corrects? -/
def Hbm.ceAt (h : Hbm) (u : Nat) : Bool := match h.errAt u with
  | .symbols l => decide (1 ≤ l.length ∧ l.length ≤ 3)
  | .misplaced => false
/-- Does it hold errors that the code detects and cannot correct? -/
def Hbm.ueAt (h : Hbm) (u : Nat) : Bool := match h.errAt u with
  | .symbols l => decide (4 ≤ l.length) && (decide (l.length ≤ 5) || Config.rsDetects l)
  | .misplaced => true
/-- Does the code take it for another codeword? -/
def Hbm.missAt (h : Hbm) (u : Nat) : Bool := match h.errAt u with
  | .symbols l => decide (6 ≤ l.length) && !Config.rsDetects l
  | .misplaced => false
/-- The stored codeword of a unit is right again. -/
def Hbm.mend (h : Hbm) (u : Nat) : Hbm := { h with errs := sdel h.errs u }

/-- A corrected error is counted and waits for its write-back; a row at its limit is marked (R258, R260). -/
def State.unitCe (s : State) (u : Nat) (back : Bool) : State :=
  let n := sget 0 s.hbm.rowErr (rowKey u) + 1
  let s1 := ((s.countReg (Reg.sce (stackOfUnit u)) 1).serr u false).modHbm (fun h =>
    { h with rowErr := sput 0 h.rowErr (rowKey u) n, wb := if back then addNew u h.wb else h.wb })
  if max 1 (s.regF Reg.memCfg 0 16) ≤ n then s1.markRepair u else s1

/-- A read meets an uncorrectable unit, found now or poisoned before: MEM_SUE counts it, MEM_SERR names it, and the management controller
is told (R259). -/
def State.ueMet (s : State) (u : Nat) : State :=
  let t := stackOfUnit u
  ((s.setRegF (Reg.sue t) 16 16 (satAdd 16 (s.regF (Reg.sue t) 16 16) 1)).serr u true).raiseFree 0x0011 (grantOwner (s.grantOf (sliceOfUnit u)))

/-- An uncorrectable unit is found: it is poisoned and reported, and its row marked (R259, R260). -/
def State.unitUe (s : State) (u : Nat) : State :=
  ((s.markRepair u).modHbm (fun h => { h.mend u with poison := addNew u h.poison, wb := h.wb.erase u })).ueMet u

/-- The code takes a unit for another codeword: its data become free bytes, counted as corrected. -/
def State.unitMissed (s : State) (u : Nat) : State :=
  let bs := (List.range 64).map (Config.freeByte s.freeCtr)
  (({ s with mem := wrN s.mem (64 * u) bs }.freshen).modHbm (fun h => h.mend u)).unitCe u false

/-- The ECC of a unit that is read: corrected errors are noted once until they are written back. -/
def State.unitEcc (s : State) (u : Nat) : State :=
  let s0 := if s.hbm.missAt u then s.unitMissed u else s
  let s1 := if s0.hbm.ceAt u && !s0.hbm.wb.contains u then s0.unitCe u true else s0
  if s1.hbm.ueAt u then s1.unitUe u else s1

/-- An access to a unit activates its row, unless the combining buffer serves it; at the threshold a refresh-management command is issued
and counted (R262). The command is done before the next activation, so none is held at the maximum: a hold is timing. -/
def State.activate (s : State) (u : Nat) : State :=
  let b := sget Bank.reset s.hbm.banks (bankKey u)
  if b.row = some (Config.hbmRow u) ∨ (s.stack (stackOfUnit u)).hot.any (fun h => h.1 == u) = true then s
  else
    let n := b.acts + 1
    let hit := decide (Config.rfmThreshold (stackOfUnit u) ≤ n)
    let s1 := s.modHbm (fun h =>
      { h with banks := sput Bank.reset h.banks (bankKey u) { b with row := some (Config.hbmRow u), acts := if hit then 0 else n } })
    if hit then s1.countReg (Reg.srfm (stackOfUnit u)) 1 else s1

/-- Units that n bytes at an address touch. -/
def unitsOf (pa n : Nat) : List Nat := if n = 0 then [] else (List.range ((pa + n - 1) / 64 - pa / 64 + 1)).map (· + pa / 64)

/-- Read memory: the bytes, or none where a unit is poisoned, which the registers and the event name again (R259). -/
def State.hbmRead (s : State) (pa n : Nat) : State × Option (List Byte) :=
  let us := unitsOf pa n
  let s1 := us.foldl (fun a u => (a.activate u).unitEcc u) s
  match us.find? s1.hbm.poison.contains with
  | some u => (if s.hbm.poison.contains u then s1.ueMet u else s1, none)
  | none => (s1, some (rdN s1.mem pa n))

/-- ECC of a unit that is written whole or in part (R248, R258, R259). -/
def State.unitWritten (s : State) (u : Nat) (whole : Bool) : State :=
  if whole then s.modHbm (fun h => { h.mend u with poison := h.poison.erase u, wb := h.wb.erase u })
  else (s.unitEcc u).modHbm (fun h => { h.mend u with wb := h.wb.erase u })

/-- Write memory; `mark` says whether the page is marked dirty (R264). -/
def State.hbmWrite (s : State) (pa : Nat) (bs : List Byte) (mark : Bool) : State :=
  let us := unitsOf pa bs.length
  let s1 := us.foldl (fun a u =>
    (a.activate u).unitWritten u (decide (pa ≤ 64 * u) && decide (64 * u + 64 ≤ pa + bs.length))) s
  let s2 := { s1 with mem := wrN s1.mem pa bs }
  if mark then
    us.foldl (fun a u => a.modSlice (sliceOfUnit u) (fun l => { l with cur := l.cur ||| BitVec.ofNat 512 (2 ^ pageOf (64 * u)) })) s2
  else s2

/-- Is a write to an address held for a capture (R266)? -/
def State.writeHeld (s : State) (pa : Nat) : Bool := (s.slice (sliceOf pa)).cap.getLsbD (pageOf pa)

/-! ### Capture of a page (R265, R266, R419) -/

/-- Slices that a partition owns. -/
def State.ownedSlices (s : State) (p : Nat) : List Nat :=
  (List.range 3072).filter (fun sl => let g := s.grantOf sl; g.getLsbD 31 && grantOwner g == p)

/-- Is the buddy another panel (R414)? -/
def State.remoteBuddy (s : State) : Option Nat :=
  let q := s.regF Reg.buddy 0 13
  if (s.reg Reg.buddy).getLsbD 31 && q != s.ownId then some q else none

/-- A packet of the store manager to the buddy (R419, Tables 16-14 and 16-15). Its tag names the partition, the function and the
generation being captured. (DESIGN CHOICE, log entry 19.) -/
def State.storePacket (s : State) (p q opc attr addr : Nat) (pay : List Byte) : Packet :=
  { Packet.blank with
    opc := BitVec.ofNat 4 opc, cls := if opc = 0xF then 3 else 2, len := BitVec.ofNat 4 (pay.length / 64)
    dpanel := BitVec.ofNat 16 q, spanel := BitVec.ofNat 16 s.ownId, sep := s.mcSep, part := BitVec.ofNat 4 p
    tree := BitVec.ofNat 12 (s.part p).tree, tag := BitVec.ofNat 16 (p + 16 * (if opc = 0xF then attr else opc) + 256 * ((s.part p).nextGen % 256)), attr := BitVec.ofNat 16 attr
    addr := BitVec.ofNat 64 addr, payload := pay }

/-- A page that the capture engine has read streams to the buddy. -/
def State.sendPage (s : State) (sl pg : Nat) : State :=
  let p := grantOwner (s.grantOf sl)
  let base := 0x40000000000 + sl * 2 ^ 30 + pg * 2 ^ 21
  match s.remoteBuddy, (s.part p).capturing with
  | some b, some c =>
    (List.range 4096).foldl (fun (t : State) i =>
      t.inject (.pc (sl / 64) (sl % 64)) (t.storePacket p b 0xD 64
        ((if c.pages = 512 * (t.ownedSlices p).length then 4 else 5) * 2 ^ 60 + c.gen % 16 * 2 ^ 56 + sl * 2 ^ 30 + pg * 2 ^ 21 + 512 * i)
        (rdN s.mem (base + 512 * i) 512))) (s.modPart p (fun q => { q with puts := q.puts + 4096 }))
  | _, _ => s

/-- The capture engine reads a page with ECC correction, clears its capture bit and hands the page to the store; a unit found
uncorrectable is recorded as poisoned in the position (R265). -/
def State.pageRead (s : State) (sl pg : Nat) : State :=
  if (s.slice sl).cap.getLsbD pg = false then s
  else
    let u0 := (0x40000000000 + sl * 2 ^ 30 + pg * 2 ^ 21) / 64
    let inside (u : Nat) : Bool := decide (u0 ≤ u ∧ u < u0 + 2 ^ 15)
    let s0 := (List.range (2 ^ 15)).foldl (fun a i => a.activate (u0 + i)) s
    let s1 := ((s0.hbm.errs.map (·.1)).filter inside).foldl (fun a u => a.unitEcc u) s0
    let bad := s1.hbm.poison.filter inside
    let p := grantOwner (s.grantOf sl)
    let s2 := s1.modSlice sl (fun l => { l with cap := l.cap &&& ~~~(BitVec.ofNat 512 (2 ^ pg)) })
    ((s2.setRegF (Reg.pcap p) 0 21 (s2.regF (Reg.pcap p) 0 21 - 1)).modPart p (fun q =>
      { q with capturing := q.capturing.map (fun c => { c with poison := bad.foldl (fun l u => addNew u l) c.poison }) })).sendPage sl pg

/-! ### Requests at their destination -/

/-- An answer to a request: data, an acknowledgement, a copy cause, or none yet. -/
inductive Answer where
  | data (bs : List Byte)
  | ok
  | err (cause : Nat)
  | later
  deriving DecidableEq, Repr

/-- Who asks: a core, a near-memory unit of this panel, the host interface, a management controller, or a unit that no rule lets ask. -/
inductive Asker where
  | core | near | host | mgmt | other
  deriving DecidableEq, Repr

/-- The asker of a packet (R156, Table 10-1). -/
def State.askerOf (s : State) (p : Packet) : Asker :=
  let n := p.sep.toNat
  if n < 0x90 then .core
  else if n < 0xC0 then (if p.spanel.toNat = s.ownId then .near else .other)
  else if n = 0xD8 then .host
  else if isMc p.sep then .mgmt else .other

/-- May an asker use a slice for a partition (Tables 10-1 and 10-2)? -/
def State.mayUse (s : State) (asker : Asker) (req : Option Nat) (sl : Nat) (write : Bool) : Bool :=
  asker == .mgmt || (asker != .other && s.granted req sl write)

/-- What a request does to a run of bytes. -/
inductive Access where
  | read (n : Nat)
  | write (bs : List Byte)
  | atomic (op ty : Nat) (bs : List Byte)
  deriving DecidableEq, Repr

def Access.size : Access → Nat
  | .read n => n
  | .write bs => bs.length
  | .atomic _ _ bs => bs.length
def Access.isRead : Access → Bool
  | .read _ => true
  | _ => false
/-- The cause of an address error: 0x06 for a read, 0x07 otherwise. -/
def Access.cause (a : Access) : Nat := if a.isRead then 0x06 else 0x07

/-- An access to memory that its grant allows and no capture holds (R259, R260, R175); a stack that has tripped answers with
an error (R367). -/
def State.hbmAccess (s : State) (pa : Nat) (a : Access) : State × Answer :=
  if s.stackLost (stackOf pa) then (s, .err (if a.isRead then 0x10 else 0x07))
  else if s.rails.stacksOff.contains (stackOf pa) then (s, .err a.cause)
  else
    match a with
    | .read n => match s.hbmRead pa n with
      | (s1, some bs) => (s1, .data bs)
      | (s1, none) => (s1, .err 0x10)
    | .write bs => (s.hbmWrite pa bs true, .ok)
    | .atomic op ty bs => match s.hbmRead pa bs.length with
      | (s1, some old) => (s1.hbmWrite pa (combineBytes op ty old bs) true, .ok)
      | (s1, none) => (s1, .err 0x10)

/-- An access to a scratchpad that may be made (R162 to R164), behind the beats that wait at its port: a poisoned row answers with
uncorrectable data and its core takes exception 0x05. -/
def State.spadAccess (s : State) (k off : Nat) (a : Access) : State × Answer :=
  let s := s.drainRx k
  let ws := wordsOf off a.size
  let bad := (s.core k).badRow ws
  let s1 := s.modCore k (fun c => c.engineRead ws)
  match a with
  | .write bs => (s.spadWr k off bs, .ok)
  | .read n =>
    match bad with
    | some r => (s1.engineExc k (excEcc 0xF r), .err 0x10)
    | none => (s1, .data (s.spadRd k off n))
  | .atomic op ty bs =>
    match bad with
    | some r => (s1.engineExc k (excEcc 0xF r), .err 0x10)
    | none => (s1.spadWr k off (combineBytes op ty (s.spadRd k off bs.length) bs), .ok)

/-- Does a site keep its scratchpad in retention (R157): its region is off for heat, at Rest or by a trip (R36)? -/
def State.retained (s : State) (k : Nat) : Bool := (s.core k).st == 7 || s.regF (Reg.pwrReg (regionOf k)) 28 4 == 5

/-- May a packet reach a core's scratchpad (R24, R156, R157)? None, or the cause of the refusal. -/
def State.spadRefused (s : State) (asker : Asker) (req : Option Nat) (k : Nat) (a : Access) : Option Nat :=
  if s.siteFenced k then some a.cause
  else if s.retained k then some 0x09
  else match asker with
    | .host => none
    | .mgmt => none
    | .other => some a.cause
    | _ => if req.isSome && s.partOfCore k == req then none else some 0x09

/-- Context window of a partition (R178). -/
def State.ctxWindow (s : State) (p : Nat) : Nat × Nat :=
  (s.regF (Reg.pctx p) 0 10, s.regF (Reg.pctx p) 16 11)

/-- May a partition touch bytes of the context table? -/
def State.ctxAllowed (s : State) (req : Option Nat) (off n : Nat) : Bool :=
  match req with
  | none => false
  | some p => let w := s.ctxWindow p; decide (w.1 * 64 ≤ off) && decide (off + n ≤ (w.1 + w.2) * 64)

/-- Panel-local addresses of the context table and of the census block of a partition (Table 6-9). -/
def ctxBase : Nat := 0xE0000000000
def censusBase (p : Nat) : Nat := 0xE0000100000 + p * 0x40000

/-- An access to a decoded place on behalf of a requesting partition. A management controller's access to memory is not
checked (Table 10-1). Job windows, register space, host memory and other panels have their own rules and are refused
here. -/
def State.accessAt (s : State) (asker : Asker) (req : Option Nat) (pl : Place) (a : Access) : State × Answer :=
  match pl with
  | .hbm pa =>
    if s.mayUse asker req (sliceOf pa) (!a.isRead) then s.hbmAccess pa a else (s, .err 0x08)
  | .beyond => (s, .err 0x08)
  | .spad k off =>
    match s.spadRefused asker req k a with
    | some c => (s, .err c)
    | none => s.spadAccess k off a
  | .ctx off =>
    match a with
    | .atomic _ _ _ => (s, .err 0x0A)
    | .read n => if asker = .mgmt ∨ s.ctxAllowed req off n = true then (s, .data (rdN s.mem (ctxBase + off) n)) else (s, .err 0x06)
    | .write bs =>
      if asker = .mgmt ∨ s.ctxAllowed req off bs.length = true then ({ s with mem := wrN s.mem (ctxBase + off) bs }, .ok)
      else (s, .err 0x07)
  | .census p off =>
    match a with
    | .atomic _ _ _ => (s, .err 0x0A)
    | .write _ => (s, .err 0x07)
    | .read n => if asker = .mgmt ∨ req = some p then (s, .data (rdN s.mem (censusBase p + off) n)) else (s, .err 0x06)
  | .host bus =>
    match a with
    | .atomic _ _ _ => (s, .err 0x0A)
    | .read n => (s, .data (rdN s.hostMem bus n))
    | .write bs => ({ s with hostMem := wrN s.hostMem bus bs }, .ok)
  | _ => (s, .err a.cause)

/-- Does a panel-local address lie in the context-and-reserved range of Table 6-9, where no atomic goes (R175)? -/
def inReserved (a : Nat) : Bool := a % 2 ^ 44 / 2 ^ 40 == 0xE

/-! ### Request packets (R276, R277, R299) -/

/-- The run that a request packet names. -/
def packetAccess (p : Packet) : Access :=
  let n := 8 * wordsField p
  match p.opc.toNat with
  | 1 => .read n
  | 2 => .write (bytesAt p.payload 0 n)
  | _ => .atomic (field p.attr.toNat 12 4) (field p.attr.toNat 8 4) (bytesAt p.payload 0 n)

/-- Send a response to a packet's requester, from the unit that answers. -/
def State.answerTo (s : State) (p : Packet) (a : Answer) : State :=
  let src := s.unitOfPacket p
  match a with
  | .later => s
  | .ok => s.inject src (respond s.ownId p 6 0 [])
  | .err c => s.inject src (respond s.ownId p 7 c [])
  | .data bs =>
    let n := (bs.length + 63) / 64 * 64
    s.inject src (respond s.ownId p 5 (bs.length / 8) (bytesAt bs 0 n))

/-- Sites that a broadcast write names by its masks (R277). -/
def State.bcastSites (s : State) (p : Packet) : List Nat :=
  let a := p.addr.toNat
  let d := field a 56 8
  ((List.range 16).filter (fun m => bit a (40 + m))).flatMap (fun m =>
    ((List.range 16).filter (fun l => bit a (24 + l))).map (fun l => d * 272 + m * 17 + physFile (s.coreHole d m) l))

/-- A broadcast write (R210, R277): the beats reach every site that the masks select; fenced and unpowered sites drop
them. -/
def State.bcastWrite (s : State) (p : Packet) : State :=
  let a := p.addr.toNat
  let bs := bytesAt p.payload 0 (8 * wordsField p)
  (s.bcastSites p).foldl (fun t k => if t.siteFenced k || t.retained k then t else t.spadWr k (a % 2 ^ 21) bs) s

/-- Units that may set BCAST, in the management class. -/
def bcastOk (p : Packet) : Bool :=
  let n := p.sep.toNat
  p.cls == 3 && (n == 0xD0 || n == 0xD1 || n == 0xD8) && decide (field p.addr.toNat 56 8 < 144)

/-- Size limits of a job window (R240): a whole record from a core of this panel. -/
def jobWriteOk (own : Nat) (p : Packet) (off : Nat) : Bool :=
  p.opc == 2 && off == 0 && wordsField p == 8 && p.spanel.toNat == own && decide (p.sep.toNat < 0x90)

/-- Is the packet one that its unit can take: its ECRC and fields are good? Else it is discarded, recorded, and where the
ECRC holds answered (R276). -/
def State.vet (s : State) (p : Packet) : Option State :=
  let unit := if p.bcast then p.addr.toNat / 2 ^ 56 % 256 else match s.unitOfPacket p with
    | .core k => dieOf k
    | .pc t _ => 0x90 + t
    | .io i => 0xC0 + i
  if BitVec.ofNat 32 (ecrcOf p) ≠ p.ecrc then some (s.pkfError unit 0x01 (errCause p))
  else if packetOk p = false then
    let s1 := s.pkfError unit 0x02 (errCause p)
    some (if p.opc = 5 ∨ p.opc = 6 ∨ p.opc = 7 ∨ 4096 ≤ p.spanel.toNat then s1 else s1.answerTo p (.err (errCause p)))
  else none

/-- A packet leaves the packets under way. -/
def State.takePacket (s : State) (p : Packet) : State := { s with net := s.net.erase p }

/-- A packet of opcode `o` reaches its unit, which takes it where it is good (R276). A packet with a reserved opcode reaches any
command and is discarded (Table 11-4). -/
def State.delivered (o : BitVec 4) (p : Packet) (f : State → State) (s : State) : State :=
  if p.opc ≠ o ∧ p.opc ≠ 0 ∧ p.opc ≠ 4 then s
  else
    let s1 := s.takePacket p
    match s1.vet p with
    | some s2 => s2
    | none => f s1

/-- Where a request goes: a packet of another panel finds memory and scratchpads only (Table 11-9). -/
def State.packetPlace (s : State) (p : Packet) : Place :=
  let pl := s.place (s.requester p) p.addr.toNat
  if p.spanel.toNat = s.ownId then pl
  else match pl with
    | .ctx _ => .bad
    | .census _ _ => .bad
    | _ => pl

/-- MEM_NMERR records the first failed job until it is cleared (R243, Table 9-10). -/
def State.nmError (s : State) (t op part reason : Nat) : State :=
  if (s.reg Reg.nmerr).getLsbD 31 then s
  else s.setReg Reg.nmerr (BitVec.ofNat 32 (2 ^ 31 + t * 2 ^ 25 + op * 2 ^ 21 + part * 2 ^ 16 + reason * 2 ^ 8))

/-- Perform a request. A job window and a held write answer later; host and management accesses to a job window are ignored (R246). Register
space serves a management controller by `mgmtRequest`, and nobody else by packets (R23). -/
def State.performRequest (s : State) (p : Packet) : State :=
  if p.bcast then
    if bcastOk p then
      (s.bcastWrite p).answerTo p (if (s.bcastSites p).any s.retained then .err 0x09 else .ok)
    else s.answerTo p (.err 0x07)
  else
    let a := packetAccess p
    let req := s.requester p
    match s.packetPlace p with
    | .job t off =>
      if jobWriteOk s.ownId p off then
        let s1 := s.modStack t (fun k => { k with queue := k.queue ++ [⟨p, 0⟩] })
        let n := min 256 (s1.stack t).queue.length
        if s.regF Reg.nmqmax 0 9 < n then s1.setRegF Reg.nmqmax 0 9 n else s1
      else if s.askerOf p = .host ∨ s.askerOf p = .mgmt then s.answerTo p (if a.isRead then .data (List.replicate a.size 0) else .ok)
      else if p.opc = 2 then
        (s.nmError t (leAt p.payload 3 1 / 16) p.part.toNat 0x07).answerTo p (.err 0x07)
      else s.answerTo p (.err (if p.spanel.toNat = s.ownId then a.cause else 0x07))
    | .reg _ => s.answerTo p (.err (if p.spanel.toNat = s.ownId then a.cause else 0x07))
    | .hbm pa =>
      if s.mayUse (s.askerOf p) req (sliceOf pa) (!a.isRead) = false then s.answerTo p (.err 0x08)
      else if !a.isRead && s.writeHeld pa && !s.stackLost (stackOf pa) then
        (s.modHbm (fun h => { h with held := h.held ++ [p] })).countReg (Reg.pheld (grantOwner (s.grantOf (sliceOf pa)))) 1
      else let r := s.hbmAccess pa a; r.1.answerTo p r.2
    | pl =>
      let r := s.accessAt (s.askerOf p) req pl a
      r.1.answerTo p (if p.opc = 3 ∧ inReserved p.addr.toNat = true then .err 0x0A else r.2)

/-- What a packet's order is kept for (R58, R240): its slice, its core's scratchpad, or its stack's job window. -/
def State.orderPlace (s : State) (p : Packet) : Option Place :=
  match s.packetPlace p with
  | .hbm pa => some (.hbm (sliceOf pa))
  | .spad k _ => some (.spad k 0)
  | .job t _ => some (.job t 0)
  | _ => none

/-- Are two packets of one issuing engine, traffic class and slice (O2, R58)? -/
def State.ordered (s : State) (p q : Packet) : Bool :=
  p.spanel == q.spanel && p.sep == q.sep && p.ssite == q.ssite && p.cls == q.cls && (s.orderPlace p).isSome && s.orderPlace p == s.orderPlace q

/-- Does an earlier packet of the same order travel before this one? Then this one has not arrived yet. -/
def State.overtakes (s : State) (p : Packet) : Bool :=
  s.net.contains p && (s.net.takeWhile (· != p)).any (fun q => (q.opc == 1 || q.opc == 2 || q.opc == 3) && s.ordered p q)

/-- The first held writes of a page are performed in order once its page is read (R266). -/
def State.releaseHeld (s : State) (sl pg : Nat) : State :=
  let mine (p : Packet) : Bool := match s.packetPlace p with
    | .hbm pa => sliceOf pa == sl && pageOf pa == pg
    | _ => false
  let ps := s.hbm.held.filter mine
  ps.foldl (fun a p => a.performRequest p) (s.modHbm (fun h => { h with held := h.held.filter (fun p => !mine p) }))

/-- A write that a job or the host makes to a page that a capture has not read: it is counted, the engine reads the page, and the writes
held before it come first (R266). -/
def State.writeFreed (s : State) (pa : Nat) : State :=
  ((s.countReg (Reg.pheld (grantOwner (s.grantOf (sliceOf pa)))) 1).pageRead (sliceOf pa) (pageOf pa)).releaseHeld (sliceOf pa) (pageOf pa)

end Sys2Proof.Machine
end

