-- ==== Sys2Proof/Machine/Slots.lean ====
section
/-! DEFINITION. Slot words: reading the four slots of a bundle, the encoding checks of R78 and R452, and the registers each
slot names (R86, R87). -/
namespace Sys2Proof

/-! ### Operand formats (Table 3-7) -/

def readCR (w : W32) : CR :=
  ⟨w.extractLsb' 16 5, w.extractLsb' 11 5, w.extractLsb' 6 5, w.extractLsb' 0 6⟩
def readCI (w : W32) : CI :=
  ⟨w.extractLsb' 16 5, w.extractLsb' 11 5, w.extractLsb' 0 11⟩
def readCS (w : W32) : CS :=
  ⟨w.extractLsb' 16 5, w.extractLsb' 11 5, w.extractLsb' 0 11⟩
def readCB (w : W32) : CB :=
  ⟨w.extractLsb' 16 5, w.extractLsb' 11 5, w.extractLsb' 0 11⟩
def readCU (w : W32) : CU :=
  ⟨w.extractLsb' 16 5, w.extractLsb' 0 16⟩
def readCJ (w : W32) : CJ :=
  ⟨w.extractLsb' 16 5, w.extractLsb' 13 3, w.extractLsb' 0 13⟩
def readCP (w : W32) : CP :=
  ⟨w.extractLsb' 18 3, w.extractLsb' 13 5, w.extractLsb' 8 5, w.extractLsb' 5 3, w.extractLsb' 0 5⟩
def readCL (w : W32) : CL :=
  ⟨w.extractLsb' 18 3, w.extractLsb' 15 3, w.extractLsb' 12 3, w.extractLsb' 10 2, w.extractLsb' 5 5, w.extractLsb' 0 5⟩
def readCC (w : W32) : CC :=
  ⟨w.extractLsb' 16 5, w.extractLsb' 12 4, w.extractLsb' 0 12⟩
def readCA (w : W32) : CA :=
  ⟨w.extractLsb' 17 4, w.extractLsb' 12 5, w.extractLsb' 0 12⟩
def readCH (w : W32) : CH :=
  ⟨w.extractLsb' 17 4, w.extractLsb' 13 4, w.extractLsb' 0 13⟩
def readCO (w : W32) : CO :=
  ⟨w.extractLsb' 16 5, w.extractLsb' 11 5, w.extractLsb' 0 11⟩
def readVR (w : W32) : VR :=
  ⟨w.extractLsb' 16 5, w.extractLsb' 11 5, w.extractLsb' 6 5, w.extractLsb' 2 4, w.extractLsb' 0 2⟩
def readVM (w : W32) : VM :=
  ⟨w.extractLsb' 16 5, w.extractLsb' 12 4, w.extractLsb' 0 12⟩
def readVX (w : W32) : VX :=
  ⟨w.extractLsb' 16 5, w.extractLsb' 11 5, w.extractLsb' 5 6, w.extractLsb' 1 4, w.extractLsb' 0 1⟩
def readVC (w : W32) : VC :=
  ⟨w.extractLsb' 18 3, w.extractLsb' 13 5, w.extractLsb' 8 5, w.extractLsb' 5 3, w.extractLsb' 1 4, w.extractLsb' 0 1⟩
def readVV (w : W32) : VV :=
  ⟨w.extractLsb' 16 5, w.extractLsb' 11 5, w.extractLsb' 7 4, w.extractLsb' 3 4, w.extractLsb' 0 3⟩
def readVS (w : W32) : VS :=
  ⟨w.extractLsb' 16 5, w.extractLsb' 12 4, w.extractLsb' 8 4, w.extractLsb' 4 4, w.extractLsb' 0 4⟩
def readMM (w : W32) : MM :=
  ⟨w.extractLsb' 17 4, w.extractLsb' 13 4, w.extractLsb' 5 8, w.getLsbD 4, w.getLsbD 3, w.getLsbD 2, w.extractLsb' 0 2⟩
def readML (w : W32) : ML :=
  ⟨w.extractLsb' 17 4, w.extractLsb' 13 4, w.extractLsb' 0 13⟩
def readMO (w : W32) : MO :=
  ⟨w.extractLsb' 17 4, w.extractLsb' 13 4, w.extractLsb' 9 4, w.getLsbD 8, w.extractLsb' 0 8⟩
def readMD (w : W32) : MD :=
  ⟨w.extractLsb' 17 4, w.extractLsb' 13 4, w.extractLsb' 5 8, w.extractLsb' 2 3, w.getLsbD 1, w.getLsbD 0⟩
def readMW (w : W32) : MW :=
  ⟨w.extractLsb' 11 10, w.getLsbD 10, w.extractLsb' 0 10⟩
def readXP (w : W32) : XP :=
  ⟨w.extractLsb' 13 8, w.extractLsb' 0 13⟩
def readXC (w : W32) : XC :=
  ⟨w.extractLsb' 17 4, w.extractLsb' 12 5, w.extractLsb' 0 12⟩
def readXT (w : W32) : XT :=
  ⟨w.extractLsb' 15 6, w.extractLsb' 10 5, w.extractLsb' 7 3, w.extractLsb' 0 7⟩
def readXH (w : W32) : XH :=
  ⟨w.extractLsb' 16 5, w.extractLsb' 0 16⟩
def bitsCR (f : CR) : BitVec 21 := f.xd ++ f.xs1 ++ f.xs2 ++ f.fn
def bitsCI (f : CI) : BitVec 21 := f.xd ++ f.xs1 ++ f.imm
def bitsCS (f : CS) : BitVec 21 := f.xs2 ++ f.xs1 ++ f.imm
def bitsCB (f : CB) : BitVec 21 := f.xs1 ++ f.xs2 ++ f.off
def bitsCU (f : CU) : BitVec 21 := f.xd ++ f.imm
def bitsCJ (f : CJ) : BitVec 21 := f.xd ++ f.rsv ++ f.target
def bitsCP (f : CP) : BitVec 21 := f.pd ++ f.xs1 ++ f.xs2 ++ f.cond ++ f.rsv
def bitsCL (f : CL) : BitVec 21 := f.pd ++ f.pa ++ f.pb ++ f.fn ++ f.x ++ f.rsv
def bitsCC (f : CC) : BitVec 21 := f.x ++ f.rsv ++ f.csr
def bitsCA (f : CA) : BitVec 21 := f.an ++ f.x ++ f.imm
def bitsCH (f : CH) : BitVec 21 := f.level ++ f.rsv ++ f.lead
def bitsCO (f : CO) : BitVec 21 := f.xs1 ++ f.rsv ++ f.len
def bitsVR (f : VR) : BitVec 21 := f.vd ++ f.vs1 ++ f.vs2 ++ f.fmt ++ f.fn
def bitsVM (f : VM) : BitVec 21 := f.v ++ f.an ++ f.rsv
def bitsVX (f : VX) : BitVec 21 := f.d ++ f.src ++ f.lane ++ f.fmt ++ f.rsv
def bitsVC (f : VC) : BitVec 21 := f.pd ++ f.vs1 ++ f.vs2 ++ f.cond ++ f.fmt ++ f.rsv
def bitsVV (f : VV) : BitVec 21 := f.vd ++ f.vs1 ++ f.fmtOut ++ f.fmtIn ++ f.rnd
def bitsVS (f : VS) : BitVec 21 := f.vd ++ f.aA ++ f.aB ++ f.aD ++ f.fn
def bitsMM (f : MM) : BitVec 21 := f.aS ++ f.fmt ++ f.acc ++ BitVec.ofBool f.t ++ BitVec.ofBool f.z ++ BitVec.ofBool f.sw ++ f.pass
def bitsML (f : ML) : BitVec 21 := f.aS ++ f.fmt ++ f.rsv
def bitsMO (f : MO) : BitVec 21 := f.aX ++ f.aY ++ f.fmt ++ BitVec.ofBool f.z ++ f.rsv
def bitsMD (f : MD) : BitVec 21 := f.aD ++ f.fmt ++ f.acc ++ f.rnd ++ BitVec.ofBool f.clr ++ BitVec.ofBool f.src
def bitsMW (f : MW) : BitVec 21 := f.w ++ BitVec.ofBool f.mode ++ f.rsv
def bitsXP (f : XP) : BitVec 21 := f.set ++ f.rsv
def bitsXC (f : XC) : BitVec 21 := f.cn ++ f.x ++ f.imm
def bitsXT (f : XT) : BitVec 21 := f.g ++ f.x ++ f.pd ++ f.rsv
def bitsXH (f : XH) : BitVec 21 := f.rsv ++ f.code

/-- The instruction that slot C decodes (Table 3-8). -/
def decodeC (op : BitVec 7) (w : W32) : SlotOp :=
  match op with
  | 0x00 => .nop
  | 0x7F => .trap
  | 0x01 => .alu (readCR w)
  | 0x02 => .addi (readCI w)
  | 0x03 => .andi (readCI w)
  | 0x04 => .ori (readCI w)
  | 0x05 => .xori (readCI w)
  | 0x06 => .slli (readCI w)
  | 0x07 => .srli (readCI w)
  | 0x08 => .srai (readCI w)
  | 0x09 => .clti (readCI w)
  | 0x0A => .li (readCU w)
  | 0x0B => .insh1 (readCU w)
  | 0x0C => .insh2 (readCU w)
  | 0x0D => .insh3 (readCU w)
  | 0x10 => .ld (readCI w)
  | 0x11 => .lws (readCI w)
  | 0x12 => .lwz (readCI w)
  | 0x13 => .st (readCS w)
  | 0x14 => .sw (readCS w)
  | 0x18 => .brcEq (readCB w)
  | 0x19 => .brcNe (readCB w)
  | 0x1A => .brcLt (readCB w)
  | 0x1B => .brcGe (readCB w)
  | 0x1C => .brcLtu (readCB w)
  | 0x1D => .brcGeu (readCB w)
  | 0x1E => .j (readCJ w)
  | 0x1F => .jr (readCR w)
  | 0x20 => .loop (readCO w)
  | 0x24 => .pcmp (readCP w)
  | 0x25 => .plog (readCL w)
  | 0x26 => .pset (readCL w)
  | 0x27 => .pget (readCL w)
  | 0x28 => .csrr (readCC w)
  | 0x29 => .csrw (readCC w)
  | 0x2C => .agld (readCA w)
  | 0x2D => .agrst (readCA w)
  | 0x2E => .agbase (readCA w)
  | 0x2F => .agpos (readCA w)
  | 0x30 => .loadhint (readCH w)
  | o => .reserved o

/-- The instruction that slot V decodes (Table 3-10). -/
def decodeV (op : BitVec 7) (w : W32) : SlotOp :=
  match op with
  | 0x00 => .nop
  | 0x7F => .trap
  | 0x01 => .vadd (readVR w)
  | 0x02 => .vsub (readVR w)
  | 0x03 => .vmul (readVR w)
  | 0x04 => .vfma (readVR w)
  | 0x05 => .vfms (readVR w)
  | 0x06 => .vmax (readVR w)
  | 0x07 => .vmin (readVR w)
  | 0x08 => .vabs (readVR w)
  | 0x09 => .vneg (readVR w)
  | 0x0A => .vand (readVR w)
  | 0x0B => .vor (readVR w)
  | 0x0C => .vxor (readVR w)
  | 0x10 => .vexp (readVR w)
  | 0x11 => .vlog (readVR w)
  | 0x12 => .vrcp (readVR w)
  | 0x13 => .vrsqrt (readVR w)
  | 0x14 => .vrowstat (readVR w)
  | 0x18 => .vcmp (readVC w)
  | 0x1A => .vmov (readVR w)
  | 0x1B => .vbcast (readVX w)
  | 0x1C => .vext (readVX w)
  | 0x1D => .vcvt (readVV w)
  | 0x20 => .vld (readVM w)
  | 0x21 => .vst (readVM w)
  | 0x28 => .smerge (readVS w)
  | 0x29 => .sprobe (readVS w)
  | 0x2A => .scompact (readVS w)
  | 0x2B => .ssort (readVS w)
  | o => .reserved o

/-- The instruction that slot M decodes (Table 3-11). -/
def decodeM (op : BitVec 7) (w : W32) : SlotOp :=
  match op with
  | 0x00 => .nop
  | 0x7F => .trap
  | 0x01 => .mmul (readMM w)
  | 0x02 => .mload (readML w)
  | 0x04 => .mouter (readMO w)
  | 0x05 => .mdrain (readMD w)
  | 0x06 => .mcfg (readMW w)
  | o => .reserved o

/-- The instruction that slot X decodes (Table 3-12). -/
def decodeX (op : BitVec 7) (w : W32) : SlotOp :=
  match op with
  | 0x00 => .nop
  | 0x7F => .trap
  | 0x01 => .xply (readXP w)
  | 0x02 => .cpy (readXC w)
  | 0x03 => .cwait (readXC w)
  | 0x04 => .crd (readXC w)
  | 0x06 => .bclm (readXP w)
  | 0x08 => .arr (readXT w)
  | 0x09 => .wrel (readXT w)
  | 0x0A => .rres (readXT w)
  | 0x0B => .rflg (readXT w)
  | 0x0C => .halt (readXH w)
  | 0x0D => .xfence (readXH w)
  | 0x0E => .endp (readXT w)
  | o => .reserved o

/-- The slot's number in CORE_FAULT.SLOT (Table 3-14). -/
def slotNo : Slot → Nat
  | .c => 0
  | .v => 1
  | .m => 2
  | .x => 3

/-- A slot of a bundle: its instruction and the predicate fields of the header (Table 3-6). -/
structure SlotInst where
  op : SlotOp
  pn : Bool
  pred : BitVec 3
  deriving DecidableEq, Repr

/-- The 32-bit word of a slot (R77). -/
def slotWord (b : W128) (sl : Slot) : W32 := b.extractLsb' (32 * slotNo sl) 32

/-- Read one slot's word (R77, R78). -/
def decodeSlot (sl : Slot) (w : W32) : SlotInst :=
  let op := w.extractLsb' 25 7
  let o := match sl with
    | .c => decodeC op w
    | .v => decodeV op w
    | .m => decodeM op w
    | .x => decodeX op w
  ⟨o, w.getLsbD 24, w.extractLsb' 21 3⟩

/-- The four slots of a bundle. -/
structure Bundle where
  c : SlotInst
  v : SlotInst
  m : SlotInst
  x : SlotInst
  deriving DecidableEq, Repr

def decodeBundle (b : W128) : Bundle :=
  ⟨decodeSlot .c (slotWord b .c), decodeSlot .v (slotWord b .v), decodeSlot .m (slotWord b .m), decodeSlot .x (slotWord b .x)⟩

/-- The bundle with one slot's instruction replaced. -/
def Bundle.put (b : Bundle) (sl : Slot) (i : SlotInst) : Bundle :=
  match sl with
  | .c => { b with c := i }
  | .v => { b with v := i }
  | .m => { b with m := i }
  | .x => { b with x := i }

/-- The OP code of an instruction (Tables 3-8, 3-10, 3-11, 3-12). -/
def SlotOp.code : SlotOp → BitVec 7
  | .nop => 0x00
  | .trap => 0x7F
  | .reserved o => o
  | .alu _ => 0x01
  | .addi _ => 0x02
  | .andi _ => 0x03
  | .ori _ => 0x04
  | .xori _ => 0x05
  | .slli _ => 0x06
  | .srli _ => 0x07
  | .srai _ => 0x08
  | .clti _ => 0x09
  | .li _ => 0x0A
  | .insh1 _ => 0x0B
  | .insh2 _ => 0x0C
  | .insh3 _ => 0x0D
  | .ld _ => 0x10
  | .lws _ => 0x11
  | .lwz _ => 0x12
  | .st _ => 0x13
  | .sw _ => 0x14
  | .brcEq _ => 0x18
  | .brcNe _ => 0x19
  | .brcLt _ => 0x1A
  | .brcGe _ => 0x1B
  | .brcLtu _ => 0x1C
  | .brcGeu _ => 0x1D
  | .j _ => 0x1E
  | .jr _ => 0x1F
  | .loop _ => 0x20
  | .pcmp _ => 0x24
  | .plog _ => 0x25
  | .pset _ => 0x26
  | .pget _ => 0x27
  | .csrr _ => 0x28
  | .csrw _ => 0x29
  | .agld _ => 0x2C
  | .agrst _ => 0x2D
  | .agbase _ => 0x2E
  | .agpos _ => 0x2F
  | .loadhint _ => 0x30
  | .vadd _ => 0x01
  | .vsub _ => 0x02
  | .vmul _ => 0x03
  | .vfma _ => 0x04
  | .vfms _ => 0x05
  | .vmax _ => 0x06
  | .vmin _ => 0x07
  | .vabs _ => 0x08
  | .vneg _ => 0x09
  | .vand _ => 0x0A
  | .vor _ => 0x0B
  | .vxor _ => 0x0C
  | .vexp _ => 0x10
  | .vlog _ => 0x11
  | .vrcp _ => 0x12
  | .vrsqrt _ => 0x13
  | .vrowstat _ => 0x14
  | .vcmp _ => 0x18
  | .vmov _ => 0x1A
  | .vbcast _ => 0x1B
  | .vext _ => 0x1C
  | .vcvt _ => 0x1D
  | .vld _ => 0x20
  | .vst _ => 0x21
  | .smerge _ => 0x28
  | .sprobe _ => 0x29
  | .scompact _ => 0x2A
  | .ssort _ => 0x2B
  | .mmul _ => 0x01
  | .mload _ => 0x02
  | .mouter _ => 0x04
  | .mdrain _ => 0x05
  | .mcfg _ => 0x06
  | .xply _ => 0x01
  | .cpy _ => 0x02
  | .cwait _ => 0x03
  | .crd _ => 0x04
  | .bclm _ => 0x06
  | .arr _ => 0x08
  | .wrel _ => 0x09
  | .rres _ => 0x0A
  | .rflg _ => 0x0B
  | .halt _ => 0x0C
  | .xfence _ => 0x0D
  | .endp _ => 0x0E

/-- The slot an instruction belongs to; NOP, TRAP and reserved codes exist in each. -/
def SlotOp.slot : SlotOp → Option Slot
  | .nop => none
  | .trap => none
  | .reserved _ => none
  | .alu _ => some .c
  | .addi _ => some .c
  | .andi _ => some .c
  | .ori _ => some .c
  | .xori _ => some .c
  | .slli _ => some .c
  | .srli _ => some .c
  | .srai _ => some .c
  | .clti _ => some .c
  | .li _ => some .c
  | .insh1 _ => some .c
  | .insh2 _ => some .c
  | .insh3 _ => some .c
  | .ld _ => some .c
  | .lws _ => some .c
  | .lwz _ => some .c
  | .st _ => some .c
  | .sw _ => some .c
  | .brcEq _ => some .c
  | .brcNe _ => some .c
  | .brcLt _ => some .c
  | .brcGe _ => some .c
  | .brcLtu _ => some .c
  | .brcGeu _ => some .c
  | .j _ => some .c
  | .jr _ => some .c
  | .loop _ => some .c
  | .pcmp _ => some .c
  | .plog _ => some .c
  | .pset _ => some .c
  | .pget _ => some .c
  | .csrr _ => some .c
  | .csrw _ => some .c
  | .agld _ => some .c
  | .agrst _ => some .c
  | .agbase _ => some .c
  | .agpos _ => some .c
  | .loadhint _ => some .c
  | .vadd _ => some .v
  | .vsub _ => some .v
  | .vmul _ => some .v
  | .vfma _ => some .v
  | .vfms _ => some .v
  | .vmax _ => some .v
  | .vmin _ => some .v
  | .vabs _ => some .v
  | .vneg _ => some .v
  | .vand _ => some .v
  | .vor _ => some .v
  | .vxor _ => some .v
  | .vexp _ => some .v
  | .vlog _ => some .v
  | .vrcp _ => some .v
  | .vrsqrt _ => some .v
  | .vrowstat _ => some .v
  | .vcmp _ => some .v
  | .vmov _ => some .v
  | .vbcast _ => some .v
  | .vext _ => some .v
  | .vcvt _ => some .v
  | .vld _ => some .v
  | .vst _ => some .v
  | .smerge _ => some .v
  | .sprobe _ => some .v
  | .scompact _ => some .v
  | .ssort _ => some .v
  | .mmul _ => some .m
  | .mload _ => some .m
  | .mouter _ => some .m
  | .mdrain _ => some .m
  | .mcfg _ => some .m
  | .xply _ => some .x
  | .cpy _ => some .x
  | .cwait _ => some .x
  | .crd _ => some .x
  | .bclm _ => some .x
  | .arr _ => some .x
  | .wrel _ => some .x
  | .rres _ => some .x
  | .rflg _ => some .x
  | .halt _ => some .x
  | .xfence _ => some .x
  | .endp _ => some .x

/-- Operand bits [20:0] of an instruction (Table 3-7). -/
def SlotOp.bits : SlotOp → BitVec 21
  | .nop => 0
  | .trap => 0
  | .reserved _ => 0
  | .alu f => bitsCR f
  | .addi f => bitsCI f
  | .andi f => bitsCI f
  | .ori f => bitsCI f
  | .xori f => bitsCI f
  | .slli f => bitsCI f
  | .srli f => bitsCI f
  | .srai f => bitsCI f
  | .clti f => bitsCI f
  | .li f => bitsCU f
  | .insh1 f => bitsCU f
  | .insh2 f => bitsCU f
  | .insh3 f => bitsCU f
  | .ld f => bitsCI f
  | .lws f => bitsCI f
  | .lwz f => bitsCI f
  | .st f => bitsCS f
  | .sw f => bitsCS f
  | .brcEq f => bitsCB f
  | .brcNe f => bitsCB f
  | .brcLt f => bitsCB f
  | .brcGe f => bitsCB f
  | .brcLtu f => bitsCB f
  | .brcGeu f => bitsCB f
  | .j f => bitsCJ f
  | .jr f => bitsCR f
  | .loop f => bitsCO f
  | .pcmp f => bitsCP f
  | .plog f => bitsCL f
  | .pset f => bitsCL f
  | .pget f => bitsCL f
  | .csrr f => bitsCC f
  | .csrw f => bitsCC f
  | .agld f => bitsCA f
  | .agrst f => bitsCA f
  | .agbase f => bitsCA f
  | .agpos f => bitsCA f
  | .loadhint f => bitsCH f
  | .vadd f => bitsVR f
  | .vsub f => bitsVR f
  | .vmul f => bitsVR f
  | .vfma f => bitsVR f
  | .vfms f => bitsVR f
  | .vmax f => bitsVR f
  | .vmin f => bitsVR f
  | .vabs f => bitsVR f
  | .vneg f => bitsVR f
  | .vand f => bitsVR f
  | .vor f => bitsVR f
  | .vxor f => bitsVR f
  | .vexp f => bitsVR f
  | .vlog f => bitsVR f
  | .vrcp f => bitsVR f
  | .vrsqrt f => bitsVR f
  | .vrowstat f => bitsVR f
  | .vcmp f => bitsVC f
  | .vmov f => bitsVR f
  | .vbcast f => bitsVX f
  | .vext f => bitsVX f
  | .vcvt f => bitsVV f
  | .vld f => bitsVM f
  | .vst f => bitsVM f
  | .smerge f => bitsVS f
  | .sprobe f => bitsVS f
  | .scompact f => bitsVS f
  | .ssort f => bitsVS f
  | .mmul f => bitsMM f
  | .mload f => bitsML f
  | .mouter f => bitsMO f
  | .mdrain f => bitsMD f
  | .mcfg f => bitsMW f
  | .xply f => bitsXP f
  | .cpy f => bitsXC f
  | .cwait f => bitsXC f
  | .crd f => bitsXC f
  | .bclm f => bitsXP f
  | .arr f => bitsXT f
  | .wrel f => bitsXT f
  | .rres f => bitsXT f
  | .rflg f => bitsXT f
  | .halt f => bitsXH f
  | .xfence f => bitsXH f
  | .endp f => bitsXT f

/-- Reserved operand bits of the format (Table 3-7, R78). -/
def SlotOp.rsvBad : SlotOp → Bool
  | .j f => f.rsv != 0
  | .loop f => f.rsv != 0
  | .pcmp f => f.rsv != 0
  | .plog f => f.rsv != 0
  | .pset f => f.rsv != 0
  | .pget f => f.rsv != 0
  | .csrr f => f.rsv != 0
  | .csrw f => f.rsv != 0
  | .loadhint f => f.rsv != 0
  | .vcmp f => f.rsv != 0
  | .vbcast f => f.rsv != 0
  | .vext f => f.rsv != 0
  | .vld f => f.rsv != 0
  | .vst f => f.rsv != 0
  | .mload f => f.rsv != 0
  | .mouter f => f.rsv != 0
  | .mcfg f => f.rsv != 0
  | .xply f => f.rsv != 0
  | .bclm f => f.rsv != 0
  | .arr f => f.rsv != 0
  | .wrel f => f.rsv != 0
  | .rres f => f.rsv != 0
  | .rflg f => f.rsv != 0
  | .halt f => f.rsv != 0
  | .xfence f => f.rsv != 0
  | .endp f => f.rsv != 0
  | _ => false

/-- A slot's word: header and operands (Table 3-6). -/
def wordOf (i : SlotInst) : W32 := i.op.code ++ BitVec.ofBool i.pn ++ i.pred ++ i.op.bits

/-! ### Accepted field values (R78, R81, R82, R108, R123, R137, R230) -/

/-- Format codes that V-slot arithmetic accepts (R81). -/
def vFmtOk (f : BitVec 4) : Bool := decide (f.toNat ≤ 4) || f == 0xB

/-- Lanes of a V-slot format (R81). -/
def lanesOf (f : BitVec 4) : Nat := if f == 0 then 16 else if f == 1 || f == 2 then 32 else 64

/-- Registers that a VCVT reads and writes (Table 5-4); none for a pair the table does not list. -/
def cvtShape (fin fout : BitVec 4) : Option (Nat × Nat) :=
  let half (f : BitVec 4) : Bool := f == 1 || f == 2
  let byte (f : BitVec 4) : Bool := f == 3 || f == 4 || f == 0xB
  let blk (f : BitVec 4) : Bool := decide (5 ≤ f.toNat ∧ f.toNat ≤ 0xA) || f == 0xD
  if fin == 0 && half fout then some (2, 1)
  else if fin == 0 && byte fout then some (4, 1)
  else if half fin && fout == 0 then some (1, 2)
  else if half fin && half fout && fin != fout then some (1, 1)
  else if half fin && byte fout then some (2, 1)
  else if byte fin && fout == 0 then some (1, 4)
  else if byte fin && half fout then some (1, 2)
  else if (fin == 3 && fout == 4) || (fin == 4 && fout == 3) then some (1, 1)
  else if (fin == 0xB && fout == 0xC) || (fin == 0xC && fout == 0xB) then some (1, 1)
  else if fin == 0 && blk fout then some (2, 1)
  else if half fin && blk fout then some (1, 1)
  else if blk fin && fout == 0 then some (1, 2)
  else if blk fin && half fout then some (1, 1)
  else if blk fin && blk fout && fin != fout then some (1, 1)
  else if fin == 0 && fout == 0xE then some (1, 4)
  else if fin == 0xE && fout == 0 then some (4, 1)
  else none

/-- The first FN or COND field that fails, with its value (R452). -/
def SlotOp.fnBad : SlotOp → Option Nat
  | .alu f => if 0x13 < f.fn.toNat then some f.fn.toNat else none
  | .jr f => if f.fn ≠ 0 then some f.fn.toNat else none
  | .pcmp f => if 5 < f.cond.toNat then some f.cond.toNat else none
  | .pset f => if f.fn ≠ 0 then some f.fn.toNat else none
  | .pget f => if f.fn ≠ 0 then some f.fn.toNat else none
  | .vadd f => if f.fn ≠ 0 then some f.fn.toNat else none
  | .vsub f => if f.fn ≠ 0 then some f.fn.toNat else none
  | .vmul f => if f.fn ≠ 0 then some f.fn.toNat else none
  | .vfma f => if f.fn ≠ 0 then some f.fn.toNat else none
  | .vfms f => if f.fn ≠ 0 then some f.fn.toNat else none
  | .vmax f => if f.fn ≠ 0 then some f.fn.toNat else none
  | .vmin f => if f.fn ≠ 0 then some f.fn.toNat else none
  | .vabs f => if f.fn ≠ 0 then some f.fn.toNat else none
  | .vneg f => if f.fn ≠ 0 then some f.fn.toNat else none
  | .vand f => if 1 < f.fn.toNat then some f.fn.toNat else none
  | .vor f => if 1 < f.fn.toNat then some f.fn.toNat else none
  | .vxor f => if 1 < f.fn.toNat then some f.fn.toNat else none
  | .vexp f => if f.fn ≠ 0 then some f.fn.toNat else none
  | .vlog f => if f.fn ≠ 0 then some f.fn.toNat else none
  | .vrcp f => if f.fn ≠ 0 then some f.fn.toNat else none
  | .vrsqrt f => if f.fn ≠ 0 then some f.fn.toNat else none
  | .vrowstat f => if 1 < f.fn.toNat then some f.fn.toNat else none
  | .vmov f => if f.fn ≠ 0 then some f.fn.toNat else none
  | .vcmp f => if 5 < f.cond.toNat then some f.cond.toNat else none
  | .smerge f => if 2 < f.fn.toNat then some f.fn.toNat else none
  | .sprobe f => if f.fn ≠ 0 then some f.fn.toNat else none
  | .scompact f => if f.fn ≠ 0 then some f.fn.toNat else none
  | .ssort f => if f.fn ≠ 0 then some f.fn.toNat else none
  | _ => none

/-- The FMT field that fails, with the value DETAIL shows (R452; both formats for a VCVT pair). -/
def SlotOp.fmtBad : SlotOp → Option Nat
  | .vadd f => if vFmtOk f.fmt then none else some f.fmt.toNat
  | .vsub f => if vFmtOk f.fmt then none else some f.fmt.toNat
  | .vmul f => if vFmtOk f.fmt then none else some f.fmt.toNat
  | .vfma f => if vFmtOk f.fmt then none else some f.fmt.toNat
  | .vfms f => if vFmtOk f.fmt then none else some f.fmt.toNat
  | .vmax f => if vFmtOk f.fmt then none else some f.fmt.toNat
  | .vmin f => if vFmtOk f.fmt then none else some f.fmt.toNat
  | .vabs f => if vFmtOk f.fmt then none else some f.fmt.toNat
  | .vneg f => if vFmtOk f.fmt then none else some f.fmt.toNat
  | .vand f => if vFmtOk f.fmt then none else some f.fmt.toNat
  | .vor f => if vFmtOk f.fmt then none else some f.fmt.toNat
  | .vxor f => if vFmtOk f.fmt then none else some f.fmt.toNat
  | .vmov f => if vFmtOk f.fmt then none else some f.fmt.toNat
  | .vexp f => if f.fmt.toNat ≤ 1 then none else some f.fmt.toNat
  | .vlog f => if f.fmt.toNat ≤ 1 then none else some f.fmt.toNat
  | .vrcp f => if f.fmt.toNat ≤ 1 then none else some f.fmt.toNat
  | .vrsqrt f => if f.fmt.toNat ≤ 1 then none else some f.fmt.toNat
  | .vrowstat f => if f.fmt.toNat ≤ 1 then none else some f.fmt.toNat
  | .vcmp f => if vFmtOk f.fmt then none else some f.fmt.toNat
  | .vbcast f => if vFmtOk f.fmt then none else some f.fmt.toNat
  | .vext f => if vFmtOk f.fmt then none else some f.fmt.toNat
  | .vcvt f => if (cvtShape f.fmtIn f.fmtOut).isSome then none else some (f.fmtIn.toNat * 16 + f.fmtOut.toNat)
  | .mmul f => if f.fmt.toNat ≤ 0xD then none else some f.fmt.toNat
  | .mload f => if f.fmt.toNat ≤ 0xD then none else some f.fmt.toNat
  | .mouter f => if 1 ≤ f.fmt.toNat ∧ f.fmt.toNat ≤ 0xD then none else some f.fmt.toNat
  | .mdrain f => if f.fmt.toNat ≤ 4 ∨ f.fmt = 0xB ∨ f.fmt = 0xE then none else some f.fmt.toNat
  | _ => none

/-- Another operand field that fails, with the value DETAIL shows: LANE, or zero (R452; DEDUCED, log entry 15). -/
def SlotOp.operandBad : SlotOp → Option Nat
  | .alu f => if 0x11 ≤ f.fn.toNat ∧ f.fn.toNat ≤ 0x13 ∧ f.xs2 ≠ 0 then some 0 else none
  | .slli f => if f.imm.toNat / 64 ≠ 0 then some 0 else none
  | .srli f => if f.imm.toNat / 64 ≠ 0 then some 0 else none
  | .srai f => if f.imm.toNat / 64 ≠ 0 then some 0 else none
  | .jr f => if f.xs2 ≠ 0 then some 0 else none
  | .loop f => if f.len = 0 then some 0 else none
  | .plog f => if f.x ≠ 0 then some 0 else none
  | .pset f => if f.pa ≠ 0 ∨ f.pb ≠ 0 then some 0 else none
  | .pget f => if f.pd ≠ 0 ∨ f.pb ≠ 0 then some 0 else none
  | .agrst f => if f.x ≠ 0 ∨ f.imm ≠ 0 then some 0 else none
  | .agbase f => if f.imm ≠ 0 then some 0 else none
  | .agpos f => if f.imm ≠ 0 then some 0 else none
  | .vabs f => if f.vs2 ≠ 0 then some 0 else none
  | .vneg f => if f.vs2 ≠ 0 then some 0 else none
  | .vmov f => if f.vs2 ≠ 0 then some 0 else none
  | .vext f => if lanesOf f.fmt ≤ f.lane.toNat then some f.lane.toNat else none
  | .vcvt f =>
    if 4 < f.rnd.toNat then some 0 else
    match cvtShape f.fmtIn f.fmtOut with
    | none => none
    | some (ni, no) => if f.vs1.toNat % ni ≠ 0 ∨ f.vd.toNat % no ≠ 0 then some 0 else none
  | .mmul f => if (f.fmt = 0 ∧ f.pass = 0) ∨ (f.fmt ≠ 0 ∧ f.pass ≠ 0) then some 0 else none
  | .mouter f => if f.aX = f.aY then some 0 else none
  | .mdrain f => if 4 < f.rnd.toNat ∨ (f.src ∧ 32 ≤ f.acc.toNat) then some 0 else none
  | .cpy f => if f.imm ≠ 0 then some 0 else none
  | .crd f => if f.imm ≠ 0 then some 0 else none
  | .arr f => if f.pd ≠ 0 then some 0 else none
  | .wrel f => if f.x ≠ 0 ∨ f.pd ≠ 0 then some 0 else none
  | .rres f => if f.pd ≠ 0 then some 0 else none
  | .rflg f => if f.x ≠ 0 then some 0 else none
  | .endp f => if f.g ≠ 0 ∨ f.pd ≠ 0 then some 0 else none
  | .xfence f => if f.code ≠ 0 then some 0 else none
  | _ => none

/-- The encoding check of one slot in the order of R452: the value of DETAIL bits [15:8] where it fails. -/
def encodingBad (i : SlotInst) : Option Nat :=
  match i.op with
  | .nop => none
  | .reserved _ => some 0
  | .trap => if i.pn && i.pred == 0 then some 0 else none
  | o =>
    if i.pn && i.pred == 0 then some 0
    else if o.rsvBad then some 0
    else (o.fnBad.orElse fun _ => o.fmtBad).orElse fun _ => o.operandBad

/-! ### Registers that a slot names (R86, R87) -/

/-- Registers by file. -/
inductive RegName where
  | x (i : BitVec 5) | p (i : BitVec 3) | a (i : BitVec 4) | v (i : BitVec 5)
  deriving DecidableEq, Repr

/-- A group of n vector registers (R137). -/
def vGroup (b : BitVec 5) (n : Nat) : List RegName := (List.range n).map (fun i => .v (b + BitVec.ofNat 5 i))

/-- Destination registers of an instruction, x0 and p0 not counted (R87). -/
def SlotOp.dests (o : SlotOp) : List RegName :=
  let l : List RegName := match o with
    | .alu f => [.x f.xd] | .addi f => [.x f.xd] | .andi f => [.x f.xd] | .ori f => [.x f.xd] | .xori f => [.x f.xd]
    | .slli f => [.x f.xd] | .srli f => [.x f.xd] | .srai f => [.x f.xd] | .clti f => [.x f.xd]
    | .li f => [.x f.xd] | .insh1 f => [.x f.xd] | .insh2 f => [.x f.xd] | .insh3 f => [.x f.xd]
    | .ld f => [.x f.xd] | .lws f => [.x f.xd] | .lwz f => [.x f.xd]
    | .j f => [.x f.xd] | .jr f => [.x f.xd]
    | .pcmp f => [.p f.pd] | .plog f => [.p f.pd] | .pset f => [.p f.pd] | .pget f => [.x f.x]
    | .csrr f => [.x f.x]
    | .agld f => [.a f.an] | .agrst f => [.a f.an] | .agbase f => [.a f.an] | .agpos f => [.x f.x]
    | .vadd f => [.v f.vd] | .vsub f => [.v f.vd] | .vmul f => [.v f.vd] | .vfma f => [.v f.vd] | .vfms f => [.v f.vd]
    | .vmax f => [.v f.vd] | .vmin f => [.v f.vd] | .vabs f => [.v f.vd] | .vneg f => [.v f.vd]
    | .vand f => [.v f.vd] | .vor f => [.v f.vd] | .vxor f => [.v f.vd]
    | .vexp f => [.v f.vd] | .vlog f => [.v f.vd] | .vrcp f => [.v f.vd] | .vrsqrt f => [.v f.vd]
    | .vrowstat f => [.v f.vd] | .vmov f => [.v f.vd] | .vbcast f => [.v f.d] | .vext f => [.x f.d]
    | .vcmp f => [.p f.pd]
    | .vcvt f => vGroup f.vd ((cvtShape f.fmtIn f.fmtOut).getD (1, 1)).2
    | .vld f => [.v f.v]
    | .smerge f => [.v f.vd] | .sprobe f => [.v f.vd] | .scompact f => [.v f.vd] | .ssort f => [.v f.vd]
    | .crd f => [.x f.x] | .rres f => [.x f.x] | .rflg f => [.p f.pd]
    | _ => []
  l.filter (fun r => r != .x 0 && r != .p 0)

/-- a-registers that an instruction uses (R72 to R74, R83, R115). -/
def SlotOp.ags : SlotOp → List (BitVec 4)
  | .agld f => [f.an] | .agrst f => [f.an] | .agbase f => [f.an] | .agpos f => [f.an]
  | .vld f => [f.an] | .vst f => [f.an]
  | .smerge f => [f.aA, f.aB, f.aD] | .sprobe f => [f.aA, f.aB, f.aD]
  | .scompact f => [f.aA, f.aB, f.aD] | .ssort f => [f.aA, f.aB, f.aD]
  | .mmul f => [f.aS] | .mload f => [f.aS] | .mouter f => [f.aX, f.aY] | .mdrain f => [f.aD]
  | _ => []

/-- Vector registers that an instruction reads or writes, for the hold of R83. -/
def SlotOp.vregs (o : SlotOp) : List RegName :=
  let src : List RegName := match o with
    | .vadd f => [.v f.vs1, .v f.vs2] | .vsub f => [.v f.vs1, .v f.vs2] | .vmul f => [.v f.vs1, .v f.vs2]
    | .vfma f => [.v f.vs1, .v f.vs2] | .vfms f => [.v f.vs1, .v f.vs2]
    | .vmax f => [.v f.vs1, .v f.vs2] | .vmin f => [.v f.vs1, .v f.vs2]
    | .vabs f => [.v f.vs1] | .vneg f => [.v f.vs1]
    | .vand f => [.v f.vs1, .v f.vs2] | .vor f => [.v f.vs1, .v f.vs2] | .vxor f => [.v f.vs1, .v f.vs2]
    | .vexp f => [.v f.vs1] | .vlog f => [.v f.vs1] | .vrcp f => [.v f.vs1] | .vrsqrt f => [.v f.vs1]
    | .vrowstat f => [.v f.vs1] | .vmov f => [.v f.vs1] | .vext f => [.v f.src]
    | .vcmp f => [.v f.vs1, .v f.vs2]
    | .vcvt f => vGroup f.vs1 ((cvtShape f.fmtIn f.fmtOut).getD (1, 1)).1
    | .vst f => [.v f.v]
    | _ => []
  src ++ o.dests

/-- Does the instruction use the core's vector port (R87)? -/
def SlotOp.cPort : SlotOp → Bool
  | .ld _ | .lws _ | .lwz _ | .st _ | .sw _ | .agld _ => true
  | _ => false
def SlotOp.isSet : SlotOp → Bool
  | .smerge _ | .sprobe _ | .scompact _ | .ssort _ => true
  | _ => false
def SlotOp.vPort (o : SlotOp) : Bool :=
  match o with
  | .vld _ | .vst _ => true
  | o => o.isSet

/-- Do two slots conflict by R87? -/
def slotsClash (a b : SlotOp) : Bool :=
  a.dests.any (fun r => b.dests.contains r) || a.ags.any (fun r => b.ags.contains r)

/-- The slots of an illegal bundle as the mask of exception 0x03 (R87, Table 3-13); zero for a legal bundle. -/
def illegalMask (b : Bundle) : Nat :=
  let port := b.c.op.cPort && b.v.op.vPort
  let lb := match b.c.op, b.x.op with
    | .loop _, .bclm _ => true
    | _, _ => false
  let pr (f : Bool) (m : Nat) (acc : Nat) : Nat := if f then acc ||| m else acc
  pr (slotsClash b.c.op b.v.op || port) 3 <| pr (slotsClash b.c.op b.m.op) 5 <| pr (slotsClash b.c.op b.x.op || lb) 9 <|
    pr (slotsClash b.v.op b.m.op) 6 <| pr (slotsClash b.v.op b.x.op) 10 <| pr (slotsClash b.m.op b.x.op) 12 0

/-- The first slot whose encoding fails, in the order C, V, M, X, with its OP and DETAIL field (R452). -/
def bundleEncodingBad (b : Bundle) : Option (Nat × BitVec 7 × Nat) :=
  match encodingBad b.c, encodingBad b.v, encodingBad b.m, encodingBad b.x with
  | some d, _, _, _ => some (0, b.c.op.code, d)
  | none, some d, _, _ => some (1, b.v.op.code, d)
  | none, none, some d, _ => some (2, b.m.op.code, d)
  | none, none, none, some d => some (3, b.x.op.code, d)
  | none, none, none, none => none

/-- DETAIL of exception 0x02 (Table 3-13, R452). -/
def illDetail (op : BitVec 7) (f : Nat) : BitVec 16 := BitVec.ofNat 16 (op.toNat + (f % 256) * 256)

end Sys2Proof
end

