-- ==== Sys2Proof/Machine/Operands.lean ====
section
/-! DEFINITION. Operand forms of the core: scalar addresses (R79), address generators (R72 to R75), lanes and predicates
(R70, R81), and the effect of one slot. -/
namespace Sys2Proof.Machine

/-- What one slot of a bundle does: an exception, or a change of the state, both read off the state before the bundle. -/
abbrev Eff := Except Exc (State → State)

/-- No effect. -/
def effNone : Eff := .ok id

/-- An effect on the issuing core alone. -/
def effCore (k : Nat) (f : Core → Core) : Eff := .ok (fun s => s.modCore k f)

/-- Illegal instruction 0x02 (Table 3-13, R452). -/
def excIll (slot : Nat) (op : BitVec 7) (fld : Nat) : Exc := ⟨0x02, BitVec.ofNat 4 slot, illDetail op fld⟩
/-- Scratchpad address error 0x04 (Table 3-13). -/
def excAddr (slot addr : Nat) : Exc := ⟨0x04, BitVec.ofNat 4 slot, BitVec.ofNat 16 (addr / 64)⟩
/-- Tempo order 0x08 (Table 3-13). -/
def excTempo (detail : Nat) : Exc := ⟨0x08, 3, BitVec.ofNat 16 detail⟩
/-- Trap 0x01 (Table 3-13). -/
def excTrap (slot : Nat) : Exc := ⟨0x01, BitVec.ofNat 4 slot, 0⟩

/-! ### Scalar addresses (R79) -/

/-- Address of a scalar access: the base, unsigned, plus the scaled immediate. A sum past 2^64 stays past it, since the address does
not wrap; a sum below zero is given as its 64 bits. Both lie outside the scratchpad. (DEDUCED, log entry 100.) -/
def scalarAddr (base : W64) (imm : Int) (scale : Nat) : Nat :=
  let a : Int := (base.toNat : Int) + imm * scale
  if a < 0 then (a + (2 ^ 64 : Nat)).toNat else a.toNat

/-- Alignment and range of a scalar access (R79). -/
def scalarOk (a size : Nat) : Bool := a % size == 0 && decide (a ≤ 0x1FFFFF)

/-- Read through the C slot: bytes, or the exception (R79, R164). -/
def scalarLoad (s : State) (k a size : Nat) : Except Exc (List Byte) :=
  if scalarOk a size then
    match (s.core k).badRow (wordsOf a size) with
    | some r => .error (excEcc 0 r)
    | none => .ok (s.spadRd k a size)
  else .error (excAddr 0 a)

/-- ECC effects of a read on the reading core (R163). -/
def eccTouch (ws : List Nat) (c : Core) : Core := c.engineRead ws

/-! ### Address generators (Table 3-4, R72, R73) -/

namespace AG
def zpad (d : W512) : Bool := d.getLsbD 31
def esize (d : W512) : Nat := (d.extractLsb' 24 3).toNat
def base (d : W512) : Nat := (d.extractLsb' 0 21).toNat
def padlo (d : W512) (k : Nat) : Nat := (d.extractLsb' (32 + 32 * k + 16) 8).toNat
def extent (d : W512) (k : Nat) : Nat := (d.extractLsb' (32 + 32 * k) 16).toNat
def count (d : W512) (i : Nat) : Nat := let n := (d.extractLsb' (128 + 64 * i) 16).toNat; if n = 0 then 1 else n
def stride (d : W512) (i : Nat) : Int := (d.extractLsb' (128 + 64 * i + 16) 24).toInt
def coef (d : W512) (i : Nat) : Nat := (d.extractLsb' (128 + 64 * i + 40) 8).toNat
def axis (d : W512) (i : Nat) : Nat := (d.extractLsb' (128 + 64 * i + 48) 2).toNat

/-- Reserved bits of a descriptor are zero and ESIZE is not 7 (R72). -/
def ok (d : W512) : Bool :=
  (d.extractLsb' 27 4 == 0) && (d.extractLsb' 21 3 == 0) && esize d != 7 &&
  (List.range 3).all (fun k => d.extractLsb' (32 + 32 * k + 24) 8 == 0) &&
  (List.range 6).all (fun i => d.extractLsb' (128 + 64 * i + 50) 14 == 0)

/-- Number of elements of the whole walk. -/
def total (d : W512) : Nat := (List.range 6).foldl (fun t i => t * count d i) 1

/-- Indices i_0 to i_5 of a step of the odometer. -/
def indices (d : W512) : Nat → Nat → List Nat
  | 0, _ => []
  | n + 1, t => (t % count d (5 - n)) :: indices d n (t / count d (5 - n))

/-- Indices at a step. -/
def idx (d : W512) (step : Nat) : List Nat := indices d 6 step

/-- Address of the element at a step (R73). -/
def addr (d : W512) (step : Nat) : Nat :=
  let sum : Int := ((idx d step).zipIdx).foldl (fun t p => t + p.1 * stride d p.2) (base d : Int)
  (sum % (2 ^ 21 : Nat)).toNat

/-- Is the element at a step a padding element (R73)? -/
def padded (d : W512) (step : Nat) : Bool :=
  zpad d && (List.range 3).any (fun k =>
    extent d k != 0 &&
    (let x : Int := ((idx d step).zipIdx).foldl (fun t p => if axis d p.2 = k then t + p.1 * coef d p.2 else t) 0 - padlo d k
     decide (x < 0) || decide ((extent d k : Int) ≤ x)))

/-- The step after a step (R73). -/
def succ (d : W512) (step : Nat) : Nat := if step + 1 < total d then step + 1 else 0

/-- n successive steps from a step. -/
def steps (d : W512) : Nat → Nat → List Nat
  | 0, _ => []
  | n + 1, t => t :: steps d n (succ d t)

/-- Advance an a-register by n elements (R74). -/
def advance (r : AGReg) (n : Nat) : AGReg :=
  { r with cur := (r.cur + n) % total r.desc, steps := r.steps + BitVec.ofNat 64 n }

/-- Elements that an access of `width` bytes consumes (R74). -/
def elems (d : W512) (width : Nat) : Nat := width / 2 ^ esize d

/-- Byte addresses of an access's elements; none for a padding element. -/
def targets (r : AGReg) (width : Nat) : List (Option Nat) :=
  (steps r.desc (elems r.desc width) (r.cur % total r.desc)).map
    (fun t => if padded r.desc t then none else some (addr r.desc t))

/-- The first element that is misaligned or leaves its row (R74). -/
def badTarget (d : W512) (ts : List (Option Nat)) : Option Nat :=
  (ts.filterMap id).find? (fun a => a % 2 ^ esize d != 0)

/-- Bytes of an access, padding elements as zeros (R73). -/
def fetch (s : State) (k : Nat) (d : W512) (ts : List (Option Nat)) : List Byte :=
  ts.flatMap (fun t => match t with
    | none => List.replicate (2 ^ esize d) 0
    | some a => s.spadRd k a (2 ^ esize d))

/-- Words that an access touches. -/
def words (d : W512) (ts : List (Option Nat)) : List Nat :=
  ((ts.filterMap id).flatMap (fun a => wordsOf a (2 ^ esize d))).eraseDups

/-- Distinct rows that an access touches (R75). -/
def rows (d : W512) (ts : List (Option Nat)) : List Nat :=
  ((ts.filterMap id).flatMap (fun a => rowsOf a (2 ^ esize d))).eraseDups
end AG

/-- Banks that rows lie in. -/
def banksOf (rows : List Nat) : List Nat := (rows.map (· / 2048)).eraseDups

/-- Cycles beyond one that rows cost: the most rows of one bank, less one, where a bank lost in the first cycle takes one more (R75,
R115). -/
def extraCycles (rows lost : List Nat) : Nat :=
  (banksOf rows).foldl (fun m b => max m ((rows.filter (fun r => r / 2048 == b)).length + bitN (lost.contains b))) 1 - 1

/-- Check an access of `width` bytes through an a-register: ESIZE (0x02) before the address (0x04), R74 and R452. -/
def agCheck (slot : Nat) (op : BitVec 7) (r : AGReg) (width : Nat) : Except Exc (List (Option Nat)) :=
  if width < 2 ^ AG.esize r.desc then .error (excIll slot op 0)
  else
    let ts := AG.targets r width
    match AG.badTarget r.desc ts with
    | some a => .error (excAddr slot a)
    | none => .ok ts

/-- RI of an access (R116): (i_0 + COUNT_0 × i_1) div E at its first element. -/
def rowIndex (r : AGReg) (width : Nat) : Nat :=
  let ix := AG.idx r.desc (r.cur % AG.total r.desc)
  (ix.getD 0 0 + AG.count r.desc 0 * ix.getD 1 0) / AG.elems r.desc width

/-! ### Lanes (R70, R81) -/

/-- Lane i of w bits of a vector. -/
def lane (v : W512) (w i : Nat) : Nat := (v.extractLsb' (i * w) w).toNat

/-- A vector from its lanes of w bits. -/
def ofLanes (w : Nat) (l : List Nat) : W512 :=
  BitVec.ofNat 512 ((l.zipIdx).foldl (fun a p => a + (p.1 % 2 ^ w) * 2 ^ (w * p.2)) 0)

/-- Width of a lane of a V-slot format. -/
def laneBits (f : BitVec 4) : Nat := 512 / lanesOf f

/-- Bytes of a vector. -/
def vecBytes (v : W512) : List Byte := leBytes 64 v.toNat

/-! ### Licence features of formats (Table 15-8) -/

/-- The feature that a format code needs. -/
def fmtFeature (f : BitVec 4) : Nat :=
  match f with
  | 0x5 => 1
  | 0x6 => 1
  | 0x7 => 1
  | 0x8 => 1
  | 0xD => 1
  | 0x9 => 2
  | 0xA => 2
  | 0xC => 2
  | 0xE => 3
  | _ => 0

/-- Is a format licensed (R138, R399)? -/
def State.fmtOk (s : State) (f : BitVec 4) : Bool := s.licensed (fmtFeature f)

end Sys2Proof.Machine
end

