-- ==== Sys2Proof/Machine/Scalar.lean ====
section
/-! DEFINITION. Effects of the C slot (Table 3-8, R70 to R80, R92). -/
namespace Sys2Proof.Machine

/-! ### Shared operations -/

/-- Table 3-9: the ALU functions; shifts use the low six bits of the second operand. -/
def aluFn (fn : Nat) (a b : W64) : W64 :=
  match fn with
  | 0x00 => a + b
  | 0x01 => a - b
  | 0x02 => a &&& b
  | 0x03 => a ||| b
  | 0x04 => a ^^^ b
  | 0x05 => a <<< (b.toNat % 64)
  | 0x06 => a >>> (b.toNat % 64)
  | 0x07 => a.sshiftRight (b.toNat % 64)
  | 0x08 => if a.toInt < b.toInt then 1 else 0
  | 0x09 => if a < b then 1 else 0
  | 0x0A => if a.toInt ≤ b.toInt then a else b
  | 0x0B => if a.toInt ≤ b.toInt then b else a
  | 0x0C => if a ≤ b then a else b
  | 0x0D => if a ≤ b then b else a
  | 0x0E => a * b
  | 0x0F => BitVec.ofNat 64 (a.toNat * b.toNat / 2 ^ 64)
  | 0x10 => BitVec.ofInt 64 (a.toInt * b.toInt / (2 ^ 64 : Nat))
  | 0x11 => BitVec.ofNat 64 (((List.range 64).filter (fun i => a.getLsbD i)).length)
  | 0x12 => BitVec.ofNat 64 (((List.range 64).map (fun i => a.getLsbD (63 - i))).takeWhile (fun x => !x)).length
  | 0x13 => BitVec.ofNat 64 (((List.range 64).map (fun i => a.getLsbD i)).takeWhile (fun x => !x)).length
  | _ => 0

/-- The COND codes of PCMP and BRC on scalars (Table 3-8). -/
def condX (cond : BitVec 3) (a b : W64) : Bool :=
  match cond with
  | 0 => a == b
  | 1 => a != b
  | 2 => decide (a.toInt < b.toInt)
  | 3 => decide (b.toInt ≤ a.toInt)
  | 4 => decide (a < b)
  | _ => decide (b ≤ a)

/-- An all-ones or zero predicate (R70). -/
def allOnes (b : Bool) : W64 := if b then -1 else 0

/-- Does a bundle index lie in a loop's body? -/
def LoopRec.holds (l : LoopRec) (pc : BitVec 13) : Bool := decide ((pc - l.start).toNat < l.len)

/-- The next bundle after `pc` without a taken branch, loops innermost first (R80, R97). (DEDUCED, log entry 30.) -/
def loopStep (pc : BitVec 13) : List LoopRec → BitVec 13 × List LoopRec
  | [] => (pc + 1, [])
  | l :: ls =>
    if pc = l.start + BitVec.ofNat 13 l.len - 1 then
      if 1 < l.left then (l.start, { l with left := l.left - 1 } :: ls) else loopStep pc ls
    else (pc + 1, l :: ls)

/-- Advance past a bundle. -/
def Core.goNext (c : Core) : Core := let n := loopStep c.pc c.loops; { c with pc := n.1, loops := n.2 }

/-- A taken branch or jump: loops whose bodies the target leaves end, with every loop inside them (R80). -/
def Core.goTo (c : Core) (loops0 : List LoopRec) (target : BitVec 13) : Core :=
  { c with pc := target, loops := (loops0.reverse.takeWhile (fun l => l.holds target)).reverse }

/-- Conditional branch on a compare (R80). -/
def branchIf (s : State) (k : Nat) (cond : BitVec 3) (f : CB) : Eff :=
  let c := s.core k
  if condX cond (c.getX f.xs1) (c.getX f.xs2) then
    effCore k (fun d => d.goTo c.loops (c.pc + BitVec.ofInt 13 f.off.toInt))
  else effNone

/-- Write xd with a function of xs1 and the sign-extended immediate. -/
def immOp (s : State) (k : Nat) (f : CI) (g : W64 → W64 → W64) : Eff :=
  let c := s.core k
  effCore k (fun d => d.setX f.xd (g (c.getX f.xs1) (f.imm.signExtend 64)))

/-- Replace 16 bits of xd. -/
def insh (s : State) (k : Nat) (f : CU) (lo : Nat) : Eff :=
  let old := (s.core k).getX f.xd
  let m : W64 := BitVec.ofNat 64 (0xFFFF * 2 ^ lo)
  effCore k (fun d => d.setX f.xd ((old &&& ~~~m) ||| BitVec.ofNat 64 (f.imm.toNat * 2 ^ lo)))

/-- A scalar load of `size` bytes; `sx` sign-extends it (R79). -/
def loadX (s : State) (k : Nat) (f : CI) (size : Nat) (sx : Bool) : Eff :=
  let a := scalarAddr ((s.core k).getX f.xs1) f.imm.toInt size
  match scalarLoad s k a size with
  | .error e => .error e
  | .ok bs =>
    let v : W64 := if sx then (BitVec.ofNat 32 (leNat bs)).signExtend 64 else BitVec.ofNat 64 (leNat bs)
    effCore k (fun d => (eccTouch (wordsOf a size) d).setX f.xd v)

/-- A scalar store of `size` bytes (R79). -/
def storeX (s : State) (k : Nat) (f : CS) (size : Nat) : Eff :=
  let c := s.core k
  let a := scalarAddr (c.getX f.xs1) f.imm.toInt size
  if scalarOk a size then .ok (fun t => t.spadWr k a (leBytes size (c.getX f.xs2).toNat))
  else .error (excAddr 0 a)

/-! ### One definition per instruction -/

/-- ALU: xd := xs1 FN xs2 (Table 3-9). -/
def effAlu (s : State) (k : Nat) (f : CR) : Eff :=
  let c := s.core k
  effCore k (fun d => d.setX f.xd (aluFn f.fn.toNat (c.getX f.xs1) (c.getX f.xs2)))

/-- ADDI. -/
def effAddi (s : State) (k : Nat) (f : CI) : Eff :=
  immOp s k f (fun a b => a + b)

/-- ANDI. -/
def effAndi (s : State) (k : Nat) (f : CI) : Eff :=
  immOp s k f (fun a b => a &&& b)

/-- ORI. -/
def effOri (s : State) (k : Nat) (f : CI) : Eff :=
  immOp s k f (fun a b => a ||| b)

/-- XORI. -/
def effXori (s : State) (k : Nat) (f : CI) : Eff :=
  immOp s k f (fun a b => a ^^^ b)

/-- SLLI: shift left by IMM[5:0]. -/
def effSlli (s : State) (k : Nat) (f : CI) : Eff :=
  immOp s k f (fun a b => a <<< (b.toNat % 64))

/-- SRLI. -/
def effSrli (s : State) (k : Nat) (f : CI) : Eff :=
  immOp s k f (fun a b => a >>> (b.toNat % 64))

/-- SRAI. -/
def effSrai (s : State) (k : Nat) (f : CI) : Eff :=
  immOp s k f (fun a b => a.sshiftRight (b.toNat % 64))

/-- CLTI: 1 if xs1 is below IMM, signed. -/
def effClti (s : State) (k : Nat) (f : CI) : Eff :=
  immOp s k f (fun a b => if a.toInt < b.toInt then 1 else 0)

/-- LI: the sign-extended immediate. -/
def effLi (_s : State) (k : Nat) (f : CU) : Eff :=
  effCore k (fun d => d.setX f.xd (f.imm.signExtend 64))

/-- INSH1: bits [31:16]. -/
def effInsh1 (s : State) (k : Nat) (f : CU) : Eff :=
  insh s k f 16

/-- INSH2: bits [47:32]. -/
def effInsh2 (s : State) (k : Nat) (f : CU) : Eff :=
  insh s k f 32

/-- INSH3: bits [63:48]. -/
def effInsh3 (s : State) (k : Nat) (f : CU) : Eff :=
  insh s k f 48

/-- LD. -/
def effLd (s : State) (k : Nat) (f : CI) : Eff :=
  loadX s k f 8 false

/-- LWS. -/
def effLws (s : State) (k : Nat) (f : CI) : Eff :=
  loadX s k f 4 true

/-- LWZ. -/
def effLwz (s : State) (k : Nat) (f : CI) : Eff :=
  loadX s k f 4 false

/-- ST. -/
def effSt (s : State) (k : Nat) (f : CS) : Eff :=
  storeX s k f 8

/-- SW. -/
def effSw (s : State) (k : Nat) (f : CS) : Eff :=
  storeX s k f 4

/-- BRC.EQ. -/
def effBrcEq (s : State) (k : Nat) (f : CB) : Eff :=
  branchIf s k 0 f

/-- BRC.NE. -/
def effBrcNe (s : State) (k : Nat) (f : CB) : Eff :=
  branchIf s k 1 f

/-- BRC.LT. -/
def effBrcLt (s : State) (k : Nat) (f : CB) : Eff :=
  branchIf s k 2 f

/-- BRC.GE. -/
def effBrcGe (s : State) (k : Nat) (f : CB) : Eff :=
  branchIf s k 3 f

/-- BRC.LTU. -/
def effBrcLtu (s : State) (k : Nat) (f : CB) : Eff :=
  branchIf s k 4 f

/-- BRC.GEU. -/
def effBrcGeu (s : State) (k : Nat) (f : CB) : Eff :=
  branchIf s k 5 f

/-- J: link, then TARGET. -/
def effJ (s : State) (k : Nat) (f : CJ) : Eff :=
  let c := s.core k
  effCore k (fun d => (d.goTo c.loops f.target).setX f.xd ((c.pc + 1).zeroExtend 64))

/-- JR: link, then xs1[12:0]. -/
def effJr (s : State) (k : Nat) (f : CR) : Eff :=
  let c := s.core k
  effCore k (fun d => (d.goTo c.loops ((c.getX f.xs1).extractLsb' 0 13)).setX f.xd ((c.pc + 1).zeroExtend 64))

/-- LOOP: a count of zero skips the body; a fifth active loop raises 0x0A (R80). -/
def effLoop (s : State) (k : Nat) (f : CO) : Eff :=
  let c := s.core k
  let n := ((c.getX f.xs1).extractLsb' 0 32).toNat
  if n = 0 then
    effCore k (fun d => let nx := loopStep (c.pc + f.len.zeroExtend 13) c.loops; { d with pc := nx.1, loops := nx.2 })
  else if 4 ≤ c.loops.length then .error ⟨0x0A, 0, 0⟩
  else effCore k (fun d => { d with pc := c.pc + 1, loops := ⟨c.pc + 1, f.len.toNat, n⟩ :: c.loops })

/-- PCMP: all 64 bits of pd (R70). -/
def effPcmp (s : State) (k : Nat) (f : CP) : Eff :=
  let c := s.core k
  effCore k (fun d => d.setP f.pd (allOnes (condX f.cond (c.getX f.xs1) (c.getX f.xs2))))

/-- PLOG: AND, OR, XOR, AND NOT. -/
def effPlog (s : State) (k : Nat) (f : CL) : Eff :=
  let c := s.core k
  let a := c.getP f.pa
  let b := c.getP f.pb
  effCore k (fun d => d.setP f.pd (if f.fn = 0 then a &&& b else if f.fn = 1 then a ||| b else if f.fn = 2 then a ^^^ b else a &&& ~~~b))

/-- PSET. -/
def effPset (s : State) (k : Nat) (f : CL) : Eff :=
  let c := s.core k
  effCore k (fun d => d.setP f.pd (c.getX f.x))

/-- PGET. -/
def effPget (s : State) (k : Nat) (f : CL) : Eff :=
  let c := s.core k
  effCore k (fun d => d.setX f.x (c.getP f.pa))

/-- AGLD: a reserved descriptor raises 0x02 and keeps aN (R72, R79). -/
def effAgld (s : State) (k : Nat) (f : CA) : Eff :=
  let a := scalarAddr ((s.core k).getX f.x) f.imm.toNat 64
  match scalarLoad s k a 64 with
  | .error e => .error e
  | .ok bs =>
    let d := BitVec.ofNat 512 (leNat bs)
    if AG.ok d then effCore k (fun c => (eccTouch (wordsOf a 64) c).setA f.an ⟨d, 0, 0⟩)
    else .error (excIll 0 0x2C 0)

/-- AGRST. -/
def effAgrst (s : State) (k : Nat) (f : CA) : Eff :=
  let r := (s.core k).getA f.an
  effCore k (fun c => c.setA f.an { r with cur := 0, steps := 0 })

/-- AGBASE: BASE := x[20:0], cursor to step 0. -/
def effAgbase (s : State) (k : Nat) (f : CA) : Eff :=
  let r := (s.core k).getA f.an
  let b := ((s.core k).getX f.x).extractLsb' 0 21
  effCore k (fun c => c.setA f.an ⟨r.desc.extractLsb' 21 491 ++ b, 0, 0⟩)

/-- AGPOS. -/
def effAgpos (s : State) (k : Nat) (f : CA) : Eff :=
  let c := s.core k
  effCore k (fun d => d.setX f.x (c.getA f.an).steps)

/-- LOADHINT: the announced level joins the hints under way; a LEAD below 125 is counted and taken as 125 (R92, R346). -/
def effLoadhint (_s : State) (k : Nat) (f : CH) : Eff :=
  effCore k (fun c =>
    { c with
      hintshort := if f.lead.toNat < 125 then c.hintshort + 1 else c.hintshort
      hints := c.hints ++ [(f.level, max 125 f.lead.toNat, false)] })

end Sys2Proof.Machine
end

