-- ==== Sys2Proof/Machine/Vector.lean ====
section
/-! DEFINITION. Effects of the V slot but for the set engine (Table 3-10, R70, R81, R82, R131 to R145, R150). -/
namespace Sys2Proof.Machine

/-! ### Lanes of a format -/

/-- Write the lanes whose predicate bit is 1 (R70), and join the flags of those lanes. -/
def writeLanes (old : W512) (w : Nat) (n : Nat) (sel : Nat → Bool) (res : Nat → Nat × Flags) : W512 × Flags :=
  let rs := (List.range n).map (fun i => if sel i then res i else (lane old w i, 0))
  (ofLanes w (rs.map (·.1)), rs.foldl (fun f r => f ||| r.2) 0)

/-- Does an instruction of the list use the stochastic counter by RMODE (R144)? -/
def usesCtrV : SlotOp → Core → Bool
  | .vadd f, c => c.rmode == 4 && f.fmt != 0xB
  | .vsub f, c => c.rmode == 4 && f.fmt != 0xB
  | .vmul f, c => c.rmode == 4 && f.fmt != 0xB
  | .vfma f, c => c.rmode == 4 && f.fmt != 0xB
  | .vfms f, c => c.rmode == 4 && f.fmt != 0xB
  | .vcvt f, _ => f.rnd == 4
  | _, _ => false

/-- Rounding of lane i by CSR RMODE (R81, R144). -/
def laneRnd (c : Core) (i : Nat) : Rnd := rndOf c.rmode c.srseed c.srctr i

/-- A lane-wise operation of a VR instruction: `fl` on floating-point lanes, `it` on INT8 lanes. -/
def lanewise (s : State) (k : Nat) (i : SlotInst) (f : VR) (fl : Fp → Rnd → Nat → Nat → Nat → Nat × Flags)
    (it : Nat → Nat → Nat → Nat) : Eff :=
  if !s.fmtOk f.fmt then .error (excIll 1 i.op.code f.fmt.toNat) else
  let c := s.core k
  let w := laneBits f.fmt
  let d := c.getV f.vd
  let a := c.getV f.vs1
  let b := c.getV f.vs2
  let r := writeLanes d w (lanesOf f.fmt) (c.predBit i.pn i.pred) (fun j =>
    match fpOf f.fmt with
    | some F => fl F (laneRnd c j) (lane d w j) (lane a w j) (lane b w j)
    | none => (it (lane d w j) (lane a w j) (lane b w j), 0))
  effCore k (fun e => { e.setV f.vd r.1 with fflags := e.fflags ||| r.2 })

/-- Maximum or minimum of two lanes: a NaN gives the default NaN; −0 orders below +0 (R132, DEDUCED, log entry 14). -/
def fpick (F : Fp) (big : Bool) (a b : Nat) : Nat :=
  match F.decode a, F.decode b with
  | .nan, _ => F.defNan
  | _, .nan => F.defNan
  | x, y =>
    let o := FV.cmp x y
    let negA := bit a (F.width - 1)
    let aLess : Bool := decide (o < 0) || (o == 0 && negA)
    if big then (if aLess then b else a) else (if aLess then a else b)

/-- Clear or flip the sign of a lane; a NaN gives the default NaN (R132). -/
def fsign (F : Fp) (flip : Bool) (a : Nat) : Nat :=
  match F.decode a with
  | .nan => F.defNan
  | _ =>
    let h := 2 ^ (F.width - 1)
    if flip then (if a / h % 2 = 1 then a - h else a + h) else a % h

/-- INT8 lanes wrap modulo 2^8 (R81). -/
def wrap8 (x : Int) : Nat := wrapN 8 x

/-- VADD. -/
def effVadd (s : State) (k : Nat) (i : SlotInst) (f : VR) : Eff :=
  lanewise s k i f (fun F m _ a b => fadd F m a b) (fun _ a b => wrap8 (sgn 8 a + sgn 8 b))
/-- VSUB. -/
def effVsub (s : State) (k : Nat) (i : SlotInst) (f : VR) : Eff :=
  lanewise s k i f (fun F m _ a b => fsub F m a b) (fun _ a b => wrap8 (sgn 8 a - sgn 8 b))
/-- VMUL. -/
def effVmul (s : State) (k : Nat) (i : SlotInst) (f : VR) : Eff :=
  lanewise s k i f (fun F m _ a b => fmul F m a b) (fun _ a b => wrap8 (sgn 8 a * sgn 8 b))
/-- VFMA: vd + vs1 × vs2, one rounding. -/
def effVfma (s : State) (k : Nat) (i : SlotInst) (f : VR) : Eff :=
  lanewise s k i f (fun F m d a b => ffma F m false d a b) (fun d a b => wrap8 (sgn 8 d + sgn 8 a * sgn 8 b))
/-- VFMS: vd − vs1 × vs2, one rounding. -/
def effVfms (s : State) (k : Nat) (i : SlotInst) (f : VR) : Eff :=
  lanewise s k i f (fun F m d a b => ffma F m true d a b) (fun d a b => wrap8 (sgn 8 d - sgn 8 a * sgn 8 b))
/-- VMAX. -/
def effVmax (s : State) (k : Nat) (i : SlotInst) (f : VR) : Eff :=
  lanewise s k i f (fun F _ _ a b => (fpick F true a b, 0)) (fun _ a b => if sgn 8 a < sgn 8 b then b else a)
/-- VMIN. -/
def effVmin (s : State) (k : Nat) (i : SlotInst) (f : VR) : Eff :=
  lanewise s k i f (fun F _ _ a b => (fpick F false a b, 0)) (fun _ a b => if sgn 8 b < sgn 8 a then b else a)
/-- VABS. -/
def effVabs (s : State) (k : Nat) (i : SlotInst) (f : VR) : Eff :=
  lanewise s k i f (fun F _ _ a _ => (fsign F false a, 0)) (fun _ a _ => wrap8 (sgn 8 a).natAbs)
/-- VNEG. -/
def effVneg (s : State) (k : Nat) (i : SlotInst) (f : VR) : Eff :=
  lanewise s k i f (fun F _ _ a _ => (fsign F true a, 0)) (fun _ a _ => wrap8 (-(sgn 8 a)))

/-- A bitwise operation on 512 bits, masked by lanes; FN 1 complements vs2. -/
def bitwise (s : State) (k : Nat) (i : SlotInst) (f : VR) (g : W512 → W512 → W512) : Eff :=
  if !s.fmtOk f.fmt then .error (excIll 1 i.op.code f.fmt.toNat) else
  let c := s.core k
  let b := c.getV f.vs2
  let r := g (c.getV f.vs1) (if f.fn = 1 then ~~~b else b)
  let w := laneBits f.fmt
  effCore k (fun e => e.setV f.vd (writeLanes (c.getV f.vd) w (lanesOf f.fmt) (c.predBit i.pn i.pred) (fun j => (lane r w j, 0))).1)

/-- VAND. -/
def effVand (s : State) (k : Nat) (i : SlotInst) (f : VR) : Eff := bitwise s k i f (fun a b => a &&& b)
/-- VOR. -/
def effVor (s : State) (k : Nat) (i : SlotInst) (f : VR) : Eff := bitwise s k i f (fun a b => a ||| b)
/-- VXOR. -/
def effVxor (s : State) (k : Nat) (i : SlotInst) (f : VR) : Eff := bitwise s k i f (fun a b => a ^^^ b)

/-- One of VEXP, VLOG, VRCP, VRSQRT: FP32 result, and for BF16 that result rounded again, flags joined (R81). -/
def specialLanes (s : State) (k : Nat) (i : SlotInst) (f : VR) (fn : Nat) : Eff :=
  lanewise s k i f
    (fun F _ _ a _ =>
      let r := special32 fn (F.decode a)
      if F = fp32 then r
      else let q := roundFp F false .rne (fp32.decode r.1); (q.1, r.2 ||| q.2))
    (fun _ a _ => a)

/-- VEXP. -/
def effVexp (s : State) (k : Nat) (i : SlotInst) (f : VR) : Eff := specialLanes s k i f 0
/-- VLOG. -/
def effVlog (s : State) (k : Nat) (i : SlotInst) (f : VR) : Eff := specialLanes s k i f 1
/-- VRCP. -/
def effVrcp (s : State) (k : Nat) (i : SlotInst) (f : VR) : Eff := specialLanes s k i f 2
/-- VRSQRT. -/
def effVrsqrt (s : State) (k : Nat) (i : SlotInst) (f : VR) : Eff := specialLanes s k i f 3

/-! ### VROWSTAT (R82) -/

/-- e^(a − b) in FP32 steps: equal operands give exactly 1.0; else the rounded difference's rounded exponential. -/
def expDiff (a b : Nat) : Nat × Flags :=
  let va := fp32.decode a
  let vb := fp32.decode b
  let same := match va, vb with
    | .nan, _ => false
    | _, .nan => false
    | x, y => FV.cmp x y == 0
  if same then (0x3F800000, 0)
  else
    let d := fsub fp32 .rne a b
    let e := special32 0 (fp32.decode d.1)
    (e.1, d.2 ||| e.2)

/-- FN 0b00: running maximum and sum of exponentials. -/
def rowMax (m s : Nat) (xs : List Nat) : Nat × Nat × Flags :=
  if xs = [] then (m, s, 0) else
  let m' := xs.foldl (fun a x => fpick fp32 true a x) m
  let e0 := expDiff m m'
  let t0 := fmul fp32 .rne s e0.1
  let r := xs.foldl (fun (a : Nat × Flags) x =>
    let e := expDiff x m'
    let q := fadd fp32 .rne a.1 e.1
    (q.1, a.2 ||| e.2 ||| q.2)) (t0.1, e0.2 ||| t0.2)
  (m', r.1, r.2)

/-- FN 0b01: running sum and sum of squares. -/
def rowSum (m s : Nat) (xs : List Nat) : Nat × Nat × Flags :=
  xs.foldl (fun (a : Nat × Nat × Flags) x =>
    let q := fadd fp32 .rne a.2.1 x
    let g := ffma fp32 .rne false a.1 x x
    (g.1, q.1, a.2.2 ||| q.2 ||| g.2)) (m, s, 0)

/-- VROWSTAT: lanes 0 and 1 of vd hold m and s; every other lane becomes zero, whatever the predicate. -/
def effVrowstat (s : State) (k : Nat) (i : SlotInst) (f : VR) : Eff :=
  if !s.fmtOk f.fmt then .error (excIll 1 i.op.code f.fmt.toNat) else
  let c := s.core k
  let w := laneBits f.fmt
  let d := c.getV f.vd
  let sel := (List.range (lanesOf f.fmt)).filter (c.predBit i.pn i.pred)
  let xs := sel.map (fun j => if f.fmt = 0 then lane (c.getV f.vs1) w j else lane (c.getV f.vs1) w j * 2 ^ 16)
  let r := if f.fn = 0 then rowMax (lane d 32 0) (lane d 32 1) xs else rowSum (lane d 32 0) (lane d 32 1) xs
  effCore k (fun e => { e.setV f.vd (ofLanes 32 [r.1, r.2.1]) with fflags := e.fflags ||| r.2.2 })

/-! ### Compares, moves and element access -/

/-- COND on one lane: signed or IEEE order, raw bits for LTU and GEU; a NaN makes every compare false but NE. -/
def condLane (fmt : BitVec 4) (cond : BitVec 3) (a b : Nat) : Bool :=
  if cond = 4 then decide (a < b)
  else if cond = 5 then decide (b ≤ a)
  else
    let va := if fmt = 0xB then FV.ofInt (sgn 8 a) 0 else elemVal fmt a
    let vb := if fmt = 0xB then FV.ofInt (sgn 8 b) 0 else elemVal fmt b
    match va, vb with
    | .nan, _ => cond == 1
    | _, .nan => cond == 1
    | x, y =>
      let o := FV.cmp x y
      match cond with
      | 0 => o == 0
      | 1 => o != 0
      | 2 => decide (o < 0)
      | _ => decide (0 ≤ o)

/-- VCMP: bit i of pd for lane i, zero above the lane count; a lane whose predicate bit is 0 leaves its bit unchanged
(R70, DEDUCED, log entry 16). -/
def effVcmp (s : State) (k : Nat) (i : SlotInst) (f : VC) : Eff :=
  if !s.fmtOk f.fmt then .error (excIll 1 i.op.code f.fmt.toNat) else
  let c := s.core k
  let w := laneBits f.fmt
  let old := c.getP f.pd
  let bits := (List.range (lanesOf f.fmt)).map (fun j =>
    if c.predBit i.pn i.pred j then condLane f.fmt f.cond (lane (c.getV f.vs1) w j) (lane (c.getV f.vs2) w j) else old.getLsbD j)
  effCore k (fun e => e.setP f.pd (BitVec.ofNat 64 (maskOf bits)))

/-- VMOV. -/
def effVmov (s : State) (k : Nat) (i : SlotInst) (f : VR) : Eff :=
  lanewise s k i f (fun _ _ _ a _ => (a, 0)) (fun _ a _ => a)

/-- VBCAST: xs1 truncated to the lane width. -/
def effVbcast (s : State) (k : Nat) (i : SlotInst) (f : VX) : Eff :=
  if !s.fmtOk f.fmt then .error (excIll 1 i.op.code f.fmt.toNat) else
  let c := s.core k
  let w := laneBits f.fmt
  let x := (c.getX f.src).toNat % 2 ^ w
  effCore k (fun e => e.setV f.d (writeLanes (c.getV f.d) w (lanesOf f.fmt) (c.predBit i.pn i.pred) (fun _ => (x, 0))).1)

/-- VEXT: lane LANE of vs1, sign-extended from the lane width. -/
def effVext (s : State) (k : Nat) (i : SlotInst) (f : VX) : Eff :=
  if !s.fmtOk f.fmt then .error (excIll 1 i.op.code f.fmt.toNat) else
  let c := s.core k
  let w := laneBits f.fmt
  effCore k (fun e => e.setX f.d (BitVec.ofInt 64 (sgn w (lane (c.getV f.src) w f.lane.toNat))))

/-- VLD: 64 bytes through aN; predicate bit i decides element i (R70, R74). -/
def effVld (s : State) (k : Nat) (i : SlotInst) (f : VM) : Eff :=
  let c := s.core k
  let r := c.getA f.an
  match agCheck 1 i.op.code r 64 with
  | .error e => .error e
  | .ok ts =>
    let ws := AG.words r.desc ts
    match c.badRow ws with
    | some row => .error (excEcc 1 row)
    | none =>
      let w := 8 * 2 ^ AG.esize r.desc
      let v := BitVec.ofNat 512 (leNat (AG.fetch s k r.desc ts))
      let q := (writeLanes (c.getV f.v) w (512 / w) (c.predBit i.pn i.pred) (fun j => (lane v w j, 0))).1
      effCore k (fun e => ((eccTouch ws e).setV f.v q).setA f.an (AG.advance r (512 / w)))

/-- Write the selected elements of an access, padding elements dropped (R70, R73). -/
def storeElems (k : Nat) : List (Option Nat × List Byte × Bool) → State → State
  | [], s => s
  | (some a, bs, true) :: l, s => storeElems k l (s.spadWr k a bs)
  | _ :: l, s => storeElems k l s

/-- VST: 64 bytes of vs through aN; predicate bit i decides element i. -/
def effVst (s : State) (k : Nat) (i : SlotInst) (f : VM) : Eff :=
  let c := s.core k
  let r := c.getA f.an
  match agCheck 1 i.op.code r 64 with
  | .error e => .error e
  | .ok ts =>
    let sz := 2 ^ AG.esize r.desc
    let bs := vecBytes (c.getV f.v)
    let el := (ts.zipIdx).map (fun p => (p.1, (bs.drop (p.2 * sz)).take sz, c.predBit i.pn i.pred p.2))
    .ok (fun t => (storeElems k el t).modCore k (fun e => e.setA f.an (AG.advance r (64 / sz))))

/-! ### VCVT (R137 to R141, R150) -/

/-- Bits of one register group as a single number, register base first. -/
def groupBits (c : Core) (b : BitVec 5) (n : Nat) : Nat :=
  (List.range n).foldl (fun a j => a + (c.getV (b + BitVec.ofNat 5 j)).toNat * 2 ^ (512 * j)) 0

/-- Write a register group. -/
def setGroup (c : Core) (b : BitVec 5) (n : Nat) (v : Nat) : Core :=
  (List.range n).foldl (fun e j => e.setV (b + BitVec.ofNat 5 j) (BitVec.ofNat 512 (v / 2 ^ (512 * j)))) c

/-- Elements of a VCVT pair (Table 5-4). -/
def cvtElems (fin fout : BitVec 4) : Nat :=
  if fin = 0xE ∨ fout = 0xE then 16
  else if isBlock fin || isBlock fout then 32
  else if laneBits fin = 8 || laneBits fout = 8 then 64
  else 32

/-- The anchor W in program order: that of the last MCFG issued, though it still be in the feed queue (R69, R146). (DEDUCED, log
entry 93.) -/
def Core.anchor (c : Core) : BitVec 10 :=
  c.queue.foldl (fun w e => match e.op with
    | .mcfg _ v => v
    | _ => w) c.w

/-- The exact input values of a VCVT. -/
def cvtInputs (c : Core) (f : VV) (n : Nat) : List FV :=
  let shape := (cvtShape f.fmtIn f.fmtOut).getD (1, 1)
  let g := groupBits c f.vs1 shape.1
  if f.fmtIn = 0xE then (List.range n).map (fun j => fwaVal c.anchor.toInt (sgn 128 (field g (128 * j) 128)))
  else if isBlock f.fmtIn then recordVals f.fmtIn g
  else (List.range n).map (fun j => elemVal f.fmtIn (field g (elemBits f.fmtIn * j) (elemBits f.fmtIn)))

/-- One output element that is not part of a block record: its bits and flags. -/
def cvtOut (c : Core) (f : VV) (m : Rnd) (v : FV) : Nat × Flags :=
  if f.fmtOut = 0xE then let r := roundFwa c.anchor.toInt m v; (wrapN 128 r.1, r.2)
  else if f.fmtOut = 0xB then let r := roundInt (-128) 127 m v; (wrapN 8 r.1, r.2)
  else if f.fmtOut = 0xC then let r := roundInt (-8) 7 .rne v; (wrapN 4 r.1, r.2)
  else match fpOf f.fmtOut with
    | some F => roundFp F false m v
    | none => (0, 0)

/-- VCVT: predicate bit j decides output element j, bit 0 a block record as a whole (R138); RND 0b100 needs STOCH and takes
one counter value (R144). -/
def effVcvt (s : State) (k : Nat) (i : SlotInst) (f : VV) : Eff :=
  if !s.fmtOk f.fmtIn then .error (excIll 1 i.op.code f.fmtIn.toNat)
  else if !s.fmtOk f.fmtOut then .error (excIll 1 i.op.code f.fmtOut.toNat)
  else if f.rnd = 4 ∧ s.licensed 7 = false then .error (excIll 1 i.op.code 0)
  else
    let c := s.core k
    let shape := (cvtShape f.fmtIn f.fmtOut).getD (1, 1)
    let n := cvtElems f.fmtIn f.fmtOut
    let vs := cvtInputs c f n
    let mode (j : Nat) : Rnd := rndOf f.rnd c.srseed c.srctr j
    let sel := c.predBit i.pn i.pred
    if isBlock f.fmtOut then
      if sel 0 then
        let b := toBlock f.fmtOut mode vs
        effCore k (fun e => { e.setV f.vd (BitVec.ofNat 512 (recordOf f.fmtOut b.1)) with fflags := e.fflags ||| b.2 })
      else effNone
    else
      let old := groupBits c f.vd shape.2
      let w := elemBits f.fmtOut
      let rs := (vs.zipIdx).map (fun p => if sel p.2 then cvtOut c f (mode p.2) p.1 else (field old (w * p.2) w, 0))
      let body := (rs.zipIdx).foldl (fun a p => a + (p.1.1 % 2 ^ w) * 2 ^ (w * p.2)) 0
      let tail := if f.fmtOut = 0xC ∧ sel 0 = false then field old 256 256 * 2 ^ 256 else 0
      let fl := rs.foldl (fun a r => a ||| r.2) 0
      effCore k (fun e => { setGroup e f.vd shape.2 (body + tail) with fflags := e.fflags ||| fl })

end Sys2Proof.Machine
end

