-- ==== Sys2Proof/Machine/Matrix.lean ====
section
/-! DEFINITION. The matrix array: effects of the M slot at issue, the feed queue, products and drains (04_matrix_array.md,
R107 to R130; R146 to R150). -/
namespace Sys2Proof.Machine

/-! ### Format groups and widths (Tables 4-1, 4-2, 4-3) -/

/-- Format groups of Table 4-1. -/
inductive Grp where | f8 | i8 | f4 | i4 | h | s
  deriving DecidableEq, Repr

def grpOf (fmt : BitVec 4) : Grp :=
  match fmt with
  | 0x0 => .s
  | 0x1 => .h
  | 0x2 => .h
  | 0x9 => .f4
  | 0xA => .f4
  | 0xB => .i8
  | 0xC => .i4
  | 0xD => .i8
  | _ => .f8

/-- K of a tile (Table 4-1). -/
def depthOf (g : Grp) : Nat :=
  match g with
  | .f4 => 32
  | .i4 => 32
  | .h => 8
  | .s => 8
  | _ => 16

/-- Tile bytes without the scale row (Table 4-2). -/
def tileBytes (fmt : BitVec 4) : Nat := if fmt = 0 then 512 else 256

/-- Bytes of an MLOAD (Table 4-3). -/
def mloadWidth (fmt : BitVec 4) : Nat := tileBytes fmt + (if isBlock fmt then 64 else 0)

/-- Elements of a stream vector (R112). -/
def streamLen (fmt : BitVec 4) (t : Bool) : Nat := if t then 16 else depthOf (grpOf fmt)

/-- Bytes of a stream vector (Table 4-3). -/
def streamWidth (fmt : BitVec 4) (t : Bool) : Nat :=
  if isBlock fmt then 32 else streamLen fmt t * elemBits fmt / 8

/-- Bytes of a drain (Table 4-5). -/
def drainWidth (fmt : BitVec 4) : Nat :=
  match fmt with
  | 0x0 => 64
  | 0x1 => 32
  | 0x2 => 32
  | 0xE => 256
  | _ => 16

/-! ### Values -/

/-- Element i of packed bytes (nibbles low first). -/
def packedElem (fmt : BitVec 4) (bs : List Byte) (off i : Nat) : Nat :=
  if isNibble fmt then
    let b := (bs.getD (off + i / 2) 0).toNat
    if i % 2 = 0 then b % 16 else b / 16
  else leAt bs (off + i * (elemBits fmt / 8)) (elemBits fmt / 8)

/-- The n elements of a stream vector with scale and nudges (R112). -/
def streamVals (fmt : BitVec 4) (bs : List Byte) (n : Nat) : List FV :=
  let sc := (bs.getD 16 0).toNat
  let nu := (bs.getD 17 0).toNat
  (List.range n).map (fun i => scaledVal fmt (packedElem fmt bs 0 i) sc (field nu (2 * (i / 8)) 2))

/-- W[k][n] of a tile (R111). -/
def tileVal (t : Tile) (k n : Nat) : FV :=
  let raw := match grpOf t.fmt with
    | .f4 => packedElem t.fmt t.bytes (8 * k) n
    | .i4 => packedElem t.fmt t.bytes (8 * k) n
    | .h => leAt t.bytes (32 * k + 2 * n) 2
    | .s => leAt t.bytes (64 * k + 4 * n) 4
    | _ => (t.bytes.getD (16 * k + n) 0).toNat
  let sc := (t.bytes.getD (tileBytes t.fmt + n) 0).toNat
  let nu := (t.bytes.getD (tileBytes t.fmt + 16 + n) 0).toNat
  scaledVal t.fmt raw sc (field nu (2 * (k / 8)) 2)

/-- hi(a): a rounded toward zero to BF16 (R128). -/
def hiPart (v : FV) : FV :=
  match v with
  | .fin _ _ _ => bf16.decode (roundFp bf16 false .rtz v).1
  | o => o

/-- lo(a): a − hi(a) rounded to nearest even to BF16; +0 for an infinity or a NaN (R128). -/
def loPart (v : FV) : FV :=
  match v with
  | .fin _ _ _ => bf16.decode (roundFp bf16 false .rne (FV.add .rne v (hiPart v).neg).1).1
  | _ => .fin false 0 0

/-- One product of a pass; a zero lo factor contributes exact +0 (R128). -/
def passProduct (pass : BitVec 2) (w x : FV) : FV :=
  match pass with
  | 1 => (FV.mul (hiPart w) (hiPart x)).1
  | 2 => if (loPart x).isZero then .fin false 0 0 else (FV.mul (hiPart w) (loPart x)).1
  | 3 => if (loPart w).isZero then .fin false 0 0 else (FV.mul (loPart w) (hiPart x)).1
  | _ => (FV.mul w x).1

/-- Exact sum of a list: a NaN or opposite infinities give NaN (R121). -/
def sumExact (l : List FV) : FV := l.foldl (fun a v => (FV.add .rne a v).1) (.fin false 0 0)

/-! ### Accumulator entries (R119, R121, R122, R148) -/

/-- Add the products of one instruction to an entry, or overwrite it. -/
def accumulate (mode : Bool) (w : BitVec 10) (z : Bool) (old : Acc) (ps : List FV) : Acc × Flags :=
  if mode then
    let qs := ps.map (productFwa w.toInt)
    let sum := qs.foldl (fun a q => a + q.1) 0
    let fl := qs.foldl (fun a q => a ||| q.2) (0 : Flags)
    (BitVec.ofInt 192 ((if z then 0 else old.toInt) + sum), fl)
  else
    let t := sumExact ps
    let v := if z then t else (FV.add .rne (fp32.decode (old.toNat % 2 ^ 32)) t).1
    match v with
    | .nan => (BitVec.ofNat 192 fp32.defNan, fInvalid)
    | .inf n => (BitVec.ofNat 192 (fp32.signed n fp32.infCode), 0)
    | .fin n m e => if m = 0 then (0, 0) else let r := roundFp fp32 false .rne (.fin n m e); (BitVec.ofNat 192 r.1, r.2)

/-- Key of entry n of row r. -/
def accKey (r n : Nat) : Nat := r * 16 + n

/-- Put a list of results into a file: (row, entry, products). -/
def accumulateAll (mode : Bool) (w : BitVec 10) (z : Bool) (file : SMap Acc) (l : List (Nat × Nat × List FV)) : SMap Acc × Flags :=
  l.foldl (fun (a : SMap Acc × Flags) e =>
    let key := accKey e.1 e.2.1
    let r := accumulate mode w z (sget 0 a.1 key) e.2.2
    (sput 0 a.1 key r.1, a.2 ||| r.2)) (file, 0)

/-- Results of an MMUL by row and entry (R117, Table 4-4). -/
def mmulResults (t : Tile) (f : MM) (row : Nat) (xs : List FV) : List (Nat × Nat × List FV) :=
  let g := grpOf f.fmt
  let kk := depthOf g
  if f.t then
    (List.range kk).map (fun k =>
      (if k < 16 then row else (row + 128) % 256, k % 16,
        (List.range 16).map (fun n => passProduct f.pass (tileVal t k n) (xs.getD n (.fin false 0 0)))))
  else
    (List.range 16).map (fun n =>
      (row, n, (List.range kk).map (fun k => passProduct f.pass (tileVal t k n) (xs.getD k (.fin false 0 0)))))

/-- Rows of the MOUTER product (Table 4-1). -/
def outerResults (fmt : BitVec 4) (xs ys : List FV) : List (Nat × Nat × List FV) :=
  (List.range (depthOf (grpOf fmt))).flatMap (fun i => (List.range 16).map (fun n =>
    (i, n, [(FV.mul (xs.getD i (.fin false 0 0)) (ys.getD n (.fin false 0 0))).1])))

/-! ### Drains (R123, R150) -/

/-- One entry converted to FMT out: its bits and flags. (DEDUCED, log entry 43.) -/
def drainEntry (mode : Bool) (w : BitVec 10) (fmt : BitVec 4) (m : Rnd) (e : Acc) : Nat × Flags :=
  if mode then
    if fmt = 0xE then
      let i := e.toInt
      if i < -(2 ^ 127 : Nat) then (wrapN 128 (-(fwaMax : Int)), fWindow)
      else if (2 ^ 127 : Nat) ≤ i then (fwaMax, fWindow)
      else (wrapN 128 i, 0)
    else
      let v := fwaVal w.toInt e.toInt
      match fpOf fmt with
      | some F => roundFp F false m v
      | none => let r := roundInt (-128) 127 m v; (wrapN 8 r.1, r.2)
  else
    let b := e.toNat % 2 ^ 32
    if fmt = 0 then (b, 0) else
    match fpOf fmt with
    | some F => roundFp F false m (fp32.decode b)
    | none => let r := roundInt (-128) 127 m (fp32.decode b); (wrapN 8 r.1, r.2)

/-- The 16 entries of a row converted, as bytes in entry order, with the flags. -/
def drainRow (c : Core) (f : MD) (seed ctr : W64) (file : SMap Acc) (row : Nat) : List Byte × Flags :=
  let rs := (List.range 16).map (fun n => drainEntry c.mode c.w f.fmt (rndOf f.rnd seed ctr n) (sget 0 file (accKey row n)))
  let sz := drainWidth f.fmt / 16
  (rs.flatMap (fun r => leBytes sz r.1), rs.foldl (fun a r => a ||| r.2) 0)

/-! ### Issue checks and the feed queue -/

/-- Valid marks and formats of (active, shadow) once the queued instructions have acted (R113, R114). -/
def marksAfter (c : Core) : (Bool × BitVec 4) × (Bool × BitVec 4) :=
  c.queue.foldl (fun m e =>
    match e.op with
    | .mload fmt _ => (m.1, (true, fmt))
    | .mmul f _ _ => if f.sw then (m.2, m.1) else m
    | _ => m) ((c.active.valid, c.active.fmt), (c.shadow.valid, c.shadow.fmt))

/-- Add an entry to the feed queue; MTX_QMAX keeps the largest occupancy (R115, R130). Every instruction counts as it joins, one that
leaves in its issue cycle too, of which the rule does not speak (DESIGN CHOICE, log entry 101). The cycles of its extra reads are owed. -/
def Core.feed (c : Core) (e : FeedEntry) : Core :=
  let q := c.queue ++ [e]
  { c with queue := q, owed := c.owed + e.extra, mtxQmax := BitVec.ofNat 5 (max c.mtxQmax.toNat (min 17 q.length)) }

/-- Row of the accumulator file or the cell-local rows that an MDRAIN names (R118, R123). -/
def drainTarget (c : Core) (f : MD) : Nat :=
  let r := c.getA f.aD
  let ri := if AG.elems r.desc (drainWidth f.fmt) = 0 then 0 else rowIndex r (drainWidth f.fmt)
  if f.src then (f.acc.toNat + ri) % 32 else (f.acc.toNat + ri) % 256

/-- Is there a queued MMUL to the row (or MOUTER, for the cell-local rows) that an MDRAIN names (R84, Table 3-2)? -/
def drainWaits (c : Core) (f : MD) : Bool :=
  c.queue.any (fun e =>
    match e.op with
    | .mmul g row _ => !f.src && (row == drainTarget c f ||
        (g.t && (grpOf g.fmt == .f4 || grpOf g.fmt == .i4) && (row + 128) % 256 == drainTarget c f))
    | .mouter _ _ _ _ => f.src
    | _ => false)

/-- Banks with an MDRAIN write in flight (R86). -/
def drainBanks (c : Core) : List Nat :=
  c.queue.flatMap (fun e => e.banks)

/-- Read an operand for the feeder: exception of a poisoned row is found after issue (R164, R452). -/
def feederRead (s : State) (k : Nat) (op : BitVec 7) (an : BitVec 4) (width : Nat) :
    Except Exc (List Byte × List Nat × List Nat × AGReg) :=
  let r := (s.core k).getA an
  match agCheck 2 op r width with
  | .error e => .error e
  | .ok ts => .ok (AG.fetch s k r.desc ts, AG.words r.desc ts, AG.rows r.desc ts, AG.advance r (AG.elems r.desc width))

/-- Queue an instruction that has read its operands; a poisoned row met by the feeder stops the core at its next boundary
and the instruction never leaves (R164). -/
def feedOrFault (k : Nat) (c : Core) (ws : List Nat) (e : FeedEntry) : State → State :=
  match c.badRow ws with
  | some row => fun s => (s.modCore k (eccTouch ws)).engineExc k (excEcc 2 row)
  | none => fun s => s.modCore k (fun d => (eccTouch ws d).feed e)

/-- Does a group-H or group-S operation take a second array cycle (R122)? -/
def twoCycles (c : Core) (fmt : BitVec 4) : Nat := if c.mode && (grpOf fmt == .h || grpOf fmt == .s) then 1 else 0

/-- MMUL at issue (R108 to R117); `lost` are the banks that the feeder loses in this cycle (R115). -/
def effMmul (s : State) (k : Nat) (f : MM) (lost : List Nat) : Eff :=
  let c := s.core k
  if !s.fmtOk f.fmt then .error (excIll 2 0x01 f.fmt.toNat) else
  let mk := marksAfter c
  let act := if f.sw then mk.2 else mk.1
  if act.1 = false ∨ grpOf act.2 ≠ grpOf f.fmt then .error (excIll 2 0x01 f.fmt.toNat) else
  match feederRead s k 0x01 f.aS (streamWidth f.fmt f.t) with
  | .error e => .error e
  | .ok (bs, ws, rows, ag) =>
    let row := (f.acc.toNat + rowIndex (c.getA f.aS) (streamWidth f.fmt f.t)) % 256
    .ok (fun t => (feedOrFault k c ws ⟨.mmul f row bs, [f.aS], extraCycles rows lost + twoCycles c f.fmt, [], false⟩ t).modCore k
      (fun d => d.setA f.aS ag))

/-- MLOAD at issue (R113). -/
def effMload (s : State) (k : Nat) (f : ML) (lost : List Nat) : Eff :=
  let c := s.core k
  if !s.fmtOk f.fmt then .error (excIll 2 0x02 f.fmt.toNat) else
  match feederRead s k 0x02 f.aS (mloadWidth f.fmt) with
  | .error e => .error e
  | .ok (bs, ws, rows, ag) =>
    .ok (fun t => (feedOrFault k c ws ⟨.mload f.fmt bs, [f.aS], extraCycles rows lost, [], false⟩ t).modCore k (fun d => d.setA f.aS ag))

/-- MOUTER at issue (R118); of the exceptions of its two reads the lowest code is taken, that of aX where they are of one code
(R452). -/
def effMouter (s : State) (k : Nat) (f : MO) (lost : List Nat) : Eff :=
  let c := s.core k
  if !s.fmtOk f.fmt then .error (excIll 2 0x04 f.fmt.toNat) else
  match feederRead s k 0x04 f.aX (streamWidth f.fmt false), feederRead s k 0x04 f.aY (streamWidth f.fmt true) with
  | .error e, .error g => .error (if g.code < e.code then g else e)
  | .error e, .ok _ => .error e
  | .ok _, .error g => .error g
  | .ok (xb, xw, xr, ax), .ok (yb, yw, yr, ay) =>
    let rows := (xr ++ yr).eraseDups
    .ok (fun t =>
      (feedOrFault k c (xw ++ yw).eraseDups
        ⟨.mouter f.fmt f.z xb yb, [f.aX, f.aY], extraCycles rows lost + twoCycles c f.fmt, [], false⟩ t).modCore k
        (fun d => (d.setA f.aX ax).setA f.aY ay))

/-- MDRAIN at issue: the counter value of a stochastic drain is taken now (R144); `ctr` is that value. -/
def effMdrain (s : State) (k : Nat) (f : MD) (ctr : W64) : Eff :=
  let c := s.core k
  if !s.fmtOk f.fmt then .error (excIll 2 0x05 f.fmt.toNat)
  else if f.fmt = 0xE ∧ c.mode = false then .error (excIll 2 0x05 f.fmt.toNat)
  else if f.rnd = 4 ∧ s.licensed 7 = false then .error (excIll 2 0x05 0)
  else
    let r := c.getA f.aD
    match agCheck 2 0x05 r (drainWidth f.fmt) with
    | .error e => .error e
    | .ok ts =>
      let rows := AG.rows r.desc ts
      effCore k (fun d => (d.feed ⟨.mdrain f (drainTarget c f) c.srseed ctr ts, [f.aD], extraCycles rows [], banksOf rows, false⟩).setA f.aD
        (AG.advance r (AG.elems r.desc (drainWidth f.fmt))))

/-- MCFG at issue (R84, R120). -/
def effMcfg (s : State) (k : Nat) (f : MW) : Eff :=
  if f.mode ∧ s.licensed 3 = false then .error (excIll 2 0x06 0)
  else effCore k (fun d => d.feed ⟨.mcfg f.mode f.w, [], 0, [], false⟩)

/-! ### Leaving the queue (R115, R120 to R124, R126) -/

/-- Count array cycles, while the core runs or is held, as operations and bubbles (R127, R130), and core cycles: the two
array counters together keep pace with CYCLE. -/
def Core.arrayCycles (c : Core) (ops bubbles cycles : Nat) : Core :=
  let d := { c with cycle := c.cycle + BitVec.ofNat 64 cycles }
  if c.st = 3 ∨ c.st = 4 then
    { d with
      mtxOps := BitVec.ofNat 32 (satAdd 32 c.mtxOps.toNat ops)
      mtxBubbles := BitVec.ofNat 32 (satAdd 32 c.mtxBubbles.toNat bubbles) }
  else d

/-- Exchange the tiles where the instruction asks for it (R114). -/
def Core.swapTiles (c : Core) (sw : Bool) : Core := if sw then { c with active := c.shadow, shadow := c.active } else c

/-- Write the elements of a drain, padding dropped. -/
def drainWrite (k sz : Nat) (bs : List Byte) (ts : List (Option Nat)) (s : State) : State :=
  storeElems k ((ts.zipIdx).map (fun p => (p.1, (bs.drop (p.2 * sz)).take sz, true))) s

/-- The entries of the drain of a queued MDRAIN, as bytes, with their flags. -/
def Core.drained (c : Core) (f : MD) (row : Nat) (seed ctr : W64) : List Byte × Flags :=
  drainRow c f seed ctr (if f.src then c.cell else c.acc) row

/-- What a matrix instruction does to tiles, accumulators, mode and FFLAGS; the flags of a muted entry reach no FFLAGS. -/
def Core.act (c : Core) (e : FeedEntry) : Core :=
  let join (fl : Flags) : Flags := if e.mute then 0 else fl
  match e.op with
  | .mmul f row bs =>
    let c1 := c.swapTiles f.sw
    let r := accumulateAll c1.mode c1.w f.z c1.acc (mmulResults c1.active f row (streamVals f.fmt bs (streamLen f.fmt f.t)))
    { c1 with acc := r.1, fflags := c.fflags ||| join r.2 }
  | .mload fmt bs => { c with shadow := ⟨true, fmt, bs⟩ }
  | .mouter fmt z xb yb =>
    let r := accumulateAll c.mode c.w z c.cell (outerResults fmt (streamVals fmt xb (streamLen fmt false)) (streamVals fmt yb 16))
    { c with cell := r.1, fflags := c.fflags ||| join r.2 }
  | .mdrain f row seed ctr _ =>
    let keys := (List.range 16).map (accKey row)
    let clear (m : SMap Acc) : SMap Acc := if f.clr then m.filter (fun e => !keys.contains e.1) else m
    { c with
      acc := if f.src then c.acc else clear c.acc
      cell := if f.src then clear c.cell else c.cell
      fflags := c.fflags ||| join (c.drained f row seed ctr).2 }
  | .mcfg mode w => { c with mode := mode, w := w, zeroing := true }

/-- FFLAGS once every matrix instruction issued so far has acted: what a later bundle reads whenever the queue empties (R69). -/
def Core.flagsNow (c : Core) : Flags := (c.queue.foldl Core.act c).fflags

/-- Owed array cycles that an entry's leaving shows to have passed: those that the entries behind it do not fill (R115, R127). -/
def Core.payOwed (c : Core) (behind : Nat) : Core :=
  { c.arrayCycles 0 (c.owed - behind) (c.owed - behind) with owed := min c.owed behind }

/-- The array cycle that an entry itself takes: an operation for MMUL and MOUTER, a bubble for the others (Table 4-8); the zeroing
of an MCFG takes 15 more. -/
def Core.enterArray (c : Core) : FeedOp → Core
  | .mmul _ _ _ => c.arrayCycles 1 0 0
  | .mouter _ _ _ _ => c.arrayCycles 1 0 0
  | .mload _ _ => c.arrayCycles 0 1 0
  | .mdrain _ _ _ _ _ => c.arrayCycles 0 1 0
  | .mcfg _ _ => { c.arrayCycles 0 1 0 with owed := c.owed + 15 }

/-- The first instruction of the feed queue leaves it and acts; an MDRAIN writes its bytes, and what waits for an earlier MDRAIN waits
for one entry less. -/
def leaveQueue (s : State) (k : Nat) (e : FeedEntry) (rest : List FeedEntry) : State :=
  let c0 := s.core k
  let s1 := s.modCore k (fun c =>
    { ((c.payOwed rest.length).enterArray e.op).act e with
      queue := rest
      sw := { c.sw with drains := c.sw.drains - 1 }
      copies := c.copies.map (fun q => { q with drains := q.drains - 1 }) })
  match e.op with
  | .mdrain f row seed ctr ts => drainWrite k (drainWidth f.fmt / ts.length) (c0.drained f row seed ctr).1 ts s1
  | _ => s1

/-- FEED_QUEUE_LEAVE (R115): the first instruction's reads are complete; with an empty queue nothing leaves. While an MCFG
zeroes the file no instruction is behind it (R84). -/
def execFeedQueueLeave (core : Fin 39168) (s : State) : Host.Outcome State Fault Refusal :=
  match (s.core core).queue with
  | [] => .next s
  | e :: rest => .next (leaveQueue s core e rest)

/-- MCFG_ZEROING (R84, R120): the 16 cycles have passed, those of them in which no bundle issued as bubbles; every entry is zero. -/
def execMcfgZeroing (core : Fin 39168) (s : State) : Host.Outcome State Fault Refusal :=
  .next (s.modCore core (fun c =>
    if c.zeroing then { c.payOwed 0 with acc := [], cell := [], zeroing := false } else c))

end Sys2Proof.Machine
end

