-- ==== Sys2Proof/Machine/Exchange.lean ====
section
/-! DEFINITION. Effects of the X slot (Table 3-12, R85, R89 to R91, R93, R94, R192, R196). -/
namespace Sys2Proof.Machine

/-- Entries of the feed queue up to its last MDRAIN: the drains that output engines wait for (R196). -/
def drainsQueued (q : List FeedEntry) : Nat :=
  q.length - (q.reverse.takeWhile (fun e => match e.op with
    | .mdrain _ _ _ _ _ => false
    | _ => true)).length

/-- XPLY (R89, R192): the cross-connect of the set is applied and the link engines start their lists. (DEDUCED, log entry 33.) -/
def effXply (s : State) (k : Nat) (f : XP) : Eff :=
  let c := s.core k
  match (s.classOf k).bind (fun r => r.exch) with
  | none => .error (excIll 3 0x01 0)
  | some e =>
    match e.sets[f.set.toNat]? with
    | none => .error (excIll 3 0x01 0)
    | some x =>
      let ovl := ((s.progOf k).map (fun g => g.overlap.getLsbD f.set.toNat)).getD false
      if c.xplyDone then .error (excTempo 0x100)
      else if ovl && !c.fresh then .error (excTempo 0x200)
      else .ok (fun t => (t.modCore k (fun d =>
        { d with
          xplyDone := true
          sw := { d.sw with
            set := f.set, active := true, standing := false, xc := x.xc, outSent := [], inTaken := [], unack := [],
            routes := [], drains := drainsQueued c.queue, setWait := c.setRun.isSome } })).runSwitch k)

/-- CPY (R85, R176): the descriptor address is checked and the copy joins the outstanding ones. -/
def effCpy (s : State) (k : Nat) (f : XC) : Eff :=
  let a := ((s.core k).getX f.x).toNat
  if a % 64 ≠ 0 ∨ 0x200000 ≤ a then .error ⟨0x09, 3, 0x0001⟩
  else effCore k (fun d =>
    { d with
      copies := d.copies ++ [{ cn := f.cn, addr := a, started := false, local2 := false, failed := false, id := d.copySeq,
                               desc := 0, reqs := [], bytes := 0, drains := drainsQueued d.queue }]
      copySeq := d.copySeq + 1 })

/-- CWAIT: once met, nothing more. -/
def effCwait (_s : State) (_k : Nat) (_f : XC) : Eff := effNone

/-- CRD: x := cN. -/
def effCrd (s : State) (k : Nat) (f : XC) : Eff :=
  let c := s.core k
  effCore k (fun d => d.setX f.x ((c.getC f.cn).zeroExtend 64))

/-- BCLM (R93): the active claim set from the next bundle on. -/
def effBclm (s : State) (k : Nat) (f : XP) : Eff :=
  match s.classOf k with
  | none => .error (excIll 3 0x06 0)
  | some r =>
    if f.set.toNat < r.claims.length then effCore k (fun d => { d with claim := f.set }) else .error (excIll 3 0x06 0)

/-- Is a core a member of a barrier group (R33)? -/
def State.inGroup (s : State) (k g : Nat) : Bool := ((s.classOf k).map (fun r => r.groups.getLsbD g)).getD false

/-- An arrival at a group with the operand of an x register (R35, R90). -/
def arrival (s : State) (k : Nat) (g : BitVec 6) (x : BitVec 5) (isEnd : Bool) : Eff :=
  let c := s.core k
  if !s.inGroup k g.toNat then .error (excTempo (0x400 + g.toNat))
  else if c.arrOut.getLsbD g.toNat then .error (excTempo g.toNat)
  else
    let v := c.getX x
    effCore k (fun d =>
      { d with
        arrOut := d.arrOut ||| BitVec.ofNat 64 (2 ^ g.toNat)
        arrHeld := d.arrHeld ++ [⟨g.toNat, v, isEnd, c.copySeq⟩]
        st := if g = 0 then 4 else d.st
        ended := d.ended || isEnd
        fflagsReg := if isEnd then d.flagsNow else d.fflagsReg })

/-- ARR (R90): group 0 also holds issue until the release instant. -/
def effArr (s : State) (k : Nat) (f : XT) : Eff := arrival s k f.g f.x false

/-- WREL: once the group is released, nothing more. -/
def effWrel (_s : State) (_k : Nat) (_f : XT) : Eff := effNone

/-- RRES: the result of the group's last release. -/
def effRres (s : State) (k : Nat) (f : XT) : Eff :=
  let c := s.core k
  effCore k (fun d => d.setX f.x (sget 0 c.gres f.g.toNat))

/-- RFLG: the overflow flag of the group's last release as a predicate. -/
def effRflg (s : State) (k : Nat) (f : XT) : Eff :=
  let c := s.core k
  effCore k (fun d => d.setP f.pd (if c.govf.getLsbD f.g.toNat then -1 else 0))

/-- HALT (Table 3-13). -/
def effHalt (f : XH) : Eff := .error ⟨0x0B, 3, f.code⟩

/-- XFENCE: once the writes are complete, nothing more. -/
def effXfence (_s : State) (_k : Nat) (_f : XH) : Eff := effNone

/-- END (R91): the final arrival at group 0. -/
def effEndp (s : State) (k : Nat) (f : XT) : Eff := arrival s k 0 f.x true

end Sys2Proof.Machine
end

