-- ==== Sys2Proof/Machine/Copies.lean ====
section
/-! DEFINITION. The copy engine of a core (06_scratchpad_and_copies.md R169 to R181, R276, R285): descriptor checks,
expansion, requests and responses, completion, context paging; the patrol scrubber and write-back (R163, R165). -/
namespace Sys2Proof.Machine

/-! ### Descriptors (Table 6-4) -/

namespace CopyDesc
def mode (d : W512) : Nat := (d.extractLsb' 28 4).toNat
def sloc (d : W512) : Bool := d.getLsbD 27
def dloc (d : W512) : Bool := d.getLsbD 26
def cls (d : W512) : Bool := d.getLsbD 25
def isz (d : W512) : Bool := d.getLsbD 24
def aop (d : W512) : Nat := (d.extractLsb' 20 4).toNat
def atype (d : W512) : Nat := (d.extractLsb' 16 4).toNat
def len (d : W512) : Nat := (d.extractLsb' 32 32).toNat
def src (d : W512) : Nat := (d.extractLsb' 64 64).toNat
def dst (d : W512) : Nat := (d.extractLsb' 128 64).toNat
def raw1 (d : W512) : Nat := (d.extractLsb' 192 32).toNat
def raw2 (d : W512) : Nat := (d.extractLsb' 224 32).toNat
def sstr1 (d : W512) : W64 := d.extractLsb' 256 64
def dstr1 (d : W512) : W64 := d.extractLsb' 320 64
def sstr2 (d : W512) : W64 := d.extractLsb' 384 64
def dstr2 (d : W512) : W64 := d.extractLsb' 448 64
/-- COUNT1 and COUNT2 as the mode uses them; 0 acts as 1. -/
def n1 (d : W512) : Nat := if mode d = 0 then 1 else max 1 (raw1 d)
def n2 (d : W512) : Nat := if mode d = 1 ∨ mode d = 4 then max 1 (raw2 d) else 1

/-- Are the fields that Table 6-5 marks unused zero? -/
def unusedZero (d : W512) : Bool :=
  match mode d with
  | 0 => raw1 d == 0 && raw2 d == 0 && sstr1 d == 0 && dstr1 d == 0 && sstr2 d == 0 && dstr2 d == 0
  | 2 => raw2 d == 0 && dstr2 d == 0
  | 3 => raw2 d == 0 && sstr2 d == 0
  | 5 => raw2 d == 0 && dstr2 d == 0
  | 6 => raw2 d == 0 && sstr2 d == 0
  | _ => true

/-- Cause 0x02. -/
def bad02 (d : W512) : Bool :=
  decide (6 < mode d) || (d.extractLsb' 0 16 != 0) || !unusedZero d || decide (5 < aop d) || decide (4 < atype d) ||
  (sloc d && (decide (2 ^ 21 ≤ src d) || mode d == 5)) || (dloc d && (decide (2 ^ 21 ≤ dst d) || mode d == 6))

/-- Cause 0x03 (R171). -/
def bad03 (d : W512) : Bool :=
  let m := 2 ^ 24
  !(decide (8 ≤ len d ∧ len d ≤ m)) || decide (m < n1 d) || decide (m < n2 d) || decide (2 ^ 32 < len d * n1 d * n2 d)

/-- Addresses and byte strides that must be aligned, by mode (R171). -/
def aligned (d : W512) : List Nat :=
  match mode d with
  | 0 => [src d, dst d]
  | 2 => [src d, dst d, (sstr1 d).toNat, (dstr1 d).toNat]
  | 3 => [src d, dst d, (sstr1 d).toNat, (dstr1 d).toNat]
  | 5 => [dst d, (dstr1 d).toNat, (sstr2 d).toNat]
  | 6 => [src d, (sstr1 d).toNat, (dstr2 d).toNat]
  | _ => [src d, dst d, (sstr1 d).toNat, (dstr1 d).toNat, (sstr2 d).toNat, (dstr2 d).toNat]

/-- Cause 0x04. -/
def bad04 (d : W512) : Bool :=
  let g := if mode d = 4 ∧ atype d = 4 then 16 else 8
  len d % g != 0 || (aligned d).any (fun a => a % g != 0)

/-- Does a local side with a base and strides stay inside the scratchpad? -/
def sideOk (d : W512) (b : Nat) (x y : W64) : Bool :=
  let p := ((n1 d : Int) - 1) * x.toInt
  let q := ((n2 d : Int) - 1) * y.toInt
  decide (0 ≤ (b : Int) + min 0 p + min 0 q) && decide ((b : Int) + max 0 p + max 0 q + len d ≤ 2 ^ 21)

/-- Cause 0x05 as far as step 3 sees it: sides whose runs depend on an index list are checked as they expand. -/
def bad05 (d : W512) : Bool :=
  let y (v : W64) : W64 := if mode d = 1 ∨ mode d = 4 then v else 0
  (sloc d && mode d != 2 && !sideOk d (src d) (sstr1 d) (y (sstr2 d))) ||
  (dloc d && mode d != 3 && !sideOk d (dst d) (dstr1 d) (y (dstr2 d)))

/-- Offset of the index list. -/
def listOff (d : W512) : Nat := if mode d = 2 then (sstr2 d).toNat else (dstr2 d).toNat
def idxSize (d : W512) : Nat := if isz d then 8 else 4

/-- Cause 0x0E. -/
def bad0E (d : W512) : Bool :=
  (mode d == 2 || mode d == 3) &&
    (listOff d % 8 != 0 || decide (2 ^ 21 ≤ listOff d) || decide (2 ^ 21 < listOff d + n1 d * idxSize d))
end CopyDesc

/-- Does a hall address lie in host memory or in the context-and-reserved range, where no atomic goes (R175)? -/
def State.noAtomicAt (s : State) (h : Nat) : Bool :=
  let sp := field h 60 4
  sp == 1 || ((sp == 2 || (sp == 0 && field h 44 13 == s.ownId)) && inReserved h)

/-- Does the base of a copy's destination lie there? -/
def State.noAtomic (s : State) (d : W512) : Bool := !CopyDesc.dloc d && s.noAtomicAt (CopyDesc.dst d)

/-- The failure that step 3 finds, the lowest cause first (R176). -/
def State.copyCheck (s : State) (d : W512) : Option Nat :=
  let m := CopyDesc.mode d
  if CopyDesc.bad02 d then some 0x02
  else if CopyDesc.bad03 d then some 0x03
  else if CopyDesc.bad04 d then some 0x04
  else if CopyDesc.bad05 d then some 0x05
  else if m = 4 ∧ atomPair (CopyDesc.aop d) (CopyDesc.atype d) = false then some 0x0A
  else if m = 4 ∧ s.noAtomic d = true then some 0x0A
  else if CopyDesc.bad0E d then some 0x0E
  else if (m = 5 ∨ m = 6) ∧ s.licensed 6 = false then some 0x0F
  else if m = 4 ∧ CopyDesc.atype d = 4 ∧ s.licensed 3 = false then some 0x0F
  else none

/-! ### Failure (R176) -/

def Core.modCopy (c : Core) (id : Nat) (f : Copy → Copy) : Core :=
  { c with copies := c.copies.map (fun q => if q.id = id then f q else q) }

/-- A copy fails: the first failure is recorded and taken as exception 0x09; `late` says step 4 or 5. -/
def State.copyFail (s : State) (k id cause : Nat) (late : Bool) : State :=
  match (s.core k).copies.find? (fun q => q.id == id) with
  | none => s
  | some q =>
    if q.failed then s
    else (s.modCore k (fun c => { c.modCopy id (fun q => { q with failed := true }) with copyCause := BitVec.ofNat 8 cause })).engineExc k
      ⟨0x09, 3, BitVec.ofNat 16 (cause + bitN late * 256)⟩

def State.copyFailed (s : State) (k id : Nat) : Bool :=
  match (s.core k).copies.find? (fun q => q.id == id) with
  | none => true
  | some q => q.failed

/-! ### Requests -/

/-- Pieces of a run: at most 512 bytes, not across a 4 KiB boundary of the remote address (R173): offset and length. -/
def pieces : Nat → Nat → Nat → Nat → List (Nat × Nat)
  | 0, _, _, _ => []
  | n + 1, a, off, len =>
    if len = 0 then []
    else
      let m := min len (min 512 (4096 - (a + off) % 4096))
      (off, m) :: pieces n a (off + m) (len - m)

def piecesOf (a len : Nat) : List (Nat × Nat) := pieces (len / 8 + 1) a 0 len

/-- Where a request to a hall address goes: its panel, or the cause that fails it at once. -/
def State.requestPanel (s : State) (k h : Nat) (a : Access) : Except Nat Nat :=
  if hallBad h then .error a.cause
  else if (match a with
    | .atomic _ _ _ => s.noAtomicAt h
    | _ => false) then .error 0x0A
  else match s.place (s.partOfCore k) h with
    | .bad => .error a.cause
    | .reg _ => .error a.cause
    | .job _ _ => if a.isRead then .error 0x06 else .ok s.ownId
    | .host _ =>
      if (s.reg Reg.sylLead).getLsbD 31 = false then .error 0x11
      else
        let q := s.regF Reg.sylLead 0 13
        if q ≠ s.ownId ∧ s.routable q = false then .error 0x11 else .ok q
    | .remote q _ => if s.routable q then .ok q else .error 0x11
    | _ => .ok s.ownId

/-- Issue one request of a copy (R173 step 4, R276): its tag is noted until the answer comes. -/
def State.sendReq (s : State) (k id h : Nat) (a : Access) (d : W512) (dst : Side) : State :=
  match s.requestPanel k h a with
  | .error c => s.copyFail k id c true
  | .ok q =>
    let c := s.core k
    let part := (s.partOfCore k).getD 0
    let (opc, attr, pay) : Nat × Nat × List Byte := match a with
      | .read n => (1, n / 8, [])
      | .write bs => (2, bs.length / 8, bytesAt bs 0 ((bs.length + 63) / 64 * 64))
      | .atomic o t bs => (3, o * 4096 + t * 256 + bs.length / 8, bytesAt bs 0 ((bs.length + 63) / 64 * 64))
    let p : Packet := { Packet.blank with
      opc := BitVec.ofNat 4 opc, cls := if CopyDesc.cls d then 0 else 2, len := BitVec.ofNat 4 (pay.length / 64)
      dpanel := BitVec.ofNat 16 q, spanel := BitVec.ofNat 16 s.ownId, sep := BitVec.ofNat 8 (dieOf k)
      ssite := BitVec.ofNat 16 (siteOf k), part := BitVec.ofNat 4 part, tree := BitVec.ofNat 12 (s.part part).tree
      tag := c.nextTag, attr := BitVec.ofNat 16 attr, addr := BitVec.ofNat 64 h, payload := pay }
    (s.modCore k (fun c =>
      { c.modCopy id (fun y => { y with reqs := y.reqs ++ [⟨c.nextTag, BitVec.ofNat 4 opc, q, dst, a.size⟩] }) with
        nextTag := c.nextTag + 1 })).inject (.core k) p

/-- Write or combine bytes at a remote destination of a copy, in pieces. -/
def State.sendOutBytes (s : State) (k id h : Nat) (bs : List Byte) (d : W512) : State :=
  (piecesOf h bs.length).foldl (fun t e =>
    if t.copyFailed k id then t
    else
      let x := (bs.drop e.1).take e.2
      let a : Access := if CopyDesc.mode d = 4 then .atomic (CopyDesc.aop d) (CopyDesc.atype d) x else .write x
      t.sendReq k id ((h + e.1) % 2 ^ 64) a d (.hall 0)) s

/-- Read the core's own scratchpad through port 0x4 (R172): a poisoned row raises exception 0x05 and ends the copy
(R164). -/
def State.copyRead (s : State) (k id off n : Nat) : State × Option (List Byte) :=
  let ws := wordsOf off n
  let s1 := s.modCore k (fun c => c.engineRead ws)
  match (s.core k).badRow ws with
  | some r => ((s1.modCore k (fun c => c.modCopy id (fun q => { q with failed := true }))).engineExc k (excEcc 3 r), none)
  | none => (s1, some (s.spadRd k off n))

/-- Bytes reach the destination side of a copy. -/
def State.copyInto (s : State) (k id : Nat) (bs : List Byte) (dst : Side) (d : W512) : State :=
  match dst with
  | .hall h => s.sendOutBytes k id h bs d
  | .spad off =>
    if CopyDesc.mode d = 4 then
      match s.copyRead k id off bs.length with
      | (s1, some old) => s1.spadWr k off (combineBytes (CopyDesc.aop d) (CopyDesc.atype d) old bs)
      | (s1, none) => s1
    else s.spadWr k off bs

/-- One side of a run at an address; a local side must lie in the scratchpad. The address is what `runAddr` computes, modulo 2^64 before
the test, as R171 takes every computed address (DEDUCED, log entry 105). -/
def sideAt (loc : Bool) (a len : Nat) : Except Nat Side :=
  if loc then (if a + len ≤ 2 ^ 21 then .ok (.spad a) else .error 0x05) else .ok (.hall a)

/-- One run (R173 step 4). -/
def State.copyRun (s : State) (k id : Nat) (d : W512) (src dst : Side) : State :=
  let n := CopyDesc.len d
  match src with
  | .spad off =>
    match s.copyRead k id off n with
    | (s1, some bs) => s1.copyInto k id bs dst d
    | (s1, none) => s1
  | .hall h =>
    (piecesOf h n).foldl (fun t e =>
      if t.copyFailed k id then t
      else t.sendReq k id ((h + e.1) % 2 ^ 64) (.read e.2) d
        (match dst with
          | .spad off => .spad (off + e.1)
          | .hall g => .hall ((g + e.1) % 2 ^ 64))) s

/-! ### Sequence contexts (R177 to R181) -/

/-- A context entry read from the table. -/
structure CtxEntry where
  psize : Nat
  tokBytes : Nat
  tpp : Nat
  length : Nat
  npages : Nat
  list : Nat
  deriving DecidableEq, Repr

/-- A context entry that Table 6-11 admits. -/
def State.ctxEntry (s : State) (id : Nat) : Option CtxEntry :=
  let bs := rdN s.mem (ctxBase + 64 * id) 64
  let w := leAt bs 0 4
  let e : CtxEntry := ⟨field w 24 4, leAt bs 4 4, leAt bs 8 4, leAt bs 12 4, leAt bs 16 4, leAt bs 24 8⟩
  if bit w 31 && w % 2 ^ 24 == 0 && field w 28 3 == 0 && decide (e.psize ≤ 9) && decide (8 ≤ e.tokBytes) && e.tokBytes % 8 == 0 &&
      decide (1 ≤ e.tpp) && decide (e.tpp * e.tokBytes ≤ 4096 * 2 ^ e.psize) && decide (1 ≤ e.npages ∧ e.npages ≤ 1048576) &&
      leAt bs 20 4 == 0 && decide (e.list < 2 ^ 44) && e.list % 8 == 0 && (bs.drop 32).all (· == 0) then some e
  else none

/-- May a partition use a context (R178)? -/
def State.ctxUsable (s : State) (req : Option Nat) (id : Nat) : Bool :=
  s.ctxAllowed req (64 * id) 64 && decide (id < s.regF Reg.llim 9 11)

/-- Address of a token's bytes by the page walk (R180), on behalf of a partition: a hall address in space 0x2, or the
cause. -/
def State.pageWalk (s : State) (req : Option Nat) (e : CtxEntry) (t f : Nat) : State × Except Nat Nat :=
  match s.localPlace req (e.list + 8 * (t / e.tpp)) with
  | .hbm pa =>
    if s.granted req (sliceOf pa) false = false then (s, .error 0x08)
    else match s.hbmAccess pa (.read 8) with
      | (s1, .data bs) =>
        let w := leNat bs
        let pg := w % 2 ^ 44
        let inHbm : Bool := match s.localPlace req pg with
          | .hbm _ => true
          | .beyond => true
          | _ => false
        if bit w 63 && field w 44 19 == 0 && pg % (4096 * 2 ^ e.psize) == 0 && inHbm then
          (s1, .ok (2 * 2 ^ 60 + pg + (t % e.tpp) * e.tokBytes + f))
        else (s1, .error 0x0D)
      | (s1, .err c) => (s1, .error c)
      | (s1, _) => (s1, .error 0x0D)
  | .beyond => (s, .error 0x08)
  | _ => (s, .error 0x0B)

/-- Checks of a context-paged copy before its runs (R178, R180). Bits of SRC, DST and the strides above the fields that Table 6-5 names
are not looked at (DESIGN CHOICE, log entry 106). -/
def State.ctxCheck (s : State) (req : Option Nat) (d : W512) : Except Nat CtxEntry :=
  let gather := CopyDesc.mode d == 5
  let id := (if gather then CopyDesc.src d else CopyDesc.dst d) % 1024
  let t0 := (if gather then CopyDesc.sstr1 d else CopyDesc.dstr1 d).toNat % 2 ^ 32
  let f := (if gather then CopyDesc.sstr2 d else CopyDesc.dstr2 d).toNat % 2 ^ 32
  if s.ctxUsable req id = false then .error 0x0B
  else match s.ctxEntry id with
    | none => .error 0x0B
    | some e =>
      let top := if gather then e.length else e.npages * e.tpp
      if top < t0 + CopyDesc.n1 d ∨ e.tokBytes < f + CopyDesc.len d then .error 0x0C else .ok e

/-! ### Expansion (R170, R173) -/

/-- An address from a base and strides, modulo 2^64 (R171). -/
def runAddr (b : Nat) (i : Nat) (x : W64) (j : Nat) (y : W64) : Nat := ((b : Int) + i * x.toInt + j * y.toInt).emod (2 ^ 64) |>.toNat

/-- Run one run whose sides are addresses. -/
def State.runAt (s : State) (k id : Nat) (d : W512) (sa da : Except Nat Nat) : State :=
  if s.copyFailed k id then s
  else
    let n := CopyDesc.len d
    match sa, da with
    | .error c, _ => s.copyFail k id c true
    | _, .error c => s.copyFail k id c true
    | .ok a, .ok b =>
      match sideAt (CopyDesc.sloc d) a n, sideAt (CopyDesc.dloc d) b n with
      | .error c, _ => s.copyFail k id c true
      | _, .error c => s.copyFail k id c true
      | .ok x, .ok y => s.copyRun k id d x y

/-- Expand every run of a copy in order. (DESIGN CHOICE, log entry 12.) -/
def State.expand (s : State) (k id : Nat) (d : W512) : State :=
  let n1 := CopyDesc.n1 d
  let req := s.partOfCore k
  let sa (i j : Nat) : Nat := runAddr (CopyDesc.src d) i (CopyDesc.sstr1 d) j (CopyDesc.sstr2 d)
  let da (i j : Nat) : Nat := runAddr (CopyDesc.dst d) i (CopyDesc.dstr1 d) j (CopyDesc.dstr2 d)
  match CopyDesc.mode d with
  | 0 => s.runAt k id d (.ok (CopyDesc.src d)) (.ok (CopyDesc.dst d))
  | 5 =>
    match s.ctxCheck req d with
    | .error c => s.copyFail k id c true
    | .ok e =>
      (List.range n1).foldl (fun t i =>
        if t.copyFailed k id then t
        else
          let r := t.pageWalk req e ((CopyDesc.sstr1 d).toNat % 2 ^ 32 + i) ((CopyDesc.sstr2 d).toNat % 2 ^ 32)
          r.1.runAt k id d r.2 (.ok (runAddr (CopyDesc.dst d) i (CopyDesc.dstr1 d) 0 0))) s
  | 6 =>
    match s.ctxCheck req d with
    | .error c => s.copyFail k id c true
    | .ok e =>
      (List.range n1).foldl (fun t i =>
        if t.copyFailed k id then t
        else
          let r := t.pageWalk req e ((CopyDesc.dstr1 d).toNat % 2 ^ 32 + i) ((CopyDesc.dstr2 d).toNat % 2 ^ 32)
          r.1.runAt k id d (.ok (runAddr (CopyDesc.src d) i (CopyDesc.sstr1 d) 0 0)) r.2) s
  | 1 | 4 =>
    (List.range (CopyDesc.n2 d)).foldl (fun t j =>
      (List.range n1).foldl (fun u i => u.runAt k id d (.ok (sa i j)) (.ok (da i j))) t) s
  | m =>
    let z := CopyDesc.idxSize d
    let off := CopyDesc.listOff d
    match s.copyRead k id off (n1 * z) with
    | (s1, none) => s1
    | (s1, some _) =>
      (List.range n1).foldl (fun u i =>
        let x := leNat (u.spadRd k (off + i * z) z)
        if m = 2 then
          u.runAt k id d (.ok (runAddr (CopyDesc.src d) x (CopyDesc.sstr1 d) 0 0)) (.ok (runAddr (CopyDesc.dst d) i (CopyDesc.dstr1 d) 0 0))
        else
          u.runAt k id d (.ok (runAddr (CopyDesc.src d) i (CopyDesc.sstr1 d) 0 0)) (.ok (runAddr (CopyDesc.dst d) x (CopyDesc.dstr1 d) 0 0))) s1

/-- COPY_START (R173 steps 2 to 4): the copy engine takes the oldest copy it has not begun, once the MDRAINs issued before it have
written (R88; DEDUCED, log entry 104); its descriptor read meets the rivals' bank requests, and in strict mode a read that loses is not
performed (R161). -/
def execCopyStart (core : Fin 39168) (rivals : List Rival) (s : State) : Host.Outcome State Fault Refusal :=
  let k := core.val
  .next (match (s.core k).copies.find? (fun q => !q.started) with
    | none => s
    | some q =>
      let reqs := (4, bankOf q.addr) :: rivalReqs rivals
      let s0 := s.collide k reqs
      if q.drains ≠ 0 then s
      else if s.strictLoses k reqs 4 then s0
      else match s0.copyRead k q.id q.addr 64 with
      | (s1, none) => s1.modCore k (fun c => c.modCopy q.id (fun y => { y with started := true }))
      | (s1, some bs) =>
        let d : W512 := BitVec.ofNat 512 (leNat bs)
        let s2 := s1.modCore k (fun c => c.modCopy q.id (fun y =>
          { y with started := true, desc := d, bytes := CopyDesc.len d * CopyDesc.n1 d * CopyDesc.n2 d
                   local2 := CopyDesc.sloc d && CopyDesc.dloc d }))
        match s2.copyCheck d with
        | some c => s2.copyFail k q.id c false
        | none => s2.expand k q.id d)

/-! ### Answers and completion -/

/-- The copy and request of a core that a tag names. -/
def State.findReq (s : State) (k : Nat) (tag : BitVec 16) : Option (Copy × Req) :=
  (s.core k).copies.findSome? (fun q => (q.reqs.find? (fun r => r.tag == tag)).map (fun r => (q, r)))

def State.dropReq (s : State) (k id : Nat) (tag : BitVec 16) : State :=
  s.modCore k (fun c => c.modCopy id (fun q => { q with reqs := q.reqs.filter (fun r => r.tag != tag) }))

/-- A read response at its core (R276): the data goes to the destination side. -/
def State.coreData (s : State) (k : Nat) (tag : BitVec 16) (bs : List Byte) : State :=
  match s.findReq k tag with
  | none => s
  | some (q, r) =>
    let s1 := s.dropReq k q.id tag
    if q.failed then s1 else s1.copyInto k q.id (bytesAt bs 0 r.len) r.dst q.desc

/-- An acknowledgement at its core. -/
def State.coreAck (s : State) (k : Nat) (tag : BitVec 16) : State :=
  match s.findReq k tag with
  | none => s
  | some (q, _) => s.dropReq k q.id tag

/-- An error response at its core fails the copy (R176). -/
def State.coreErr (s : State) (k : Nat) (tag : BitVec 16) (cause : Nat) : State :=
  match s.findReq k tag with
  | none => s
  | some (q, _) => (s.dropReq k q.id tag).copyFail k q.id cause true

/-- REQUEST_TIMEOUT (R285): the copy of a request without an answer fails, and the timeout is recorded. -/
def execRequestTimeout (core : Fin 39168) (tag : BitVec 16) (s : State) : Host.Outcome State Fault Refusal :=
  let k := core.val
  .next (match s.findReq k tag with
    | none => s
    | some (_, r) =>
      let c := if r.opc = 1 then 0x06 else 0x07
      (s.pkfError (dieOf k) 0x03 c).coreErr k tag c)

/-- A copy whose every byte is visible. -/
def Copy.finished (q : Copy) : Bool := q.started && !q.failed && q.reqs.isEmpty

/-- COPY_COMPLETION (R173 step 6, R60, R182): the oldest finished copy advances its counter; the bytes count while the
core runs. -/
def execCopyCompletion (core : Fin 39168) (s : State) : Host.Outcome State Fault Refusal :=
  .next (match (s.core core.val).copies.find? Copy.finished with
    | none => s
    | some q => s.modCore core.val (fun c =>
      { (c.setC q.cn (c.getC q.cn + 1)) with
        copies := c.copies.filter (fun y => y.id != q.id)
        copyBytes := if c.st = 3 ∨ c.st = 4 then c.copyBytes + q.bytes else c.copyBytes }))

/-! ### Patrol and write-back (R163, R165) -/

/-- Does the clock of a site stand: the site is fenced, dark, unpowered, in a region off for heat, or its region's clocks were stopped
(R66)? -/
def State.clockStopped (s : State) (k : Nat) : Bool :=
  let c := s.core k
  s.siteFenced k || (s.die (dieOf k)).dark || c.st == 0 || s.retained k || (c.st == 6 && c.mhz == 0)

/-- PATROL_SCRUBBER (R165): the scrubber reads the next row of a bank. Single-bit errors follow R163; a double-bit error
poisons the row and is reported, without an exception. A pass over every bank is counted. It runs while the site's clock does.
(DEDUCED, log entry 44.) -/
def execPatrolScrubber (core : Fin 39168) (bank : BitVec 4) (s : State) : Host.Outcome State Fault Refusal :=
  let k := core.val
  let c := s.core k
  let n := sget 0 c.scrub bank.toNat
  let row := bank.toNat * 2048 + n % 2048
  let ws := (List.range 8).map (fun w => row * 8 + w)
  let s1 := s.modCore k (fun c => (c.eccRead ws).reported (if ws.any c.spadUe.contains then [row] else []))
  let least (m : SMap Nat) : Nat := (List.range 16).foldl (fun t b => min t (sget 0 m b / 2048)) (sget 0 m 0 / 2048)
  .next (if s.clockStopped k then s else s1.modCore k (fun c =>
    let m := sput 0 c.scrub bank.toNat (n + 1)
    { c with
      scrub := m
      spdScrub := if least c.scrub < least m then BitVec.ofNat 16 (satAdd 16 c.spdScrub.toNat 1) else c.spdScrub }))

/-- SCRATCHPAD_WRITE_BACK (R163): the oldest corrected word is written back. -/
def execScratchpadWriteBack (core : Fin 39168) (s : State) : Host.Outcome State Fault Refusal :=
  .next (s.modCore core.val (fun c =>
    match c.spadWb with
    | [] => c
    | w :: ws => { c with spadWb := ws, spadCe := c.spadCe.erase w }))

end Sys2Proof.Machine
end

