-- ==== Sys2Proof/Machine/NearMem.lean ====
section
/-! DEFINITION. Near-memory units (09_sets_and_graphs.md R239 to R246) and the background work of a memory stack: refresh,
patrol and write-back (10_memory_stacks.md R258, R261). -/
namespace Sys2Proof.Machine

/-! ### Job records (Table 9-5) -/

namespace JobRec
def op (r : List Byte) : Nat := leAt r 3 1 / 16
def aop (r : List Byte) : Nat := leAt r 3 1 % 16
def atype (r : List Byte) : Nat := leAt r 2 1 / 16
def isz (r : List Byte) : Nat := if bit (leAt r 2 1) 3 then 8 else 4
def elems (r : List Byte) : Nat := leAt r 0 2
def count (r : List Byte) : Nat := leAt r 4 4
def target (r : List Byte) : Nat := leAt r 8 8
def idx (r : List Byte) : Nat := leAt r 16 8
def src (r : List Byte) : Nat := leAt r 24 8
def dst (r : List Byte) : Nat := leAt r 32 8
def rstride (r : List Byte) : Nat := leAt r 40 4
def limit (r : List Byte) : Nat := leAt r 44 4
def seg (r : List Byte) : Nat := leAt r 50 2
def shift (r : List Byte) : Nat := leAt r 48 1 % 64
def size (r : List Byte) : Nat := (atomSize (atype r)).getD 4
/-- Bytes of a row. -/
def row (r : List Byte) : Nat := elems r * size r

/-- REASON 0x01: reserved OP, field value or bit, or a required address that is zero (Table 9-6). -/
def bad01 (r : List Byte) : Bool :=
  op r == 0 || decide (5 < op r) || decide (5 < aop r) || decide (4 < atype r) || leAt r 2 1 % 8 != 0 ||
  leAt r 48 2 / 64 != 0 || (r.drop 52).any (· != 0) || decide (2 ^ 44 ≤ target r) ||
  (match op r with
    | 1 => dst r == 0
    | 2 => src r == 0 || dst r != 0
    | 3 => dst r != 0
    | _ => src r == 0 || dst r == 0)

/-- REASON 0x02: AOP or ATYPE that the OP does not allow. -/
def bad02 (r : List Byte) : Bool :=
  match op r with
  | 1 => decide (2 < aop r) || (atype r == 4 && aop r != 0)
  | 2 => !atomPair (aop r) (atype r)
  | 3 => aop r != 0 || atype r == 3
  | _ => aop r != 0 || decide (1 < atype r)

/-- REASON 0x03: ranges and alignment. -/
def bad03 (r : List Byte) : Bool :=
  let g := if atype r = 4 then 16 else 8
  !decide (1 ≤ elems r ∧ elems r ≤ 4096) || decide (rstride r < row r) || (decide (3 ≤ op r) && elems r != 1) ||
  !decide (1 ≤ count r ∧ count r ≤ 2 ^ 24) || !decide (8 ≤ rstride r ∧ rstride r ≤ 65536) || rstride r % g != 0 ||
  limit r == 0 || (op r == 1 && src r == 0 && seg r == 0) ||
  [target r, idx r, src r, dst r].any (fun a => a % 8 != 0)

/-- REASON 0x04: the target rows leave the stack's placed view. -/
def bad04 (r : List Byte) (t : Nat) : Bool :=
  let lo := 0x40000000000 + t * 2 ^ 36
  decide (target r < lo) || decide (lo + 2 ^ 36 < target r + limit r * rstride r)
end JobRec

/-- Is a hall address off the issuing panel, or an address error (R23, R24)? -/
def State.jobAddrBad (s : State) (req : Option Nat) (h : Nat) : Bool :=
  hallBad h || match s.place req h with
    | .hbm _ => false
    | .beyond => false
    | .spad k _ => s.siteFenced k
    | .ctx _ => false
    | .census _ _ => false
    | _ => true

/-- REASON 0x05: a byte of a list, source or output does not lie on the issuing panel or is an address error. Places change at multiples
of 64 KiB only (Tables 1-7, 6-9). -/
def State.jobRangeBad (s : State) (req : Option Nat) (h n : Nat) : Bool :=
  s.jobAddrBad req h || decide (2 ^ 64 < h + n) || s.jobAddrBad req (h + (n - 1)) ||
    (List.range (n / 2 ^ 16)).any (fun i => s.jobAddrBad req ((h / 2 ^ 16 + i + 1) * 2 ^ 16))

/-- Bytes that a job reads or writes from its IDX, SRC and DST (Table 9-6); a gather's index list runs as far as its offsets say, which the
job finds out as it runs. -/
def JobRec.idxBytes (r : List Byte) : Nat :=
  if JobRec.op r = 1 then (if JobRec.src r = 0 then JobRec.count r * JobRec.seg r * JobRec.isz r else 1) else JobRec.count r * JobRec.isz r
def JobRec.rowsBytes (r : List Byte) : Nat := (JobRec.count r - 1) * JobRec.rstride r + JobRec.row r
def JobRec.srcBytes (r : List Byte) : Nat :=
  match JobRec.op r with
  | 1 => (JobRec.count r + 1) * JobRec.isz r
  | 2 => JobRec.rowsBytes r
  | 5 => 2 * JobRec.count r * JobRec.size r
  | _ => JobRec.count r * JobRec.size r
def JobRec.dstBytes (r : List Byte) : Nat := if JobRec.op r = 1 then JobRec.rowsBytes r else JobRec.count r * JobRec.size r

/-- The reason for which a job is refused before any effect (R243). (DEDUCED, log entry 42.) -/
def State.jobCheck (s : State) (t : Nat) (req : Option Nat) (r : List Byte) : Option Nat :=
  if s.licensed 5 = false then some 0x0A
  else if JobRec.bad01 r then some 0x01
  else if JobRec.bad02 r then some 0x02
  else if JobRec.bad03 r then some 0x03
  else if JobRec.bad04 r t then some 0x04
  else if s.jobRangeBad req (JobRec.idx r) (JobRec.idxBytes r) || (JobRec.src r != 0 && s.jobRangeBad req (JobRec.src r) (JobRec.srcBytes r)) ||
    (JobRec.dst r != 0 && s.jobRangeBad req (JobRec.dst r) (JobRec.dstBytes r)) then some 0x05
  else if JobRec.atype r = 4 ∧ s.licensed 3 = false then some 0x0A
  else none

/-- Copy cause of a job's reason (Table 9-7). -/
def jobCause (reason : Nat) : Nat :=
  if reason = 0x02 then 0x0A else if reason = 0x08 then 0x08 else if reason = 0x09 then 0x10
  else if reason = 0x0A then 0x0F else 0x07

/-- Reason of a failed access of a running job. -/
def jobReason (cause : Nat) : Nat := if cause = 0x08 then 0x08 else if cause = 0x10 then 0x09 else 0x05

/-! ### Running a job -/

/-- A running job's access to a hall address or a target row: a write that a capture holds waits until the engine has read
the page (R266). -/
def State.jobAccess (s : State) (req : Option Nat) (h : Nat) (a : Access) : State × Answer :=
  let pl := s.place req h
  let s1 := match pl with
    | .hbm pa => if !a.isRead && s.granted req (sliceOf pa) true && s.writeHeld pa then s.writeFreed pa else s
    | _ => s
  s1.accessAt .near req pl a

/-- Read a range in pieces. -/
def State.jobRead (s : State) (req : Option Nat) (h n : Nat) : State × Except Nat (List Byte) :=
  (piecesOf h ((n + 7) / 8 * 8)).foldl (fun r e =>
    match r with
    | (t, .error c) => (t, .error c)
    | (t, .ok acc) =>
      match t.jobAccess req (h + e.1) (.read (min e.2 (n - e.1))) with
      | (t1, .data bs) => (t1, .ok (acc ++ bs))
      | (t1, .err c) => (t1, .error (jobReason c))
      | (t1, _) => (t1, .error 0x05)) (s, .ok [])

/-- Write a range in pieces. -/
def State.jobWrite (s : State) (req : Option Nat) (h : Nat) (bs : List Byte) : State × Option Nat :=
  (piecesOf h ((bs.length + 7) / 8 * 8)).foldl (fun r e =>
    match r with
    | (t, some c) => (t, some c)
    | (t, none) =>
      match t.jobAccess req (h + e.1) (.write ((bs.drop e.1).take e.2)) with
      | (t1, .err c) => (t1, some (jobReason c))
      | (t1, _) => (t1, none)) (s, none)

/-- Does a slice under a range of the placed view refuse a job's updates (R255)? -/
def State.updateRefused (s : State) (req : Option Nat) (pa n : Nat) : Bool :=
  (List.range ((pa + n - 1) / 2 ^ 30 - pa / 2 ^ 30 + 1)).any (fun i => !s.granted req (sliceOf (pa + i * 2 ^ 30)) true)

/-- An update to a row: while it lies in the unit that the combining buffer holds, its row is activated once in 64 updates (R262). -/
def State.buffer (s : State) (t : Nat) (pa n : Nat) : State :=
  s.modStack t (fun k => { k with hot := match k.hot with
    | some (u, m) => if u = pa / 64 ∧ (pa + n - 1) / 64 = u ∧ m + 1 < 64 then some (u, m + 1) else none
    | none => none })

/-- The row's unit stays in the combining buffer. -/
def State.buffered (s : State) (t : Nat) (pa n : Nat) : State :=
  s.modStack t (fun k => { k with hot := if k.hot.isSome then k.hot else if (pa + n - 1) / 64 = pa / 64 then some (pa / 64, 0) else none })

/-- Hall address, in this panel's own space, of target row n. -/
def jobRow (r : List Byte) (n : Nat) : Nat := 2 * 2 ^ 60 + JobRec.target r + n * JobRec.rstride r

/-- Identity of a gather element (R242), in its own format or FP32 for BF16 sums. -/
def jobIdentity (op ty : Nat) : Nat :=
  match op, ty with
  | 0, _ => 0
  | 1, 0 => 0x7FFFFFFF
  | 1, 1 => 0x7FFFFFFFFFFFFFFF
  | 1, 3 => 0x7F80
  | 1, _ => 0x7F800000
  | _, 0 => 0x80000000
  | _, 1 => 0x8000000000000000
  | _, 3 => 0xFF80
  | _, _ => 0xFF800000

/-- Combine a table row into the running elements: BF16 adds run in FP32. -/
def jobCombine (op ty : Nat) (acc : List Nat) (row : List Byte) : List Nat :=
  let z := (atomSize ty).getD 4
  (acc.zipIdx).map (fun e =>
    let x := leAt row (e.2 * z) z
    if op = 0 ∧ ty = 3 then combine 0 2 e.1 (x * 2 ^ 16) else combine op ty e.1 x)

/-- Elements of a finished output row: BF16 sums round once at the end. -/
def jobRow2 (op ty : Nat) (acc : List Nat) : List Byte :=
  let z := (atomSize ty).getD 4
  acc.flatMap (fun x => leBytes z (if op = 0 ∧ ty = 3 then (roundFp bf16 false .rne (fp32.decode x)).1 else x))

/-- The end of a run of job steps: the state and the reason of a failure. -/
abbrev JobRun := State × Option Nat

/-- One element of an index or offset list. -/
def State.jobIdx (s : State) (req : Option Nat) (r : List Byte) (h i : Nat) : State × Except Nat Nat :=
  let z := JobRec.isz r
  let a := h + i * z
  match s.jobRead req (a / 8 * 8) 8 with
  | (t, .ok bs) => (t, .ok (leAt bs (a % 8) z))
  | (t, .error c) => (t, .error c)

/-- A target row named by an index below LIMIT. -/
def jobTarget (r : List Byte) (i : Nat) : Except Nat Nat := if i < JobRec.limit r then .ok (jobRow r i) else .error 0x06

/-- Index i of a segment is combined into the running elements. -/
def State.gatherOne (s : State) (req : Option Nat) (r : List Byte) (acc : List Nat) (j : Nat) : State × Except Nat (List Nat) :=
  match s.jobIdx req r (JobRec.idx r) j with
  | (t, .error c) => (t, .error c)
  | (t, .ok i) =>
    match jobTarget r i with
    | .error c => (t, .error c)
    | .ok h =>
      match t.jobRead req h (JobRec.row r) with
      | (u, .ok bs) => (u, .ok (jobCombine (JobRec.aop r) (JobRec.atype r) acc bs))
      | (u, .error c) => (u, .error c)

/-- Bounds of segment o (Table 9-6); offsets must not decrease. -/
def State.segment (s : State) (req : Option Nat) (r : List Byte) (o : Nat) : State × Except Nat (Nat × Nat) :=
  if JobRec.src r = 0 then (s, .ok (o * JobRec.seg r, (o + 1) * JobRec.seg r))
  else
    match s.jobIdx req r (JobRec.src r) o with
    | (t, .error c) => (t, .error c)
    | (t, .ok a) =>
      match t.jobIdx req r (JobRec.src r) (o + 1) with
      | (u, .error c) => (u, .error c)
      | (u, .ok b) => (u, if b < a then .error 0x0B else .ok (a, b))

/-- One segment of a gather-reduce. -/
def State.gatherSeg (s : State) (req : Option Nat) (r : List Byte) (o : Nat) : JobRun :=
  match s.segment req r o with
  | (t, .error c) => (t, some c)
  | (t, .ok (a, b)) =>
    let z : State × Except Nat (List Nat) :=
      (t, .ok (List.replicate (JobRec.elems r) (jobIdentity (JobRec.aop r) (JobRec.atype r))))
    match (List.range (b - a)).foldl (fun q n => match q with
        | (u, .ok acc) => u.gatherOne req r acc (a + n)
        | e => e) z with
    | (u, .error c) => (u, some c)
    | (u, .ok acc) => u.jobWrite req (JobRec.dst r + o * JobRec.rstride r) (jobRow2 (JobRec.aop r) (JobRec.atype r) acc)

/-- Update i of the other operations. The code of a weight 1 in FWA128, whose window the unit does not know, is a free
value (DESIGN CHOICE, log entry 20). -/
def State.updateOne (s : State) (req : Option Nat) (r : List Byte) (i : Nat) : JobRun :=
  let z := JobRec.size r
  match s.jobIdx req r (JobRec.idx r) i with
  | (t, .error c) => (t, some c)
  | (t, .ok x) =>
    let n := if JobRec.op r = 3 then min (x / 2 ^ JobRec.shift r) (JobRec.limit r - 1) else x
    match jobTarget r n with
    | .error c => (t, some c)
    | .ok h =>
      let pa := h % 2 ^ 44
      let pick (u : State) (a m : Nat) : State × Except Nat (List Byte) :=
        match u.jobRead req (a / 8 * 8) (a % 8 + m) with
        | (v, .ok bs) => (v, .ok (bytesAt bs (a % 8) m))
        | e => e
      let one : Nat := match JobRec.atype r with
        | 2 => 0x3F800000
        | 4 => leNat ((List.range 16).map (Config.freeByte t.freeCtr))
        | _ => 1
      let sourced : State × Except Nat (List Byte) :=
        match JobRec.op r with
        | 2 => t.jobRead req (JobRec.src r + i * JobRec.rstride r) (JobRec.row r)
        | 3 => if JobRec.src r = 0 then (t, .ok (leBytes z one)) else pick t (JobRec.src r + i * z) z
        | 4 => pick t (JobRec.src r + i * z) z
        | _ => pick t (JobRec.src r + i * 2 * z) (2 * z)
      if t.updateRefused req pa (JobRec.row r) then (t, some 0x08)
      else match sourced with
      | (u, .error c) => (u, some c)
      | (u, .ok src) =>
        match (u.buffer (stackOf pa) pa (JobRec.row r)).jobRead req h (JobRec.row r) with
        | (v, .error c) => (v, some c)
        | (v0, .ok old) =>
          let v := v0.buffered (stackOf pa) pa (JobRec.row r)
          match JobRec.op r with
          | 2 => v.jobWrite req h (combineBytes (JobRec.aop r) (JobRec.atype r) old src)
          | 3 => v.jobWrite req h (combineBytes 0 (JobRec.atype r) old src)
          | o =>
            match v.jobWrite req (JobRec.dst r + i * z) old with
            | (w, some c) => (w, some c)
            | (w, none) =>
              if o = 4 then w.jobWrite req h src
              else if old = src.take z then w.jobWrite req h (src.drop z) else (w, none)

/-- Run n of a job's elements in order from element a; it stops at the failing one and keeps the effects made so far (R243). -/
def State.runJob (s : State) (req : Option Nat) (r : List Byte) (a n : Nat) : JobRun :=
  (List.range n).foldl (fun q i => match q with
    | (t, some c) => (t, some c)
    | (t, none) => if JobRec.op r = 1 then t.gatherSeg req r (a + i) else t.updateOne req r (a + i)) (s, none)

/-- The 64-byte record of a job. -/
def Job.record (j : Job) : List Byte := bytesAt j.pkt.payload 0 64

/-- A job that fails answers its window write with the cause of its reason, which MEM_NMERR records. -/
def State.jobFailed (s : State) (t : Nat) (j : Job) (reason : Nat) : State :=
  (s.nmError t (JobRec.op j.record) j.pkt.part.toNat reason).answerTo j.pkt (.err (jobCause reason))

/-- JOB_START (R241 to R245): with a running place free, the oldest queued job is checked and runs: some of its elements, how many being
free, are done at once and the rest when it completes; an abort halt in between stops it there (R244). -/
def execJobStart (t : Fin 48) (s : State) : Host.Outcome State Fault Refusal :=
  .next (match (s.stack t.val).queue with
    | [] => s
    | j :: js =>
      if 8 ≤ (s.stack t.val).running.length then s
      else
        let r := j.record
        let req := s.requester j.pkt
        let s1 := s.modStack t.val (fun k => { k with queue := js })
        match s1.jobCheck t.val req r with
        | some c => s1.jobFailed t.val j c
        | none =>
          let n := min (JobRec.count r) (Config.jobPace s.freeCtr)
          match s1.freshen.runJob req r 0 n with
          | (s2, some c) => s2.jobFailed t.val j c
          | (s2, none) => s2.modStack t.val (fun k => { k with running := k.running ++ [{ j with next := n }] }))

/-- JOB_COMPLETE (R240, R246): the oldest running job does its remaining elements; with its effects visible its window write is
acknowledged. -/
def execJobComplete (t : Fin 48) (s : State) : Host.Outcome State Fault Refusal :=
  .next (match (s.stack t.val).running with
    | [] => s
    | j :: js =>
      match (s.modStack t.val (fun k => { k with running := js })).runJob (s.requester j.pkt) j.record j.next (JobRec.count j.record - j.next) with
      | (s2, some c) => s2.jobFailed t.val j c
      | (s2, none) => (s2.countReg Reg.nmdone 1).answerTo j.pkt .ok)

/-! ### Refresh, patrol, write-back -/

/-- REFRESH (R261, R262): the next row of a bank is refreshed; its open row is closed and its data stays. -/
def execRefresh (t : Fin 48) (pc : Fin 64) (bank : Nat) (s : State) : Host.Outcome State Fault Refusal :=
  let b := (t.val * 64 + pc.val) * 1024 + bank % 1024
  .next (s.modHbm (fun h =>
    { h with banks := smod Bank.reset h.banks b (fun k => { k with row := none, refreshed := k.refreshed + 1 }) }))

/-- STACK_PATROL (R258, R259): the patrol scrubber reads the next unit of its stack; it fails no request. -/
def execStackPatrol (t : Fin 48) (s : State) : Host.Outcome State Fault Refusal :=
  let n := (s.stack t.val).patrol
  let u := (0x40000000000 + t.val * 2 ^ 36) / 64 + n
  .next (if s.stackLost t.val then s
    else ((s.activate u).unitEcc u).modStack t.val (fun k => { k with patrol := (n + 1) % 2 ^ 30 }))

/-- UNIT_WRITE_BACK (R258): the oldest corrected unit of the stack that no write has replaced is written back. -/
def execUnitWriteBack (t : Fin 48) (s : State) : Host.Outcome State Fault Refusal :=
  .next (match s.hbm.wb.find? (fun u => stackOfUnit u == t.val) with
    | none => s
    | some u => s.modHbm (fun h => { h.mend u with wb := h.wb.erase u }))

end Sys2Proof.Machine
end

