-- ==== Sys2Proof/Machine/Positions.lean ====
section
/-! DEFINITION. Positions (16_faults_and_recovery.md R413 to R418, R421, R423): what a capture records, when it begins and is
complete, and restoring. Castling exchanges (14_thermal.md R369 to R371). -/
namespace Sys2Proof.Machine

/-! ### Owned memory -/

/-- Does a panel-local address lie in a slice that a partition owns? -/
def State.ownsAddr (s : State) (p a : Nat) : Bool :=
  decide (0x40000000000 ≤ a ∧ a < 0x70000000000) && (let g := s.grantOf (sliceOf a); g.getLsbD 31 && grantOwner g == p)

/-- Pages marked in a bitmap of 512. -/
def pagesOf (b : BitVec 512) : List Nat := (List.range 512).filter (fun i => b.getLsbD i)

/-! ### Hubs -/

/-- Keys of the tempo nodes: a core's is its index, then die hubs, tile hubs, the panel hub and the hubs of other panels. -/
def keyDie (d : Nat) : Nat := 39168 + d
def keyTile (t : Nat) : Nat := 39312 + t
def keyPanel : Nat := 39324
def keyRemote (q : Nat) : Nat := 40000 + q

/-- Hubs of a partition on this panel. -/
def Part.hubs (q : Part) : List Nat := keyPanel :: ((q.dies.map tileOfDie).eraseDups.map keyTile ++ q.dies.map keyDie)

/-! ### Capture -/

/-- The parts of a core that a position records (Table 16-5). -/
def Core.record (c : Core) : Core :=
  { Core.reset with
    st := c.st, cls := c.cls, pc := c.pc, claim := c.claim, loops := c.loops, fflags := c.fflags, rmode := c.rmode
    srseed := c.srseed, srctr := c.srctr, cycle := c.cycle, x := c.x, p := c.p, a := c.a, v := c.v, active := c.active
    shadow := c.shadow, mode := c.mode, w := c.w, acc := c.acc, cell := c.cell, poison := c.poison, ended := c.ended }

/-- A core takes a record back; registers and counters that no position holds restart. -/
def Core.restore (c r : Core) : Core :=
  { c with
    st := r.st, cls := r.cls, pc := r.pc, claim := r.claim, loops := r.loops, fflags := r.fflags, rmode := r.rmode
    srseed := r.srseed, srctr := r.srctr, cycle := r.cycle, x := r.x, p := r.p, a := r.a, v := r.v, active := r.active
    shadow := r.shadow, mode := r.mode, w := r.w, acc := r.acc, cell := r.cell, poison := r.poison, ended := r.ended
    c := [], arrOut := 0, arrHeld := [], xplyDone := false, fresh := true, stopReq := false, hold := none, excPend := []
    queue := [], owed := 0, rx := [], setRun := none, copies := [], zeroing := false, spadCe := [], spadUe := [], spadWb := []
    sw := { c.sw with active := false, fifo := [], outSent := [], inTaken := [], unack := [], spent := [], ackWire := [],
                      routes := [], drains := 0, setWait := false, wire := [], dead := [] } }

/-- The context table's bytes of a partition's window. -/
def State.ctxBytes (s : State) (p : Nat) : Mem :=
  let w := s.ctxWindow p
  s.mem.filter (fun e => decide (ctxBase + 64 * w.1 ≤ e.1) && decide (e.1 < ctxBase + 64 * (w.1 + w.2)))

/-- Bytes of the program part of a position: the program's image (Tables 16-4 and 16-14). -/
def programBytes (g : Option Program) : Nat := match g with
  | none => 0
  | some g => g.size

/-- The state of a partition with a given record, as its next generation (R413). (DESIGN CHOICE, log entry 59.) -/
def State.snapshotAs (s : State) (p : Nat) (q : Part) : Position :=
  let ls := q.logicals.filterMap (fun l => (s.physOf l).map (fun k => (l, k)))
  let spad := ls.foldl (fun m e =>
    m ++ (s.mem.filter (fun b => decide (spadAddr e.2 0 ≤ b.1) && decide (b.1 < spadAddr e.2 0 + 2 ^ 21))).map
      (fun b => (e.1 * 2 ^ 21 + (b.1 - spadAddr e.2 0), b.2))) []
  { gen := q.nextGen, move := q.move, first := q.first, height := q.height, tenant := q.tenant, tree := q.tree, member := q.member
    results := q.results, ovfs := q.ovfs, castle := (List.range 16).map (fun e => s.reg (Reg.cpair p e)), ctx := s.ctxBytes p
    progLen := if q.progNew then programBytes q.prog else 0
    cores := ls.foldl (fun m e => sput Core.reset m e.1 (s.core e.2).record) [], spad := spad, prog := q.prog
    hbm := s.mem.filter (fun b => s.ownsAddr p b.1), poison := s.hbm.poison.filter (fun u => s.ownsAddr p (64 * u))
    pages := (s.ownedSlices p).foldl (fun n sl => n + (pagesOf (s.slice sl).cur).length) 0, mine := true, buddy := false }

/-- The state of a partition as it stands. -/
def State.snapshot (s : State) (p : Nat) : Position := s.snapshotAs p (s.part p)

/-- Does a partition at rest hold what a position holds: no command has changed its memory, scratchpads, contexts, program or
castling order since (R326)? -/
def State.unchangedSince (s : State) (p : Nat) (c : Position) : Bool :=
  let x := s.snapshot p
  x.ctx == c.ctx && x.spad == c.spad && x.hbm == c.hbm && x.poison == c.poison && x.castle == c.castle && x.prog == c.prog

/-- Header record of a generation (R419). -/
def headerRecord (c : Position) : List Byte :=
  leBytes 4 c.gen ++ leBytes 6 c.move.toNat ++ leBytes 1 c.first ++ leBytes 1 c.height ++ leBytes 4 c.tenant.toNat ++
  leBytes 8 (c.height * 2048 * 2228224) ++ leBytes 4 c.pages ++ leBytes 4 c.progLen

/-- Set fields of MGT_PSTAT: the state and the readable copies. -/
def State.pstatState (s : State) (p st : Nat) : State := s.setRegF (Reg.pstat p) 28 4 st

def State.pstatCopies (s : State) (p : Nat) : State :=
  let q := (s.part p).positions
  let f (i : Nat) (g : Position → Bool) : Nat := bitN ((q[i]?.map g).getD false)
  let n := f 0 (·.mine) * 8 + f 0 (·.buddy) * 4 + f 1 (·.mine) * 2 + f 1 (·.buddy)
  let unprot := match q with
    | [] => false
    | c :: _ => !c.buddy
  (s.setRegF (Reg.pstat p) 23 4 n).setRegF (Reg.pstat p) 27 1 (bitN unprot)

/-- No recovery runs any longer: MGT_PSTAT shows a position at rest, or none, and no faults (R432). (DEDUCED, log entry 89.) -/
def State.recoveryOver (s : State) (p : Nat) : State :=
  (s.pstatState p (if (s.part p).positions.isEmpty then 0 else 1)).setRegF (Reg.pstat p) 0 8 0

/-- Bytes of a generation on this panel's store; the HBM part counts where the panel is its own buddy. -/
def State.positionBytes (s : State) (c : Position) : Nat :=
  c.height * 2048 * 2228224 + 69632 + c.progLen + (if s.remoteBuddy = none then c.pages * 2 ^ 21 else 0)

/-- Bytes in use on the store: the positions of this panel and the records kept for others. -/
def State.storeUsed (s : State) : Nat :=
  s.parts.foldl (fun n e => (e.2.positions ++ e.2.capturing.toList).foldl (fun m c => m + s.positionBytes c) n)
    (s.stores.foldl (fun n e => e.2.gens.foldl (fun m g => m + g.core + g.prog + g.delta * 2 ^ 21) n) 0)

/-- Room on the store slices (R414): K pseudo-channels of every stack. -/
def State.storeRoom (s : State) (n : Nat) : Bool := decide (s.storeUsed + n ≤ s.regF Reg.pstore 0 7 * 48 * 2 ^ 30)

/-- A capture fails (R417): the generation is discarded everywhere and POSITION_FAILED is posted; it is tried again once the interval has passed. -/
def State.captureFail (s : State) (p cause : Nat) : State :=
  match (s.part p).capturing with
  | none => s
  | some c =>
    let own := s.ownedSlices p
    let s1 := own.foldl (fun t sl => t.modSlice sl (fun l => { l with cur := l.cur ||| l.cap, cap := 0 })) s
    let s2 := (s1.setReg (Reg.pcap p) 0).modPart p (fun q => { q with capturing := none, puts := 0, captureFailed := true })
    let s3 := (s2.pstatState p 4).raise 0x0027 p (leBytes 4 c.gen ++ [BitVec.ofNat 8 cause])
    let s4 := match s3.remoteBuddy with
      | some b => s3.inject (.io s.mcIo) (s3.storePacket p b 0xF 3 0 (headerRecord c ++ List.replicate 32 0))
      | none => s3
    let held := s.hbm.held.filter (fun x => match s.packetPlace x with
      | .hbm pa => s.ownsAddr p pa
      | _ => false)
    held.foldl (fun a x => a.performRequest x) (s4.modHbm (fun h => { h with held := minus h.held held }))

/-- A capture begins at a move release (R265, R415, R416), of the partition as the release leaves its record: the bitmaps turn, the
records are taken, and the buddy is asked to open the generation. While the previous capture of the partition is active it is deferred (R266); none begins while a
recovery runs. The drain reads every row of the scratchpads: a double-bit error poisons its row without an exception (R164).
(DEDUCED, log entry 46.) -/
def State.beginCaptureAs (s : State) (p : Nat) (q : Part) : State :=
  if q.capturing.isSome then (s.setRegF (Reg.pcap p) 30 1 1).modPart p (fun q => { q with captureAsk := true })
  else
    let s := s.modCores q.sites (fun c => c.eccRead (c.spadCe ++ c.spadUe) |>.reported (c.spadUe.map (· / 8)))
    let c0 := s.snapshotAs p q
    let c := if q.full then { c0 with pages := 512 * (s.ownedSlices p).length } else c0
    let own := s.ownedSlices p
    let all : BitVec 512 := BitVec.allOnes 512
    let s1 := own.foldl (fun t sl => t.modSlice sl (fun l => { l with cap := if q.full then all else l.cur, cur := 0 })) s
    let left := own.foldl (fun n sl => n + (pagesOf (s1.slice sl).cap).length) 0
    let s2 := s1.setReg (Reg.pcap p) (BitVec.ofNat 32 (2 ^ 31 + left))
    let s3 := (s2.modPart p (fun q =>
      { q with capturing := some c, puts := 0, nextGen := q.nextGen + 1, captureAsk := false, captureFailed := false, full := false })).pstatState p 3
    if s.storeRoom (s.positionBytes c) = false then s3.captureFail p 1
    else match s3.remoteBuddy with
    | some b => s3.inject (.io s.mcIo) (s3.storePacket p b 0xF 1 0 (headerRecord c ++ List.replicate 32 0))
    | none => s3

/-- A capture of a partition as it stands. -/
def State.beginCapture (s : State) (p : Nat) : State := s.beginCaptureAs p (s.part p)

/-- A generation is complete (R416): it becomes the newest, g − 2 is discarded, and the registers of R432 show it. -/
def State.captureDone (s : State) (p : Nat) : State :=
  match (s.part p).capturing with
  | none => s
  | some c =>
    let c := { c with buddy := true }
    let s1 := s.modPart p (fun q => { q with capturing := none, positions := (c :: q.positions).take 2, progNew := false, captureFailed := false })
    (((s1.setReg (Reg.pgen p) (BitVec.ofNat 32 c.gen)).setReg (Reg.mgtPmoveLo p) (BitVec.ofNat 32 c.move.toNat)).pstatState p 1).pstatCopies p

/-- Every page of a capture has been read and every STORE_PUT of it acknowledged: the buddy is asked to commit (Table 16-15), or this
panel's own store holds it (R414). -/
def State.pagesDone (s : State) (p : Nat) : State :=
  match (s.part p).capturing with
  | none => s
  | some c =>
    if s.regF (Reg.pcap p) 0 21 ≠ 0 ∨ s.regF (Reg.pcap p) 31 1 = 0 ∨ (s.part p).puts ≠ 0 then s
    else
      let s1 := s.setRegF (Reg.pcap p) 31 1 0
      match s1.remoteBuddy with
      | some b =>
        if s1.homes.unreach.contains b || !s1.routable b then s1.captureFail p 2
        else s1.inject (.io s.mcIo) (s1.storePacket p b 0xF 2 0 (headerRecord c ++ List.replicate 32 0))
      | none => s1.captureDone p

/-- CAPTURE_PAGE_READ (R265, R266): the capture engine reads the next marked page of a slice, pages with held writes first,
streams it to the buddy, and performs what was held. -/
def execCapturePageRead (slice : Fin 3072) (s : State) : Host.Outcome State Fault Refusal :=
  let sl := slice.val
  let p := grantOwner (s.grantOf sl)
  let marked := pagesOf (s.slice sl).cap
  let heldPages := s.hbm.held.filterMap (fun x => match s.packetPlace x with
    | .hbm pa => if sliceOf pa = sl then some (pageOf pa) else none
    | _ => none)
  .next (match (heldPages.filter marked.contains ++ marked).head? with
    | none => s.pagesDone p
    | some pg => ((s.pageRead sl pg).releaseHeld sl pg).pagesDone p)

/-! ### Restoring (Table 16-7, steps 5 to 7) -/

/-- Rewrite a partition from a position (R31, R421, R423): cores, scratchpads, program, contexts, castling order, memory of the
pages written since, results, and the move number on every node's own copy; a capture under way is cancelled (R266). -/
def State.restorePosition (s : State) (p : Nat) (c : Position) : State :=
  let q := s.part p
  let w := s.ctxWindow p
  let ls := q.logicals.filterMap (fun l => (s.physOf l).map (fun k => (l, k)))
  let spads : Mem := ls.foldl (fun (m : Mem) (e : Nat × Nat) =>
    m ++ (c.spad.filter (fun b => b.1 / 2 ^ 21 == e.1)).map (fun b => (spadAddr e.2 (b.1 % 2 ^ 21), b.2))) []
  let inSpad (a : Nat) : Bool := ls.any (fun e => decide (spadAddr e.2 0 ≤ a) && decide (a < spadAddr e.2 0 + 2 ^ 21))
  let inCtx (a : Nat) : Bool := decide (ctxBase + 64 * w.1 ≤ a) && decide (a < ctxBase + 64 * (w.1 + w.2))
  let keep := s.mem.filter (fun b => !s.ownsAddr p b.1 && !inSpad b.1 && !inCtx b.1)
  let mem := (c.hbm ++ c.ctx ++ spads).foldl (fun (m : Mem) (b : Host.Cell) => wr m b.1 b.2) keep
  let own := s.ownedSlices p
  let s1 := own.foldl (fun t sl => t.modSlice sl (fun l => { l with cur := 0, cap := 0 })) { s with mem := mem }
  let s2 := s1.modHbm (fun h =>
    let out (u : Nat) : Bool := !s.ownsAddr p (64 * u)
    { h with poison := h.poison.filter out ++ c.poison, errs := h.errs.filter (fun e => out e.1), wb := h.wb.filter out
             held := h.held.filter (fun x => match s.packetPlace x with
               | .hbm pa => !s.ownsAddr p pa
               | _ => true) })
  let s3 := ls.foldl (fun t e =>
    let r := sget Core.reset c.cores e.1
    let bs := (c.prog.bind (fun g => g.classes[r.cls.toNat]?)).map (·.bundles)
    t.modCore e.2 (fun d => { d.restore r with move := c.move, istore := storeOf (bs.getD []), istoreCe := [], istoreUe := [] })) s2
  let s4 := (c.castle.zipIdx).foldl (fun t e => t.setReg (Reg.cpair p e.2) e.1) s3
  let s4 : State := { s4 with tnodes := q.hubs.foldl (fun m n =>
    smod TempoNode.reset m n (fun t => { t with moves := sput 0 t.moves p c.move })) s4.tnodes }
  (s4.setReg (Reg.pcap p) 0).modPart p (fun q =>
    { q with move := c.move, results := c.results, ovfs := c.ovfs, result := sget 0 c.results 0, ovf := c.ovfs.getLsbD 0
             prog := c.prog, progNew := false, capturing := none, puts := 0, captureAsk := false, nextGen := c.gen + 1
             positions := q.positions.filter (fun x => decide (x.gen ≤ c.gen)) })

/-! ### Castling (R369 to R371) -/

/-- Sites of a castling unit: a region or a die; kind 1 is a region. -/
def unitSites (kind u : Nat) : List Nat := if kind = 1 then coresOfRegion u else coresOfDie u

/-- What a castling exchanges: class, program, registers, array, poison; the rest stays with the site. -/
def Core.castled (stay go : Core) : Core :=
  { stay with
    cls := go.cls, istore := go.istore, istoreCe := go.istoreCe, istoreUe := go.istoreUe, x := go.x, p := go.p, a := go.a
    v := go.v, fflags := go.fflags, rmode := go.rmode, srseed := go.srseed, srctr := go.srctr, pc := go.pc, loops := go.loops
    claim := go.claim, ended := go.ended, active := go.active, shadow := go.shadow, acc := go.acc, cell := go.cell
    mode := go.mode, w := go.w, poison := go.poison, spadCe := go.spadCe, spadUe := go.spadUe, spadWb := go.spadWb, ueRows := go.ueRows }

/-- Exchange two cores with their scratchpads. -/
def State.swapCores (s : State) (i j : Nat) : State :=
  let ci := s.core i
  let cj := s.core j
  let inS (k a : Nat) : Bool := decide (spadAddr k 0 ≤ a) && decide (a < spadAddr k 0 + 2 ^ 21)
  let bi := s.mem.filter (fun b => inS i b.1)
  let bj := s.mem.filter (fun b => inS j b.1)
  let keep := s.mem.filter (fun b => !inS i b.1 && !inS j b.1)
  let moved := bi.map (fun b => (b.1 - spadAddr i 0 + spadAddr j 0, b.2)) ++ bj.map (fun b => (b.1 - spadAddr j 0 + spadAddr i 0, b.2))
  ({ s with mem := moved.foldl (fun (m : Mem) (b : Host.Cell) => wr m b.1 b.2) keep }.setCore i (ci.castled cj)).setCore j (cj.castled ci)

/-- Corresponding sites of two units: same core rank of the unit, same logical core file. -/
def State.pairedSites (s : State) (kind a b : Nat) : List (Nat × Nat) :=
  let n := if kind = 1 then 2 else 16
  let first (u m : Nat) : Nat := if kind = 1 then u / 8 * 272 + (u % 8 * 2 + m) * 17 else u * 272 + m * 17
  let at' (u m l : Nat) : Nat :=
    let f := first u m
    f + physFile (s.coreHole (dieOf f) (rankOfSite (siteOf f))) l
  (List.range n).flatMap (fun m => (List.range 16).map (fun l => (at' a m l, at' b m l)))

/-- The entry of a partition's castling table that names a pair (R369, Table 14-6). -/
def State.castleEntry (s : State) (p kind a b : Nat) : Option Nat :=
  (List.range 16).find? (fun e =>
    let w := (s.reg (Reg.cpair p e)).toNat
    bit w 31 && field w 30 1 == kind && ((field w 0 11 == a && field w 16 11 == b) || (field w 0 11 == b && field w 16 11 == a)))

/-- Regions of a castling unit. -/
def unitRegions (kind u : Nat) : List Nat := if kind = 1 then [u] else (List.range 8).map (fun k => u * 8 + k)

/-- Is a castling eligible (R370)? (DEDUCED, log entry 54.) -/
def State.castleOk (s : State) (p kind a b : Nat) : Bool :=
  let ok (u : Nat) : Bool :=
    let d := if kind = 1 then u / 8 else u
    decide (d < 144) && s.partOfRank (rankOfDie d) == some p && s.dieHole (rankOfDie d) != fileOfDie d && s.dieHole (rankOfDie d) != 15 &&
      !(s.die d).fenced && !(s.die d).dark && (unitSites kind u).all (fun k => (s.core k).st != 7) &&
      (unitRegions kind u).all (fun r => s.regF (Reg.pwrReg r) 28 4 == 2 && !(sget Region.reset s.rails.regions r).waiting)
  (s.castleEntry p kind a b).isSome && (s.part p).st == 1 && ok a && ok b && a != b

/-- Perform a castling: the sites are exchanged and A and B change places in the entry (R369, Table 14-4). -/
def State.performCastling (s : State) (p : Nat) (c : CastleReq) : State :=
  let s1 := (s.pairedSites c.kind c.a c.b).foldl (fun t e => t.swapCores e.1 e.2) s
  match s.castleEntry p c.kind c.a c.b with
  | none => s1
  | some e =>
    let w := (s.reg (Reg.cpair p e)).toNat
    (s1.setRegF (Reg.cpair p e) 0 11 (field w 16 11)).setRegF (Reg.cpair p e) 16 11 (field w 0 11)

end Sys2Proof.Machine
end

