-- ==== Sys2Proof/Machine/Rails.lean ====
section
/-! DEFINITION. Region rails, clocks and caps (13_power.md R343 to R351, 14_thermal.md R364, R365, R372 to R374): what the
power and thermal managers change at a move release, and the power-on of a region. -/
namespace Sys2Proof.Machine

/-! ### Regions -/

def State.modRails (s : State) (f : Rails → Rails) : State := { s with rails := f s.rails }
def State.region (s : State) (r : Nat) : Region := sget Region.reset s.rails.regions r
def State.modRegion (s : State) (r : Nat) (f : Region → Region) : State :=
  s.modRails (fun t => { t with regions := smod Region.reset t.regions r f })

/-- PWR_REG.STATE of a region. -/
def State.railState (s : State) (r : Nat) : Nat := s.regF (Reg.pwrReg r) 28 4
def State.setRail (s : State) (r v : Nat) : State := s.setRegF (Reg.pwrReg r) 28 4 v

/-- Regions of a partition. -/
def Part.regions (p : Part) : List Nat := p.dies.flatMap (fun d => (List.range 8).map (fun k => d * 8 + k))

/-- Cores of a region that hold its partition's logical places. -/
def State.heldCores (s : State) (r : Nat) : List Nat := (coresOfRegion r).filter (fun k => (s.logicalOf k).isSome && !s.siteFenced k)

/-- Live phases that Table 13-3 counts: a suspect bond takes one away. -/
def State.phases (s : State) (r : Nat) : Nat := s.regF (Reg.pwrReg r) 24 4 - s.regF (Reg.pwrReg r) 23 1

/-- Cap of Table 13-3 by live phases, in MHz; none below six. -/
def phaseCap (n : Nat) : Option Nat := if 8 ≤ n then some 3300 else if n = 7 then some 3000 else if n = 6 then some 2700 else none

/-- Cap that keeps the plane of a tile within its limit (Table 13-2): with five or six live modules a free step of 25 MHz. -/
def State.planeCap (s : State) (r : Nat) : Nat :=
  let t := tileOfDie (r / 8)
  let n := s.regF (Reg.pwrTile t) 28 4
  if 7 ≤ n then 3300 else 800 + 25 * (Config.freeNat s.freeCtr (100000 + t) % 101)

/-- The power cap of a region (R344, Tables 13-2 to 13-4), no lower than 800 MHz. -/
def State.powerCap (s : State) (r : Nat) : Nat :=
  max 800 (min ((phaseCap (s.phases r)).getD 800) (s.planeCap r) - 100 * (s.region r).steps)

/-- VREG setpoint in mV of a frequency in MHz (R343); the half millivolt of an odd 25 MHz step is a free bit. -/
def State.setpoint (s : State) (r f : Nat) : Nat :=
  if f = 0 then 0
  else
    let x := (f - 800) * 14
    550 + x / 100 + (if x % 100 = 0 then 0 else bitN ((Config.freeByte s.freeCtr (200000 + r)).getLsbD 0))

/-- A core's island takes its frequency at a release (R66): a free step of 25 MHz within the region's caps.
(DESIGN CHOICE, log entry 53.) -/
def State.clockCore (s : State) (k : Nat) : State :=
  let r := regionOf k
  let cap := min (s.regF (Reg.pwrReg r) 0 12) (s.region r).thermal
  let wish := 800 + 25 * (Config.freeNat s.freeCtr k % 101)
  let f := if (s.core k).st = 7 ∨ (s.core k).st = 0 then 0 else min wish cap
  let s1 := s.modCore k (fun c => { c with mhz := BitVec.ofNat 12 f, capped := decide (f ≠ 0) && decide (cap < wish) })
  let top := (coresOfRegion r).foldl (fun m j => max m (s1.core j).mhz.toNat) 0
  (s1.setRegF (Reg.pwrReg r) 12 10 (s1.setpoint r top)).freshen

/-- Clocks of a region stop (R66, R350): its cores read a frequency of zero. -/
def State.stopClocks (s : State) (r : Nat) (st : BitVec 4) : State :=
  s.modCores (coresOfRegion r) (fun c => { c with st := if c.st = 0 then 0 else st, mhz := 0, capped := false })

/-! ### Switching for heat (R36, R350, R373, R374) -/

/-- DETAIL of a unit (R375): kind code, unit index, reading. -/
def unitDetail (kind idx : Nat) (t : Nat) : List Byte := [BitVec.ofNat 8 kind] ++ leBytes 2 idx ++ [BitVec.ofNat 8 t]

/-- Sensors of a pair by kind (Tables 14-2, R263): a stack's base die, sensor 0 of its 17, is the single 8. -/
def sensorsOf (kind pair : Nat) : List Nat :=
  if kind = 3 then
    let base := pair / 9 * 17
    if pair % 9 = 8 then [base] else [base + 2 * (pair % 9) + 1, base + 2 * (pair % 9) + 2]
  else [2 * pair, 2 * pair + 1]

def State.sensor (s : State) (kind i : Nat) : Sensor := sget Sensor.reset s.rails.sensors (kind * 65536 + i)

/-- Plausible readings of a pair now (R361). -/
def State.readings (s : State) (kind pair : Nat) : List Int :=
  (sensorsOf kind pair).filterMap (fun i => let x := s.sensor kind i; if x.fresh then x.last else none)

/-- The higher of two readings, where there are. -/
def maxTemp (a b : Option Int) : Option Int :=
  match a, b with
  | some x, some y => some (max x y)
  | some x, none => some x
  | none, y => y

/-- Arbitrated reading of a pair: the higher of the plausible readings (R361). -/
def State.pairTemp (s : State) (kind pair : Nat) : Option Int := (s.readings kind pair).foldl (fun m x => maxTemp m (some x)) none

/-- A reading in a register's byte: 0xFF where there is none. -/
def tempByte (t : Option Int) : Nat :=
  match t with
  | none => 0xFF
  | some x => if 0 ≤ x ∧ x < 255 then x.toNat else Config.coldByte x % 256

/-- Is a reading known and below a bound? -/
def below (t : Option Int) (n : Int) : Bool := match t with
  | some x => decide (x < n)
  | none => false

/-- Arbitrated reading of a region. -/
def State.regionTemp (s : State) (r : Nat) : Option Int := s.pairTemp 1 r

/-- Power a region off for heat: clocks stop, the switch opens, the rail falls to zero. -/
def State.heatOff (s : State) (r : Nat) : State :=
  if s.railState r = 5 ∨ s.railState r = 4 then s
  else
    ((((s.setRail r 5).setRegF (Reg.pwrReg r) 12 10 0).stopClocks r 7).modRegion r (fun g => { g with waiting := false, droop := false })).raise
      0x003A ((s.partOfRank (rankOfDie (r / 8))).getD 0) (unitDetail 1 r (tempByte (s.regionTemp r)) ++ [1])

/-- A region's rail reaches its setpoint: its clocks start at the next release of its partition; sites that were unpowered read
loaded or idle again (CORE_STATE, Table 3-14). -/
def State.railUp (s : State) (r : Nat) : State :=
  let s1 := s.modCores ((coresOfRegion r).filter (fun k => !s.siteFenced k && !(s.die (dieOf k)).dark)) (fun c =>
    { c with st := if c.st = 0 then (if c.istore.isEmpty then 1 else 2) else c.st })
  ((s1.setRail r 2).setRegF (Reg.pwrReg r) 12 10 (s.setpoint r (s.powerCap r))).modRegion r (fun g => { g with waiting := true, extended := false })

/-- Current announced for a region as the sum of its powered cores' levels, hints that have arrived included (R346): sites whose
STATE is neither unpowered nor off for heat. (DEDUCED, log entry 55.) -/
def State.announced (s : State) (r : Nat) : Nat :=
  ((coresOfRegion r).filter (fun k => (s.core k).st != 0 && (s.core k).st != 7)).foldl (fun n k =>
    let c := s.core k
    n + (c.hints.filter (fun h => h.2.2)).foldl (fun m h => max m h.1.toNat) c.level.toNat) 0

/-- R351's admission: P + H + 6 W ≤ DLIM_W, in µW × 17 so that level / 15 × 24 A / 34 is exact. -/
def State.admits (s : State) (r : Nat) : Bool :=
  let d := r / 8
  let h := (List.range 8).foldl (fun n k =>
    let g := d * 8 + k
    n + (s.announced g * 800 - 170 * s.regF (Reg.pwrRstat g) 0 16) * s.regF (Reg.pwrReg g) 12 10) 0
  decide (17 * (s.regF (Reg.pwrDie d) 0 16 * 100000 + 6000000) + h ≤ 17 * s.regF (Reg.pwrDie d) 16 8 * 1000000)

/-- A power-on of a region is requested: admitted into soft start, or deferred (R351). A fenced region, one with less than six
phases, and one that is on stay as they are; while the brake is on the request is deferred (Table 13-5). -/
def State.requestOn (s : State) (r : Nat) : State :=
  let st := s.railState r
  if st = 4 ∨ st = 2 ∨ st = 1 ∨ (phaseCap (s.phases r)).isNone ∨ (s.die (r / 8)).dark = true ∨ (s.die (r / 8)).fenced = true then s
  else if s.admits r = true ∧ (s.reg Reg.pwrStatus).getLsbD 27 = false then (s.setRail r 1).modRegion r (fun g => { g with extended := false })
  else s.setRail r 3

/-! ### Castling entries -/

/-- Valid entries of a partition's castling table: entry, kind, A, B, REST. -/
def State.castleTable (s : State) (p : Nat) : List (Nat × Nat × Nat × Nat × Bool) :=
  (List.range 16).filterMap (fun e =>
    let w := (s.reg (Reg.cpair p e)).toNat
    if bit w 31 then some (e, field w 30 1, field w 0 11, field w 16 11, bit w 29) else none)

/-- Regions that hold rest work: those of the units B of REST entries (R369). -/
def State.restRegions (s : State) (p : Nat) : List Nat :=
  (s.castleTable p).flatMap (fun e => if e.2.2.2.2 then unitRegions e.2.1 e.2.2.2.1 else [])

/-- Action level of a unit by kind and index (Table 14-3): 0 normal to 4 Trip. -/
def levelKey (kind idx : Nat) : Nat := kind * 65536 + idx
def State.levelOf (s : State) (kind idx : Nat) : Nat := sget 0 s.rails.levels (levelKey kind idx)
def State.setLevel (s : State) (kind idx l : Nat) : State :=
  s.modRails (fun t => { t with levels := sput 0 t.levels (levelKey kind idx) l })

/-- The automatic castling that a region's reading asks for (R372, R373): a pair with one unit at Cap and 10 °C above the
other, at most once per 100 ms; or the entry that names a region in Rest as A with a rest unit B. The entry and its pair.
(DEDUCED, log entry 79.) -/
def State.autoCastle (s : State) (p r : Nat) : Option (Nat × Nat × Nat × Nat) :=
  let hot (kind u : Nat) : Int := ((unitRegions kind u).foldl (fun m g => maxTemp m (s.regionTemp g)) none).getD (-1000)
  let lev (kind u : Nat) : Nat := (unitRegions kind u).foldl (fun m g => max m (s.levelOf 1 g)) 0
  if (s.reg Reg.thmCfg).getLsbD 31 = false ∨ (s.part p).st ≠ 1 ∨ (s.part p).castling.isSome then none
  else if s.levelOf 1 r = 3 then
    ((s.castleTable p).find? (fun e => e.2.2.2.2 && (unitRegions e.2.1 e.2.2.1).contains r)).map (fun e => (e.1, e.2.1, e.2.2.1, e.2.2.2.1))
  else
    ((s.castleTable p).find? (fun e =>
      let a := e.2.2.1
      let b := e.2.2.2.1
      !e.2.2.2.2 && ((unitRegions e.2.1 a).contains r || (unitRegions e.2.1 b).contains r) &&
        ((lev e.2.1 a == 2 && decide (hot e.2.1 b + 10 ≤ hot e.2.1 a)) || (lev e.2.1 b == 2 && decide (hot e.2.1 a + 10 ≤ hot e.2.1 b))) &&
        (!s.rails.castled.contains (p * 16 + e.1) || (Config.freeByte s.freeCtr 3).getLsbD 0))).map
      (fun e => (e.1, e.2.1, e.2.2.1, e.2.2.2.1))

/-- Ask for the automatic castling of a region, powering its rest unit on first (R370). -/
def State.askCastle (s : State) (p r : Nat) : State :=
  match s.autoCastle p r with
  | none => s.freshen
  | some (e, kind, a, b) =>
    let s1 := (s.modPart p (fun q => { q with castling := some ⟨1024, 0, a, b, kind⟩ })).modRails (fun t =>
      { t with castled := addNew (p * 16 + e) t.castled })
    ((unitRegions kind b).foldl (fun t g => if t.railState g = 5 then t.requestOn g else t) s1).freshen

/-! ### At a move release (R66, R343, R344, R351, R354, R365, R373) -/

/-- Caps of one region at a release: the panel lever's step, the thermal steps, and what PWR_REG.CAP_MHZ then reports. -/
def State.capRegion (s : State) (p r : Nat) : State :=
  let g := s.region r
  let steps := if s.rails.lever = 1 then min 25 (g.steps + 1) else if s.rails.lever = 2 then g.steps - 1 else g.steps
  let want : Int := (g.thermal : Int) + 100 * g.change
  let th := clampN 800 3300 want.toNat
  let s1 := s.modRegion r (fun g => { g with steps := steps, thermal := th, change := 0, braked := false })
  let s2 := s1.setRegF (Reg.pwrReg r) 0 12 (s1.powerCap r)
  if th = g.thermal then s2 else s2.raise 0x0039 p (unitDetail 1 r (tempByte (s.regionTemp r)) ++ leBytes 2 th)

/-- What the power and thermal managers do at a move release of a partition: caps, clocks of regions whose rail has come up,
at a launch's first release the level 15 of every site (R346), and with REST_OFF its rest regions. -/
def State.railsAtRelease (s : State) (p : Nat) (opening : Bool) : State :=
  let rs := (s.part p).regions
  let s0 := if opening then s.modCores (s.part p).sites (fun c => { c with level := 15, hints := [] }) else s
  let s1 := rs.foldl (fun t r => t.capRegion p r) s0
  let s2 := rs.foldl (fun t r => if t.railState r = 2 ∧ (t.region r).waiting = true then t.modRegion r (fun g => { g with waiting := false }) else t) s1
  if opening && (s.reg Reg.thmCfg).getLsbD 30 then (s.restRegions p).foldl (fun t r => t.heatOff r) s2 else s2

/-- After a castling release: regions in Rest that now hold rest work are powered off (R373, Table 14-4 step 3). -/
def State.restAfterCastle (s : State) (p : Nat) : State :=
  (s.restRegions p).foldl (fun t r => if t.levelOf 1 r = 3 then t.heatOff r else t) s

/-- Do the clocks of a core's region run: the region is on, and not waiting for a release (R20, R351)? -/
def State.clocked (s : State) (k : Nat) : Bool := s.railState (regionOf k) == 2 && !(s.region (regionOf k)).waiting

/-- Before a replay, regions off for heat that hold real work again are powered on (R374), and tripped ones restart. -/
def State.powerForReplay (s : State) (p : Nat) : State :=
  (s.part p).regions.foldl (fun t r =>
    if (t.railState r = 5 ∨ (t.railState r = 0 ∧ 5 ≤ t.regF (Reg.pwrTile (tileOfDie (r / 8))) 28 4)) ∧ (t.restRegions p).contains r = false ∧
      (t.die (r / 8)).dark = false ∧ (t.die (r / 8)).fenced = false ∧ (t.heldCores r).isEmpty = false then (t.railUp r).modRegion r (fun g => { g with waiting := false }) else t) s

/-- A fault of a partition's dies that no recovery has taken yet, met while it ran nothing (R19, R410): a die that is dark, a
region whose switch has opened for good, a tile whose dies are held on spine power. (DEDUCED, log entry 87.) -/
def State.latent (s : State) (p : Nat) : Option HaltSrc :=
  let ds := (s.part p).dies.filter (fun d => !(s.die d).fenced)
  match ds.find? (fun d => (s.die d).dark) with
  | some d => some (.breaker (Fin.ofNat _ d))
  | none => match (ds.flatMap (fun d => (List.range 8).map (fun k => d * 8 + k))).find? (fun r => s.railState r == 4) with
    | some r => some (.region (Fin.ofNat _ r))
    | none => ((ds.map tileOfDie).find? (fun t => decide (s.regF (Reg.pwrTile t) 28 4 ≤ 4))).map (fun t => .tileDark (Fin.ofNat _ t))

/-- Is every unit of a partition that has tripped cool enough to restart (Table 14-3, R367: below 95 °C)?
(DESIGN CHOICE, log entry 49.) -/
def State.coolForReplay (s : State) (p : Nat) : Bool :=
  (s.part p).regions.all (fun r => s.levelOf 1 r != 4 || below (s.regionTemp r) 95) &&
  (s.part p).dies.all (fun d => (List.range 4).all (fun i => s.levelOf 2 (d * 4 + i) != 4 || below (s.pairTemp 2 (d * 4 + i)) 95) &&
    !s.rails.tilesOff.contains (tileOfDie d)) &&
  (s.rails.stacksOff.isEmpty || (s.ownedSlices p).all (fun sl => !s.rails.stacksOff.contains (sl / 64)))

end Sys2Proof.Machine
end

