-- ==== Sys2Proof/Machine/Streams.lean ====
section
/-! DEFINITION. Streams between panels and fabric links (11_packet_fabric_and_hall.md R278 to R281, R289 to R298): flits,
reception in order, acknowledgements, resends, failures, detours. -/
namespace Sys2Proof.Machine

/-! ### Unreachable panels and failed copies -/

/-- Every copy with packets outstanding to a panel fails with cause 0x11 (R292, R295). -/
def State.failCopiesTo (s : State) (q : Nat) : State :=
  s.cores.foldl (fun t e =>
    e.2.copies.foldl (fun u c => if c.reqs.any (fun r => r.panel == q) then u.copyFail e.1 c.id 0x11 true else u) t) s

/-! ### Receiving (R292 to R294) -/

/-- The first fabric flits of the path of a packet that a home delivers, or another panel's packet that this one forwards
(R290). -/
def State.deliverPacket (s : State) (p : Packet) : State := s.localSend (homeOf p.spanel.toNat) p

/-- The acknowledgement of a stream (R294). -/
def State.e2eAckPacket (s : State) (q cls : Nat) : Packet :=
  let st := s.stream q cls
  let map := st.buf.foldl (fun m p => let i := (p.eseq.toNat + 2 ^ 32 - st.expect) % 2 ^ 32; if i < 64 then m ||| 2 ^ i else m) 0
  { s.homePacket q 8 with
    eseq := BitVec.ofNat 32 (st.expect + 2 ^ 32 - 1), addr := BitVec.ofNat 64 map
    tag := BitVec.ofNat 16 st.marks, attr := BitVec.ofNat 16 cls }

/-- Send the acknowledgement of a stream. -/
def State.sendE2eAck (s : State) (q cls : Nat) : State :=
  (s.sendControl q (s.e2eAckPacket q cls)).modStream q cls (fun t => { t with marks := 0, sinceAck := 0 })

/-- Deliver the buffered packets of a stream that are now in order. -/
def State.drainStream (q cls : Nat) : Nat → State → State
  | 0, s => s
  | n + 1, s =>
    let st := s.stream q cls
    match st.buf.find? (fun p => p.eseq.toNat == st.expect) with
    | none => s
    | some p =>
      drainStream q cls n ((s.modStream q cls (fun t =>
        { t with expect := (t.expect + 1) % 2 ^ 32, buf := t.buf.erase p })).deliverPacket p)

/-- Bytes in the reorder buffer of a home. -/
def State.reorderBytes (s : State) (home : Nat) : Nat :=
  s.homes.streams.foldl (fun t e => if e.1 / 4 % 8 = home then e.2.buf.foldl (fun u p => u + windowBytes p) t else t) 0

/-- A stream packet reaches its receiving home (R292, R293). -/
def State.streamArrive (s : State) (p : Packet) : State :=
  let q := p.spanel.toNat
  let cls := p.cls.toNat
  let st := s.stream q cls
  if st.opened = false then s.sendControl q { s.homePacket q 0xB with attr := BitVec.ofNat 16 cls }
  else
    let s0 := if p.mark then s.countReg Reg.sylMarks 1 else s
    let diff := (p.eseq.toNat + 2 ^ 32 - st.expect) % 2 ^ 32
    let s1 := s0.modStream q cls (fun t =>
      { t with marks := t.marks + bitN p.mark, sinceAck := t.sinceAck + 1 })
    let s2 :=
      if diff = 0 then
        State.drainStream q cls st.buf.length
          ((s1.modStream q cls (fun t => { t with expect := (t.expect + 1) % 2 ^ 32 })).deliverPacket p)
      else if diff < 2048 then
        if st.buf.any (fun b => b.eseq == p.eseq) then s1.countReg Reg.sylDupdrop 1
        else if 2 ^ 23 < s1.reorderBytes (q % 8) + windowBytes p then s1
        else s1.modStream q cls (fun t => { t with buf := t.buf ++ [p] })
      else s1.countReg Reg.sylDupdrop 1
    if 16 ≤ (s2.stream q cls).sinceAck then s2.sendE2eAck q cls else s2

/-- Is it a control packet, which no stream numbers? -/
def isControl (p : Packet) : Bool := p.opc == 8 || p.opc == 9 || p.opc == 0xA || p.opc == 0xB

/-- A packet has arrived whole on a system-link port: it is discarded where a reserved field is set in its panels (R276), forwarded from
the port's I/O die to that of the port it leaves by (R290), handed to its command, or received by its stream. -/
def State.portArrive (s : State) (port : Nat) (p : Packet) : State :=
  if 4096 ≤ p.dpanel.toNat ∨ 4096 ≤ p.spanel.toNat then
    let ok := BitVec.ofNat 32 (ecrcOf p) == p.ecrc
    let s1 := s.pkfError (0xC0 + port / 4) (if ok then 0x02 else 0x01) (errCause p)
    if ok && decide (p.spanel.toNat < 4096) && !(p.opc == 5 || p.opc == 6 || p.opc == 7) then
      s1.inject (.io (port / 4)) (respond s.ownId p 7 (errCause p) []) else s1
  else if p.dpanel.toNat ≠ s.ownId then
    if s.routable p.dpanel.toNat then
      let r := s.streamPort p.dpanel.toNat p
      match s.panelPath (.io (port / 4)) (.io (r.2 / 4)) with
      | some path => if port / 4 = r.2 / 4 then r.1 else r.1.sendAlong path p
      | none => s.pathless (.io (r.2 / 4)) p
    else s
  else if isControl p then { s with net := s.net ++ [p] }
  else s.streamArrive p

/-! ### Control packets -/

/-- A good control packet of an opcode is taken; a bad one is discarded, recorded, and where its ECRC holds answered (R276). -/
def State.control (o : BitVec 4) (p : Packet) (f : State → State) (s : State) : State := State.delivered o p f s

/-- E2E_ACK (R294, R296): covered packets are acknowledged, the window and the congestion window move, and what the window
admits is sent. The guard of 4 µs on lowering the congestion window is a free bit (DESIGN CHOICE, log entry 21). -/
def execE2eAck (p : Packet) (s : State) : Host.Outcome State Fault Refusal :=
  .next (State.control 8 p (fun s =>
    let q := p.spanel.toNat
    let cls := p.attr.toNat % 4
    let st := s.stream q cls
    let cum := p.eseq.toNat
    let covered (e : Nat) : Bool :=
      let d := (cum + 2 ^ 32 - e) % 2 ^ 32
      let i := (e + 2 ^ 32 - (cum + 1) % 2 ^ 32) % 2 ^ 32
      decide (d < 2 ^ 31) || (decide (i < 64) && bit p.addr.toNat i)
    let left := st.una.filter (fun e => !covered e.1.eseq.toNat)
    let moved := st.una.any (fun e => decide ((cum + 2 ^ 32 - e.1.eseq.toNat) % 2 ^ 32 < 2 ^ 31))
    let w := s.e2eWindow
    let cw := sget w s.homes.cws q
    let free := (Config.freeByte s.freeCtr 0).getLsbD 0
    let cw' := if p.tag = 0 then min (cw + 4096) w else if free then max (cw - cw / 8) 16384 else cw
    let s1 := s.modStream q cls (fun t => { t with una := left, timeouts := if moved then 0 else t.timeouts })
    let s2 : State := { s1.freshen with homes := { s1.homes with
      cws := if s.throttling then s1.homes.cws else sput w s1.homes.cws q cw' } }
    (List.range 4).foldl (fun t c => State.trySend q c (t.stream q c).waiting.length t) s2) s)

/-- E2E_ACK_INTERVAL (R294): 2 µs have passed; the receiving home acknowledges the stream. -/
def execE2eAckInterval (panel : Fin 4096) (cls : BitVec 2) (s : State) : Host.Outcome State Fault Refusal :=
  .next (if (s.stream panel.val cls.toNat).opened then s.sendE2eAck panel.val cls.toNat else s)

/-- The four streams with a panel start at ESEQ 0 (R292); packets still without an acknowledgement are lost with their
copies. -/
def State.startStreams (s : State) (q : Nat) : State :=
  let s1 := (List.range 4).foldl (fun t c => t.modStream q c (fun st =>
    { Stream.reset with opened := true, waiting := st.waiting })) s
  { s1 with homes := { s1.homes with unreach := s1.homes.unreach.erase q } }

def State.sendWaiting (s : State) (q : Nat) : State :=
  (List.range 4).foldl (fun t c => State.trySend q c (t.stream q c).waiting.length t) s

/-- OPEN (R292): stream state starts at ESEQ 0 in every class, and OPEN_RSP answers. -/
def execOpenStream (p : Packet) (s : State) : Host.Outcome State Fault Refusal :=
  .next (State.control 9 p (fun s =>
    let q := p.spanel.toNat
    let s1 := s.startStreams q
    (s1.sendControl q (s1.homePacket q 0xA)).sendWaiting q) s)

/-- OPEN_RSP (R292): the exchange is complete and waiting packets may go. -/
def execOpenRsp (p : Packet) (s : State) : Host.Outcome State Fault Refusal :=
  .next (State.control 0xA p (fun s =>
    let q := p.spanel.toNat
    if (s.stream q 0).opening then (s.startStreams q).sendWaiting q else s) s)

/-- STALE (R292): every copy with packets outstanding to the panel fails with cause 0x11, and its streams are opened again
before anything further is sent. -/
def execStale (p : Packet) (s : State) : Host.Outcome State Fault Refusal :=
  .next (State.control 0xB p (fun s =>
    let q := p.spanel.toNat
    let s1 := (List.range 4).foldl (fun t c => t.modStream q c (fun st =>
      { st with opened := false, opening := false, una := [] })) (s.failCopiesTo q)
    s1.openStreams q) s)

/-! ### Resends (R290, R295) -/

/-- Resend the unacknowledged packets of a stream that a test selects, in ESEQ order. -/
def State.resend (s : State) (q cls : Nat) (sel : Packet × Nat → Bool) : State :=
  (s.stream q cls).una.foldl (fun t e =>
    if sel e then
      let p := { e.1 with resend := true }
      let r := t.streamPort q p
      (r.1.modStream q cls (fun st => { st with una := st.una.map (fun x => if x = e then (p, r.2) else x) })).countReg Reg.sylResend 1
    else t) s

/-- E2E_TIMEOUT (R295): the oldest unacknowledged packet of a stream has waited; the stream is resent, and after RETRIES
timeouts in a row the panel is unreachable and its copies fail. -/
def execE2eTimeout (panel : Fin 4096) (cls : BitVec 2) (s : State) : Host.Outcome State Fault Refusal :=
  let q := panel.val
  let c := cls.toNat
  .next (if (s.stream q c).una.isEmpty then s
    else
      let n := (s.stream q c).timeouts + 1
      let s1 := s.modStream q c (fun t => { t with timeouts := n })
      if max 1 (s.regF Reg.pkfE2e 20 4) ≤ n then
        let s2 : State := { s1 with homes := { s1.homes with unreach := addNew q s1.homes.unreach } }
        (s2.countReg Reg.sylUnreach (bitN (!s.homes.unreach.contains q))).failCopiesTo q
      else s1.resend q c (fun _ => true))

/-- ESCAPE_WAIT (R290): a packet that waits at a port for an adaptive buffer moves to escape 0 and to its ESC port. -/
def execEscapeWait (port : Fin 32) (p : Packet) (s : State) : Host.Outcome State Fault Refusal :=
  let l : LinkEnd := .sys port
  .next (if (s.link l).held.contains p && !p.esc then
      ((s.modLink l (fun k => { k with held := k.held.erase p })).streamPort p.dpanel.toNat { p with esc := true }).1
    else s)

/-- The next launches of the partitions whose tempo paths or repeats use a port calibrate first (R43). -/
def State.pathChanged (s : State) (port : Nat) : State :=
  { s with parts := s.parts.map (fun e =>
      if (e.2.parent.isSome && (e.2.upPorts.1 == port || e.2.upPorts.2 == port)) || e.2.children.any (fun c => c.2.1 == port || c.2.2 == port) then
        (e.1, { e.2 with recal := true })
      else e) }

/-- A system-link port fails (R280, R295): what was sent or queued on it is resent on other ports. -/
def State.portFailed (s : State) (port : Nat) : State :=
  let l : LinkEnd := .sys (Fin.ofNat _ port)
  let fwd := (s.link l).held.filter (fun p => p.spanel.toNat != s.ownId)
  let s1 := (s.setRegF (Reg.sylPort port) 28 4 4).modLink l (fun k =>
    { Link.reset with failed := true, txSlot := k.txSlot, rxSlot := k.rxSlot })
  let s2 := s1.homes.streams.foldl (fun t e => t.resend (e.1 / 4) (e.1 % 4) (fun x => x.2 == port)) (s1.pathChanged port)
  fwd.foldl (fun t p => (t.streamPort p.dpanel.toNat p).1) s2

/-- NO_LIGHT (R280): a trained port without light for 1 µs is failed. -/
def execNoLight (port : Fin 32) (s : State) : Host.Outcome State Fault Refusal :=
  let st := s.regF (Reg.sylPort port.val) 28 4
  .next (if st = 2 ∨ st = 3 ∨ st = 1 then s.portFailed port.val else s)

/-! ### Photonic pairs (R280, R281) -/

/-- Set the state and detour of both directions of a pair. -/
def State.setPair (s : State) (t u st c : Nat) : State :=
  ((s.setRegF (Reg.plink t u) 30 2 st).setRegF (Reg.plink t u) 8 8 c).setRegF (Reg.plink u t) 30 2 st |>.setRegF (Reg.plink u t) 8 8 c

/-- A packet that has no path is answered with ERR_RSP (R281). -/
def State.noPath (s : State) (p : Packet) : State :=
  let s1 := s.pkfError p.sep.toNat 0x04 (errCause p)
  let s2 : State := { s1 with net := s1.net.erase p }
  if p.opc = 1 ∨ p.opc = 2 ∨ p.opc = 3 then { s2 with net := s2.net ++ [respond s.ownId p 7 (errCause p) []] } else s2

/-- A photonic pair fails: both routers stop sending on it and hold their packets, and it moves to its detour tile; where
none qualifies the pair is down, its packets are answered, and a fault event is raised. -/
def State.pairFailed (s : State) (t u : Nat) : State :=
  if 2 ≤ s.plinkState t u then s
  else
    let s0 := s.setPair t u 3 0xFF
    match s0.detourTile t u with
    | some c =>
      ((s0.setPair t u 2 c).modLink (photonEnd t u) (fun k => { k with stopped := true })).modLink (photonEnd u t)
        (fun k => { k with stopped := true })
    | none =>
      let ps := (s0.link (photonEnd t u)).held ++ (s0.link (photonEnd u t)).held
      let s1 := (s0.modLink (photonEnd t u) (fun _ => { Link.reset with failed := true })).modLink (photonEnd u t)
        (fun _ => { Link.reset with failed := true })
      ps.foldl (fun a p => a.noPath p) (s1.raiseFree 0x0013 0)

/-- FABRIC_LINK_FAILED (R279 to R281, R295): a link failed by repeated CRC failures or silence. A photonic pair takes its
detour, a port's packets are resent elsewhere, another link stops. Die-crossing mesh links are quarantined instead. -/
def execFabricLinkFailed (l : LinkEnd) (s : State) : Host.Outcome State Fault Refusal :=
  .next (match l with
    | .mesh _ _ _ _ => s
    | .photon t u => if t = u then s else s.pairFailed t.val u.val
    | .sys p => s.portFailed p.val
    | _ => s.modLink l (fun k => { k with failed := true }))

/-- HANDOVER_REQUEST (Table 11-6 step 3): tile B discards the flits of any incomplete packet and replies with the sequence
of the last complete packet that it accepted from A; `answer` holds the reply. -/
def execHandoverRequest (a : Fin 12) (b : Fin 12) (s : State) : Host.Outcome State Fault Refusal :=
  let l := photonEnd b.val a.val
  let s1 := s.modLink l (fun k => { k with asm := [] })
  .next { s1 with answer := leBytes 4 (s.link l).done }

/-- Packets of which at least one flit lies in the replay buffer at or after a running count, with the rest: the packets
that start at or after it. -/
def packetsFrom (fl : List (BitVec 288)) (cur : List Byte) : List Packet :=
  match fl with
  | [] => if cur.isEmpty then [] else [parsePacket cur]
  | f :: fs =>
    let bs := leBytes 32 (flitData f).toNat
    if bit (flitByte f 33) 3 then (if cur.isEmpty then packetsFrom fs bs else parsePacket cur :: packetsFrom fs bs)
    else packetsFrom fs (if cur.isEmpty then [] else cur ++ bs)

/-- HANDOVER_REPLY (Table 11-6 step 4): tile A resends, through the detour on escape 0, every packet after the reply's
ACKSEQ from its replay buffer, then its held queue. -/
def execHandoverReply (a : Fin 12) (b : Fin 12) (ackseq : W32) (s : State) : Host.Outcome State Fault Refusal :=
  let l := photonEnd a.val b.val
  let k := s.link l
  .next (if s.plinkState a.val b.val ≠ 2 ∨ k.stopped = false then s
    else
      let c := s.regF (Reg.plink a.val b.val) 8 8
      let first := k.sendSeq - k.replay.length
      let ps := packetsFrom (k.replay.drop (ackseq.toNat - first % 2 ^ 32)) [] ++ k.held
      let s1 := s.modLink l (fun _ => { Link.reset with failed := true })
      ps.foldl (fun t p =>
        [photonEnd a.val c, photonEnd c b.val].foldl (fun u e => u.sendOn e { p with esc := true }) t) s1)

/-! ### Retraining (R280) -/

/-- RETRAINING: the link stops sending while it retrains without the failing lane. A port retrains from up or narrowed
(Table 11-5). -/
def execRetraining (l : LinkEnd) (s : State) : Host.Outcome State Fault Refusal :=
  let s1 := s.modLink l (fun k => { k with stopped := true })
  .next (match l with
    | .sys p =>
      let st := s.regF (Reg.sylPort p.val) 28 4
      if st = 2 ∨ st = 3 then s1.setRegF (Reg.sylPort p.val) 28 4 1 else s
    | .mesh _ _ _ _ => s
    | _ => s1)

/-- RETRAIN_COMPLETE: the link runs on its live lanes and replays from its last acknowledged flit; tempo-slot counts start
again (R287). A port with fewer than 8 lanes is failed. The links of a router whose clock a trip has stopped stay stopped. -/
def execRetrainComplete (l : LinkEnd) (lanes : Nat) (s : State) : Host.Outcome State Fault Refusal :=
  .next (match l with
    | .mesh _ _ _ _ => s
    | .photon t u =>
      if (s.link l).stopped = false ∨ 2 ≤ s.plinkState t.val u.val then s
      else if lanes = 0 then s.pairFailed t.val u.val
      else
        ((s.setRegF (Reg.plink t.val u.val) 0 8 (min lanes 128)).setRegF (Reg.plink t.val u.val) 30 2 (bitN (decide (lanes < 128)))).modLink l
          (fun k => { k with stopped := false }) |>.drainLink l
    | .edge d dir _ => if s.rails.stopped.contains (d.val * 4 + dir.idx) then s else (s.modLink l (fun k => { k with stopped := false })).drainLink l
    | .sys p =>
      if s.regF (Reg.sylPort p.val) 28 4 ≠ 1 ∨ (s.link l).stopped = false then s
      else if lanes < 8 then s.portFailed p.val
      else
        ((s.setRegF (Reg.sylPort p.val) 16 5 (min lanes 16)).setRegF (Reg.sylPort p.val) 28 4 (if lanes < 16 then 3 else 2)).modLink l
          (fun k => { k with stopped := false, txSlot := 0, rxSlot := 0, wrong := 0 }) |>.drainLink l
    | _ => (s.modLink l (fun k => { k with stopped := false })).drainLink l)

/-! ### Flits of the fabric (R278, R279) -/

/-- REPLAY_LIMIT of fabric links. -/
def State.pkfLimit (s : State) : Nat := s.regF Reg.pkfCfg 8 8

/-- A fabric flit fails its CRC; a port counts it. -/
def State.fabricCrcFail (s : State) (l : LinkEnd) (isData : Bool) (f : BitVec 288) : State :=
  let s1 := s.modLink l (fun k => k.crcFailed false s.pkfLimit isData (flitByte f 32 == k.expSeq % 256))
  match l with
  | .sys p => s1.countReg (Reg.sylPcrc p.val) 1
  | _ => s1

/-- Credit counts of a control flit: what is ahead of the own count frees buffer space at the far end (R278). -/
def fabricCredits (f : BitVec 288) (k : Link) : Link :=
  (List.range 12).foldl (fun a v =>
    let c := flitByte f (8 + 2 * v) + 256 * flitByte f (9 + 2 * v)
    let n := ahead c (sget 0 a.credRcvd v)
    if n = 0 then a else { a with credRcvd := sput 0 a.credRcvd v c, spent := smod 0 a.spent v (· - n) }) k

/-- A DATA flit in order joins the packet of its channel; a whole packet is returned. -/
def takeFlit (f : BitVec 288) (k : Link) : Link × Option Packet :=
  let vc := flitByte f 33 / 16
  let bs := leBytes 32 (flitData f).toNat
  let cur := if bit (flitByte f 33) 3 then bs else sget [] k.asm vc ++ bs
  let k1 := { k with owe := smod 0 k.owe vc (· + 1) }
  if cur.length < 32 + 64 * (leAt cur 1 1 / 16) then ({ k1 with asm := sput [] k1.asm vc cur }, none)
  else ({ k1 with asm := sput [] k1.asm vc [], done := k1.expSeq }, some (parsePacket cur))

/-- A DATA flit of a fabric link (R278, R279). On a system-link port a whole packet arrives from the other panel; on the
panel's own links the packet is already under way. -/
def State.fabricData (s : State) (l : LinkEnd) (f : BitVec 288) : State :=
  let k := s.link l
  if k.failed ∨ k.stopped then s
  else if flitOk f = false then s.fabricCrcFail l true f
  else if flitByte f 33 % 8 ≠ 1 then s
  else if flitByte f 32 = k.expSeq % 256 then
    let r := takeFlit f (k.accept false)
    let s1 := s.modLink l (fun _ => r.1)
    match l, r.2 with
    | .sys port, some p => s1.portArrive port.val p
    | _, _ => s1
  else s.modLink l (fun k => k.gap false)

/-- A control flit of a fabric link; `ty` is 2 IDLE, 3 ACK, 4 NAK. -/
def State.fabricControl (s : State) (l : LinkEnd) (ty : Nat) (f : BitVec 288) : State :=
  let k := s.link l
  if k.failed then s
  else if flitOk f = false then s.fabricCrcFail l false f
  else if flitByte f 33 % 8 ≠ ty then s
  else
    let a := flitByte f 0 + 256 * flitByte f 1 + 2 ^ 16 * flitByte f 2 + 2 ^ 24 * flitByte f 3
    let s1 := (s.modLink l (fun k => fabricCredits f (if ty = 2 then k else k.ackTo (2 ^ 32) a))).drainLink l
    match l, ty with
    | .sys p, 4 => s1.countReg (Reg.sylPreplay p.val) 1
    | _, _ => s1

/-- A flit as it reaches a link end: a gambit of KIND 0x01 has corrupted it, once (R429); its CRC then fails. -/
def State.arriving (s : State) (l : LinkEnd) (f : BitVec 288) : State × BitVec 288 :=
  if (s.link l).corrupt then (s.modLink l (fun k => { k with corrupt := false }), f ^^^ 1) else (s, f)

/-- DATA_FLIT (R202, R278). -/
def execDataFlit (l : LinkEnd) (flit : BitVec 288) (s : State) : Host.Outcome State Fault Refusal :=
  let a := s.arriving l flit
  .next (match l with
    | .mesh d dir lane seg => a.1.meshData d.val dir lane.val seg.val a.2
    | _ => a.1.fabricData l a.2)

/-- IDLE_FLIT (R203, R278). -/
def execIdleFlit (l : LinkEnd) (flit : BitVec 288) (s : State) : Host.Outcome State Fault Refusal :=
  let a := s.arriving l flit
  .next (match l with
    | .mesh d dir lane seg => a.1.meshControl d.val dir lane.val seg.val 2 a.2
    | _ => a.1.fabricControl l 2 a.2)

/-- ACK_FLIT (R202, R278). -/
def execAckFlit (l : LinkEnd) (flit : BitVec 288) (s : State) : Host.Outcome State Fault Refusal :=
  let a := s.arriving l flit
  .next (match l with
    | .mesh d dir lane seg => a.1.meshControl d.val dir lane.val seg.val 3 a.2
    | _ => a.1.fabricControl l 3 a.2)

/-- NAK_FLIT (R202, R279). -/
def execNakFlit (l : LinkEnd) (flit : BitVec 288) (s : State) : Host.Outcome State Fault Refusal :=
  let a := s.arriving l flit
  .next (match l with
    | .mesh d dir lane seg => a.1.meshControl d.val dir lane.val seg.val 4 a.2
    | _ => a.1.fabricControl l 4 a.2)

/-- CONTROL_FLIT_INTERVAL (R202, R203, R279): the interval has passed; the end sends an ACK where it has taken flits since
the last, an IDLE where credits or acknowledgements are not covered yet or nothing else was sent. A mesh link that is closed, quarantined
or not clocked sends nothing. -/
def execControlFlitInterval (l : LinkEnd) (s : State) : Host.Outcome State Fault Refusal :=
  let k := s.link l
  let off : Bool := match l with
    | .mesh d dir lane seg => !s.meshUp d.val dir lane.val seg.val
    | _ => false
  .next (if k.failed = true ∨ k.stopped = true ∨ off = true then s
    else s.modLink l (fun k => k.control l.isMesh (if 0 < k.sinceAck then 3 else 2)))

end Sys2Proof.Machine
end

