-- ==== Sys2Proof/Machine/Gambits.lean ====
section
/-! DEFINITION. Gambits (16_faults_and_recovery.md R429, R430): firing at a move release and the end of a held-down unit. -/
namespace Sys2Proof.Machine

def Gambit.id (g : Gambit) : Nat := leAt g.bytes 0 4
def Gambit.kind (g : Gambit) : Nat := leAt g.bytes 4 1
def Gambit.part (g : Gambit) : Nat := leAt g.bytes 5 1
def Gambit.move (g : Gambit) : Nat := leAt g.bytes 8 6
def Gambit.unit (g : Gambit) : Nat := leAt g.bytes 0x10 2
def Gambit.site (g : Gambit) : Nat := leAt g.bytes 0x12 2
def Gambit.port (g : Gambit) : Nat := leAt g.bytes 0x14 1

/-- Direction of a PORT number. -/
def dirOf (n : Nat) : Dir := match n with
  | 0 => .n
  | 1 => .e
  | 2 => .s
  | _ => .w

/-- Is the UNIT of a KIND 0x02 gambit a system-link port? A number that a port and a tile pair share is told apart by a free
bit: the manual does not say (DESIGN CHOICE, log entry 23). -/
def gambitPort (g : Gambit) : Bool :=
  decide (g.unit < 32) && (g.unit / 12 == g.unit % 12 || (Config.freeByte g.id 0).getLsbD 0)

/-- The fault that a gambit injects. -/
def State.inject1 (s : State) (p : Nat) (g : Gambit) : State :=
  let own (t : State) : State := t.modPart p (fun q => { q with gambit := BitVec.ofNat 32 g.id })
  match g.kind with
  | 1 => s.modLink (segEnd g.unit (dirOf g.port) (Config.freeNat s.freeCtr 7 % 16) 0) (fun k => { k with corrupt := true })
  | 2 => if gambitPort g then s.portFailed g.unit else s.pairFailed (g.unit / 12) (g.unit % 12)
  | 3 => own (s.parityError (g.unit * 272 + g.site) (dirOf g.port))
  | 4 => own ((s.modDie g.unit (fun d => { d with stopped := true })).modCores (coresOfDie g.unit) (fun c => { c with st := 0, mhz := 0 }))
  | 5 => own ((List.range 32).foldl (fun t i => t.portFailed i) s)
  | _ => s

/-- Gambits that are due fire within the first move whose number is at least MOVE, in a partition that runs and is not
recovering (Tables 16-8 and 16-9). -/
def State.fireGambits (s : State) (p : Nat) : State :=
  let q := s.part p
  if q.st ≠ 1 ∨ q.recov.isSome then s
  else (s.gambits.filter (fun g => !g.fired && g.part == p && decide (g.move ≤ q.move.toNat))).foldl (fun t g =>
    let t1 : State := { t with gambits := t.gambits.map (fun x => if x = g then { x with fired := true } else x) }
    (t1.raise 0x0028 p (leBytes 4 g.id ++ [BitVec.ofNat 8 g.kind] ++ leBytes 6 q.move.toNat)).inject1 p g) s

/-- A port that was held down by a gambit comes back (R286: by training; the streams' state is kept). -/
def State.portBack (s : State) (i : Nat) : State :=
  if s.regF (Reg.sylPort i) 28 4 ≠ 4 then s
  else (s.setRegF (Reg.sylPort i) 28 4 1).modLink (.sys (Fin.ofNat _ i)) (fun k => { k with failed := false, stopped := true })

/-- A pair that was held down comes back where it is down; one that has taken its detour stays on it until the next warm reset
(R281). -/
def State.pairBack (s : State) (t u : Nat) : State :=
  if s.plinkState t u ≠ 3 then s
  else [photonEnd t u, photonEnd u t].foldl (fun a l => a.modLink l (fun k => { k with failed := false, stopped := false })) (s.setPair t u 0 0xFF)

/-- GAMBIT_DURATION: the unit that a gambit held down returns; a site or die that recovery fenced stays fenced until the next
warm reset (R430). -/
def execGambitDuration (id : W32) (s : State) : Host.Outcome State Fault Refusal :=
  .next (match s.gambits.find? (fun g => g.fired && g.id == id.toNat) with
    | none => s
    | some g => match g.kind with
      | 2 => if gambitPort g then s.portBack g.unit
        else s.pairBack (g.unit / 12) (g.unit % 12)
      | 4 => s.modDie g.unit (fun d => { d with stopped := false })
      | 5 => (List.range 32).foldl (fun t i => t.portBack i) s
      | _ => s)

end Sys2Proof.Machine
end

