-- ==== Sys2Proof/Machine/Tempo.lean ====
section
/-! DEFINITION. The tempo network (02_moves_and_tempo.md R30 to R56, R65): arrivals and combining, releases, what a release
does at a core and at the root, acknowledgements, calibration, census. -/
namespace Sys2Proof

/-- Key of a tempo node. -/
def TNode.key : TNode → Nat
  | .core k => k.val
  | .die d => 39168 + d.val
  | .tile t => 39312 + t.val
  | .panel => 39324
  | .remote q => 40000 + q.val

end Sys2Proof

namespace Sys2Proof.Machine

/-! ### Nodes -/

def State.tnode (s : State) (n : Nat) : TempoNode := sget TempoNode.reset s.tnodes n
def State.modNode (s : State) (n : Nat) (f : TempoNode → TempoNode) : State :=
  { s with tnodes := smod TempoNode.reset s.tnodes n f }

/-- Key of a partition and group. -/
def pgKey (p g : Nat) : Nat := p * 64 + g

/-- The parent of a node on this panel's tree. -/
def upNode (n : Nat) : Option Nat :=
  if n < 39168 then some (keyDie (dieOf n))
  else if n < 39312 then some (keyTile (tileOfDie (n - 39168)))
  else if n < 39324 then some keyPanel
  else none

/-- The parent of a node for a partition; the panel hub's is the parent panel of a linked partition. -/
def State.parentOf (s : State) (p n : Nat) : Option Nat :=
  if n = keyPanel then (s.part p).parent.map keyRemote else upNode n

/-- A tempo unit or hub of a die without spine supply, or without its clock, neither sends nor hears (R15, R56). -/
def State.nodeDown (s : State) (n : Nat) : Bool :=
  decide (n < 39312) && (let d := s.die (if n < 39168 then dieOf n else n - 39168); d.dark || d.stopped)

/-- Dies below a node. -/
def diesBelow (n : Nat) : List Nat :=
  if n < 39168 then [dieOf n] else if n < 39312 then [n - 39168] else if n < 39324 then diesOfTile (n - 39312)
  else if n = keyPanel then List.range 144 else []

/-- Member cores of a group on a die, by the program's classes; every logical place is a member of group 0 (R33). -/
def State.groupCores (s : State) (p g d : Nat) : List Nat :=
  if s.partOfRank (rankOfDie d) ≠ some p then []
  else (coresOfDie d).filter (fun k => (s.logicalOf k).isSome && !s.siteFenced k && (g == 0 || s.inGroup k g))

/-- Members that arrive for themselves: those of a region off for heat have proxies (R36). -/
def State.arrivers (s : State) (p g d : Nat) : List Nat := (s.groupCores p g d).filter (fun k => (s.core k).st != 7)

/-- Child panels with members of a group in their subtrees: every child panel for group 0. (DESIGN CHOICE, log entry 45.) -/
def State.groupPanels (s : State) (p g : Nat) : List Nat :=
  ((s.part p).children.map (·.1)).filter (fun c => g == 0 || Config.groupBelow (s.part p).tree g c)

/-- Has a group members on more than one panel: group 0 of a linked partition, and every group that the plan spreads (R34)?
(DESIGN CHOICE, log entry 45.) -/
def State.groupSpans (s : State) (p g : Nat) : Bool :=
  !(s.groupPanels p g).isEmpty || ((s.part p).parent.isSome && (g == 0 || Config.groupAbove (s.part p).tree g s.ownId))

/-- Children of a hub in a group's tree: those with a member at or below them, members with proxies included. Their arrivals are
awaited, and the release goes to them (R34, R36, R37). -/
def State.expected (s : State) (p g n : Nat) : List Nat :=
  if n < 39168 then []
  else if n < 39312 then s.groupCores p g (n - 39168)
  else if n < 39324 then ((diesOfTile (n - 39312)).filter (fun d => !(s.groupCores p g d).isEmpty)).map keyDie
  else if n = keyPanel then
    ((List.range 12).filter (fun t => (diesOfTile t).any (fun d => !(s.groupCores p g d).isEmpty))).map keyTile ++
      (s.groupPanels p g).map keyRemote
  else []

/-- The node that releases a group (R34): the root's panel hub for group 0 and for a group on several panels, else the lowest hub
above all members. At a member panel the root is some panel behind its parent. -/
def State.releaser (s : State) (p g : Nat) : Nat :=
  if g = 0 ∨ s.groupSpans p g = true then ((s.part p).parent.map keyRemote).getD keyPanel
  else
    let ds := ((s.part p).dies).filter (fun d => !(s.groupCores p g d).isEmpty)
    match ds with
    | [] => keyPanel
    | d :: _ =>
      if ds.all (· == d) then keyDie d
      else if ds.all (fun e => tileOfDie e == tileOfDie d) then keyTile (tileOfDie d) else keyPanel

/-- The partition that a message concerns: its tree ID, or the partition number where the partition has none. -/
def State.partOfMsg (s : State) (m : TempoMsg) : Option Nat :=
  match s.parts.find? (fun e => decide (0 < e.2.height) && e.2.tree != 0 && e.2.tree == m.tree.toNat) with
  | some e => some e.1
  | none => (s.parts.find? (fun e => decide (0 < e.2.height) && e.2.tree == 0 && e.1 == m.tree.toNat)).map (·.1)

/-! ### Combining (R37, R38, Table 2-2) -/

/-- Reduction code of a group. -/
def State.redOp (s : State) (p g : Nat) : Nat := (((s.part p).prog.bind (fun q => q.ops[g]?)).getD 0).toNat

/-- Combine two operands held in 128 bits, two's complement. -/
def combine128 (op : Nat) (a b : BitVec 128) : BitVec 128 :=
  match op with
  | 0x1 => a + b
  | 0x8 => a + b
  | 0x2 => if a.toInt ≤ b.toInt then a else b
  | 0x3 => if a.toInt ≤ b.toInt then b else a
  | 0x4 => if (a.toNat % 2 ^ 64) ≤ (b.toNat % 2 ^ 64) then a else b
  | 0x5 => if (a.toNat % 2 ^ 64) ≤ (b.toNat % 2 ^ 64) then b else a
  | 0x6 => a &&& b
  | 0x7 => a ||| b
  | _ => 0

/-- The identity of a reduction (Table 2-2), which a proxy arrival carries (R36). -/
def redIdentity (op : Nat) : W64 :=
  match op with
  | 2 => 0x7FFFFFFFFFFFFFFF
  | 3 => 0x8000000000000000
  | 4 => 0xFFFFFFFFFFFFFFFF
  | 6 => 0xFFFFFFFFFFFFFFFF
  | _ => 0

/-- Result and overflow flag that the releasing node delivers; the identity where every arrival was a proxy. -/
def finalResult (op : Nat) (c : Comb) : W64 × Bool :=
  let i := c.value.toInt
  let lo : Int := -(2 ^ 63 : Nat)
  let hi : Int := (2 ^ 63 : Nat)
  let out := decide (i < lo) || decide (hi ≤ i)
  if !c.any then (redIdentity op, false)
  else match op with
    | 0 => (0, false)
    | 1 => (c.value.setWidth 64, out)
    | 8 => (if i < lo then BitVec.ofInt 64 lo else if hi ≤ i then BitVec.ofInt 64 (hi - 1) else c.value.setWidth 64, out)
    | _ => (c.value.setWidth 64, false)

def Comb.empty : Comb := ⟨[], false, 0, 0⟩
def State.combOf (s : State) (p g n : Nat) : Comb := sget Comb.empty (s.tnode n).comb (pgKey p g)

/-- The larger of a child's two port delays at a hub. -/
def State.portDelay (s : State) (n child : Nat) : Nat :=
  max (sget 0 (s.tnode n).ports (2 * child)) (sget 0 (s.tnode n).ports (2 * child + 1))

/-- Add a child's operand at a hub; a proxy's adds nothing but its delay. -/
def State.addArrival (s : State) (p g n child : Nat) (any : Bool) (v : BitVec 128) (delay : Nat) : State :=
  let op := s.redOp p g
  let dl := delay + s.portDelay n child
  s.modNode n (fun t =>
    { t with comb := smod Comb.empty t.comb (pgKey p g) (fun c =>
        { arrived := addNew child c.arrived, any := c.any || any
          value := if !any then c.value else if c.any then combine128 op c.value v else v
          delay := max c.delay dl }) })

/-- Has a hub the arrival of a child: the child's own, or for a core of a region off for heat the proxy that the die hub makes
(R36)? -/
def State.hasArrival (s : State) (p g n child : Nat) : Bool :=
  (s.combOf p g n).arrived.contains child || (decide (child < 39168) && (s.core child).st == 7)

/-- Has a hub every arrival that it awaits? -/
def State.combFull (s : State) (p g n : Nat) : Bool :=
  let e := s.expected p g n
  !e.isEmpty && e.all (s.hasArrival p g n)

/-- The largest path delay below a hub, measured from it (R44): what arrived says, and the ports of the members with proxies. -/
def State.hubDelay (s : State) (p g n : Nat) : Nat :=
  ((s.expected p g n).filter (fun k => !(s.combOf p g n).arrived.contains k)).foldl (fun m k => max m (s.portDelay n k)) (s.combOf p g n).delay

/-! ### Messages, sending and acknowledging (R39, R40, R50) -/

/-- The 24 bytes of a message (Table 2-3). -/
def msgBytes (m : TempoMsg) : List Byte :=
  [BitVec.ofNat 8 (m.ty.toNat * 16 + bitN m.late * 8 + bitN m.ovf * 4 + bitN m.proxy * 2 + bitN m.port), m.group.setWidth 8] ++
  leBytes 2 (m.op.toNat * 4096 + m.tree.toNat) ++ leBytes 6 m.move.toNat ++ leBytes 2 m.seq.toNat ++ leBytes 8 m.value.toNat ++
  leBytes 3 m.delay.toNat ++ [m.lvl.setWidth 8]

/-- The tempo slot of a message: its bytes, zeros, TYPE 0b101 and the CRC (R287). -/
def tempoFlit (m : TempoMsg) : BitVec 288 := mkFlit (leNat (msgBytes m)) 0 5

/-- A message is given to the tempo lane of a system-link port. -/
def State.onLane (s : State) (port : Nat) (m : TempoMsg) : State :=
  s.modLink (.sys (Fin.ofNat _ port)) (fun k => { k with lane := k.lane ++ [m] })

/-- The two local ports of the tempo path to a parent or child panel (Table 12-11). -/
def State.pathPorts (s : State) (p peer : Nat) : Option (Nat × Nat) :=
  if (s.part p).parent.map keyRemote = some peer then some (s.part p).upPorts
  else ((s.part p).children.find? (fun c => keyRemote c.1 == peer)).map (·.2)

/-- The panel at the other end of the tempo path that a port serves. -/
def State.pathPeer (s : State) (p port : Nat) : Option Nat :=
  match (s.part p).parent with
  | some q => if (s.part p).upPorts.1 = port ∨ (s.part p).upPorts.2 = port then some q
    else ((s.part p).children.find? (fun c => c.2.1 == port || c.2.2 == port)).map (·.1)
  | none => ((s.part p).children.find? (fun c => c.2.1 == port || c.2.2 == port)).map (·.1)

/-- Both copies of a message to another panel leave on the two ports of its path (R39, R287). -/
def State.onPath (s : State) (p peer : Nat) (m : TempoMsg) : State :=
  match s.pathPorts p peer with
  | none => s
  | some (a, b) => (s.onLane a { m with port := false }).onLane b { m with port := true }

/-- The next sequence number of a node towards a peer in a group. -/
def State.nextSeq (s : State) (n peer g : Nat) : Nat := sget 0 (s.tnode n).sent (peer * 64 + g)

/-- A node sends a message to a peer: it takes the next sequence number and waits for the acknowledgement. -/
def State.tempoSend (s : State) (p n peer : Nat) (m : TempoMsg) : State :=
  let key := peer * 64 + m.group.toNat
  let m := { m with seq := BitVec.ofNat 16 (s.nextSeq n peer m.group.toNat) }
  (s.modNode n (fun t =>
    { t with sent := sput 0 t.sent key ((m.seq.toNat + 1) % 2 ^ 16), unacked := t.unacked ++ [⟨peer, m, 0⟩] })).onPath p peer m

/-- A message that nobody acknowledges leaves: to another panel on its path, to a node of this panel by `out`. -/
def State.tempoPost (s : State) (p n peer : Nat) (m : TempoMsg) : State :=
  if 40000 ≤ peer then s.onPath p peer m else s.modNode n (fun t => { t with out := t.out ++ [(peer, m)] })

/-- The tree ID that a partition's messages carry. (DEDUCED, log entry 45.) -/
def State.msgTree (s : State) (p : Nat) : Nat := if (s.part p).tree = 0 then p else (s.part p).tree

/-- A message of a partition. -/
def State.tempoMsg (s : State) (p g ty : Nat) (value : W64) (delay : Nat) (late ovf : Bool) (lvl : Nat) : TempoMsg :=
  { ty := BitVec.ofNat 4 ty, late := late, ovf := ovf, proxy := false, port := false, group := BitVec.ofNat 6 g
    op := BitVec.ofNat 4 (s.redOp p g), tree := BitVec.ofNat 12 (s.msgTree p), move := (s.part p).move, seq := 0, value := value, hi := 0
    delay := BitVec.ofNat 24 delay, lvl := BitVec.ofNat 3 lvl, ok := true }

/-- A receiver acknowledges an ARRIVE or RELEASE on both ports (R50). -/
def State.sendAck (s : State) (p n peer : Nat) (m : TempoMsg) : State :=
  s.tempoPost p n peer { s.tempoMsg p m.group.toNat 4 0 0 false false 0 with seq := m.seq, move := m.move }

/-- Has a node acted on a message of a peer (R39)? -/
def State.hasActed (s : State) (n peer : Nat) (m : TempoMsg) : Bool :=
  (sget [] (s.tnode n).acted (peer * 64 + m.group.toNat)).contains m.seq.toNat

/-- A node acts on a message: its sequence number is remembered until 32,767 others of that peer and group have followed, half of
the 16-bit range. (DESIGN CHOICE, log entry 98.) -/
def State.noteActed (s : State) (n peer : Nat) (m : TempoMsg) : State :=
  s.modNode n (fun t => { t with acted := smod [] t.acted (peer * 64 + m.group.toNat) (fun l => (m.seq.toNat :: l).take 32768) })

/-- The message that a node of this panel has sent a peer and that is not acknowledged. -/
def State.sentMsg (s : State) (n peer : Nat) (m : TempoMsg) : Option Unacked :=
  (s.tnode n).unacked.find? (fun u => u.peer == peer && u.msg.ty == m.ty && u.msg.group == m.group && u.msg.seq == m.seq)

/-- Forward a release to a node's children. -/
def State.forwardRelease (s : State) (p g n : Nat) (m : TempoMsg) : State :=
  (s.expected p g n).foldl (fun t c => t.tempoSend p n c m) s

/-- Level of a node in LVL. -/
def nodeLevel (n : Nat) : Nat := if n < 39168 then 0 else if n < 39312 then 1 else if n < 39324 then 2 else 3

/-! ### Calibration (R43, R46, R65) -/

/-- Largest path delay from the panel hub (Table 2-9). -/
def State.calDmax (s : State) : State :=
  let dm := s.tnodes.foldl (fun m e => max m (max (sget 0 e.2.path 6) (sget 0 e.2.path 7))) 0
  s.setRegF Reg.calStatus 0 24 dm

/-- RECAL reads 1 while a port or a partition waits for its calibration (Table 2-8). -/
def State.recalDone (s : State) : State :=
  if s.tnodes.all (fun e => e.2.recal.isEmpty) && s.parts.all (fun e => !e.2.recal) then s.setRegF Reg.calCtl 31 1 0 else s

/-- The measured delay of a port in ps × 1/64 periods: free. -/
def measured (ctr n child port : Nat) : Nat := Config.freeNat ctr (2 ^ 20 + (n * 65536 + child) * 2 + port) % 2 ^ 20

/-- A node takes its delay from its parent on both ports: the port delay in use there, and for each ancestor of the parent the sum
(R43). -/
def State.renewNode (s : State) (parent n : Nat) : State :=
  [0, 1].foldl (fun (t : State) o =>
    let d := sget 0 (t.tnode parent).ports (2 * n + o)
    let a := (t.tnode parent).path
    t.modNode n (fun x => { x with
      ports := sput 0 x.ports (2 * 65536 + o) d
      path := (List.range 7).foldl (fun m l =>
        if nodeLevel parent < l ∧ (l ≤ 3 ∨ sget 0 a (2 * l + o) ≠ 0) then sput 0 m (2 * l + o) (sget 0 a (2 * l + o) + d) else m)
        (sput 0 x.path (2 * nodeLevel parent + o) d) })) s

/-- The path delays of the nodes at some dies are renewed from the port delays in use: the CAL messages that a release needs have
been sent and taken (R43). -/
def State.renewPaths (s : State) (dies : List Nat) : State :=
  dies.foldl (fun t x =>
    (coresOfDie x).foldl (fun u k => u.renewNode (keyDie x) k)
      ((t.renewNode keyPanel (keyTile (tileOfDie x))).renewNode (keyTile (tileOfDie x)) (keyDie x))) s

/-- Calibrate the nodes above and at some dies: port delays are measured, path delays are their sums (R43). -/
def State.calibrate (s : State) (dies : List Nat) : State :=
  let note (n c : Nat) (t : State) : State := t.modNode n (fun x => [0, 1].foldl (fun x o =>
    { x with ports := sput 0 x.ports (c * 2 + o) (measured s.freeCtr n c o), fresh := sdel x.fresh (c * 2 + o), recal := x.recal.erase (c * 2 + o) }) x)
  let s1 := dies.foldl (fun t x =>
    (coresOfDie x).foldl (fun u k => note (keyDie x) k u) (note (keyTile (tileOfDie x)) (keyDie x) (note keyPanel (keyTile (tileOfDie x)) t))) s
  ((((s1.renewPaths dies).freshen).calDmax).setRegF Reg.calStatus 31 1 1).recalDone

/-- CAL messages of a parent to one child on one port: the port delay, and the parent's own path delays (R43). -/
def State.sendCal (s : State) (p n child o d : Nat) : State :=
  let cal (l v : Nat) : TempoMsg := { s.tempoMsg p l 9 0 v false false 0 with port := o == 1, move := 0, op := 0 }
  let post (t : State) (m : TempoMsg) : State :=
    if 40000 ≤ child then (match t.pathPorts p child with
      | none => t
      | some (a, b) => t.onLane (if o = 0 then a else b) m)
    else t.modNode n (fun x => { x with out := x.out ++ [(child, m)] })
  ((List.range 7).filter (fun l => decide (nodeLevel n < l) && sget 0 (s.tnode n).path (2 * l + o) != 0)).foldl
    (fun t l => post t (cal l (sget 0 (s.tnode n).path (2 * l + o)))) (post s (cal 0 d))

/-- Children of a hub on this panel. -/
def kidsOf (n : Nat) : List Nat :=
  if n < 39168 then [] else if n < 39312 then coresOfDie (n - 39168) else if n < 39324 then (diesOfTile (n - 39312)).map keyDie
  else if n = keyPanel then (List.range 12).map keyTile else []

/-- Fresh CAL messages to every child of a hub whose own path delays have changed (R43). -/
def State.sendCals (s : State) (p n : Nat) : State :=
  let kids := kidsOf n ++ (if n = keyPanel then (s.part p).children.map (fun c => keyRemote c.1) else [])
  kids.foldl (fun t c => [0, 1].foldl (fun t o => t.sendCal p n c o (sget 0 (t.tnode n).ports (2 * c + o))) t) s

/-- Calibrate the edges to the child panels of a linked partition (R43). -/
def State.calibrateLinks (s : State) (p : Nat) : State :=
  let kids := (s.part p).children.map (fun c => keyRemote c.1)
  (kids.foldl (fun t c => [0, 1].foldl (fun t o =>
    let d := measured s.freeCtr keyPanel c o
    (t.modNode keyPanel (fun x => { x with ports := sput 0 x.ports (c * 2 + o) d, recal := x.recal.erase (c * 2 + o) })).sendCal p keyPanel c o d) t)
    s).freshen

/-- A launch that follows a change of links, promotion or path, or a RECAL that found its partition running, begins with a calibration
(R43, R65). -/
def State.calibrateLaunch (s : State) (p : Nat) : State :=
  if (s.part p).recal then ((s.modPart p (fun q => { q with recal := false })).calibrate (s.part p).dies).calibrateLinks p else s

/-- Before a release ports whose delay has drifted too far are recalibrated, and smaller changes replace the values in use, with the
path delays that contain them (R46). -/
def State.renewDelays (s : State) (p : Nat) : State :=
  let q := s.part p
  let s1 := if q.hubs.any (fun n => !(s.tnode n).recal.isEmpty) then (s.calibrate q.dies).calibrateLinks p else s
  if q.hubs.all (fun n => (s1.tnode n).fresh.isEmpty) then s1
  else (q.hubs.foldl (fun t n => t.modNode n (fun x =>
    { x with ports := x.fresh.foldl (fun m e => sput 0 m e.1 e.2) x.ports, fresh := [] })) s1).renewPaths q.dies

/-! ### What a release does (R31, R32, R71, R91, R95) -/

/-- The move before the first release of the launch under way, and its seed: the launch's at the root, at a member panel what the
first release told (R326). -/
def Part.opening (q : Part) : Option (MoveNo × W64) :=
  match q.launch with
  | some l => some (l.first, l.seed)
  | none => q.opened

/-- Is the release that ends a move the first of the partition's launch? -/
def Part.opens (q : Part) (m : MoveNo) : Bool := q.opening.map (·.1) == some m

/-- A core begins a launch (R71, R76, R96, R105, R110, R145, R182, R346). (DEDUCED, log entry 41.) -/
def State.launchCore (s : State) (p k : Nat) (seed : W64) (c : Core) : Core :=
  let q := (s.part p).member * 32768 + (s.logicalOf k).getD 0 - ((s.part p).first - 1) * 2048
  let entry := ((s.classOf k).map (·.entry)).getD 0
  { c with
    pc := entry, x := [], p := [], v := [], a := [], c := [], acc := [], cell := [], mode := false, w := 0, claim := 0
    active := Tile.empty, shadow := Tile.empty, cycle := 0, fflags := 0, rmode := 0, srctr := 0
    srseed := srBits seed 0xFFFFFFFFFFFFFFFF#64 q, bankcol := 0, hintshort := 0, loops := [], arrOut := 0, arrHeld := []
    ended := false, stopReq := false, hold := none, excPend := [], fault := Exc.none, fmove := 0, fmoveHi := 0, fflagsReg := 0
    mtxOps := 0, mtxBubbles := 0, mtxQmax := 0, copies := [], copyCause := 0, copyBytes := 0, spdColl := 0, spdRbwait := 0
    sw := { c.sw with sent := 0, rcvd := 0, pass := 0 }, level := 15, hints := [], queue := [], owed := 0, zeroing := false, setRun := none, gres := [], govf := 0 }

/-- A member core acts on a move release: it resumes, is idle after END, or halts where a stop halt has ended the move; at
the first release of a launch it begins anew. The cap and clock changes that wait for a release take effect. A core whose region is
not on executes nothing, and its switch runs the class's standing set (R20, R193). -/
def State.coreMoveRelease (s : State) (p k : Nat) (v : W64) (ovf : Bool) (m : MoveNo) : State :=
  let q := s.part p
  let opening := q.opens (m - 1)
  let standing := (s.classOf k).bind (fun r => r.exch.bind (fun e => e.standing.bind (fun n => e.sets[n]?)))
  let off := !s.clocked k && (s.core k).st != 0
  let s2 := State.clockCore ((s.drainRx k).modCore k (fun (c0 : Core) =>
    let c : Core := match opening, q.opening with
      | true, some l => s.launchCore p k l.2 c0
      | _, _ => c0
    let base : Core := { c with
      move := m, gres := sput 0 c.gres 0 v, govf := if ovf then c.govf ||| 1 else c.govf &&& ~~~1#64, c := []
      arrOut := c.arrOut &&& ~~~1#64, xplyDone := false, fresh := true
      sw := { c.sw with active := false, outSent := [], inTaken := [], unack := [], routes := [], dead := []
                        standing := off && standing.isSome
                        xc := match standing with | some x => x.xc | none => 0 } }
    if off then { base with st := 7 }
    else if c.st = 5 ∨ c.st = 0 ∨ c.st = 6 then { base with st := if opening && c.st != 0 then 3 else c.st }
    else if q.st = 3 then { base with st := 6, fflagsReg := c.flagsNow }
    else if c.ended then { base with st := 2 }
    else { base with st := 3 })) k
  if off && standing.isSome then s2.runSwitch k else s2

/-- A member core acts on a group release. -/
def State.coreGroupRelease (s : State) (k g : Nat) (v : W64) (ovf : Bool) : State :=
  let b : W64 := BitVec.ofNat 64 (2 ^ g)
  s.modCore k (fun c =>
    { c with gres := sput 0 c.gres g v, govf := if ovf then c.govf ||| b else c.govf &&& ~~~b, arrOut := c.arrOut &&& ~~~b })

/-- TPO_PSTATUS of a partition changes to a state. -/
def State.setPartState (s : State) (p : Nat) (st : BitVec 4) : State := s.modPart p (fun q => { q with st := st })

/-- Commands that wait for a move number have seen it (Table 12-8). -/
def State.noteWaits (s : State) (p : Nat) : State :=
  let m := (s.part p).move.toNat
  { s with rings := s.rings.map (fun e =>
      (e.1, { e.2 with cmds := e.2.cmds.map (fun c =>
        if c.started && leAt c.desc 0 1 == 5 && leAt c.desc 2 2 == p * 4096 + s.ownId && decide (leAt c.desc 8 6 ≤ m) then { c with hit := true }
        else c) })) }

/-- The CASTLE command of a castling that has taken place learns its release's move number. -/
def State.noteCastle (s : State) (c : CastleReq) (m : Nat) : State :=
  { s with rings := s.rings.map (fun e =>
      if e.1 = c.ring then (e.1, { e.2 with cmds := e.2.cmds.map (fun d => if d.seq = c.seq then { d with hit := true, aux := m } else d) }) else e) }

/-- Does a capture fall due at this release: POSITION asked for one, the launch opens or closes, or the interval
has passed, where captures follow it or the last one failed (R415, R417); the interval is time, so that it has passed is a free bit
(DESIGN CHOICE, log entry 22). -/
def State.captureDue (s : State) (p : Nat) (edge : Bool) : Bool :=
  let q := s.part p
  edge || q.captureAsk || (((s.reg (Reg.pcfg p)).getLsbD 31 || q.captureFailed) && (Config.freeByte s.freeCtr 1).getLsbD 0)

/-- The block of results that a launch names, read from its result core. -/
def State.resultBlock (s : State) (l : Launch) : List Byte :=
  match s.physOf l.resCore with
  | some k => s.spadRd k l.resOff l.resLen
  | none => List.replicate l.resLen 0

/-- System-link levels below the root of a partition (R42): none without child panels, else one to three. -/
def State.linkLevels (s : State) (p : Nat) : Nat :=
  if (s.part p).children.isEmpty then 0 else 1 + Config.treeLevels (s.part p).tree % 3

/-- The issue guard G in ps (Table 2-6 step 10). -/
def issueGuard (l : Nat) : Nat := if l = 0 then 20000 else if l ≤ 2 then 60000 else 70000

/-- The place of a releasing node's path delay at this panel's nodes: the root's panel hub stands at level 3 for them,
whatever system-link levels its LVL counts. -/
def State.ancestorLevel (s : State) (p lvl : Nat) : Nat := if (s.part p).parent = none then min 3 lvl else lvl

/-- Has an abort halt, or a stop halt, reached the releasing hub (R54)? -/
def State.haltIs (s : State) (p : Nat) (k : HaltKind) : Bool :=
  match (s.part p).haltPend with
  | some (x, _) => x == k
  | none => false

/-- A partition's record with the result of a group-0 release and the next move number. -/
def Part.released (q : Part) (m : MoveNo) (v : W64) (ovf : Bool) : Part :=
  { q with
    move := m + 1, result := v, ovf := ovf, results := sput 0 q.results 0 v
    ovfs := if ovf then q.ovfs ||| 1 else q.ovfs &&& ~~~1#64 }

/-- Is the release that ends a move the launch's final one (R91): every member of this panel has executed END, and the other panels of a
linked partition have reported for the same move? -/
def State.finalMove (s : State) (p : Nat) (m : MoveNo) : Bool :=
  let q := s.part p
  let all := q.dies.flatMap (s.arrivers p 0)
  !q.opens m && !all.isEmpty && all.all (fun k => (s.core k).ended) &&
    (q.children.map (·.1) ++ q.parent.toList).all (fun c => Config.panelEnded q.tree c m.toNat)

/-- Does the recovery under way end with the release that ends a move (R422)? -/
def Part.recovered (q : Part) (m : MoveNo) (edge : Bool) : Bool :=
  match q.recov with
  | some rc => decide (rc.untilMove < m + 1) || edge
  | none => false

/-- While a move release is held at this panel a capture that is due begins: it records the partition as the release will leave it
(Table 16-6 steps 2 and 3). -/
def State.heldCapture (s : State) (p : Nat) (m : MoveNo) (v : W64) (ovf edge : Bool) : State :=
  let q := s.part p
  if s.captureDue p (edge || q.opens m) && (q.recov.isNone || q.recovered m edge) then s.beginCaptureAs p (q.released m v ovf) else s

/-- The castling that a held release performs (Table 14-4). -/
def State.heldCastle (s : State) (p : Nat) : State :=
  let q := s.part p
  match q.castling with
  | some cr =>
    if s.castleOk p cr.kind cr.a cr.b then
      ((((s.performCastling p cr).restAfterCastle p).noteCastle cr (q.move + 1).toNat).raise 0x003B p
        (leBytes 2 cr.a ++ leBytes 2 cr.b ++ [BitVec.ofNat 8 cr.kind, if cr.ring = 1024 then 2 else 1])).modPart p (fun q => { q with castling := none })
    else if cr.ring = 1024 ∧ (s.castleEntry p cr.kind cr.a cr.b).isSome then s
    else s.modPart p (fun q => { q with castling := none })
  | none => s

/-- A release of a partition that this panel's hub has issued or received and that has not reached its instant. -/
def State.releasePending (s : State) (p : Nat) : Option Sched :=
  ((s.tnode keyPanel).sched.find? (fun e => e.1 == pgKey p 0)).map (·.2)

/-- The root issues a move release (R31, R32, R44, R45, R54, R326; Table 16-6 and Table 14-4 while it is held): the hold-back reference is
the largest delay below plus the issue guard, the message goes to every child, and the root acts on it at its own instant. An
abort halt that has reached the root stops it; at the last move number the partition halts instead; one release is under way at a
time. -/
def State.moveRelease (s : State) (p : Nat) : State :=
  let q := s.part p
  if s.haltIs p .abort = true ∨ (s.releasePending p).isSome = true then s
  else if q.move = 0xFFFFFFFFFFFF then (s.raise 0x0003 p []).raiseHalt p .abort .exhausted
  else
    let c := s.combOf p 0 keyPanel
    let r := finalResult (s.redOp p 0) c
    let stop := s.haltIs p .stop
    let final := s.finalMove p q.move
    let lv := s.linkLevels p
    let h := s.hubDelay p 0 keyPanel + issueGuard lv
    let s1 := ((s.renewDelays p).heldCastle p).heldCapture p q.move r.1 r.2 (stop || final)
    let m := s1.tempoMsg p 0 2 r.1 h false r.2 (3 + lv)
    (((s1.setReg (Reg.phold p) (BitVec.ofNat 32 (h % 2 ^ 24))).modNode keyPanel (fun t =>
      { t with comb := sput Comb.empty t.comb (pgKey p 0) Comb.empty
               sched := (pgKey p 0, ⟨r.1, r.2, false, h, q.move, stop, final⟩) :: t.sched })).forwardRelease p 0 keyPanel m).freshen

/-- A hub issues the release of groups 1 to 63 (R34, R44, R45, R54). -/
def State.groupRelease (s : State) (p g n : Nat) : State :=
  if s.haltIs p .abort = true then s
  else
    let r := finalResult (s.redOp p g) (s.combOf p g n)
    let lv := if n = keyPanel ∧ s.groupSpans p g = true then s.linkLevels p else 0
    let h := s.hubDelay p g n + issueGuard lv
    (s.modNode n (fun t =>
      { t with comb := sput Comb.empty t.comb (pgKey p g) Comb.empty
               sched := (pgKey p g, ⟨r.1, r.2, false, h, (s.part p).move, false, false⟩) :: t.sched.filter (fun e => e.1 != pgKey p g) })).forwardRelease p g n
      (s.tempoMsg p g 2 r.1 h false r.2 (nodeLevel n + lv))

/-- A hub whose arrivals are complete releases, or sends its own arrival to its parent: the exact partial, the largest delay below,
and PROXY where every arrival was a proxy (R34, R36, R38, R44). (DESIGN CHOICE, log entry 97.) -/
def State.hubReady (s : State) (p g n : Nat) : State :=
  if s.combFull p g n = false then s
  else if n = s.releaser p g then (if g = 0 then s.moveRelease p else s.groupRelease p g n)
  else match s.parentOf p n with
    | some up =>
      let c := s.combOf p g n
      let v : BitVec 128 := if c.any then c.value else (redIdentity (s.redOp p g)).signExtend 128
      s.tempoSend p n up { s.tempoMsg p g 1 (v.setWidth 64) (s.hubDelay p g n) false false 0 with
        proxy := !c.any, hi := v.extractLsb' 64 64 }
    | none => s

/-! ### ARRIVE (R30, R35 to R38, R44) -/

/-- May a core's tempo unit send an arrival it holds (R30, R35)? -/
def State.canSend (s : State) (k : Nat) (a : Arrival) : Bool :=
  let c := s.core k
  c.copies.all (fun q => decide (a.seq ≤ q.id)) && s.exchangeDone k &&
    (a.group != 0 || (c.queue.isEmpty && !c.zeroing && c.setRun.isNone && c.arrOut == 1))

/-- A core's operand in 128 bits: sign-extended, for the unsigned and bitwise codes zero-extended. -/
def widen (op : Nat) (v : W64) : BitVec 128 := if 4 ≤ op ∧ op ≤ 7 then v.setWidth 128 else v.signExtend 128

/-- A core's tempo unit sends an arrival that it may send to its die hub; a core under a stop request halts after its arrival at
group 0 (R95). -/
def State.coreSends (s : State) (p k g : Nat) : State :=
  match (s.core k).arrHeld.find? (fun a => a.group == g) with
  | none => s
  | some a =>
    if s.canSend k a = false then s
    else
      let v := widen (s.redOp p g) a.value
      (s.modCore k (fun c =>
        let d : Core := { c with arrHeld := c.arrHeld.erase a }
        if g = 0 ∧ c.stopReq = true then { d with st := 6, stopReq := false, fflagsReg := d.flagsNow } else d)).tempoSend p k (keyDie (dieOf k))
        { s.tempoMsg p g 1 a.value 0 false false 0 with hi := v.extractLsb' 64 64, move := (s.core k).move }

/-- ARRIVE (R36, R38, R39, R44, R50): an arrival reaches a hub, which acknowledges it and acts on its first copy. From a node of this
panel it is one that the child has sent, from a child panel the message itself. A die that is dark or has no clock is silent. -/
def execArrive (hub : TNode) (child : TNode) (m : TempoMsg) (s : State) : Host.Outcome State Fault Refusal :=
  let n := hub.key
  let c := child.key
  let g := m.group.toNat
  .next (if m.ok = false ∨ m.ty ≠ 1 ∨ s.nodeDown n = true ∨ s.nodeDown c = true then s
    else match s.partOfMsg m with
      | none => s
      | some p =>
        if (s.part p).st ≠ 1 ∧ (s.part p).st ≠ 5 then s
        else
          let s0 := match child with
            | .core k => if n = keyDie (dieOf k.val) ∧ s.partOfCore k.val = some p then s.coreSends p k.val g else s
            | _ => s
          let sent : Option TempoMsg := match child with
            | .remote q => if n = keyPanel ∧ (s.part p).children.any (fun e => e.1 == q.val) then some m else none
            | _ => if s.parentOf p c = some n then (s0.sentMsg c n m).map (·.msg) else none
          match sent with
          | none => s0
          | some r =>
            let s1 := s0.sendAck p n c r
            if s0.hasActed n c r then s1
            else ((s1.noteActed n c r).addArrival p g n c (!r.proxy) (r.hi ++ r.value) r.delay.toNat).hubReady p g n)

/-! ### RELEASE (R45, R50, R51) -/

/-- What a panel does at the instant of a move release (Table 2-1; R31, R32, R91, R95, R326): the move number advances, the result is
delivered, a stop halt or the final release ends the move, waiting commands see the move, the managers' caps take effect, a
recovery that has reached its move ends, and gambits fire. (DEDUCED, log entry 99.) -/
def State.partRelease (s : State) (p : Nat) (r : Sched) : State :=
  let q := s.part p
  let opening := q.opens r.move
  let edge := r.stop || r.final
  let block := (q.launch.map s.resultBlock).getD []
  let s0 := if opening then q.dies.foldl (fun t d => t.setReg (Reg.parerr d) 0) s else s
  let s1 := s0.modPart p (fun q => { q.released r.move r.value r.ovf with
    late := q.late || r.late
    st := if r.stop then 3 else if r.final then 0 else if opening && q.st != 5 then 1 else q.st
    haltPend := if r.stop && s.haltIs p .stop then none else q.haltPend
    haltRoot := if r.stop && s.haltIs p .stop then false else q.haltRoot
    haltSrc := if r.stop then 1 else q.haltSrc
    opened := if edge then none else q.opened
    launch := q.launch.map (fun l =>
      if edge then
        { l with begun := true, closing := true, status := if r.stop then 7 else 0, block := block, value := r.value
                 endMove := r.move + 1, endOvf := r.ovf }
      else { l with begun := true }) })
  let s2 := (s1.noteWaits p).railsAtRelease p opening
  let s3 := if q.recovered r.move edge then (s2.modPart p (fun q => { q with recov := none, st := if q.st = 5 then 1 else q.st })).recoveryOver p else s2
  (s3.fireGambits p).freshen

/-- Results of a group release at the hub that issued it. -/
def State.groupResult (s : State) (p g : Nat) (r : Sched) : State :=
  let b : W64 := BitVec.ofNat 64 (2 ^ g)
  s.modPart p (fun q => { q with results := sput 0 q.results g r.value, ovfs := if r.ovf then q.ovfs ||| b else q.ovfs &&& ~~~b })

/-- A hub acts on a release: its own copy of the move number advances, and the panel hub takes the actions of Table 2-1; arrivals of
the next move that are complete go on. -/
def State.hubRelease (s : State) (p g n : Nat) (r : Sched) : State :=
  let s1 := s.modNode n (fun t =>
    { t with moves := if g = 0 then sput 0 t.moves p (r.move + 1) else t.moves
             sched := t.sched.filter (fun e => e.1 != pgKey p g) })
  if g = 0 then (if n = keyPanel then (s1.partRelease p r).hubReady p 0 keyPanel else s1)
  else if n = s.releaser p g ∨ n = keyPanel then s1.groupResult p g r else s1

/-- A node acts on a release. Every node's instant is the same but for the spread of R47, so the panel hub's comes first where a
command order leaves it open. (DEDUCED, log entry 99.) -/
def State.actRelease (s : State) (p g n : Nat) (r : Sched) : State :=
  let s0 := match s.releasePending p with
    | some x => if g = 0 ∧ n ≠ keyPanel ∧ x.move = r.move then s.hubRelease p 0 keyPanel x else s
    | none => s
  if n < 39168 then
    let s1 := s0.modNode n (fun t => { t with sched := t.sched.filter (fun e => e.1 != pgKey p g) })
    if g = 0 then s1.coreMoveRelease p n r.value r.ovf (r.move + 1) else s1.coreGroupRelease n g r.value r.ovf
  else s0.hubRelease p g n r

/-- What a member panel's hub does when the root's move release reaches it: H is shown, a launch that begins is noted, delays are
renewed, and a capture that is due begins. (DEDUCED, log entry 45.) -/
def State.memberRelease (s : State) (p : Nat) (r : Sched) (h : Nat) : State :=
  let s0 := s.modPart p (fun q =>
    { q with opened := if q.st = 1 ∨ q.st = 5 then q.opened else some (r.move, Config.memberSeed q.tree r.move.toNat) })
  ((((s0.setReg (Reg.phold p) (BitVec.ofNat 32 (h % 2 ^ 24))).renewDelays p).heldCastle p).heldCapture p r.move r.value r.ovf (r.stop || r.final)).freshen

/-- RELEASE (R45, R50, R51): a node acknowledges a release of its parent and acts on its first copy. It is scheduled by the hold-back on
the port of origin, or acted on at once if it is late, and forwarded to the children. A release that was resent to the node, or that
came late to the panel, is counted and reported with its subtree (R51). A release that no parent has issued changes nothing.
(DEDUCED, log entry 84.) -/
def execRelease (node : TNode) (m : TempoMsg) (s : State) : Host.Outcome State Fault Refusal :=
  let n := node.key
  let g := m.group.toNat
  .next (if m.ok = false ∨ m.ty ≠ 2 ∨ s.nodeDown n = true then s
    else match s.partOfMsg m with
      | none => s
      | some p =>
        match s.parentOf p n with
        | none => s
        | some up =>
          let sentBy : Option (TempoMsg × Bool) := if 40000 ≤ up then some (m, m.late)
            else if s.nodeDown up then none
            else (s.sentMsg up n m).map
              (fun u => ({ u.msg with late := u.msg.late || decide (0 < u.resends), port := m.port }, decide (0 < u.resends)))
          match sentBy with
          | none => s
          | some (r, resent) =>
            let s0 := s.sendAck p n up r
            if s.hasActed n up r then s0
            else
              let d := sget 0 (s.tnode n).path (2 * s.ancestorLevel p r.lvl.toNat + bitN r.port)
              let sc : Sched := ⟨r.value, r.ovf, r.late, r.delay.toNat - d, r.move, s.haltIs p .stop && (s.part p).haltRoot, s.finalMove p r.move⟩
              let s1 := (s0.noteActed n up r).modNode n (fun t => { t with comb := sput Comb.empty t.comb (pgKey p g) Comb.empty })
              let s2 := (if n = keyPanel ∧ g = 0 then s1.memberRelease p sc r.delay.toNat else s1).forwardRelease p g n r
              if r.late then
                let s3 := (s2.modPart p (fun q => { q with late := true })).actRelease p g n sc
                if resent then (s3.countReg Reg.alignLost 1).raise 0x0001 p (leBytes 2 n) else s3
              else s2.modNode n (fun t => { t with sched := (pgKey p g, sc) :: t.sched.filter (fun e => e.1 != pgKey p g) }))

/-- RELEASE_INSTANT (R45): the hold-back of a scheduled release has passed and the node acts. -/
def execReleaseInstant (node : TNode) (part : Fin 16) (group : BitVec 6) (s : State) : Host.Outcome State Fault Refusal :=
  let n := node.key
  .next (if s.nodeDown n then s
    else match (s.tnode n).sched.find? (fun e => e.1 == pgKey part.val group.toNat) with
      | none => s
      | some e => s.actRelease part.val group.toNat n e.2)

/-- TEMPO_ACK (R50): an acknowledgement that the peer has sent reaches the sender, which forgets the message. -/
def execTempoAck (node : TNode) (peer : TNode) (m : TempoMsg) (s : State) : Host.Outcome State Fault Refusal :=
  let mine (e : Nat × TempoMsg) : Bool := e.1 == node.key && e.2.ty == 4 && e.2.group == m.group && e.2.seq == m.seq
  let came := decide (40000 ≤ peer.key) || (s.tnode peer.key).out.any mine
  .next (if m.ok = false ∨ m.ty ≠ 4 ∨ came = false ∨ s.nodeDown node.key = true then s
    else (s.modNode peer.key (fun t => { t with out := t.out.filter (fun e => !mine e) })).modNode node.key (fun t =>
      { t with unacked := t.unacked.filter (fun u => !(u.peer == peer.key && u.msg.group == m.group && u.msg.seq == m.seq)) }))

/-- TEMPO_RESEND (R50, R51): a message without an acknowledgement is sent again on both ports, a RELEASE with LATE, of which the sender
records the move and the child; after the eighth the link is failed and the partition halts. -/
def execTempoResend (node : TNode) (peer : TNode) (seq : BitVec 16) (group : BitVec 6) (s : State) : Host.Outcome State Fault Refusal :=
  let n := node.key
  let mine (u : Unacked) : Bool := u.peer == peer.key && u.msg.group == group && u.msg.seq == seq
  .next (if s.nodeDown n then s
    else match (s.tnode n).unacked.find? mine with
    | none => s
    | some u =>
      if 8 ≤ u.resends then
        let s1 := s.modNode n (fun t => { t with unacked := t.unacked.filter (fun v => !mine v) })
        match s.partOfMsg u.msg with
        | none => s1
        | some p => s1.raiseHalt p .abort (.tempoLink (Fin.ofNat _ ((diesBelow (min n peer.key)).headD 0)))
      else
        let again : TempoMsg := { u.msg with late := u.msg.late || u.msg.ty == 2 }
        let s1 := s.modNode n (fun t => { t with
          late := if u.msg.ty = 2 then some (u.msg.move, peer.key) else t.late
          unacked := t.unacked.map (fun v => if mine v then { v with resends := v.resends + 1, msg := again } else v) })
        match s.partOfMsg u.msg with
        | none => s1
        | some p => s1.onPath p peer.key again)

/-! ### Echoes (R43, R46, R65) -/

/-- ECHO_REQ (R43): the child answers after its fixed turnaround with the parent's time count unchanged; `answer` holds
it, and to a parent panel the answer leaves on the path. -/
def execEchoReq (node : TNode) (parent : TNode) (m : TempoMsg) (s : State) : Host.Outcome State Fault Refusal :=
  .next (if m.ok = false ∨ m.ty ≠ 5 ∨ node = parent ∨ s.nodeDown node.key = true then s
    else
      let s1 : State := { s with answer := leBytes 8 m.value.toNat }
      match s.partOfMsg m with
      | none => s1
      | some p => match s.pathPorts p parent.key with
        | none => s1
        | some (a, b) => s1.onLane (if m.port then b else a) { m with ty := 6, move := (s.part p).move })

/-- ECHO_RSP (R43, R46): the parent computes the one-way port delay from the round trip, in steps of 1/64 of a period of
625 ps. A first or recalibrated delay is taken at once and the child is told by CAL; a small difference is taken at the next release;
one beyond the drift limit marks the port for recalibration before it and is reported with the port and the difference. -/
def execEchoRsp (node : TNode) (child : TNode) (m : TempoMsg) (now : W64) (s : State) : Host.Outcome State Fault Refusal :=
  let n := node.key
  let key := child.key * 2 + bitN m.port
  let rt := (now - m.value).toNat * 625 / 64
  let d := (rt - 20000) / 2
  .next (if m.ok = false ∨ m.ty ≠ 6 ∨ s.nodeDown n = true then s
    else
      let t := s.tnode n
      let old := sget 0 t.ports key
      let diff := if old ≤ d then d - old else old - d
      if old = 0 ∨ t.recal.contains key = true then
        let s1 := s.modNode n (fun t => { t with ports := sput 0 t.ports key d, recal := t.recal.erase key })
        (s1.sendCal ((s.partOfMsg m).getD 0) n child.key (bitN m.port) d).calDmax.recalDone
      else if s.regF Reg.calCtl 0 16 < diff then
        (s.modNode n (fun t => { t with recal := addNew key t.recal })).raise 0x0004 ((s.partOfMsg m).getD 0) (leBytes 4 key ++ leBytes 4 diff)
      else s.modNode n (fun t => { t with fresh := sput 0 t.fresh key d }))

/-- CAL (R43): the child takes the port delay from its parent, then its path delay from each ancestor; its own children are told what
has changed. -/
def execCal (node : TNode) (m : TempoMsg) (s : State) : Host.Outcome State Fault Refusal :=
  let n := node.key
  let port := bitN m.port
  .next (if m.ok = false ∨ m.ty ≠ 9 ∨ s.nodeDown n = true then s
    else
      let lvl := m.group.toNat
      let up := sget 0 (s.tnode n).ports (2 * 65536 + port)
      let s0 := match upNode n with
        | some u => s.modNode u (fun t => { t with out := t.out.erase (n, m) })
        | none => s
      let s1 := if lvl = 0 then
          s0.modNode n (fun t =>
            { t with ports := sput 0 t.ports (2 * 65536 + port) m.delay.toNat
                     path := sput 0 t.path (2 * (nodeLevel n + 1) + port) m.delay.toNat })
        else if lvl ≤ 6 then s0.modNode n (fun t => { t with path := sput 0 t.path (2 * lvl + port) (m.delay.toNat + up) })
        else s0
      (if (s1.tnode n).path = (s.tnode n).path then s1 else s1.sendCals ((s.partOfMsg m).getD 0) n).calDmax)

/-- RE_MEASUREMENT (R46): the interval has passed and the parent sends an ECHO_REQ with its time count; `answer` holds
it, and to a child panel the request leaves on the path. -/
def execReMeasurement (node : TNode) (child : TNode) (port : Bool) (now : W64) (s : State) : Host.Outcome State Fault Refusal :=
  .next (if node = child ∨ s.nodeDown node.key = true then s
    else
      let s1 : State := { s with answer := leBytes 8 now.toNat ++ [BitVec.ofNat 8 (bitN port)] }
      match s.parts.find? (fun e => decide (0 < e.2.height) && e.2.children.any (fun c => keyRemote c.1 == child.key)) with
      | none => s1
      | some e => match s.pathPorts e.1 child.key with
        | none => s1
        | some (a, b) => s1.onLane (if port then b else a) { s.tempoMsg e.1 0 5 now 0 false false 0 with port := port, op := 0 })

/-- RECAL (R65): the trees of quiesced partitions are calibrated now, and those of the others are due at their next launch; the
bit reads 1 until all of it is done. -/
def execRecal (s : State) : Host.Outcome State Fault Refusal :=
  let runs (q : Part) : Bool := q.st == 1 || q.st == 5
  let s1 : State := { s with parts := s.parts.map (fun e => (e.1, { e.2 with recal := decide (0 < e.2.height) && runs e.2 })) }
  let s2 := (s.parts.filter (fun e => decide (0 < e.2.height) && !runs e.2)).foldl (fun t e => (t.calibrate e.2.dies).calibrateLinks e.1) s1
  .next ((s2.setRegF Reg.calCtl 31 1 1).recalDone)

/-! ### Races of halts and launches with releases (R32, R54) -/

/-- A move release that has been issued completes at every node of this panel before an abort halt acts (R54). -/
def State.completeRelease (s : State) (p : Nat) : State :=
  match s.releasePending p with
  | none => s
  | some r =>
    let s1 := s.hubRelease p 0 keyPanel r
    ((s1.part p).dies.flatMap (s1.groupCores p 0)).foldl (fun t k =>
      if (t.core k).move = r.move + 1 then t else t.coreMoveRelease p k r.value r.ovf (r.move + 1)) s1

/-- Has every member core loaded its program and signalled ready (R32), those of another panel as far as a free bit tells? -/
def State.launchReady (s : State) (p : Nat) : Bool :=
  (s.membersOf p).all (fun k => (s.core k).st != 0 && (s.core k).st != 1) &&
    (s.part p).children.all (fun c => Config.panelReady (s.part p).tree c.1 s.freeCtr)

/-- The first release of a launch, once its partition is ready (R32, R43). -/
def State.openLaunch (s : State) (p : Nat) : State :=
  match (s.part p).launch with
  | some l =>
    if l.begun = false ∧ l.closing = false ∧ s.launchReady p = true ∧ (s.releasePending p).isNone = true ∧ s.haltIs p .abort = false then
      (s.calibrateLaunch p).moveRelease p
    else s.freshen
  | none => s

/-! ### Stalemate and census (R55, R56) -/

/-- In-die mask of the member cores of a group that have not arrived (Table 2-5). -/
def State.missing (s : State) (p g d : Nat) : BitVec 256 :=
  (s.groupCores p g d).foldl (fun m k =>
    if s.hasArrival p g (keyDie d) k then m
    else match s.logicalOf k with
      | some l => m ||| BitVec.ofNat 256 (2 ^ (l % 256))
      | none => m) 0

/-- The effective timeout of the stalemate detector in ms: the larger of the register's and the program's (R55, Table 3-20). -/
def State.staleTimeout (s : State) (p : Nat) : Nat :=
  max (s.regF (Reg.pstale p) 0 24) ((((s.part p).prog).map (·.stale)).getD 0)

/-- The census of a partition begins at this panel: its dies with members, and its child panels, are asked (R56). -/
def State.askCensus (s : State) (p : Nat) : State :=
  let q := s.part p
  let dies := q.dies.filter (fun d => !(s.groupCores p 0 d).isEmpty)
  let s1 := s.modPart p (fun q => { q with census := some ⟨censusBase p, dies, q.children.map (·.1), 0, [], q.move⟩ })
  q.children.foldl (fun t c => t.tempoPost p keyPanel (keyRemote c.1) (s.tempoMsg p 0 7 0 0 false false 0)) s1

/-- STALEMATE_DETECTOR (R55): the root's timer stands at so many milliseconds since the last release. At its timeout, while no halt is
pending, the partition halts and its census begins. -/
def execStalemateDetector (wait : Waited) (s : State) : Host.Outcome State Fault Refusal :=
  let p := wait.part.val
  let q := s.part p
  .next (if (q.st ≠ 1 ∧ q.st ≠ 5) ∨ q.haltPend ≠ none ∨ q.parent ≠ none ∨ wait.ms < s.staleTimeout p then s
    else ((s.raiseHalt p .abort .stalemate).setPartState p 4).askCensus p)

/-- CENSUS_REQ (R56): a die hub answers with its outstanding arrivals; `answer` holds the groups and the cores missing from
group 0. A die that is dark or has lost its clock is silent. -/
def execCensusReq (d : Fin 144) (part : Fin 16) (s : State) : Host.Outcome State Fault Refusal :=
  let p := part.val
  let gs := (List.range 64).foldl (fun m g => if (s.missing p g d.val) ≠ 0 then m + 2 ^ g else m) 0
  .next (if s.nodeDown (keyDie d.val) then s
    else { s with answer := leBytes 8 gs ++ leBytes 32 (s.missing p 0 d.val).toNat })

/-- The census block (Table 2-5). -/
def State.censusBytes (s : State) (p : Nat) (c : Census) : List Byte :=
  let es := c.entries.take 4096
  let gs := c.entries.foldl (fun m e => m ||| 2 ^ e.group) 0
  leBytes 8 (c.move.toNat + p * 2 ^ 48 + (s.part p).tree * 2 ^ 52) ++ leBytes 8 gs ++
  leBytes 4 (es.length + (if 4096 < c.entries.length then 2 ^ 31 else 0)) ++ leBytes 4 c.silent ++ leBytes 8 0 ++
  es.flatMap (fun e => leBytes 2 e.panel ++ [BitVec.ofNat 8 e.die, BitVec.ofNat 8 e.group, e.code] ++ [0, 0, 0] ++ leBytes 32 e.cores.toNat)

/-- A census goes on: at the root the block is written, and once every die and child panel has answered or is given up STALEMATE is posted; a
member panel passes the answer up (R56). -/
def State.censusStep (s : State) (p : Nat) (c c1 : Census) : State :=
  let s1 := s.modPart p (fun q => { q with census := some c1 })
  match (s.part p).parent with
  | some up => s1.tempoPost p keyPanel (keyRemote up) (s.tempoMsg p 0 8 0 0 false false 0)
  | none =>
    let s2 : State := { s1 with mem := wrN s1.mem c.addr (s1.censusBytes p c1) }
    if c1.waiting.isEmpty && c1.panels.isEmpty && !(c.waiting.isEmpty && c.panels.isEmpty) then s2.raise 0x0002 p (leBytes 8 c.addr) else s2

/-- CENSUS_RSP (R56): an answer of a die of this panel, or of a child panel's subtree, is recorded. -/
def execCensusRsp (part : Fin 16) (d : DieRef) (group : BitVec 6) (heat : Bool) (bits : BitVec 256) (s : State) :
    Host.Outcome State Fault Refusal :=
  .next (match (s.part part.val).census with
    | none => s
    | some c =>
      let own := d.panel.val == s.ownId
      s.censusStep part.val c { c with
        waiting := if own then c.waiting.erase d.die.val else c.waiting
        panels := if own then c.panels else c.panels.erase d.panel.val
        entries := c.entries ++ [⟨d.panel.val, d.die.val, group.toNat, if heat then 2 else 0, bits⟩] })

/-- CENSUS_ABSENT (R56): a die has not answered within 10 µs and is listed as absent with its members of group 0; a child panel that
has not answered is counted. -/
def execCensusAbsent (part : Fin 16) (d : DieRef) (s : State) : Host.Outcome State Fault Refusal :=
  .next (match (s.part part.val).census with
    | none => s
    | some c =>
      if d.panel.val = s.ownId then
        if c.waiting.contains d.die.val then
          s.censusStep part.val c { c with
            waiting := c.waiting.erase d.die.val, entries := c.entries ++ [⟨s.ownId, d.die.val, 0, 1, s.missing part.val 0 d.die.val⟩] }
        else s
      else if c.panels.contains d.panel.val then s.censusStep part.val c { c with panels := c.panels.erase d.panel.val, silent := c.silent + 1 }
      else s)

/-! ### Halts between panels (R39, R53) -/

/-- A HALT message to a parent or child panel; it takes a sequence number of group 0. -/
def State.sendHalt (s : State) (p peer : Nat) (kind : HaltKind) : State :=
  let q := s.nextSeq keyPanel peer 0
  (s.modNode keyPanel (fun t => { t with sent := sput 0 t.sent (peer * 64) ((q + 1) % 2 ^ 16) })).onPath p peer
    { s.tempoMsg p 0 3 (if kind = .abort then 1 else 2) 0 false false 0 with seq := BitVec.ofNat 16 q, op := 0 }

/-- A HALT message arrives from another panel (R39, R40, R53): from a child it goes on towards the root, from the parent it is the root's
order; a copy acted on before, or one with a reserved kind, is dropped. -/
def State.haltArrives (s : State) (p peer : Nat) (m : TempoMsg) : State :=
  let v := m.value.toNat
  if s.hasActed keyPanel peer m = true ∨ (v ≠ 1 ∧ v ≠ 2) then s
  else
    let kind : HaltKind := if v = 1 then .abort else .stop
    let s1 := (s.noteActed keyPanel peer m).raiseHalt p kind .member
    if (s.part p).parent.map keyRemote = some peer then s1.modPart p (fun q => { q with haltRoot := s1.haltIs p kind }) else s1

/-! ### Tempo registers (R65) -/

/-- TPO_PHALT with the key and the abort kind: the host raises an abort halt. (DEDUCED, log entry 48.) -/
def execTpoPhaltAbort (part : Fin 16) (s : State) : Host.Outcome State Fault Refusal :=
  .next (if (s.part part.val).height = 0 then s else s.raiseHalt part.val .abort .host)

/-- TPO_PHALT with the key and the stop kind: the host raises a stop halt; every node is told (R53, R95).
(DEDUCED, log entry 40.) -/
def execTpoPhaltStop (part : Fin 16) (s : State) : Host.Outcome State Fault Refusal :=
  .next (if (s.part part.val).height = 0 then s else s.raiseHalt part.val .stop .host)

/-- A read of TPO_PMOVE_LO latches the high word. -/
def execTpoPmoveLo (part : Fin 16) (s : State) : Host.Outcome State Fault Refusal :=
  let m := (s.part part.val).move.toNat
  .next { s.setReg (Reg.pmoveHi part.val) (BitVec.ofNat 32 (m / 2 ^ 32)) with rdata := BitVec.ofNat 32 m }

/-- A read of TPO_PRESULT_LO latches the high word. -/
def execTpoPresultLo (part : Fin 16) (s : State) : Host.Outcome State Fault Refusal :=
  let v := (s.part part.val).result.toNat
  .next { s.setReg (Reg.presultHi part.val) (BitVec.ofNat 32 (v / 2 ^ 32)) with rdata := BitVec.ofNat 32 v }

/-- A read of CORE_FMOVE_LO latches the high half (R96); a dark die answers all ones (R26). -/
def execCoreFmoveLo (core : Fin 39168) (s : State) : Host.Outcome State Fault Refusal :=
  let m := (s.core core.val).fmove.toNat
  .next (if (s.die (dieOf core.val)).dark then { s with rdata := 0xFFFFFFFF } else { s.modCore core.val (fun c => { c with fmoveHi := BitVec.ofNat 16 (m / 2 ^ 32) }) with rdata := BitVec.ofNat 32 m })

/-- A read of MEM_SERR_LO latches MEM_SERR_HI (Table 10-9). -/
def execMemSerrLo (t : Fin 48) (s : State) : Host.Outcome State Fault Refusal :=
  .next { s.setReg (Reg.serrHi t.val) (BitVec.ofNat 32 (s.stack t.val).errHi) with rdata := s.reg (Reg.serrLo t.val) }

/-- A read of MGT_PMOVE_LO latches MGT_PMOVE_HI (Table 16-11). -/
def execMgtPmoveLo (part : Fin 16) (s : State) : Host.Outcome State Fault Refusal :=
  let m := match (s.part part.val).positions with
    | c :: _ => c.move.toNat
    | [] => 0
  .next { s.setReg (Reg.mgtPmoveHi part.val) (BitVec.ofNat 32 (m / 2 ^ 32)) with rdata := BitVec.ofNat 32 m }

/-! ### Tempo slots (R287) -/

/-- The tempo message of a slot (Table 2-3). The upper half of a partial is free. (DESIGN CHOICE, log entry 97.) -/
def slotMsg (f : BitVec 288) (ok : Bool) : TempoMsg :=
  let b := flitByte f
  { ty := BitVec.ofNat 4 (b 0 / 16), late := bit (b 0) 3, ovf := bit (b 0) 2, proxy := bit (b 0) 1, port := bit (b 0) 0
    group := BitVec.ofNat 6 (b 1), op := BitVec.ofNat 4 (b 3 / 16)
    tree := BitVec.ofNat 12 (b 2 + 256 * b 3)
    move := f.extractLsb' 32 48
    seq := f.extractLsb' 80 16
    value := f.extractLsb' 96 64
    hi := Config.partialHigh f
    delay := f.extractLsb' 160 24
    lvl := BitVec.ofNat 3 (b 23), ok := ok }

/-- Is a message one that the root side, or the leaf side, of an edge sends: RELEASE, ECHO_REQ, CENSUS_REQ and CAL come from a parent, ARRIVE,
ECHO_RSP and CENSUS_RSP from a child, HALT and ACK from either? -/
def fromParent (ty : Nat) : Bool := ty == 2 || ty == 5 || ty == 7 || ty == 9
def fromChild (ty : Nat) : Bool := ty == 1 || ty == 6 || ty == 8

/-- The ports on which a message that came in on a port is repeated (R42, Table 12-11). -/
def State.repeatPorts (s : State) (m : TempoMsg) (port : Nat) : List Nat :=
  s.parts.flatMap (fun e => e.2.repeats.filterMap (fun w =>
    let w := w.toNat
    if field w 16 12 ≠ m.tree.toNat then none
    else if field w 5 5 = port then some (field w 0 5)
    else if field w 0 5 = port then some (field w 5 5) else none))

/-- A tempo message has come in on a system-link port (R40, R42): it is repeated where a record says so, and acted on by the panel hub where
the port belongs to the path of its tree to a parent or child panel. -/
def State.laneMessage (s : State) (port : Nat) (m : TempoMsg) (now : W64) : Host.Outcome State Fault Refusal :=
  let s1 := (s.repeatPorts m port).foldl (fun t o => t.onLane o m) s
  match s1.partOfMsg m with
  | none => .next s1
  | some p => match s1.pathPeer p port with
    | none => .next s1
    | some q =>
      let peer : TNode := .remote (Fin.ofNat _ q)
      let up := (s1.part p).parent = some q
      if (fromParent m.ty.toNat = true ∧ ¬ up) ∨ (fromChild m.ty.toNat = true ∧ up) then .next s1
      else match m.ty.toNat with
        | 1 => execArrive .panel peer m s1
        | 2 => execRelease .panel m s1
        | 3 => .next (s1.haltArrives p (keyRemote q) m)
        | 4 => execTempoAck .panel peer m s1
        | 5 => execEchoReq .panel peer m s1
        | 6 => execEchoRsp .panel peer m now s1
        | 7 => .next (if (s1.part p).census.isNone then s1.askCensus p else s1)
        | 8 => .next (match (s1.part p).census with
          | some c => if c.panels.contains q then s1.censusStep p c { c with panels := c.panels.erase q } else s1
          | none => s1)
        | 9 => execCal .panel m s1
        | _ => .next s1

/-- TEMPO_SLOT (R40, R41, R287): a slot arrives at a port. A tempo slot's message is acted on or repeated; two slots in a row whose type
disagrees with the count fail the port, which retrains. A slot that fails its FEC or CRC is discarded. `now` is the panel hub's time
count (R43). -/
def execTempoSlot (port : Fin 32) (slot : BitVec 288) (rx : SlotRx) (s : State) : Host.Outcome State Fault Refusal :=
  let l : LinkEnd := .sys port
  let k := s.link l
  let isT := k.rxSlot % 64 == 63
  let s1 := s.modLink l (fun k => { k with rxSlot := k.rxSlot + 1 })
  if k.failed ∨ k.stopped then .next s
  else if rx.fecOk = false ∨ flitOk slot = false then .next s1
  else if (flitByte slot 33 % 8 == 5) ≠ isT then
    let s2 := s1.modLink l (fun k => { k with wrong := k.wrong + 1 })
    .next (if 1 ≤ k.wrong then
        (s2.setRegF (Reg.sylPort port.val) 28 4 1).modLink l (fun k => { k with stopped := true, wrong := 0 })
      else s2)
  else
    let s2 := s1.modLink l (fun k => { k with wrong := 0 })
    if isT then s2.laneMessage port.val (slotMsg slot true) rx.now else .next s2

end Sys2Proof.Machine
end

