-- ==== Sys2Proof/Machine/Recovery.lean ====
section
/-! DEFINITION. Halts, fences and hole tables, rung 3 recovery, rollback (16_faults_and_recovery.md R406 to R425, R431), lost
stacks, the answers to requests, and the store for a buddy (R419). -/
namespace Sys2Proof.Machine

/-! ### Fences and hole tables (R16, R17, R20, R21, R396) -/

/-- Lifetime hours (MGT_LIFE). (DESIGN CHOICE, log entry 94.) -/
def State.life (s : State) : Nat := (s.reg Reg.mgtLife).toNat

/-- Highest field SEQ of the defect map. -/
def State.topSeq (s : State) : Nat := s.defects.foldl (fun m d => max m d.seq) 0

/-- The 32 bytes of a defect entry (Table 15-9a). -/
def Defect.bytes (d : Defect) : List Byte :=
  leBytes 4 d.seq ++ [d.kind, d.cause, d.source, 0] ++ leBytes 8 d.loc.toNat ++ leBytes 8 d.life ++ leBytes 8 d.detail.toNat

/-- Add a field entry to the defect map; the field-defect counter, which only rises, reaches its SEQ (R380, R395, R396).
(DEDUCED, log entry 62.) -/
def State.addDefect (s : State) (kind cause source : Byte) (loc detail : W64) : State :=
  let d : Defect := ⟨s.topSeq + 1, kind, cause, source, loc, s.life, detail⟩
  let s1 : State := { s with defects := s.defects ++ [d] }
  ((s1.setReg Reg.defect (BitVec.ofNat 32 d.seq)).setReg (Reg.svn 10) (BitVec.ofNat 32 (max (s.reg (Reg.svn 10)).toNat d.seq))).raise 0x0046 0
    (d.bytes.take 16)

/-- LOC of a site: die, then site in 2 bytes. -/
def siteLoc (d t : Nat) : W64 := BitVec.ofNat 64 (d + t * 256)

/-- Publish the hole of one core rank, and whether more than one of its sites is fenced (Table 1-6). -/
def State.publishCore (s : State) (d m : Nat) : State :=
  let f := (s.die d).fencedSites.filter (fun t => rankOfSite t == m)
  (s.setRegF (Reg.chole d (m / 4)) (8 * (m % 4)) 5 (match f with
    | t :: _ => fileOfSite t
    | [] => 16)).setRegF (Reg.chole d (m / 4)) (8 * (m % 4) + 7) 1 (bitN (decide (1 < f.length)))

/-- Publish the hole of a die rank (Table 1-5): a second fenced die leaves the rank short. -/
def State.publishDie (s : State) (r : Nat) : State :=
  let f := (List.range 9).filter (fun f => (s.die (r * 9 + f)).fenced)
  s.setRegF (Reg.dhole (r / 8)) (4 * (r % 8)) 4 (match f with
    | [] => 8
    | [x] => x
    | _ => 15)

/-- Is a die rank short? -/
def State.rankShort (s : State) (r : Nat) : Bool := s.dieHole r == 15

/-- The power switches of a die's regions open, since it is fenced or holds no logical place (R350): state off, but where the region
itself is fenced. -/
def State.switchOff (s : State) (d : Nat) : State :=
  ((List.range 8).map (fun i => d * 8 + i)).foldl (fun t r =>
    if t.railState r = 0 ∨ t.railState r = 4 then t
    else ((t.setRail r 0).setRegF (Reg.pwrReg r) 12 10 0).modRegion r (fun g => { g with waiting := false, droop := false })) s

/-- Fence a whole die and publish (R20); its cores read as fenced, their clocks stopped (R66), its regions off (R350). -/
def State.fenceDie (s : State) (d : Nat) : State :=
  if (s.die d).fenced then s
  else ((((s.modDie d (fun e => { e with fenced := true })).modCores (coresOfDie d) (fun c => { c with st := 0, mhz := 0, capped := false })).publishDie
    (rankOfDie d))).switchOff d

/-- Fence sites of a die: the hole of each core rank moves to its first, a second one in a rank sets SHORT and fences the die
(R16, Tables 1-4, 1-6). Sites of a die that is fenced already are noted too. -/
def State.fenceSites (s : State) (d : Nat) (ts : List Nat) : State :=
  let new := ts.filter (fun t => !(s.die d).fencedSites.contains t)
  let s1 := (s.modDie d (fun e => { e with fencedSites := new.foldl (fun l t => addNew t l) e.fencedSites })).modCores (new.map (d * 272 + ·))
    (fun c => { c with st := 0, mhz := 0, capped := false })
  let ranks := (new.map rankOfSite).eraseDups
  let s2 := ranks.foldl (fun a m => a.publishCore d m) s1
  if ranks.any (fun m => 1 < ((s1.die d).fencedSites.filter (fun x => rankOfSite x == m)).length) then s2.fenceDie d else s2

/-- Fence a site. -/
def State.fenceSite (s : State) (d t : Nat) : State := s.fenceSites d [t]

/-- Fence a region: both its core ranks lose every site, and the die is fenced (R20, R21). -/
def State.fenceRegionSites (s : State) (r : Nat) : State := s.fenceSites (r / 8) ((List.range 34).map (fun i => r % 8 * 34 + i))

/-- A fence decided in recovery (R410): die, or site of a die. -/
inductive Fence where
  | die (d : Nat)
  | site (d t : Nat)
  | region (r : Nat)
  deriving DecidableEq, Repr

/-- Castling entries of a partition that name a fenced unit are marked not valid (Table 16-8). -/
def State.dropPairs (s : State) (p : Nat) (hit : Nat → Nat → Bool) : State :=
  (List.range 16).foldl (fun t e =>
    let w := (t.reg (Reg.cpair p e)).toNat
    if bit w 31 && (hit (field w 30 1) (field w 0 11) || hit (field w 30 1) (field w 16 11)) then t.setRegF (Reg.cpair p e) 31 1 0 else t) s

/-- Units of the castling table that lie on a die: kind 1 is a region. -/
def dieUnits (d kind u : Nat) : Bool := if kind = 1 then u / 8 == d else u == d

/-- Make a recovery fence, record it with a fault code that the manual leaves open, unless a gambit caused it, and post PROMOTED
where a hole moved or a spare die was promoted (R410, R412, Table 16-10). A die fenced for a second site of a rank is recorded too
(Table 15-9). (DEDUCED, log entry 89.) (DESIGN CHOICE, log entry 90.) -/
def State.makeFence (s : State) (p : Nat) (gambit : W32) (f : Fence) : State :=
  let ev (t : State) (kind d site old hole : Nat) : State :=
    if hole = old ∨ (kind = 2 ∧ hole = 15) then t
    else t.raise 0x0021 p ([BitVec.ofNat 8 kind] ++ leBytes 2 d ++ leBytes 2 site ++ [BitVec.ofNat 8 hole] ++ leBytes 4 gambit.toNat)
  let log (t : State) (kind : Byte) (loc : W64) : State := if gambit = 0 then (t.addDefect kind 0x06 0x02 loc (BitVec.ofNat 64 (Config.freeNat t.freeCtr 9))).freshen else t
  let s := s.modPart p (fun q => { q with recal := decide (0 < q.height) })
  match f with
  | .die d =>
    if (s.die d).fenced then s
    else let s1 := (log (s.fenceDie d) 0x03 (BitVec.ofNat 64 d)).dropPairs p (dieUnits d); ev s1 2 d 0 (s.dieHole (rankOfDie d)) (s1.dieHole (rankOfDie d))
  | .region r =>
    let d := r / 8
    if (s.die d).fenced then s
    else let s1 := (log (s.fenceRegionSites r) 0x02 (BitVec.ofNat 64 (d + r % 8 * 256))).dropPairs p (dieUnits d); ev s1 2 d 0 (s.dieHole (rankOfDie d)) (s1.dieHole (rankOfDie d))
  | .site d t =>
    if s.siteFenced (d * 272 + t) then s
    else
      let s0 := log (s.fenceSite d t) 0x01 (siteLoc d t)
      let s1 := if (s0.die d).fenced then (log s0 0x03 (BitVec.ofNat 64 d)).dropPairs p (dieUnits d) else s0
      if (s1.die d).fenced then ev s1 2 d t (s.dieHole (rankOfDie d)) (s1.dieHole (rankOfDie d))
      else ev s1 1 d t (s.coreHole d (rankOfSite t)) (s1.coreHole d (rankOfSite t))

/-! ### Classes and fencing decisions (Tables 16-1 and 16-3) -/

/-- Fault class of a halt's source, 0x01 to 0x06 in the order of Table 16-1. The class of a fault that another member panel has
halted for does not travel with its HALT: it is free among those that halt. (DESIGN CHOICE, log entry 88.)
(DEDUCED, log entry 91.) -/
def State.faultClass (s : State) (p : Nat) (src : HaltSrc) : Nat :=
  match src with
  | .core k =>
    let e := (s.core k.val).fault
    let cause := e.detail.toNat % 256
    if e.code = 5 ∨ e.code = 6 ∨ e.code = 0xC then 3
    else if e.code = 9 ∧ cause = 0x10 then 3
    else if e.code = 9 ∧ cause = 0x11 then (if (s.part p).tree = 0 then 2 else 4)
    else 5
  | .stalemate =>
    let c := (s.part p).census
    if (match c with
      | some c => c.entries.any (fun e => e.code != 0)
      | none => false) then 3 else 5
  | .exhausted => 5
  | .host => 6
  | .stackLost _ => 4
  | .tileDark _ => 4
  | .unreachable => 4
  | .member => 3 + (Config.freeByte s.freeCtr 13).toNat % 4
  | _ => 3

/-- TPO_PSTATUS.HALT_SRC of a source (Table 2-10); that of another panel's fault is free. -/
def State.haltSrcCode (s : State) (src : HaltSrc) : BitVec 2 :=
  match src with
  | .member => (Config.freeByte s.freeCtr 14).setWidth 2
  | .host => 1
  | .stalemate => 3
  | .exhausted => 3
  | .region _ => 2
  | .breaker _ => 2
  | .thermal _ => 2
  | .tile _ => 2
  | .tileDark _ => 2
  | .stackTrip _ => 2
  | .power => 2
  | _ => 0

/-- Hours of earlier errors that still count, with the present one. -/
def recentHours (now : Nat) (l : List Nat) : List Nat := now :: l.filter (fun h => decide (now ≤ h + 720))

/-- Dies that the source of a halt concerns (Table 16-3): the ones that recovery tests (R411). (DEDUCED, log entry 95.) -/
def haltDies (src : HaltSrc) : List Nat :=
  match src with
  | .core k => [dieOf k.val]
  | .parity k => [dieOf k.val]
  | .hub d => [d.val]
  | .tempoLink d => [d.val]
  | .quarantine d o => [d.val, o.val]
  | .breaker d => [d.val]
  | .region r => [r.val / 8]
  | _ => []

/-- A scratchpad error at a site counts; the second within 720 hours fences it (Table 16-3). (DEDUCED, log entry 95.) -/
def State.eccFence (s : State) (k : Nat) : State × List Fence :=
  let h := recentHours s.life (s.core k).eccHours
  (s.modCore k (fun c => { c with eccHours := h }), if 2 ≤ h.length then [Fence.site (dieOf k) (siteOf k)] else [])

/-- May recovery of a partition test a die: it belongs to no other running partition (R411)? -/
def State.testable (s : State) (p d : Nat) : Bool :=
  match s.partOfRank (rankOfDie d) with
  | none => true
  | some q => q == p || (s.part q).st != 1

/-- What Table 16-3 fences, with the counts it keeps by site and link. `ecc` are the sites whose scratchpad's error a failed
copy has met. -/
def State.decideFences (s : State) (p : Nat) (src : HaltSrc) (t : TestReport) (census : Option Census) (ecc : List Nat) : State × List Fence :=
  let now := s.life
  let tested := (t.sites.filter (fun e => (haltDies src).contains e.1 && s.testable p e.1)).map (fun e => Fence.site e.1 e.2)
  match src with
  | .core k =>
    let d := dieOf k.val
    let n := siteOf k.val
    let e := (s.core k.val).fault.code
    if e = 6 then (s, Fence.site d n :: tested)
    else if e = 5 then ((s.eccFence k.val).1, (s.eccFence k.val).2 ++ tested)
    else if e = 9 then
      let r := ecc.foldl (fun a j => ((a.1.eccFence j).1, a.2 ++ (a.1.eccFence j).2)) (s, [])
      (r.1, r.2 ++ tested)
    else if e = 0xC then
      let h := recentHours now (s.core k.val).parHours
      (s.modCore k.val (fun c => { c with parHours := h }), if 3 ≤ h.length then Fence.site d n :: tested else tested)
    else (s, tested)
  | .parity k =>
    let h := recentHours now (s.core k.val).parHours
    (s.modCore k.val (fun c => { c with parHours := h }),
      if 3 ≤ h.length then Fence.site (dieOf k.val) (siteOf k.val) :: tested else tested)
  | .region r => (s, Fence.region r.val :: tested)
  | .breaker d => (s, Fence.die d.val :: tested)
  | .hub d => (s, Fence.die d.val :: tested)
  | .quarantine d o =>
    let a := min d.val o.val
    let b := max d.val o.val
    let old := (s.die b).quar.filter (fun e => e.1 == a && decide (now ≤ e.2 + 720))
    let s1 := s.modDie b (fun e => { e with quar := (a, now) :: e.quar })
    let silent := [a, b].filter (fun x => s.diePortsDown x)
    let failed := [a, b].filter (fun d => t.linkDies.contains d && s.testable p d)
    (s1, (if !silent.isEmpty then silent else if !failed.isEmpty then failed else if !old.isEmpty then [b] else []).map Fence.die ++ tested)
  | .stalemate =>
    (s, (match census with
      | some c => (c.entries.filter (fun e => e.code == 1)).map (fun e => Fence.die e.die)
      | none => []) ++ tested)
  | _ => (s, tested)

/-! ### Halting a partition (R53, R95, R244) -/

/-- A core stops: what it has in flight is discarded (R95), and CORE_FFLAGS takes its flags (R96). -/
def Core.halted (c : Core) : Core :=
  let b : Core := { c with
    fflagsReg := if c.st = 3 ∨ c.st = 4 then c.fflags else c.fflagsReg
    copies := [], arrHeld := [], arrOut := 0, queue := [], owed := 0, rx := [], setRun := none, zeroing := false, excPend := [], hold := none
    stopReq := false, c := []
    sw := { c.sw with active := false, fifo := [], outSent := [], inTaken := [], unack := [], spent := [], ackWire := []
                      routes := [], drains := 0, setWait := false, wire := [], dead := [] } }
  { b with st := if c.st = 3 ∨ c.st = 4 ∨ c.st = 2 then 6 else c.st }

/-- Every core of a partition halts; its jobs stop, its transfers and packets are discarded, its barriers restart. -/
def State.haltPartition (s : State) (p : Nat) : State :=
  let q := s.part p
  let ds := q.dies
  let s1 := s.modCores q.sites Core.halted
  let mine (j : Job) : Bool := j.pkt.part.toNat == p && j.pkt.spanel.toNat == s.ownId
  let s2 := s1.modHbm (fun h => { h with
    stackMap := h.stackMap.map (fun e => (e.1, { e.2 with queue := e.2.queue.filter (fun j => !mine j), running := e.2.running.filter (fun j => !mine j) }))
    held := h.held.filter (fun x => !(x.part.toNat == p && x.spanel.toNat == s.ownId && decide (x.sep.toNat < 0x90))) })
  let s3 : State := { s2 with
    net := s2.net.filter (fun x => !(x.part.toNat == p && x.spanel.toNat == s.ownId && decide (x.sep.toNat < 0x90)))
    links := s2.links.filter (fun e => !(decide (e.1 < 27648) && ds.contains (e.1 / 192)))
    tnodes := s2.tnodes.map (fun e => (e.1, { e.2 with
      comb := e.2.comb.filter (fun c => c.1 / 64 != p), sched := e.2.sched.filter (fun c => c.1 / 64 != p)
      unacked := e.2.unacked.filter (fun u => s.partOfMsg u.msg != some p), out := e.2.out.filter (fun u => s.partOfMsg u.2 != some p) })) }
  (s3.modPart p (fun q =>
    { q with capturing := none, puts := 0, captureAsk := false, castling := none, haltPend := none, haltRoot := false, retrain := none })).setReg (Reg.pcap p) 0

/-- Can the buddy's store be read: it is this panel's own, or a panel that answers (R414, R425)? -/
def State.buddyAnswers (s : State) : Bool :=
  match s.remoteBuddy with
  | some b => s.routable b
  | none => true

/-- Has a partition written memory since the current or a pending capture (R265)? -/
def State.pagesMarked (s : State) (p : Nat) : Bool :=
  (s.ownedSlices p).any (fun sl => (s.slice sl).cur != 0 || (s.slice sl).cap != 0)

/-- Can every part of a position be read: the cores' from either copy, the pages written since only from the buddy's (R425,
Table 16-8)? (DEDUCED, log entry 96.) -/
def State.canRestore (s : State) (p : Nat) (c : Position) : Bool :=
  (c.mine || c.buddy && s.buddyAnswers) && (c.buddy && s.buddyAnswers || !s.pagesMarked p)

/-- The newest position that can be read; the older one where a fallback is forced (R425). Rollback never
goes behind the opening position of a launch (R326), but for the position that the launch began from unchanged (Table 16-8). -/
def State.readablePosition (s : State) (p : Nat) : Option (Position × Bool) :=
  let since (x : Position) : Bool := match (s.part p).launch with
    | some l => decide (l.first < x.move) || l.base == some x.gen
    | none => true
  match (s.part p).positions.filter since with
  | [] => none
  | c :: cs => if s.canRestore p c then some (c, false) else
    match cs with
    | d :: _ => if d.buddy && s.buddyAnswers then some (d, true) else none
    | [] => none

/-- End a job: abort-halted, its launch completes (R407, R425). (DEDUCED, log entry 89.) -/
def State.endJob (s : State) (p status : Nat) (reason : Nat) : State :=
  let s1 := s.modPart p (fun q =>
    { q with st := 2, recov := none, opened := none, launch := q.launch.map (fun l => { l with closing := true, status := status, endMove := q.move }) })
  let s2 := s1.recoveryOver p
  if status = 0x0E then s2.raise 0x0025 p [BitVec.ofNat 8 reason] else s2

/-- Roll a partition back to a position: its records are restored and the lost moves counted (R421 steps 5 to 7). -/
def State.rollBack (s : State) (p : Nat) (c : Position) (fell : Bool) : State :=
  let lost := (s.part p).move.toNat - c.move.toNat
  let s1 := (s.restorePosition p c).countReg (Reg.plost p) lost
  if fell then s1.raise 0x0024 p (leBytes 4 c.gen) else s1

/-- Replay begins with a move release at the restored move number (R421 step 8); from the opening position it is the first of the
launch again. From a position before it the launch runs again, its first release included. -/
def State.replay (s : State) (p : Nat) (c : Position) (lost : Nat) : State :=
  let s1 := s.modPart p (fun q => { q with st := 5, launch := q.launch.map (fun l => { l with recovered := true }) })
  let s1 := s1.powerForReplay p
  let q := s1.part p
  let s2 := if (q.launch.bind (·.base)) = some c.gen then
      (s1.modPart p (fun q => { q with launch := q.launch.map (fun l => { l with first := c.move, begun := false }) })).moveRelease p
    else (q.dies.flatMap (s1.groupCores p 0)).foldl (fun t k => t.coreMoveRelease p k q.result q.ovf q.move) s1
  s2.raise 0x0022 p (leBytes 4 c.gen ++ leBytes 6 c.move.toNat ++ leBytes 4 lost)

/-- Channels of a partition that changed hole tables bring into use: their ends by die and direction (R188, R189). -/
def State.newChannels (s old : State) (p : Nat) : List (Nat × Dir) :=
  (s.part p).dies.flatMap (fun d => (dirs.filter (fun x => (s.dieAcross d x).isSome && s.dieAcross d x != old.dieAcross d x)).map (fun x => (d, x)))

/-- The channels that a promotion brings into use begin their training (R189, Table 16-7 step 4). -/
def State.trainNew (s old : State) (p : Nat) : State :=
  (s.newChannels old p).foldl (fun t e => (List.range 16).foldl (fun u l =>
    (List.range 3).foldl (fun v g => v.modLink (segEnd e.1 e.2 l g) (fun _ => Link.reset)) (u.setDlink e.1 e.2 l 3)) t) s

/-- Does a channel of a partition still train? -/
def State.trains (s : State) (p : Nat) : Bool :=
  (s.part p).dies.any (fun d => dirs.any (fun x => (List.range 16).any (fun l => s.dlink d x l == 3)))

/-- The replay begins once every channel that it needs is trained (R189). -/
def State.replayWhenTrained (s : State) (p : Nat) (c : Position) (lost : Nat) : State :=
  if s.trains p then s.modPart p (fun q => { q with retrain := some lost }) else (s.modPart p (fun q => { q with retrain := none })).replay p c lost

/-- A channel of a partition has been trained: a recovery that waits for it goes on. -/
def State.channelTrained (s : State) (p : Nat) : State :=
  match (s.part p).retrain, (s.part p).positions with
  | some lost, c :: _ => s.replayWhenTrained p c lost
  | _, _ => s

/-- Which reason RECOVERY_STUCK gives (R409, R412, Table 16-10): a short die rank, or a fault of the Panel class. Which member
does not answer is known where its streams have failed, else it is free. (DEDUCED, log entry 89.) -/
def State.stuckReason (s : State) (p : Nat) (src : HaltSrc) (cls : Nat) : Option (Nat × Nat) :=
  match (s.part p).ranks.find? s.rankShort with
  | some r => some (1, r)
  | none => match src with
    | .stackLost t => some (2, t.val)
    | .tileDark t => some (3, t.val)
    | _ => if cls = 4 then some (4, s.homes.unreach.headD (Config.freeNat s.freeCtr 12 % 65536)) else none

/-- An abort halt has reached every node (R53, R54, R406 to R425): the partition halts and, by the class of the fault, is
rolled back and replayed, rolled back and left, or passed to rung 4. (DEDUCED, log entry 89.) -/
def State.abortHalt (s : State) (p : Nat) (src : HaltSrc) (tests : TestReport) (gambit : W32) : State :=
  let q := s.part p
  let cls := s.faultClass p src
  let census := q.census
  let faults := match q.recov with
    | some r => r.faults + 1
    | none => 1
  let target := match q.recov with
    | some r => if r.untilMove < q.move then q.move else r.untilMove
    | none => q.move
  let dieSite : Nat × Nat := match src with
    | .core k => (dieOf k.val, siteOf k.val)
    | .parity k => (dieOf k.val, siteOf k.val)
    | .hub d => (d.val, 0)
    | .tempoLink d => (d.val, 0)
    | .quarantine d _ => (d.val, 0)
    | .breaker d => (d.val, 0)
    | .region r => (r.val / 8, 0)
    | .thermal r => (r.val / 8, 0)
    | _ => (0, 0)
  let rung := if cls = 4 then 4 else if cls = 5 ∨ cls = 6 then 0 else 3
  let ecc := q.sites.filter (fun k => (s.core k).excPend.any (fun e => e.code == 5))
  let s1 := (s.haltPartition p).modPart p (fun q => { q with haltSrc := s.haltSrcCode src, st := 5 })
  if 3 ≤ faults ∧ cls ≠ 6 then s1.endJob p 0x0E 1 else
  let s2 := s1.raise 0x0020 p ([BitVec.ofNat 8 rung, BitVec.ofNat 8 cls] ++ leBytes 4 gambit.toNat ++ leBytes 2 dieSite.1 ++ leBytes 2 dieSite.2)
  let s3 := ((s2.pstatState p 5).setRegF (Reg.pstat p) 8 4 rung).setRegF (Reg.pstat p) 0 8 (min faults 3)
  let s4 := if 2 ≤ faults ∧ cls ≠ 6 then s3.raise 0x0023 p ([BitVec.ofNat 8 faults] ++ leBytes 4 gambit.toNat) else s3
  let s4 := if q.recov.isNone ∧ rung = 3 then s4.countReg Reg.rcnt 1 else s4
  let r := if cls = 5 ∨ cls = 6 then (s4, []) else s4.decideFences p src tests census ecc
  let s5 := (r.2.foldl (fun t f => t.makeFence p gambit f) r.1).trainNew r.1 p
  match s5.readablePosition p with
  | none => s5.endJob p (if cls = 6 then 0x08 else 0x0E) (if cls = 5 then 2 else 3)
  | some (c, fell) =>
    let lost := q.move.toNat - c.move.toNat
    let s6 := s5.rollBack p c fell
    if cls = 6 then (s6.modCores (s6.part p).sites Core.halted).endJob p 0x08 0
    else if cls = 5 then (s6.modCores (s6.part p).sites Core.halted).endJob p 0x0E 2
    else match s6.stuckReason p src cls with
      | some (reason, unit) =>
        ((((s6.modCores (s6.part p).sites Core.halted).modPart p (fun q =>
          { q with st := 2, recov := none, opened := none
                   launch := q.launch.map (fun l => { l with closing := true, status := 0x0E, endMove := q.move }) })).recoveryOver p).setRegF
          (Reg.pstat p) 8 4 4).raise 0x0026 p ([BitVec.ofNat 8 reason] ++ leBytes 2 unit)
      | none =>
        let s7 := s6.modPart p (fun q => { q with recov := some ⟨faults, target, gambit, rung⟩ })
        s7.replayWhenTrained p c lost

/-- The root's order of a halt goes to every child panel (R53). -/
def State.haltBelow (s : State) (p : Nat) (kind : HaltKind) : State :=
  (s.part p).children.foldl (fun t c => t.sendHalt p (keyRemote c.1) kind) s

/-- An abort halt acts on a partition of this panel (R53, R54, R367): a release that has been issued completes first, then the halt
aborts the move that follows; recovery goes on once every unit of the partition that tripped is cool enough to restart. -/
def State.abortNow (s : State) (p : Nat) (f : HaltSrc) (tests : TestReport) : State :=
  let s1 := (s.haltBelow p .abort).completeRelease p
  if (s1.part p).st ≠ 1 ∧ (s1.part p).st ≠ 4 ∧ (s1.part p).st ≠ 5 then s1.modPart p (fun q => { q with haltPend := none, haltRoot := false })
  else if s1.coolForReplay p then ((s1.modPart p (fun q => { q with gambit := 0 })).abortHalt p f tests (s1.part p).gambit).freshen
  else (s1.haltPartition p).modPart p (fun q => { q with st := 5, haltPend := some (.abort, f), haltRoot := true })

/-- A halt acts at every node of this panel, its order having come from the root (R53, R95). -/
def State.haltActs (s : State) (p : Nat) (kind : HaltKind) (f : HaltSrc) (tests : TestReport) : State :=
  match kind with
  | .abort => s.abortNow p f tests
  | .stop => (s.haltBelow p .stop).modCores (s.part p).sites (fun c =>
      if c.st = 4 ∧ c.arrHeld.any (fun a => a.group == 0) = false then { c with st := 6, fflagsReg := c.flagsNow }
      else if c.st = 3 ∨ c.st = 4 then { c with stopReq := true } else c)

/-- TEMPO_HALT (R53, R54, R95, R407, R421): a halt that a unit has raised has travelled to the root and back. On a member panel of a
linked partition it goes up to the root's panel first, and acts when the root has sent it. A stop halt asks every core to halt after its
arrival at group 0; an abort halt stops the move. Nothing is in flight in a partition that is idle or halted. -/
def execTempoHalt (part : Fin 16) (kind : HaltKind) (src : HaltSrc) (tests : TestReport) (s : State) :
    Host.Outcome State Fault Refusal :=
  let p := part.val
  let s1 := match (s.part p).haltPend with
    | some _ => s
    | none => s.raiseHalt p kind src
  let st := (s1.part p).st
  .next (if (s1.part p).height = 0 then s
    else if st ≠ 1 ∧ st ≠ 4 ∧ st ≠ 5 then s1.modPart p (fun q => { q with haltPend := none, haltRoot := false })
    else match (s1.part p).haltPend with
      | some (k, f) =>
        match (s1.part p).parent with
        | some up => if (s1.part p).haltRoot then s1.haltActs p k f tests else s1.sendHalt p (keyRemote up) k
        | none => s1.haltActs p k f tests
      | none => s1)

/-- STACK_LOST (R260, Table 16-1): a stack that stops answering is marked lost; local copies of positions on it cannot be
read, and every partition that holds its slices halts. Which stacks hold a buddy copy on the panel's own store is not stated: whether it can
still be read is a free bit. (DESIGN CHOICE, log entry 114.) -/
def execStackLost (t : Fin 48) (s : State) : Host.Outcome State Fault Refusal :=
  let owners := ((List.range 64).filterMap (fun c =>
    let g := s.grantOf (t.val * 64 + c)
    if g.getLsbD 31 then some (grantOwner g) else none)).eraseDups
  let s1 := s.setRegF (Reg.sstat t.val) 28 4 4
  let s2 : State := { s1 with parts := s1.parts.map (fun e =>
    (e.1, { e.2 with positions := e.2.positions.map (fun c => { c with
      mine := c.mine && c.gen % 2 != t.val % 2
      buddy := c.buddy && (s.remoteBuddy.isSome || (Config.freeByte s.freeCtr (16 * e.1 + c.gen % 16)).getLsbD 0) }) })) }
  let s3 := (s2.parts.foldl (fun a e => a.pstatCopies e.1) s2).freshen
  .next (owners.foldl (fun a p => if (a.part p).st = 1 ∨ (a.part p).st = 5 then a.raiseHalt p .abort (.stackLost t) else a) s3)

/-! ### Answers to requests (R276, R419) -/

def coreOfPacket (p : Packet) : Option Nat :=
  if p.sep.toNat < 0x90 ∧ p.ssite.toNat < 272 then some (p.sep.toNat * 272 + p.ssite.toNat) else none

/-- Function and partition of a store packet's answer, by the tag that its packet carried, where it is of the generation being captured. -/
def State.storeTag (s : State) (p : Packet) : Option (Nat × Nat) :=
  let t := p.tag.toNat
  if t / 256 = (s.part (t % 16)).nextGen % 256 then some (t / 16 % 16, t % 16) else none

/-- What the buddy's store holds of a position: the contents that the STORE_GETs of a RESTORE read. They come from another panel: a free
value. (DESIGN CHOICE, log entry 115.) -/
opaque storedPosition : Nat → Position

/-- A position of this partition as its header record in the buddy's store says (R419), with the program loaded here. -/
def State.foundPosition (s : State) (p : Nat) (hdr : List Byte) : Position :=
  let q := s.part p
  { storedPosition s.freeCtr with
    gen := leAt hdr 0 4, move := BitVec.ofNat 48 (leAt hdr 4 6), first := leAt hdr 10 1, height := leAt hdr 11 1
    tenant := BitVec.ofNat 32 (leAt hdr 12 4), tree := q.tree, member := q.member, prog := q.prog, pages := leAt hdr 24 4
    progLen := leAt hdr 28 4, mine := false, buddy := true }

/-- A RESTORE of a partition that waits for the buddy's QUERY goes on: `f` of its GEN gives the outcome. -/
def State.restoreOutcome (s : State) (p : Nat) (ok : Nat → Bool) : State :=
  { s with rings := s.rings.map (fun e => (e.1, { e.2 with cmds := e.2.cmds.map (fun c =>
      if c.started && c.fin.isNone && leAt c.desc 0 1 == 7 && leAt c.desc 2 2 == p * 4096 + s.ownId && c.waits.isEmpty then
        { c with hit := ok (leAt c.desc 8 1), waits := [(0, 0)] } else c) })) }

/-- The header records of the two newest complete generations have come (Table 16-15): those of this partition's band and tenant are
positions that the buddy holds. -/
def State.storeFound (s : State) (p : Nat) (pay : List Byte) : State :=
  let q := s.part p
  let good (c : Position) : Bool := c.first == q.first && c.height == q.height && c.tenant == q.tenant
  let cs := (s.foundPosition p (bytesAt pay 0 32) :: (if (bytesAt pay 32 32).all (· == 0) then [] else [s.freshen.foundPosition p (bytesAt pay 32 32)])).filter good
  if q.positions.isEmpty then ((s.modPart p (fun x => { x with positions := cs })).pstatCopies p).freshen.freshen.restoreOutcome p (fun g => decide (g < cs.length))
  else s

/-- The buddy holds no position of the partition. -/
def State.storeNone (s : State) (p : Nat) : State := s.restoreOutcome p (fun _ => false)

/-- READ_RSP: the data reaches the requester; a management controller's reaches `answer`, a store's header records the positions of their
partition. -/
def execReadRsp (p : Packet) (s : State) : Host.Outcome State Fault Refusal :=
  .next (State.delivered 5 p (fun s => match coreOfPacket p with
    | some k => s.coreData k p.tag p.payload
    | none =>
      let t : State := { s with answer := p.payload }
      if isMc p.sep then (match s.storeTag p with | some (4, q) => t.storeFound q p.payload | _ => t) else t) s)

/-- The host interface's SIGNAL to another panel is answered: its command learns it, with the cause of a refusal plus one. -/
def State.hostAnswer (s : State) (tag : Nat) (err : Nat) : State :=
  { s with rings := s.rings.map (fun e => (e.1, { e.2 with cmds := e.2.cmds.map (fun c =>
      if c.started && c.fin.isNone && leAt c.desc 0 1 == 0x0B && c.aux == tag && c.waits.isEmpty then { c with hit := true, waits := [(err, 0)] } else c) })) }

/-- The buddy has acknowledged a store packet: a STORE_PUT's data is kept; a COMMIT makes the generation complete. -/
def State.storeAcked (s : State) (fn q : Nat) : State :=
  if fn = 0xD then (s.modPart q (fun x => { x with puts := x.puts - 1 })).pagesDone q
  else if fn = 2 then s.captureDone q else s

/-- ACK: a core's write is visible; the acknowledged COMMIT of a position completes it (Table 16-6 step 7). -/
def execAck (p : Packet) (s : State) : Host.Outcome State Fault Refusal :=
  .next (State.delivered 6 p (fun s => match coreOfPacket p with
    | some k => s.coreAck k p.tag
    | none =>
      if p.sep = 0xD8 then s.hostAnswer p.tag.toNat 0
      else if isMc p.sep then (match s.storeTag p with | some (fn, q) => s.storeAcked fn q | none => s) else s) s)

/-- ERR_RSP: a core's copy fails with the cause; a store packet's refusal fails the capture, reason 0x01 as store full, any
other as buddy unreachable (R419). -/
def execErrRsp (p : Packet) (s : State) : Host.Outcome State Fault Refusal :=
  .next (State.delivered 7 p (fun s => match coreOfPacket p with
    | some k => s.coreErr k p.tag (field p.attr.toNat 0 8)
    | none =>
      if p.sep = 0xD8 then s.hostAnswer p.tag.toNat (1 + field p.attr.toNat 0 8)
      else if isMc p.sep then
        (match s.storeTag p with
          | some (4, q) => s.storeNone q
          | some (_, q) => s.captureFail q (if field p.attr.toNat 8 8 = 1 then 1 else 2)
          | none => s)
      else s) s)

/-- MGT (R307): a management packet reaches the controller, which takes its words. (DESIGN CHOICE, log entry 76.) -/
def execMgt (p : Packet) (s : State) : Host.Outcome State Fault Refusal :=
  .next (State.delivered 0xC p (fun s => { s with answer := bytesAt p.payload 0 (8 * wordsField p) }) s)

/-! ### The store at a buddy (R419, Tables 16-14 and 16-15) -/

/-- Key of the records of a describing panel, tree and partition. -/
def storeKey (p : Packet) : Nat := (p.spanel.toNat * 4096 + p.tree.toNat) * 16 + p.part.toNat
def State.store (s : State) (k : Nat) : Store := sget Store.reset s.stores k
def State.modStore (s : State) (k : Nat) (f : Store → Store) : State := { s with stores := smod Store.reset s.stores k f }

/-- Refuse a store packet with a reason. -/
def State.storeRefuse (s : State) (p : Packet) (reason : Nat) : State :=
  s.inject (.io s.mcIo) (respond s.ownId p 7 (0x07 + 256 * reason) [])
def State.storeAck (s : State) (p : Packet) : State := s.inject (.io s.mcIo) (respond s.ownId p 6 0 [])

def storeKind (p : Packet) : Nat := field p.addr.toNat 60 4
def storeGenMod (p : Packet) : Nat := field p.addr.toNat 56 4
def storeOff (p : Packet) : Nat := field p.addr.toNat 0 56

/-- Is an offset inside its part (Table 16-14), for n bytes of a generation? -/
def storeRange (g : StoreGen) (kind off n : Nat) : Bool :=
  match kind with
  | 1 => decide (off + n ≤ leAt g.hdr 16 8)
  | 2 => decide (off + n ≤ 68 * 1024)
  | 3 => decide (off + n ≤ max g.progLen (leAt g.hdr 28 4))
  | 4 => decide (off + n ≤ 3072 * 2 ^ 30)
  | 5 => decide (off + n ≤ 3072 * 2 ^ 30)
  | _ => false

/-- Check a store packet, then run its effect. -/
def State.storeCmd (o : BitVec 4) (p : Packet) (f : State → State) (s : State) : State := State.delivered o p f s

/-- STORE_PUT: data of an open generation is written; KIND 4 goes to the base image. (DEDUCED, log entry 60.) -/
def execStorePut (p : Packet) (s : State) : Host.Outcome State Fault Refusal :=
  .next (State.storeCmd 0xD p (fun s =>
    let k := storeKey p
    match (s.store k).gens.find? (fun g => !g.complete && g.gen % 16 == storeGenMod p) with
    | none => s.storeRefuse p 2
    | some g =>
      let n := 8 * wordsField p
      if storeRange g (storeKind p) (storeOff p) n = false then s.storeRefuse p 4
      else
        let bs := bytesAt p.payload 0 n
        let key := storeKind p * 2 ^ 56 + storeOff p
        let g' := { g with bytes := wrN g.bytes key bs
                           pages := if 4 ≤ storeKind p then addNew (key / 2 ^ 21) g.pages else g.pages
                           core := if storeKind p = 1 then g.core + n else g.core
                           prog := if storeKind p = 3 then g.prog + n else g.prog
                           delta := if 4 ≤ storeKind p ∧ storeOff p % 2 ^ 21 + n = 2 ^ 21 then g.delta + 1 else g.delta }
        (s.modStore k (fun t => { t with gens := t.gens.map (fun x => if x = g then g' else x) })).storeAck p) s)

/-- STORE_GET: data of a complete generation is read; KIND 4 is the base image folded up to it. -/
def execStoreGet (p : Packet) (s : State) : Host.Outcome State Fault Refusal :=
  .next (State.storeCmd 0xE p (fun s =>
    let t := s.store (storeKey p)
    match t.gens.find? (fun g => g.complete && g.gen % 16 == storeGenMod p) with
    | none => s.storeRefuse p 2
    | some g =>
      let n := 8 * wordsField p
      if storeRange g (storeKind p) (storeOff p) n = false then s.storeRefuse p 4
      else
        let older := t.gens.filter (fun x => x.complete && decide (x.gen ≤ g.gen))
        let page (kind a : Nat) : Nat := (kind * 2 ^ 56 + a) / 2 ^ 21
        let img (a : Nat) : Byte :=
          if storeKind p ≠ 4 then rd g.bytes (storeKind p * 2 ^ 56 + a)
          else match older.find? (fun x => x.pages.contains (page 5 a) || x.pages.contains (page 4 a)) with
            | some x => rd x.bytes ((if x.pages.contains (page 5 a) then 5 else 4) * 2 ^ 56 + a)
            | none => rd t.base a
        let bs := (List.range n).map (fun i => img (storeOff p + i))
        s.inject (.io s.mcIo) (respond s.ownId p 5 (n / 8) (bytesAt bs 0 ((n + 63) / 64 * 64)))) s)

/-- Is a STORE_CTL packet's FUNCTION the command's? -/
def storeFn (p : Packet) (n : Nat) : Bool := p.opc == 0xF && field p.attr.toNat 0 4 == n

/-- STORE_CTL OPEN: room is reserved for the generation; a store without slices refuses (R419). -/
def execStoreCtlOpen (p : Packet) (s : State) : Host.Outcome State Fault Refusal :=
  .next (if storeFn p 1 = false then s else State.storeCmd 0xF p (fun s =>
    let hdr := bytesAt p.payload 0 32
    let need := leAt hdr 16 8 + leAt hdr 28 4 + leAt hdr 24 4 * 2 ^ 21
    if s.regF Reg.pstore 0 7 = 0 ∨ s.storeRoom need = false then s.storeRefuse p 1
    else (s.modStore (storeKey p) (fun t =>
      { t with gens := ⟨leAt hdr 0 4, hdr, [], [], 0, 0, 0, 0, false⟩ :: t.gens.filter (fun g => g.complete) })).storeAck p) s)

/-- Fold the pages that a generation holds into the base image (R416). -/
def foldPages (b : Mem) (x : StoreGen) : Mem :=
  x.pages.foldl (fun m pg =>
    (x.bytes.filter (fun e => e.1 / 2 ^ 21 == pg)).foldl (fun m e => wr m (e.1 % 2 ^ 56) e.2) (zeroN m (pg * 2 ^ 21 % 2 ^ 56) (2 ^ 21))) b

/-- STORE_CTL COMMIT: the generation is complete when the totals match; g − 2 is discarded and the delta of g − 1 is folded
into the base image; a program part of no bytes keeps the previous generation's. -/
def execStoreCtlCommit (p : Packet) (s : State) : Host.Outcome State Fault Refusal :=
  .next (if storeFn p 2 = false then s else State.storeCmd 0xF p (fun s =>
    let k := storeKey p
    let hdr := bytesAt p.payload 0 32
    match (s.store k).gens.find? (fun g => !g.complete && g.gen == leAt hdr 0 4) with
    | none => s.storeRefuse p 2
    | some g =>
      if g.core ≠ leAt hdr 16 8 ∨ g.prog ≠ leAt hdr 28 4 ∨ g.delta ≠ leAt hdr 24 4 then
        (s.modStore k (fun t => { t with gens := t.gens.filter (fun x => x != g) })).storeRefuse p 3
      else
        (s.modStore k (fun t =>
          let done := t.gens.filter (fun x => x.complete)
          let keep := done.take 1
          let gone := done.drop 1
          let same := leAt hdr 28 4 = 0
          let prev := if same then (keep.head?.map (fun x => x.bytes.filter (fun e => e.1 / 2 ^ 56 == 3))).getD [] else []
          let len := if same then (keep.head?.map (·.progLen)).getD 0 else leAt hdr 28 4
          { gens := { g with hdr := hdr, complete := true, progLen := len, bytes := prev.foldl (fun m e => wr m e.1 e.2) g.bytes } :: keep
            base := gone.foldr (fun x b => foldPages b x) t.base })).storeAck p) s)

/-- STORE_CTL DROP: one or every generation is discarded. -/
def execStoreCtlDrop (p : Packet) (s : State) : Host.Outcome State Fault Refusal :=
  .next (if storeFn p 3 = false then s else State.storeCmd 0xF p (fun s =>
    let n := leAt p.payload 0 4
    (s.modStore (storeKey p) (fun t =>
      if n = 0xFFFFFFFF then Store.reset else { t with gens := t.gens.filter (fun g => g.gen != n) })).storeAck p) s)

/-- STORE_CTL QUERY: the header records of the two newest complete generations. -/
def execStoreCtlQuery (p : Packet) (s : State) : Host.Outcome State Fault Refusal :=
  .next (if storeFn p 4 = false then s else State.storeCmd 0xF p (fun s =>
    match (s.store (storeKey p)).gens.filter (fun g => g.complete) with
    | [] => s.storeRefuse p 2
    | g :: gs => s.inject (.io s.mcIo) (respond s.ownId p 5 8 (bytesAt g.hdr 0 32 ++ bytesAt ((gs.head?.map (·.hdr)).getD []) 0 32))) s)

end Sys2Proof.Machine
end

