-- ==== Sys2Proof/Machine/Host.lean ====
section
/-! DEFINITION. The host interface (12_host_interface.md): rings, doorbells, fetching, starting, finishing and posting, events,
the en passant window, host ports. -/
namespace Sys2Proof.Machine

/-! ### Rings -/

def State.ring (s : State) (r : Nat) : Ring := sget Ring.reset s.rings r
def State.modRing (s : State) (r : Nat) (f : Ring → Ring) : State := { s with rings := smod Ring.reset s.rings r f }
def State.modHost (s : State) (f : HostPorts → HostPorts) : State := { s with host := f s.host }

/-- Is the host interface enabled? -/
def State.hifOn (s : State) : Bool := (s.reg Reg.hifCtl).getLsbD 31

/-- A 64-bit address in a LO and HI pair. -/
def State.pair (s : State) (lo : Nat) : Nat := (s.reg lo).toNat + 2 ^ 32 * (s.reg (lo + 4)).toNat

/-- Address of a ring's doorbell word (R312). -/
def State.doorbellAddr (s : State) (r : Nat) : Nat := (if r < 512 then s.pair Reg.dbp0Lo else s.pair Reg.dbp1Lo) + r % 512 * 8

/-- Bring the window's and the ring's first state: created, empty. -/
def newRing (log2 vector sq cq : Nat) : Ring :=
  { Ring.reset with live := true, log2 := log2, vector := vector, sq := sq, cq := cq }

/-- An MSI-X message (R301, R316): sent, or pending while its vector is masked. -/
def State.msix (s : State) (v : Nat) : State :=
  if 2048 ≤ v then s
  else if (s.reg (Reg.msix + v * 16 + 12)).getLsbD 0 then
    let a := Reg.msixPba + v / 32 * 4
    s.setReg a (s.reg a ||| BitVec.ofNat 32 (2 ^ (v % 32)))
  else s.modHost (fun h => { h with msix := h.msix ++ [v] })

/-! ### Descriptors (Table 12-5) -/

def Cmd.op (c : Cmd) : Nat := leAt c.desc 0 1
def Cmd.intr (c : Cmd) : Bool := bit (leAt c.desc 1 1) 3
def Cmd.fence (c : Cmd) : Bool := bit (leAt c.desc 1 1) 2
def Cmd.ep (c : Cmd) : Bool := bit (leAt c.desc 1 1) 1
def Cmd.stop (c : Cmd) : Bool := bit (leAt c.desc 1 1) 0
def Cmd.target (c : Cmd) : Nat := leAt c.desc 2 2
def Cmd.part (c : Cmd) : Nat := c.target / 4096
def Cmd.panel (c : Cmd) : Nat := c.target % 4096
def Cmd.u16 (c : Cmd) (o : Nat) : Nat := leAt c.desc o 2
def Cmd.u32 (c : Cmd) (o : Nat) : Nat := leAt c.desc o 4
def Cmd.u64 (c : Cmd) (o : Nat) : Nat := leAt c.desc o 8
/-- Are the operand bytes from an offset to the end zero? -/
def Cmd.zeroFrom (c : Cmd) (o : Nat) : Bool := (c.desc.drop o).all (· == 0)

/-- State commands (R321). -/
def Cmd.isState (c : Cmd) : Bool := [1, 2, 3, 4, 6, 7, 9].contains c.op

/-- Is it an en passant command (R332)? -/
def enPassant (r : Nat) (c : Cmd) : Bool := c.op == 4 && c.ep && decide (r < 64) && decide (c.u16 0x14 ≤ 56)

/-! ### Fetching (R313, R314, R321, R333) -/

/-- Fetch a ring's descriptors up to its submission tail. -/
def State.fetch (r : Nat) : Nat → State → State
  | 0, s => s
  | n + 1, s =>
    let g := s.ring r
    if g.halted ∨ g.fetched = g.sqt ∨ 2 ^ g.log2 < (g.sqt + 2 ^ 32 - g.fetched) % 2 ^ 32 then s
    else
      let c : Cmd := ⟨g.fetched, rdN s.hostMem (g.sq + g.fetched % 2 ^ g.log2 * 64) 64, false, false, 0, [], none⟩
      fetch r n (s.modRing r (fun g =>
        { g with
          fetched := (g.fetched + 1) % 2 ^ 32, cmds := g.cmds ++ [c]
          window := if enPassant r c && (g.window.state == 0 || g.window.state == 3) then { Window.reset with state := 1 } else g.window }))

/-- Read one ring's doorbell word (R313); answers whether it changed. -/
def State.readDoorbell (s : State) (r : Nat) : State × Bool :=
  let g := s.ring r
  let w := rdLe s.hostMem (s.doorbellAddr r) 8
  let sqt := w % 2 ^ 32
  let cqh := w / 2 ^ 32
  let sub (a b : Nat) : Nat := (a + 2 ^ 32 - b) % 2 ^ 32
  if g.live = false then (s, false)
  else if sqt = g.sqt ∧ cqh = g.cqh then (s, false)
  else if sub sqt g.posted ≤ 2 ^ g.log2 ∧ sub cqh g.cqh ≤ sub g.posted g.cqh then
    let s1 := s.modRing r (fun g => { g with sqt := sqt, cqh := cqh, log := g.log.filter (fun e => decide (sub e.1 cqh < 2 ^ 31)) })
    (State.fetch r (2 ^ g.log2) s1, true)
  else if r = 0 then
    if g.badWords.contains (BitVec.ofNat 64 w) then (s, false)
    else ((s.modRing 0 (fun g => { g with badWords := g.badWords ++ [BitVec.ofNat 64 w] })).raise 0x00F3 0 (leBytes 2 0 ++ leBytes 8 w), false)
  else if g.halted then (s, false)
  else
    ((s.modRing r (fun g => { g with halted := true })).raise 0x00F0 0 (leBytes 2 r ++ [2] ++ leBytes 4 0 ++ leBytes 4 0), false)

/-- The event head word (R315). -/
def State.readEventHead (s : State) : State :=
  let w := rdLe s.hostMem (s.pair Reg.evhdLo) 8
  let sub (a b : Nat) : Nat := (a + 2 ^ 32 - b) % 2 ^ 32
  if w / 2 ^ 32 = 0 ∧ sub w s.host.evh ≤ sub (s.host.evPosted % 2 ^ 32) s.host.evh then s.modHost (fun h => { h with evh := w }) else s

/-- DOORBELL_POLL (R312 to R315): the host's stores reach its memory; the device reads the doorbell words of every created
ring and the event head, and the poll interval follows. (DESIGN CHOICE, log entry 7.) -/
def execDoorbellPoll (stores : List HostStore) (s : State) : Host.Outcome State Fault Refusal :=
  let s0 : State := { s with hostMem := stores.foldl (fun m w => wrN m w.addr.toNat w.bytes) s.hostMem }
  .next (if s0.hifOn = false ∨ s0.host.down = true then s0
    else
      let r := (s0.rings.map (·.1)).foldl (fun (a : State × Bool) k => let b := a.1.readDoorbell k; (b.1, a.2 || b.2)) (s0, false)
      let s1 := r.1.readEventHead
      let busy := r.2 || s1.rings.any (fun e => e.2.live && !e.2.cmds.isEmpty)
      s1.modHost (fun h => { h with poll := if busy then 1 else min 64 (2 * h.poll) }))

/-- HIF_WAKE (R314): the ring's doorbell word is read at once and the interval returns to 1 µs. A value with reserved bits
set is ignored. (DEDUCED, log entry 63.) -/
def execHifWake (value : W32) (s : State) : Host.Outcome State Fault Refusal :=
  .next (if s.hifOn = false ∨ s.host.down = true ∨ 1024 ≤ value.toNat then s
    else (s.readDoorbell value.toNat).1.modHost (fun h => { h with poll := 1 }))

/-! ### Starting and finishing (R321 to R325) -/

/-- The command that a reference names. -/
def State.cmd (s : State) (r : Ref) : Option Cmd := (s.ring r.ring.val).cmds.find? (fun c => c.seq == r.seq.toNat)

/-- The ring of a running command that a reference names: a ring's own, or where that holds none, one that ran when the ring was
deleted (R335). -/
def State.runRing (s : State) (r : Ref) : Nat := if (s.cmd r).isSome then r.ring.val else 1024 + r.ring.val

def State.modCmd (s : State) (ring seq : Nat) (f : Cmd → Cmd) : State :=
  s.modRing ring (fun g => { g with cmds := g.cmds.map (fun c => if c.seq = seq then f c else c) })

/-- The partition of a LAUNCH whose completion is posted, or discarded, holds it no longer. -/
def State.endLaunch (s : State) (ring : Nat) (c : Cmd) : State :=
  if c.op = 4 then s.modPart c.part (fun q =>
    match q.launch with
    | some l => if l.ring = ring ∧ l.seq = c.seq then { q with launch := none } else q
    | none => q) else s

/-- A command finishes with STATUS, DETAIL and SUMMARY; one with STOP and an error status halts its ring, which drops the later ones
that it has fetched and not started (R324). The completion of a command whose ring has been deleted is discarded (R335). -/
def State.finish (s : State) (ring seq status detail : Nat) (summary : List Byte) : State :=
  match (s.ring ring).cmds.find? (fun c => c.seq == seq) with
  | none => s
  | some c =>
    if 1024 ≤ ring then (s.modRing ring (fun g => { g with cmds := g.cmds.filter (fun d => d.seq != seq) })).endLaunch ring c
    else
    let s1 := s.modCmd ring seq (fun c => { c with started := true, fin := some (status, detail, bytesAt summary 0 16) })
    if c.stop && status != 0 && ring != 0 then
      (s1.modRing ring (fun g =>
        { g with halted := true, fetched := (seq + 1) % 2 ^ 32
                 cmds := g.cmds.takeWhile (fun d => d.seq != seq) ++ (g.cmds.dropWhile (fun d => d.seq != seq)).filter (fun d => d.started) })).raise 0x00F0 c.part
        (leBytes 2 ring ++ [1] ++ leBytes 4 seq ++ leBytes 4 (c.u32 4))
    else s1

/-- May a fetched command start (R321)? STOP is ignored on ring 0 (R324). -/
def State.mayStart (s : State) (ring : Nat) (c : Cmd) : Bool :=
  let before := ((s.ring ring).cmds.takeWhile (fun d => d.seq != c.seq)).filter (fun d => d.fin.isNone)
  if c.fence = true ∨ c.op = 0x0B then before.isEmpty
  else if ring = 0 then !before.any (fun d => decide (0x80 ≤ d.op))
  else !before.any (fun d => d.stop) && (!c.isState || !before.any (fun d => d.isState && d.target == c.target))

/-- Is an opcode accepted on a ring (R311)? -/
def ringAccepts (ring op : Nat) : Bool :=
  if ring = 0 then decide (0x80 ≤ op ∧ op ≤ 0x89) || op == 0 || op == 8 || op == 0xA else decide (op ≤ 0x0B)

/-- Is a panel a listed member of the domain (R306)? -/
def State.listed (s : State) (q : Nat) : Bool :=
  (List.range 64).any (fun i => let w := s.reg (Reg.dmember i); w.getLsbD 31 && field w.toNat 0 12 == q)

/-- Lock that a command holds while it runs (Table 12-9): 0 none, 1 shared, 2 exclusive. -/
def lockOf (op : Nat) : Nat := if op = 1 ∨ op = 2 ∨ op = 6 then 1 else if op = 3 ∨ op = 4 ∨ op = 7 ∨ op = 0x82 then 2 else 0

/-- Does a running command hold a lock that conflicts with an opcode's on a partition? POSITION does not conflict with the
running LAUNCH (R323). -/
def State.lockHeld (s : State) (target op : Nat) : Bool :=
  s.rings.any (fun e => e.2.cmds.any (fun c =>
    c.started && c.fin.isNone && c.target == target && decide (2 < lockOf c.op + lockOf op) && decide (0 < lockOf c.op) && decide (0 < lockOf op) &&
      !(op == 6 && c.op == 4)))

/-- TPO_PSTATUS.STATE in DETAIL, 0xF where there is no such partition. -/
def State.stateDetail (s : State) (p : Nat) : Nat := if (s.part p).height = 0 then 0xF else (s.part p).st.toNat

/-- Does Table 12-9 admit an opcode in the partition's state, with its lock free? -/
def State.admitted (s : State) (p op target : Nat) : Bool :=
  let st := (s.part p).st.toNat
  let none' := (s.part p).height == 0
  let quiet := st == 0 || st == 2 || st == 3
  let ok := if op = 1 ∨ op = 2 ∨ op = 3 ∨ op = 4 ∨ op = 7 then !none' && quiet
    else if op = 6 then !none' && (quiet || st == 1)
    else if op = 5 ∨ op = 9 then !none' && st == 1
    else if op = 0x82 then none' || quiet else true
  ok && !s.lockHeld target op

/-- The outcome of a command's own part: it finishes, or runs on. -/
inductive Res where
  | fin (status detail : Nat) (summary : List Byte)
  | run
  deriving DecidableEq, Repr

/-- Start a command of an opcode: the fetched command that the reference names, when R321 lets it, is checked and run. A
command for a follower is relayed to its controller (R307). -/
def State.start (s : State) (op : Nat) (r : Ref) (f : Cmd → State → State × Res) : State :=
  let ring := r.ring.val
  match s.cmd r with
  | none => s
  | some c =>
    if c.op ≠ op ∨ c.started = true ∨ s.mayStart ring c = false then s
    else
      let fin (t : State) (st d : Nat) (su : List Byte) : State := t.finish ring c.seq st d su
      if ringAccepts ring op = false ∨ leAt c.desc 1 1 / 16 ≠ 0 ∨ s.listed c.panel = false then fin s 0x01 0 []
      else if c.panel ≠ s.ownId then
        if s.routable c.panel = false then fin s 0x09 0 []
        else
          (s.modCmd ring c.seq (fun c => { c with started := true })).inject (.io s.mcIo)
            { Packet.blank with
              opc := 0xC, cls := 3, len := 1, dpanel := BitVec.ofNat 16 c.panel, spanel := BitVec.ofNat 16 s.ownId
              sep := s.mcSep, attr := 8, payload := bytesAt c.desc 0 64 }
      else
        match f c s with
        | (t, .fin st d su) => fin t st d su
        | (t, .run) => t.modCmd ring c.seq (fun c => { c with started := true })

/-- The subfunction of a command of the IADDR family (Table 12-10). -/
def Cmd.sub (c : Cmd) : Nat := c.u32 0x24

/-! ### Posting (R318, R322, R324, R333) -/

/-- The bytes of a completion entry (Table 12-6). -/
def completionBytes (ring log2 : Nat) (c : Cmd) (st d : Nat) (su : List Byte) (halted : Bool) : List Byte :=
  let phase := 1 - c.seq / 2 ^ log2 % 2
  leBytes 4 (c.u32 4) ++ leBytes 4 c.seq ++ [BitVec.ofNat 8 st, BitVec.ofNat 8 (phase + 2 * bitN (enPassant ring c) + 4 * bitN halted)] ++
  leBytes 2 ring ++ leBytes 2 c.target ++ leBytes 2 d ++ bytesAt su 0 16

/-- The window after an en passant completion (Table 12-14). -/
def windowPosted (w : Window) (c : Cmd) (st : Nat) (block : List Byte) : Window :=
  let late := w.state == 2 || w.state == 4
  { state := if late then 4 else 2, len := c.u16 0x14, status := st, count := if late then min 255 (w.count + 1) else 0
    tag := BitVec.ofNat 32 (c.u32 4), payload := bytesAt block 0 56 }

/-- The result block that an en passant completion carries: a LAUNCH's of this panel, or a follower's, whose bytes are not known here and
free (R307, R333). (DESIGN CHOICE, log entry 75.) -/
def State.postedBlock (s : State) (r : Nat) (c : Cmd) : List Byte :=
  if c.panel ≠ s.ownId then (List.range (c.u16 0x14)).map (fun i => Config.freeByte s.freeCtr i)
  else match (s.part c.part).launch with
    | some l => if l.ring = r ∧ l.seq = c.seq then l.block else []
    | none => []

/-- POST_COMPLETION (R313, R316, R318, R322): the next command of the ring, once finished and with room in the completion
ring, is posted. -/
def execPostCompletion (ring : Fin 1024) (s : State) : Host.Outcome State Fault Refusal :=
  let r := ring.val
  let g := s.ring r
  .next (match g.cmds with
    | [] => s
    | c :: cs =>
      match c.fin with
      | none => s
      | some (st, d, su) =>
        if g.live = false ∨ s.host.down = true ∨ 2 ^ g.log2 ≤ (c.seq + 2 ^ 32 - g.cqh) % 2 ^ 32 then s
        else
          let bs := completionBytes r g.log2 c st d su (c.stop && st != 0 && r != 0)
          let blk := s.postedBlock r c
          let s : State := if c.panel = s.ownId then s else s.freshen
          let s1 : State := { s with hostMem := wrN s.hostMem (g.cq + c.seq % 2 ^ g.log2 * 32) bs }
          let s2 := s1.modRing r (fun g =>
            { g with posted := (c.seq + 1) % 2 ^ 32, cmds := cs, log := g.log ++ [(c.seq, bs)]
                     window := if enPassant r c then windowPosted g.window c st blk else g.window })
          let s3 := s2.endLaunch r c
          if c.intr then s3.msix g.vector else s3)

/-- The bytes of an event record (Table 12-12): its place among the records posted gives the phase, its place among all events SEQ
(R329). (DEDUCED, log entry 64.) -/
def eventBytes (own log2 n seq : Nat) (e : EventRec) : List Byte :=
  leBytes 2 e.type.toNat ++ [BitVec.ofNat 8 (1 - n / 2 ^ log2 % 2), 0] ++ leBytes 4 seq ++ leBytes 2 (e.part * 4096 + own) ++
  leBytes 6 e.move.toNat ++ bytesAt e.detail 0 16

/-- POST_EVENT (R315, R316, R329): the oldest event is posted; one that finds the ring full is counted and dropped, and
EVENTS_LOST comes first when space returns. (DEDUCED, log entry 64.) -/
def execPostEvent (s : State) : Host.Outcome State Fault Refusal :=
  let lg := clampN 4 16 (s.regF Reg.evcfg 0 5)
  let n := s.host.evPosted % 2 ^ 32
  let full := decide (2 ^ lg ≤ (n + 2 ^ 32 - s.host.evh) % 2 ^ 32)
  let put (t : State) (e : EventRec) (k : Nat) : State :=
    ({ t with hostMem := wrN t.hostMem (t.pair Reg.evqLo + n % 2 ^ lg * 32) (eventBytes t.ownId lg n (t.host.evSeq % 2 ^ 32) e) }.modHost
      (fun h => { h with evPosted := h.evPosted + k, evSeq := h.evSeq + k })).msix (t.regF Reg.evcfg 16 16)
  .next (if s.host.down then s
    else if 0 < s.host.evLost ∧ full = false ∧ s.hifOn = true then
      (put s ⟨0x00F1, 0, 0, leBytes 4 s.host.evLost⟩ 1).modHost (fun h => { h with evLost := 0 })
    else match s.events with
      | [] => s
      | e :: es =>
        let s1 : State := { s with events := es }
        if s.hifOn = false then (if s.host.started then s1 else s)
        else if full then s1.modHost (fun h => { h with evLost := h.evLost + 1, evSeq := h.evSeq + 1 })
        else put s1 e 1)

/-! ### Set-up and resets (R334, R335) -/

/-- The commands of the rings that have started and not finished, kept at their ring's number + 1,024 while they run to their end. -/
def State.orphans (s : State) : SMap Ring :=
  s.rings.foldl (fun m e =>
    let run := e.2.cmds.filter (fun c => c.started && c.fin.isNone)
    let k := if e.1 < 1024 then e.1 + 1024 else e.1
    smod Ring.reset m k (fun g => { g with cmds := g.cmds ++ run })) []

/-- Every ring is deleted; commands not started are dropped, started ones run on unseen, a LAUNCH that has finished is over, events are
dropped; those held before ENABLE is first set stay (R335, R390). -/
def State.dropRings (s : State) : State :=
  let done := s.rings.flatMap (fun e => (e.2.cmds.filter (fun c => c.fin.isSome)).map (fun c => (e.1, c)))
  let s0 := done.foldl (fun t e => t.endLaunch e.1 e.2) s
  let away (r : Nat) : Nat := if r < 1024 then r + 1024 else r
  let s1 : State := { s0 with
    rings := s.orphans, events := if s.host.started then [] else s.events
    parts := s0.parts.map (fun e => (e.1, { e.2 with
      launch := e.2.launch.map (fun l => { l with ring := away l.ring }), castling := e.2.castling.map (fun c => { c with ring := away c.ring }) })) }
  s1.modHost (fun h =>
    { h with poll := 1, evPosted := 0, evh := 0, evLost := if h.started then 0 else h.evLost, evSeq := if h.started then 0 else h.evSeq })

/-- HIF_CTL with ENABLE 1 (R306, R334): the admin ring is set up; discarded while no valid entry names the lead's own ID,
and where the panel is in a state that ignores it. -/
def execHifCtlEnable (s : State) : Host.Outcome State Fault Refusal :=
  .next (if s.hifOn = true ∨ s.listed s.ownId = false ∨ s.regF Reg.mgtState 28 4 = 0xD ∨ s.regF Reg.mgtState 28 4 = 0xE then s
    else
      let lg := clampN 1 16 (s.regF Reg.acfg 0 5)
      let s1 := (s.setRegF Reg.hifCtl 31 1 1).dropRings.modRing 0 (fun _ =>
        newRing lg (s.regF Reg.acfg 16 16) (s.pair Reg.asqLo) (s.pair Reg.acqLo))
      s1.modHost (fun h => { h with started := true }))

/-- HIF_CTL with ENABLE 0 (R335). -/
def execHifCtlDisable (s : State) : Host.Outcome State Fault Refusal :=
  .next (if s.hifOn then (s.setRegF Reg.hifCtl 31 1 0).dropRings else s)

/-- FLR (R335): as ENABLE 0; partitions keep running. -/
def execFlr (s : State) : Host.Outcome State Fault Refusal := .next ((s.setRegF Reg.hifCtl 31 1 0).dropRings)

/-- PERST# of a host port (R305, R335): on the active port it deletes every ring and resets the port's configuration space;
no failover. On the standby port only its link goes. -/
def execHcxPerst (port : Bool) (s : State) : Host.Outcome State Fault Refusal :=
  let down (h : HostPorts) : HostPorts := if port then { h with up1 := false } else { h with up0 := false }
  .next (if port = s.host.active then
      (((s.setRegF Reg.hifCtl 31 1 0).dropRings).clearRegs (fun o => decide (Reg.msix ≤ o ∧ o < Reg.msixPba + 0x100))).modHost down
    else s.modHost down)

/-! ### Ports and failover (R304, R305, Table 12-3) -/

/-- LINK_DOWN: the active link goes down: fetching, posting and host transfers stop. -/
def execLinkDown (s : State) : Host.Outcome State Fault Refusal :=
  .next (s.modHost (fun h =>
    { h with down := true, up0 := if h.active then h.up0 else false, up1 := if h.active then false else h.up1 }))

/-- Is the I/O die of a host port lost: HP0 lies on IO0, HP1 on IO4 (R12)? -/
def State.portLost (s : State) (port : Bool) : Bool :=
  s.defects.any (fun d => d.kind == 0xA && d.loc.toNat % 256 == (if port then 4 else 0))

/-- HOST_LINK_UP: a host port's link is up; on the active port work goes on. The link of a port whose I/O die is lost stays down. -/
def execHostLinkUp (port : Bool) (s : State) : Host.Outcome State Fault Refusal :=
  .next (if s.portLost port then s else s.modHost (fun h =>
    { h with up0 := h.up0 || !port, up1 := h.up1 || port, down := h.down && port != h.active }))

/-- Is the standby link up? -/
def HostPorts.standbyUp (h : HostPorts) : Bool := if h.active then h.up0 else h.up1

/-- FAILOVER (R305): 10 ms after the active link went down, with the standby link up, the ports are exchanged; completions
posted since the last head read are written again with identical bytes; PORT_FAILOVER is posted and every vector with a posted completion
or event is signalled once. -/
def execFailover (s : State) : Host.Outcome State Fault Refusal :=
  .next (if s.host.down = false ∨ s.host.standbyUp = false then s
    else
      let s1 := s.modHost (fun h => { h with active := !h.active, down := false, poll := 1 })
      let s2 := s1.rings.foldl (fun (t : State) e =>
        e.2.log.foldl (fun (u : State) c => { u with hostMem := wrN u.hostMem (e.2.cq + c.1 % 2 ^ e.2.log2 * 32) c.2 }) t) s1
      let s3 := s2.raise 0x00F2 0 [BitVec.ofNat 8 (bitN s2.host.active)]
      let vs := (s3.rings.filter (fun e => !e.2.log.isEmpty)).map (fun e => e.2.vector) ++ (if 0 < s3.host.evPosted then [s3.regF Reg.evcfg 16 16] else [])
      vs.eraseDups.foldl (fun t v => t.msix v) s3)

/-! ### The en passant window (R331, R333) -/

/-- Dword 0 of a window. -/
def Window.header (w : Window) : W32 := BitVec.ofNat 32 (w.state + w.len % 256 * 2 ^ 8 + w.status % 256 * 2 ^ 16 + w.count % 256 * 2 ^ 24)

/-- EN_PASSANT_HEADER_READ: READY or PASSED is returned once and becomes TAKEN. -/
def execEnPassantHeaderRead (ring : Fin 64) (s : State) : Host.Outcome State Fault Refusal :=
  let w := (s.ring ring.val).window
  let s1 : State := { s with rdata := w.header }
  .next (if w.state = 2 ∨ w.state = 4 then s1.modRing ring.val (fun g => { g with window := { g.window with state := 3 } }) else s1)

end Sys2Proof.Machine
end

