-- ==== Sys2Proof/Machine/Work.lean ====
section
/-! DEFINITION. The work commands of the rings (12_host_interface.md Tables 12-8, 12-8a and 12-9) but LOAD_PROGRAM, RESUME, and
how commands that run on finish. -/
namespace Sys2Proof.Machine

/-! ### Registers that commands report -/

/-- TPO_PSTATUS (Table 2-10). -/
def State.pstatus (s : State) (p : Nat) : Nat :=
  let q := s.part p
  q.st.toNat * 2 ^ 28 + bitN q.late * 2 ^ 27 + bitN q.ovf * 2 ^ 26 + q.haltSrc.toNat * 2 ^ 24

/-- HIF_STATUS (Table 12-15): running once the start is over, failover while the active link is down, fatal where the panel
is dark. -/
def State.hifStatus (s : State) : Nat :=
  let st := if s.rails.dark then 3 else if s.regF Reg.mgtState 28 4 ≠ 0xF then 0 else if s.host.down then 2 else 1
  st * 2 ^ 28 + bitN s.host.active * 2 ^ 27 + bitN s.host.standbyUp * 2 ^ 26 + (s.rings.filter (fun e => e.2.live)).length

/-- Is this panel the root of the partition (R308)? -/
def State.rootHere (s : State) (p : Nat) : Bool := (s.part p).parent.isNone

/-- The outcome STATE_CONFLICT of a partition (Table 12-7). -/
def State.conflict (s : State) (p : Nat) : State × Res := (s, .fin 2 (s.stateDetail p) [])

/-! ### Transfers (R168, R320) -/

/-- Is a partition at rest: idle or halted? -/
def State.idleOrHalted (s : State) (p : Nat) : Bool := [0, 2, 3].contains (s.part p).st.toNat

/-- Why 8 bytes of the device side may not be moved: status and detail. -/
def State.devBad (s : State) (p a : Nat) (write : Bool) : Option (Nat × Nat) :=
  match s.localPlace (some p) a with
  | .hbm pa => if s.granted (some p) (sliceOf pa) write then none else some (0x0B, 0)
  | .beyond => some (0x0B, 0)
  | .spad k _ =>
    if s.siteFenced k = true ∨ s.retained k = true then some (4, 1)
    else match s.partOfCore k with
      | some q => if (s.part q).st = 0 ∨ (s.part q).st = 2 ∨ (s.part q).st = 3 then none else some (2, s.stateDetail p)
      | none => none
  | .ctx off => if s.ctxAllowed (some p) off 8 then none else some (4, 1)
  | .census q _ => if !write && q == p then none else some (4, 1)
  | _ => some (4, 1)

/-- Why a range may not be moved: a scratchpad of a running partition, an address error, a refused grant, in that order.
(DEDUCED, log entry 63.) -/
def State.rangeBad (s : State) (p a n : Nat) (write : Bool) : Option (Nat × Nat) :=
  let bad := (List.range (n / 8)).filterMap (fun i => s.devBad p (a + 8 * i) write)
  match bad.find? (fun e => e.1 == 2) with
  | some e => some e
  | none => match bad.find? (fun e => e.1 == 4) with
    | some e => some e
    | none => bad.head?

/-- One access of the host interface to panel-local memory for a partition; a write to a page that a capture has not read
yet waits for the capture engine to read it first (R266). -/
def State.hostAccess (s : State) (p a : Nat) (x : Access) : State × Answer :=
  let pl := s.localPlace (some p) a
  match pl with
  | .hbm pa =>
    if !x.isRead && s.granted (some p) (sliceOf pa) true && s.writeHeld pa then (s.writeFreed pa).accessAt .host (some p) pl x
    else s.accessAt .host (some p) pl x
  | _ => s.accessAt .host (some p) pl x

/-- The operands of COPY_IN and COPY_OUT are good (Table 12-8). -/
def copyOperands (c : Cmd) : Bool :=
  mult (c.u64 8) 8 && mult (c.u64 0x10) 8 && decide (c.u64 0x10 < 2 ^ 44) && mult (c.u32 0x18) 8 && decide (8 ≤ c.u32 0x18) && c.zeroFrom 0x1C

/-- A transfer as it goes: the state, words moved in the longest prefix, still a prefix, and how it ended. -/
structure Moving where
  st : State
  done : Nat
  whole : Bool
  bad : Option (Nat × Nat)

/-- Was word i moved: before the place where the transfer ended always, behind it by a free bit (R320). -/
def movedWord (ctr i : Nat) (stop : Option Nat) : Bool :=
  match stop with
  | some n => decide (i < n) || (Config.freeByte ctr i).getLsbD 0
  | none => true

/-- Words of a list in runs within aligned 64-byte units of the device side at address a: first word and length. A whole unit is written at
once, so that it clears poison (R259). -/
def unitRuns (a : Nat) : List Nat → List (Nat × Nat)
  | [] => []
  | w :: ws =>
    match unitRuns a ws with
    | (f, n) :: rs => if f = w + 1 ∧ (a / 8 + f) % 8 ≠ 0 then (w, n + 1) :: rs else (w, 1) :: (f, n) :: rs
    | [] => [(w, 1)]

/-- Move one run of COPY_IN or COPY_OUT, m its words: the prefix grows while nothing before it was left out. -/
def moveRun (p h a : Nat) (inward : Bool) (m : Moving) (r : Nat × Nat) : Moving :=
  let o := 8 * r.1
  let m := if r.1 = m.done then m else { m with whole := false }
  let ok (s : State) : Moving := { m with st := s, done := if m.whole then m.done + r.2 else m.done }
  let fail (s : State) : Moving := { m with st := s, whole := false, bad := m.bad.or (some (5, 1)) }
  if inward then
    match m.st.hostAccess p (a + o) (.write (rdN m.st.hostMem (h + o) (8 * r.2))) with
    | (s1, .ok) => ok s1
    | (s1, _) => fail s1
  else
    match m.st.hostAccess p (a + o) (.read (8 * r.2)) with
    | (s1, .data bs) => ok { s1 with hostMem := wrN s1.hostMem (h + o) bs }
    | (s1, _) => fail s1

/-- Move a run, or what is still moved of it behind a failure. -/
def moveNext (p h a : Nat) (inward : Bool) (ctr : Nat) (m : Moving) (r : Nat × Nat) : Moving :=
  if m.bad.isNone then moveRun p h a inward m r
  else (unitRuns a (((List.range r.2).map (· + r.1)).filter (fun i => movedWord ctr i (some 0)))).foldl (moveRun p h a inward) m

/-- COPY_IN and COPY_OUT (R320). -/
def copyRun (op : Nat) (ans : HostAns) (c : Cmd) (s : State) : State × Res :=
  let p := c.part
  let h := c.u64 8
  let a := c.u64 0x10
  let n := c.u32 0x18
  if copyOperands c = false then (s, .fin 1 0 [])
  else if s.admitted p op c.target = false then s.conflict p
  else if 2 ^ 57 ≤ h ∨ 2 ^ 57 < h + n then (s, .fin 4 0 [])
  else match s.rangeBad p a n (op == 1) with
    | some (st, d) => (s, .fin st d [])
    | none =>
      let stop := match ans with
        | .ok => none
        | .addrAt k => if n ≤ k then none else some (k / 8)
        | .dataAt k => if n ≤ k ∨ op = 2 then none else some (k / 8)
      let m := (unitRuns a ((List.range (n / 8)).filter (fun i => movedWord s.freeCtr i stop))).foldl (moveNext p h a (op == 1) s.freeCtr) ⟨s, 0, true, none⟩
      let sum := leBytes 8 (8 * m.done)
      let t := m.st.freshen
      match m.bad, stop with
      | some (st, d), _ => (t, .fin st d sum)
      | none, some _ => (t, .fin (match ans with | .addrAt _ => 4 | _ => 5) 0 sum)
      | none, none => (t, .fin 0 0 sum)

/-- COPY_IN. -/
def execCopyIn (r : Ref) (ans : HostAns) (s : State) : Host.Outcome State Fault Refusal :=
  .next (s.start 1 r (fun c s => copyRun 1 ans c s))

/-- COPY_OUT. -/
def execCopyOut (r : Ref) (ans : HostAns) (s : State) : Host.Outcome State Fault Refusal :=
  .next (s.start 2 r (fun c s => copyRun 2 ans c s))

/-- SIGNAL (R320, Table 12-8): eight bytes in one aligned write. To another panel a write packet is sent, and the command runs
until it is answered. -/
def execSignal (r : Ref) (s : State) : Host.Outcome State Fault Refusal :=
  .next (s.start 0x0B r (fun c s =>
    let h := c.u64 8
    let bs := leBytes 8 (c.u64 0x10)
    if mult h 8 = false ∨ c.zeroFrom 0x18 = false ∨ 3 ≤ field h 60 4 then (s, .fin 1 0 [])
    else match s.place (some c.part) h with
      | .host b => ({ s with hostMem := wrN s.hostMem b bs }, .fin 0 0 [])
      | .remote q a =>
        if s.routable q = false ∨ s.homes.unreach.contains q = true then (s, .fin 9 0 [])
        else
          let tag := s.freeCtr % 2 ^ 16
          ((s.freshen.modCmd r.ring.val c.seq (fun c => { c with aux := tag })).inject (.io s.hostIo)
            { Packet.blank with
              opc := 2, cls := 3, len := 1, dpanel := BitVec.ofNat 16 q, spanel := BitVec.ofNat 16 s.ownId, sep := 0xD8
              part := BitVec.ofNat 4 c.part, tree := BitVec.ofNat 12 (s.part c.part).tree, tag := BitVec.ofNat 16 tag
              attr := 1, addr := BitVec.ofNat 64 (q * 2 ^ 44 + a), payload := bytesAt bs 0 64 }, .run)
      | .hbm pa => match s.hostAccess c.part (0x40000000000 + (pa - 0x40000000000)) (.write bs) with
        | (s1, .ok) => (s1, .fin 0 0 [])
        | (_, .err 8) => (s, .fin 0x0B 0 [])
        | _ => (s, .fin 4 1 [])
      | .beyond => (s, .fin 0x0B 0 [])
      | .job _ _ => (s, .fin 4 1 [])
      | .reg _ => (s, .fin 4 1 [])
      | .bad => (s, .fin 4 (if field h 60 4 = 1 then 0 else 1) [])
      | pl => match s.accessAt .host (some c.part) pl (.write bs) with
        | (s1, .ok) => (s1, .fin 0 0 [])
        | _ => (s, .fin 4 1 [])))

/-! ### Launching and waiting (R326, R327) -/

/-- Zero the scratchpad bytes of a core outside the resident regions of its class (Table 6-3, SCRUB); what the regions hold, their poison
and their errors stay. -/
def State.scrubCore (s : State) (k : Nat) : State :=
  let keep := ((s.classOf k).map (·.resident)).getD []
  let kept (off n : Nat) : Bool := keep.any (fun e => overlaps e.1 e.2 off n)
  let data := keep.map (fun e => (e.1, s.spadRd k e.1 e.2))
  let s1 := data.foldl (fun (t : State) e => { t with mem := wrN t.mem (spadAddr k e.1) e.2 }) (s.spadZero k)
  let o := s.core k
  s1.modCore k (fun c =>
    { c with poison := o.poison.filter (fun r => kept (64 * r.1) 64), spadCe := o.spadCe.filter (fun w => kept (8 * w) 8)
             spadUe := o.spadUe.filter (fun w => kept (8 * w) 8), spadWb := o.spadWb.filter (fun w => kept (8 * w) 8) })

/-- The operands of LAUNCH are good (Table 12-8a). -/
def State.launchOperands (s : State) (c : Cmd) : Bool :=
  let q := s.part c.part
  decide (c.u32 0x10 < 2) && decide (c.u16 0x14 ≤ 4096) && mult (c.u16 0x14) 8 && decide (c.u16 0x16 = 0) &&
  decide ((q.first - 1) * 2048 ≤ c.u32 0x18) && decide (c.u32 0x18 < (q.first - 1 + q.height) * 2048) &&
  mult (c.u32 0x1C) 8 && decide (c.u32 0x1C + c.u16 0x14 ≤ 2 ^ 21) && mult (c.u64 0x20) 8 && c.zeroFrom 0x28

/-- LAUNCH (R32, R326): an idle or halted partition with a loaded program starts with a move release, issued once every member core is
ready. -/
def execLaunch (r : Ref) (s : State) : Host.Outcome State Fault Refusal :=
  .next (s.start 4 r (fun c s =>
    let p := c.part
    if s.launchOperands c = false ∧ (s.part p).height ≠ 0 then (s, .fin 1 0 [])
    else if s.admitted p 4 c.target = false ∨ (s.part p).prog.isNone ∨ s.rootHere p = false then s.conflict p
    else if 2 ^ 57 ≤ c.u64 0x20 then (s, .fin 4 0 [])
    else
      let s1 := if bit (c.u32 0x10) 0 then (s.membersOf p).foldl (fun t k => t.scrubCore k) s else s
      let l : Launch :=
        { ring := r.ring.val, seq := c.seq, seed := BitVec.ofNat 64 (c.u64 8), scrub := bit (c.u32 0x10) 0, resLen := c.u16 0x14
          resCore := c.u32 0x18, resOff := c.u32 0x1C, resAddr := c.u64 0x20, first := (s.part p).move
          base := ((s.part p).positions.head?.filter (fun x => s.unchangedSince p x)).map (·.gen), begun := false, closing := false, status := 0
          recovered := false, block := [], value := 0, endMove := 0, endOvf := false }
      let s2 := s1.modPart p (fun q => { q with launch := some l, st := 1, late := false, haltSrc := 3, haltPend := none })
      match s.latent p with
      | some f => (s2.raiseHalt p .abort f, .run)
      | none => (s2.openLaunch p, .run)))

/-- SUMMARY of a LAUNCH (R327). -/
def launchSummary (l : Launch) (late : Bool) : List Byte :=
  leBytes 8 l.value.toNat ++ leBytes 6 l.endMove.toNat ++
  [BitVec.ofNat 8 (bitN late + 2 * bitN l.endOvf + 4 * bitN l.recovered), BitVec.ofNat 8 (min 255 (l.resLen / 8))]

/-- WAIT_MOVE (Table 12-8). -/
def execWaitMove (r : Ref) (s : State) : Host.Outcome State Fault Refusal :=
  .next (s.start 5 r (fun c s =>
    let p := c.part
    if 2 ^ 48 ≤ c.u64 8 ∨ 2 ≤ c.u32 0x14 ∨ c.zeroFrom 0x18 = false then (s, .fin 1 0 [])
    else if s.admitted p 5 c.target = false ∨ s.rootHere p = false then s.conflict p
    else (s.modCmd r.ring.val c.seq (fun d => { d with hit := decide (c.u64 8 ≤ (s.part p).move.toNat) }), .run)))

/-- Has a WAIT_MOVE what it waits for? -/
def State.waitDone (s : State) (c : Cmd) : Bool :=
  c.hit && (!bit (c.u32 0x14) 0 || (s.part c.part).positions.any (fun x => decide (c.u64 8 ≤ x.move.toNat)))

/-- WAIT_MOVE_TIMEOUT: TIMEOUT_MS passes first. -/
def execWaitMoveTimeout (r : Ref) (s : State) : Host.Outcome State Fault Refusal :=
  .next (match (s.ring (s.runRing r)).cmds.find? (fun c => c.seq == r.seq.toNat) with
    | none => s
    | some c =>
      if c.op = 5 ∧ c.panel = s.ownId ∧ c.started = true ∧ c.fin = none ∧ 0 < c.u32 0x10 ∧ s.waitDone c = false then
        s.finish (s.runRing r) c.seq 0x0C 0 []
      else s)

/-! ### Positions and castling -/

/-- A capture that a POSITION command waits for is under way or asked for; in a partition that does not run it begins at
once. -/
def State.ensureCapture (s : State) (p : Nat) : State :=
  let q := s.part p
  if q.st = 1 then s.modPart p (fun q => { q with captureAsk := true })
  else if q.capturing.isNone && q.st != 4 && q.st != 5 then s.beginCapture p
  else s

/-- POSITION: a capture begins at once in an idle or halted partition, at the next move release in a running one
(Table 12-9). -/
def execPosition (r : Ref) (s : State) : Host.Outcome State Fault Refusal :=
  .next (s.start 6 r (fun c s =>
    let p := c.part
    if c.zeroFrom 8 = false then (s, .fin 1 0 [])
    else if s.admitted p 6 c.target = false ∨ s.rootHere p = false then s.conflict p
    else ((s.modCmd r.ring.val c.seq (fun d => { d with aux := (s.part p).nextGen })).ensureCapture p, .run)))

/-- The buddy is asked which generations it holds of a partition (Table 16-15). -/
def State.queryStore (s : State) (p b : Nat) : State := s.inject (.io s.mcIo) (s.storePacket p b 0xF 4 0 (List.replicate 64 0))

/-- RESTORE (R427, Table 12-8): the partition takes the state of its newest or older complete generation; one with no position here asks
its buddy for them; with none that can be read, STATE_CONFLICT. -/
def execRestore (r : Ref) (s : State) : Host.Outcome State Fault Refusal :=
  .next (s.start 7 r (fun c s =>
    let p := c.part
    let g := leAt c.desc 8 1
    if 2 ≤ g ∨ c.zeroFrom 9 = false then (s, .fin 1 0 [])
    else if s.admitted p 7 c.target = false ∨ s.rootHere p = false then s.conflict p
    else match (s.part p).positions[g]? with
      | some x =>
        if x.mine = false ∧ (x.buddy = false ∨ (match s.remoteBuddy with | some b => !s.routable b | none => false) = true) then s.conflict p
        else ((s.restorePosition p x).pstatCopies p, .fin 0 0 (leBytes 6 x.move.toNat))
      | none => match s.remoteBuddy with
        | some b => if (s.part p).positions.isEmpty = true ∧ s.routable b = true then (s.queryStore p b, .run) else s.conflict p
        | none => s.conflict p))

/-- A RESTORE goes on once the buddy has answered its QUERY. -/
def State.finishRestore (s : State) (ring : Nat) (c : Cmd) : State :=
  let p := c.part
  let lost := match s.remoteBuddy with
    | some b => s.homes.unreach.contains b
    | none => true
  if c.waits.isEmpty then (if lost then s.finish ring c.seq 2 (s.stateDetail p) [] else s)
  else match (s.part p).positions[leAt c.desc 8 1]? with
    | some x =>
      if c.hit then ((s.restorePosition p x).pstatCopies p).finish ring c.seq 0 0 (leBytes 6 x.move.toNat)
      else s.finish ring c.seq 2 (s.stateDetail p) []
    | none => s.finish ring c.seq 2 (s.stateDetail p) []

/-- CASTLE: an eligible pair castles at the next move release (R370). -/
def execCastle (r : Ref) (s : State) : Host.Outcome State Fault Refusal :=
  .next (s.start 9 r (fun c s =>
    let p := c.part
    let a := c.u16 8
    let b := c.u16 0xA
    let k := leAt c.desc 0xC 1
    if 2 ≤ k ∨ c.zeroFrom 0xD = false ∨ (if k = 1 then 1152 else 144) ≤ max a b then (s, .fin 1 0 [])
    else if s.admitted p 9 c.target = false ∨ s.rootHere p = false ∨ s.castleOk p k a b = false ∨ (s.part p).castling.isSome then s.conflict p
    else (s.modPart p (fun q => { q with castling := some ⟨r.ring.val, c.seq, a, b, k⟩ }), .run)))

/-! ### NOP, FENCE, QUERY -/

/-- NOP: finishes at once. -/
def execCommandNop (r : Ref) (s : State) : Host.Outcome State Fault Refusal :=
  .next (s.start 0 r (fun c s => (s, if c.zeroFrom 8 then .fin 0 0 [] else .fin 1 0 [])))

/-- FENCE: waits for every command that had started on the target partition. -/
def execFence (r : Ref) (s : State) : Host.Outcome State Fault Refusal :=
  .next (s.start 8 r (fun c s =>
    if c.zeroFrom 8 = false then (s, .fin 1 0 [])
    else
      let w := s.rings.flatMap (fun e => (e.2.cmds.filter (fun d => d.started && d.fin.isNone && d.target == c.target)).map (fun d => (e.1, d.seq)))
      (s.modCmd r.ring.val c.seq (fun d => { d with waits := w }), .run)))

/-- Run a command only where a byte or word that tells two rows of one opcode apart is this row's. -/
def State.startSub (s : State) (op : Nat) (r : Ref) (mine : Cmd → Bool) (f : Cmd → State → State × Res) : State :=
  match s.cmd r with
  | none => s
  | some c => if mine c then s.start op r f else s

/-- QUERY of a partition; a reserved WHAT is INVALID. -/
def execQueryPartition (r : Ref) (s : State) : Host.Outcome State Fault Refusal :=
  .next (s.startSub 0xA r (fun c => leAt c.desc 8 1 != 1) (fun c s =>
    let p := c.part
    if 2 ≤ leAt c.desc 8 1 ∨ c.zeroFrom 9 = false then (s, .fin 1 0 [])
    else (s, .fin 0 0 (leBytes 4 (s.pstatus p) ++ leBytes 6 (s.part p).move.toNat ++ leBytes 4 (s.reg (Reg.pctx p)).toNat))))

/-- QUERY of the panel. -/
def execQueryPanel (r : Ref) (s : State) : Host.Outcome State Fault Refusal :=
  .next (s.startSub 0xA r (fun c => leAt c.desc 8 1 == 1) (fun c s =>
    if c.zeroFrom 9 = false then (s, .fin 1 0 [])
    else
      let ranks := maskOf ((List.range 16).map (fun r => s.dieHole r != 15))
      (s, .fin 0 0 (leBytes 4 s.hifStatus ++ leBytes 2 ranks))))

/-! ### RESUME (R324) -/

/-- The ring that RESUME names is halted: restart it. -/
def resumeRun (flush : Bool) (c : Cmd) (s : State) : State × Res :=
  let n := c.u16 8
  let m := leAt c.desc 0xA 1
  if n = 0 ∨ 1024 ≤ n ∨ 2 ≤ m ∨ c.zeroFrom 0xB = false then (s, .fin 1 0 [])
  else if (s.ring n).halted = false then s.conflict c.part
  else
    let s1 := s.modRing n (fun g => { g with halted := false })
    let g := s1.ring n
    let s2 := State.fetch n (2 ^ g.log2) s1
    if flush then
      let old := (s.ring n).cmds.map (·.seq)
      (s2.modRing n (fun h => { h with cmds := h.cmds.map (fun d =>
        if old.contains d.seq then d else { d with started := true, fin := some (0x0D, 0, []) }) }), .fin 0 0 [])
    else (s2, .fin 0 0 [])

/-- RESUME with MODE 0, or with a reserved mode: fetching begins again after the failing descriptor. -/
def execResumeContinue (r : Ref) (s : State) : Host.Outcome State Fault Refusal :=
  .next (s.startSub 0x88 r (fun c => leAt c.desc 0xA 1 != 1) (fun c s => resumeRun false c s))

/-- RESUME with MODE 1: every descriptor up to SQT is posted as CANCELLED. -/
def execResumeFlush (r : Ref) (s : State) : Host.Outcome State Fault Refusal :=
  .next (s.startSub 0x88 r (fun c => leAt c.desc 0xA 1 == 1) (fun c s => resumeRun true c s))

/-! ### RING_CREATE and RING_DELETE (R311) -/

/-- RING_CREATE: the ring exists at once; its doorbell word must be zero. (DEDUCED, log entry 63.) -/
def execRingCreate (r : Ref) (s : State) : Host.Outcome State Fault Refusal :=
  .next (s.start 0x80 r (fun c s =>
    let n := c.u16 8
    let lg := leAt c.desc 0xA 1
    let v := c.u16 0xC
    let sq := c.u64 0x10
    let cq := c.u64 0x18
    if n = 0 ∨ 1024 ≤ n ∨ lg = 0 ∨ 16 < lg ∨ (2048 ≤ v ∧ v ≠ 0xFFFF) ∨ mult sq 4096 = false ∨ mult cq 4096 = false ∨ 2 ^ 57 ≤ sq ∨ 2 ^ 57 ≤ cq ∨
      leAt c.desc 0xB 1 ≠ 0 ∨ c.u16 0xE ≠ 0 ∨ c.zeroFrom 0x20 = false then (s, .fin 1 0 [])
    else if (s.ring n).live then s.conflict c.part
    else if rdLe s.hostMem (s.doorbellAddr n) 8 ≠ 0 then (s, .fin 1 0 [])
    else (s.modRing n (fun _ => newRing lg v sq cq), .fin 0 0 [])))

/-- RING_DELETE: a ring with no unposted commands goes; its window returns to IDLE. (DEDUCED, log entry 63.) -/
def execRingDelete (r : Ref) (s : State) : Host.Outcome State Fault Refusal :=
  .next (s.start 0x81 r (fun c s =>
    let n := c.u16 8
    if n = 0 ∨ 1024 ≤ n ∨ c.zeroFrom 0xA = false ∨ (s.ring n).live = false then (s, .fin 1 0 [])
    else if (s.ring n).cmds.isEmpty = false then s.conflict c.part
    else (s.modRing n (fun _ => Ring.reset), .fin 0 0 [])))

/-! ### Steps 6 and 7 of LOAD_PROGRAM (R106, Tables 3-21 and 6-3) -/

/-- A site with no program (R106, Table 6-3): zeroed, every bundle the trap bundle, STATE 0x1; its fault record and copy cause clear
(Tables 3-14, 6-12) and both tiles are invalid (R110). -/
def State.blankCore (s : State) (k : Nat) : State :=
  (s.spadZero k).modCore k (fun d =>
    { d with st := if d.st = 7 ∨ d.st = 0 then d.st else 1, cls := 0, istore := [], istoreCe := [], istoreUe := [], fault := Exc.none, fmove := 0
             fmoveHi := 0, copyCause := 0, active := Tile.empty, shadow := Tile.empty })

/-- A core of the band is loaded: a cleared site takes DATA, store and class. -/
def State.loadCore (s : State) (k cls : Nat) (c : ClassRec) : State :=
  let s1 := c.data.foldl (fun (t : State) e => { t with mem := wrN t.mem (spadAddr k e.1) e.2 }) (s.blankCore k)
  s1.modCore k (fun d =>
    { d with st := if d.st = 7 then 7 else 2, cls := BitVec.ofNat 12 cls, istore := storeOf c.bundles, pc := c.entry, ended := false })

/-- Load a checked program. -/
def State.loadImage (s : State) (p : Nat) (g : Program) : State :=
  let q := s.part p
  let base := (q.first - 1) * 2048
  let s1 := (q.logicals.zip g.cmap).foldl (fun t e =>
    match t.physOf e.1, g.classes[e.2]? with
    | some k, some c => if base ≤ e.1 then t.loadCore k e.2 c else t
    | _, _ => t) s
  s1.modPart p (fun q => { q with prog := some g, progNew := true, loading := none })

/-- Step 6 begins: the program is gone, every member core reads STATE 0x1, and the checked program from a hall address is broadcast. -/
def State.beginLoad (s : State) (p h : Nat) (g : Program) : State :=
  ((s.membersOf p).foldl (fun t k => t.blankCore k) s).modPart p (fun q =>
    { q with prog := none, loading := some ⟨g, h, q.dies.filter (fun d => (s.die d).fenced)⟩ })

/-- Steps 6 and 7 cannot complete: a die of the band is dark, or has been fenced since the broadcast began, a rank is short, or the
image's source can no longer be reached (R106). -/
def State.bandLost (s : State) (p : Nat) (l : Loading) : Bool :=
  (s.part p).dies.any (fun d => ((s.die d).dark || (s.die d).fenced) && !l.fenced.contains d) ||
  (s.part p).ranks.any (fun r => s.dieHole r == 15) ||
  (match s.place (some p) l.source with
    | .remote q _ => !s.routable q || s.homes.unreach.contains q
    | _ => false)

/-- LOAD_PROGRAM ends (R106): with the whole band loaded, or with no loaded program where the band is lost, or an uncorrectable error
occurs while writing; when one does is left open, so it is free. (DESIGN CHOICE, log entry 109.) -/
def State.finishLoad (s : State) (ring : Nat) (c : Cmd) : State :=
  let p := c.part
  match (s.part p).loading with
  | none => s.finish ring c.seq 6 6 []
  | some l =>
    if s.bandLost p l || Config.writeFails s.freeCtr then
      (((s.membersOf p).foldl (fun t k => t.blankCore k) s).modPart p (fun q => { q with loading := none })).freshen.finish ring c.seq 6 6 []
    else (s.loadImage p l.prog).freshen.finish ring c.seq 0 0 (leBytes 2 l.prog.classes.length)

/-! ### COMMAND_FINISHES (R321, Tables 12-8 and 12-9) -/

/-- Is a command still running? -/
def State.runs (s : State) (e : Nat × Nat) : Bool := (s.ring e.1).cmds.any (fun d => d.seq == e.2 && d.fin.isNone)

/-- A LAUNCH goes on: its first release is issued once its cores are ready (R32); when it finishes the result block is written first
(R326). -/
def State.finishLaunch (s : State) (ring : Nat) (c : Cmd) : State :=
  let q := s.part c.part
  match q.launch with
  | none => s.finish ring c.seq 0x0E 0 []
  | some l =>
    if l.ring ≠ ring ∨ l.seq ≠ c.seq then s
    else if l.closing = false then s.openLaunch c.part
    else if l.status = 8 ∨ l.status = 0xE then s.finish ring c.seq l.status 0 []
    else if !q.positions.any (fun x => decide (l.endMove.toNat ≤ x.move.toNat)) then s
    else
      let s1 : State := if l.resAddr = 0 then s else { s with hostMem := wrN s.hostMem l.resAddr l.block }
      s1.finish ring c.seq l.status 0 (launchSummary l q.late)

/-- COMMAND_FINISHES: a started command whose effects are complete is marked finished. A relayed command finishes as the
follower's answer says, of which only that it comes is known here: its status, detail and summary are free (R307).
(DESIGN CHOICE, log entry 75.) -/
def execCommandFinishes (r : Ref) (s : State) : Host.Outcome State Fault Refusal :=
  let ring := s.runRing r
  .next (match (s.ring ring).cmds.find? (fun c => c.seq == r.seq.toNat) with
    | none => s
    | some c =>
      let p := c.part
      if c.started = false then
        if ringAccepts ring c.op = false ∧ s.mayStart ring c = true then s.finish ring c.seq 1 0 [] else s
      else if c.fin.isSome then s
      else if c.panel ≠ s.ownId then
        if s.homes.unreach.contains c.panel then s.finish ring c.seq 9 1 []
        else
          let st := (Config.freeByte s.freeCtr 0).toNat % 16
          let d := (Config.freeByte s.freeCtr 1).toNat + 256 * (Config.freeByte s.freeCtr 2).toNat
          (s.finish ring c.seq st (if st = 0 then 0 else d) ((List.range 16).map (fun i => Config.freeByte s.freeCtr (3 + i)))).freshen
      else match c.op with
        | 3 => s.finishLoad ring c
        | 4 => s.finishLaunch ring c
        | 7 => s.finishRestore ring c
        | 5 =>
          if s.waitDone c then s.finish ring c.seq 0 0 (leBytes 6 (s.part p).move.toNat)
          else if (s.part p).st = 1 then s
          else s.finish ring c.seq 0x0F (s.stateDetail p) []
        | 6 =>
          match (s.part p).positions.find? (fun x => decide (c.aux ≤ x.gen)) with
          | some x => s.finish ring c.seq 0 0 (leBytes 6 x.move.toNat ++ leBytes 1 x.gen)
          | none => if (s.part p).capturing.isSome || ((s.part p).captureAsk || (s.part p).captureFailed) && (s.part p).st == 1 then s
            else s.ensureCapture p
        | 8 => if c.waits.any s.runs then s else s.finish ring c.seq 0 0 []
        | 9 =>
          if c.hit then s.finish ring c.seq 0 0 (leBytes 6 c.aux)
          else match (s.part p).castling with
            | some q => if q.ring = ring ∧ q.seq = c.seq then s else s.finish ring c.seq 2 (s.stateDetail p) []
            | none => s.finish ring c.seq 2 (s.stateDetail p) []
        | 0x0B =>
          match c.waits with
          | [] => if s.homes.unreach.contains (c.u64 8 / 2 ^ 44 % 2 ^ 13) then s.finish ring c.seq 9 1 [] else s
          | (e, _) :: _ => if e = 0 then s.finish ring c.seq 0 0 [] else if e = 9 then s.finish ring c.seq 0xB 0 [] else s.finish ring c.seq 4 1 []
        | _ => s)

end Sys2Proof.Machine
end

