-- ==== Sys2Proof/Machine/Image.lean ====
section
/-! DEFINITION. Program images and LOAD_PROGRAM (03_core.md R99 to R106, Table 3-21; 07_scheduled_mesh.md R193 to R195;
06_scratchpad_and_copies.md Table 6-3). -/
namespace Sys2Proof.Machine

/-! ### The image (Tables 3-15 to 3-17) -/

/-- A section table entry. -/
structure Sect where
  ty : Nat
  off : Nat
  size : Nat
  rsv : Bool
  deriving DecidableEq, Repr

/-- The section table. -/
def sections (b : List Byte) : List Sect :=
  (List.range (leAt b 0x10 2)).map (fun i =>
    let e := (b.drop (0x40 + 16 * i)).take 16
    ⟨leAt e 0 2, leAt e 4 4, leAt e 8 4, leAt e 2 2 == 0 && leAt e 12 4 == 0⟩)

/-- Bytes of a section. -/
def sectBytes (b : List Byte) (s : Sect) : List Byte := (b.drop s.off).take s.size

/-- The section of an index and type. -/
def sectAt (b : List Byte) (ss : List Sect) (i ty : Nat) : Option (List Byte) :=
  match ss[i]? with
  | some s => if s.ty = ty then some (sectBytes b s) else none
  | none => none

/-- Step 1: header, size and CRC. (DEDUCED, log entry 63.) (DEDUCED, log entry 78.) -/
def imageStep1 (b : List Byte) (isize : Nat) : Bool :=
  leAt b 0 4 == 0x4950594B && leAt b 4 2 == 1 && leAt b 6 2 == 0x40 && leAt b 8 4 == isize && mult isize 8 && decide (0x40 ≤ isize) &&
  decide (isize ≤ 0xFFFFFFF8) && leAt b 0xC 4 == crc32c ((b.take 0xC ++ [0, 0, 0, 0] ++ b.drop 0x10).take isize) &&
  ((b.drop 0x26).take 26).all (· == 0) && decide (leAt b 0x13 1 < 2)

/-- Step 2: band, capabilities, features. -/
def State.imageStep2 (s : State) (p : Nat) (b : List Byte) : Bool :=
  let caps := (s.reg Reg.capsLo).toNat + 2 ^ 32 * (s.reg Reg.capsHi).toNat
  let feat := leAt b 0x14 4
  leAt b 0x12 1 == (s.part p).height && (List.range 64).all (fun i => !bit (leAt b 0x18 8) i || bit caps i) &&
  decide (feat < 2 ^ 16) && (List.range 16).all (fun i => !bit feat i || s.licensed i)

/-- Step 3: the section table; a section that overlaps the header or the table is rejected too. (DESIGN CHOICE, log entry
107.) -/
def imageStep3 (b : List Byte) : Bool :=
  let ss := sections b
  let n := leAt b 0x10 2
  decide (3 ≤ n) && decide (n ≤ 16384) && decide (0x40 + 16 * n ≤ b.length) &&
  ss.all (fun s => decide (1 ≤ s.ty ∧ s.ty ≤ 8) && mult s.off 8 && decide (0x40 + 16 * n ≤ s.off) && decide (s.off + s.size ≤ b.length) && s.rsv) &&
  (ss.zipIdx.all (fun e => ss.zipIdx.all (fun f => e.2 == f.2 || !overlaps e.1.off e.1.size f.1.off f.1.size))) &&
  (ss[leAt b 0x20 2]?.map (·.ty)) == some 2 && (ss[leAt b 0x22 2]?.map (·.ty)) == some 3 && (ss[leAt b 0x24 2]?.map (·.ty)) == some 8

/-! ### Sections of step 4 -/

/-- A BUNDLES section. -/
def readBundles (b : List Byte) : Option (List W128) :=
  if mult b.length 16 && decide (b.length ≤ 8192 * 16) then
    some ((List.range (b.length / 16)).map (fun i => BitVec.ofNat 128 (leAt b (16 * i) 16)))
  else none

/-- A CLAIMS section (R102), with nothing behind its last claim word. (DESIGN CHOICE, log entry 108.) -/
def readClaims (b : List Byte) : Option (List W64) :=
  let n := leAt b 0 2
  let ws := (List.range n).map (fun k => leAt b (8 + 8 * k) 8)
  if decide (1 ≤ n) && decide (n ≤ 256) && leAt b 2 6 == 0 && b.length == 8 + 8 * n && ws.all (fun w => (List.range 16).all (fun i => decide (field w (4 * i) 4 ≤ 0xD))) then
    some (ws.map (BitVec.ofNat 64))
  else none

/-- A RESIDENT section (R103): regions as start and size, with nothing behind the last. (DESIGN CHOICE, log entry 108.) -/
def readResident (b : List Byte) : Option (List (Nat × Nat)) :=
  let n := leAt b 0 2
  let rs := (List.range n).map (fun k => (leAt b (8 + 8 * k) 4, leAt b (12 + 8 * k) 4))
  if decide (n ≤ 16) && leAt b 2 6 == 0 && b.length == 8 + 8 * n &&
    rs.all (fun r => mult r.1 4096 && mult r.2 4096 && decide (0 < r.2) && decide (r.1 + r.2 ≤ 2 ^ 21)) &&
    rs.zipIdx.all (fun e => rs.zipIdx.all (fun f => e.2 == f.2 || !overlaps e.1.1 e.1.2 f.1.1 f.1.2)) then some rs
  else none

/-- A DATA section (R103): chunks as offset and bytes; `n` bounds the chunks. -/
def readData (rs : List (Nat × Nat)) : Nat → List Byte → Option (List (Nat × List Byte))
  | 0, b => if b.isEmpty then some [] else none
  | n + 1, b =>
    if b.isEmpty then some []
    else
      let off := leAt b 0 4
      let len := leAt b 4 4
      let padded := (len + 7) / 8 * 8
      if b.length < 8 + padded ∨ ((b.drop (8 + len)).take (padded - len)).all (· == 0) = false ∨
        rs.any (fun r => decide (r.1 ≤ off) && decide (off + len ≤ r.1 + r.2)) = false then none
      else (readData rs n (b.drop (8 + padded))).map (fun l => (off, (b.drop 8).take len) :: l)

/-- A list entry (Table 7-6). -/
def readEntry (v : Nat) : Option XEntry :=
  let kind := field v 60 4
  let n := field v 44 16
  let a := field v 0 21
  if field v 21 5 ≠ 0 ∨ (kind ≠ 1 ∧ kind ≠ 2) ∨ a % 32 ≠ 0 ∨ (kind = 2 ∧ a ≠ 0) then none
  else some ⟨kind == 2, if n = 0 then 65536 else n, sgn 18 (field v 26 18), a⟩

/-- All of a list, or none. -/
def allSome {α : Type} : List (Option α) → Option (List α)
  | [] => some []
  | none :: _ => none
  | some a :: l => (allSome l).map (a :: ·)

/-- Is a cross-connect word free of reserved codes (Table 7-3)? -/
def xcOk (xc : BitVec 16) : Bool := dirs.all (fun o => decide (xcOut xc o ≤ 5) && xcOut xc o != 2 + o.idx)

/-- One set of an EXCHANGE section (R194, R195). -/
def readXSet (b : List Byte) : Option XSet :=
  let xc : BitVec 16 := BitVec.ofNat 16 (leAt b 0 2)
  let counts := (List.range 8).map (fun i => leAt b (4 + i) 1)
  let total := counts.foldl (· + ·) 0
  if leAt b 2 2 ≠ 0 ∨ leAt b 12 4 ≠ 0 ∨ b.length ≠ 16 + 8 * total ∨ xcOk xc = false then none
  else
    match allSome ((List.range total).map (fun i => readEntry (leAt b (16 + 8 * i) 8))) with
    | none => none
    | some es =>
      let starts := (List.range 8).map (fun i => (counts.take i).foldl (· + ·) 0)
      let lists := (List.range 8).map (fun i => (es.drop (starts.getD i 0)).take (counts.getD i 0))
      let out := lists.take 4
      let inp := lists.drop 4
      if dirs.all (fun d => ((out.getD d.idx []).isEmpty || xcOut xc d == 1) && ((inp.getD d.idx []).isEmpty || xcLocal xc d)) then some ⟨xc, out, inp⟩
      else none

/-- An EXCHANGE section (R193 to R195). -/
def readExchange (b : List Byte) : Option Exchange :=
  let n := leAt b 0 2
  let st := leAt b 2 1
  let dir := (List.range n).map (fun k => (leAt b (8 + 8 * k) 4, leAt b (12 + 8 * k) 4))
  if n = 0 ∨ 256 < n ∨ leAt b 3 5 ≠ 0 ∨ b.length < 8 + 8 * n ∨ (st ≠ 0xFF ∧ n ≤ st) ∨
    dir.all (fun e => decide (8 + 8 * n ≤ e.1) && decide (e.1 + e.2 ≤ b.length)) = false ∨
    dir.zipIdx.all (fun e => dir.zipIdx.all (fun f => e.2 == f.2 || !overlaps e.1.1 e.1.2 f.1.1 f.1.2)) = false then none
  else
    match allSome (dir.map (fun e => readXSet ((b.drop e.1).take e.2))) with
    | none => none
    | some sets =>
      if st = 0xFF then some ⟨none, sets⟩
      else match sets[st]? with
        | none => none
        | some x =>
          if x.out.all (·.isEmpty) && x.inp.all (·.isEmpty) && decide (x.xc.toNat % 16 = 0) then some ⟨some st, sets⟩ else none

/-- A class record with its sections (Table 3-18). -/
def readClass (b : List Byte) (ss : List Sect) (c : List Byte) : Option ClassRec :=
  let opt (o ty : Nat) : Option (Option (List Byte)) :=
    let i := leAt c o 2
    if i = 0xFFFF then some none else (sectAt b ss i ty).map some
  match (sectAt b ss (leAt c 0 2) 1).bind readBundles, opt 4 4, (sectAt b ss (leAt c 6 2) 5).bind readClaims, opt 8 6, opt 10 7 with
  | some bs, some ex, some cl, some re, some da =>
    let ex' : Option (Option Exchange) := match ex with
      | none => some none
      | some x => (readExchange x).map some
    let re' : Option (List (Nat × Nat)) := match re with
      | none => some []
      | some x => readResident x
    match ex', re' with
    | some ex1, some rs =>
      let da' : Option (List (Nat × List Byte)) := match da with
        | none => some []
        | some x => readData rs (x.length + 1) x
      match da' with
      | some ds =>
        if leAt c 2 2 < bs.length ∧ leAt c 12 4 = 0 ∧ leAt c 24 8 = 0 ∧ bit (leAt c 16 8) 0 = true ∧ leAt c 2 2 < 8192 then
          some ⟨bs, BitVec.ofNat 13 (leAt c 2 2), ex1, cl, rs, ds, BitVec.ofNat 64 (leAt c 16 8)⟩
        else none
      | none => none
    | _, _ => none
  | _, _, _, _, _ => none

/-- The reduction codes of a TEMPO section (Table 3-20). -/
def planOps (tp : List Byte) : List Nat := (List.range 64).map (fun g => field (leAt tp (8 + g / 2) 1) (4 * (g % 2)) 4)

/-- A TEMPO section (R104). -/
def planOk (tp : List Byte) : Bool :=
  tp.length == 72 && decide (leAt tp 0 4 ≤ 10000) && leAt tp 4 4 == 0 && (planOps tp).all (fun o => decide (o ≤ 8))

/-- A CLASSMAP section: one class number for each logical core of the band (R101). -/
def classMapOk (n band : Nat) (cm : List Byte) : Bool :=
  cm.length == band * 4096 && (List.range (cm.length / 2)).all (fun i => decide (leAt cm (2 * i) 2 < n))

/-- The class records of a CLASSES section. -/
def readClasses (b : List Byte) (ss : List Sect) (ct : List Byte) : Option (List ClassRec) :=
  let n := ct.length / 32
  if mult ct.length 32 = false ∨ n = 0 ∨ 4096 < n then none
  else allSome ((List.range n).map (fun i => readClass b ss ((ct.drop (32 * i)).take 32)))

/-- A section keeps the rules of its type, whether a class names it or not; `n` is the number of classes of the image. A chunk of a
DATA section that no class names has no region to lie in. -/
def sectionOk (b : List Byte) (ss : List Sect) (n : Nat) (s : Sect) : Bool :=
  let x := sectBytes b s
  match s.ty with
  | 1 => (readBundles x).isSome
  | 2 => (readClasses b ss x).isSome
  | 3 => classMapOk n (leAt b 0x12 1) x
  | 4 => (readExchange x).isSome
  | 5 => (readClaims x).isSome
  | 6 => (readResident x).isSome
  | 7 => (readData [(0, 2 ^ 33)] (x.length + 1) x).isSome
  | 8 => planOk x
  | _ => false

/-- Step 4: every section of the image by the rules of its type, and the class records with the sections they name (R100 to R104, R193 to
R195). -/
def imageStep4 (b : List Byte) : Option Program :=
  let ss := sections b
  match sectAt b ss (leAt b 0x20 2) 2, sectAt b ss (leAt b 0x22 2) 3, sectAt b ss (leAt b 0x24 2) 8 with
  | some ct, some cm, some tp =>
    if ss.all (sectionOk b ss (ct.length / 32)) = false then none
    else
      (readClasses b ss ct).map (fun cs =>
        { strict := bit (leAt b 0x13 1) 0, features := BitVec.ofNat 32 (leAt b 0x14 4), classes := cs
          cmap := (List.range (cm.length / 2)).map (fun i => leAt cm (2 * i) 2), stale := leAt tp 0 4
          ops := (planOps tp).map (BitVec.ofNat 4), overlap := BitVec.ofNat 256 (leAt tp 0x28 32), digest := BitVec.ofNat 32 (leAt b 0xC 4), size := b.length })
  | _, _, _ => none

/-! ### Step 5: bundles -/

/-- Features that an instruction shows: formats, the set engine, stochastic rounding, the fixed window. -/
def opFeatures : SlotOp → List Nat
  | .vadd f => [fmtFeature f.fmt] | .vsub f => [fmtFeature f.fmt] | .vmul f => [fmtFeature f.fmt] | .vfma f => [fmtFeature f.fmt]
  | .vfms f => [fmtFeature f.fmt] | .vmax f => [fmtFeature f.fmt] | .vmin f => [fmtFeature f.fmt] | .vabs f => [fmtFeature f.fmt]
  | .vneg f => [fmtFeature f.fmt] | .vand f => [fmtFeature f.fmt] | .vor f => [fmtFeature f.fmt] | .vxor f => [fmtFeature f.fmt]
  | .vexp f => [fmtFeature f.fmt] | .vlog f => [fmtFeature f.fmt] | .vrcp f => [fmtFeature f.fmt] | .vrsqrt f => [fmtFeature f.fmt]
  | .vrowstat f => [fmtFeature f.fmt] | .vmov f => [fmtFeature f.fmt] | .vcmp f => [fmtFeature f.fmt]
  | .vbcast f => [fmtFeature f.fmt] | .vext f => [fmtFeature f.fmt]
  | .vcvt f => [fmtFeature f.fmtIn, fmtFeature f.fmtOut] ++ (if f.rnd = 4 then [7] else [])
  | .smerge _ => [4] | .sprobe _ => [4] | .scompact _ => [4] | .ssort _ => [4]
  | .mmul f => [fmtFeature f.fmt] | .mload f => [fmtFeature f.fmt] | .mouter f => [fmtFeature f.fmt]
  | .mdrain f => fmtFeature f.fmt :: (if f.rnd = 4 then [7] else [])
  | .mcfg f => if f.mode then [3] else []
  | _ => []

/-- A bundle passes: no reserved encoding, legal, its features declared. -/
def bundleOk (feat : Nat) (w : W128) : Bool :=
  let b := decodeBundle w
  (bundleEncodingBad b).isNone && illegalMask b == 0 && ([b.c, b.v, b.m, b.x].flatMap (fun i => opFeatures i.op)).all (bit feat)

/-- The loops of a class: first bundle of the body and its length. -/
def loopsOf (bs : List W128) : List (Nat × Nat) :=
  bs.zipIdx.filterMap (fun e => match (decodeBundle e.1).c.op with
    | .loop f => some (e.2 + 1, f.len.toNat)
    | _ => none)

/-- No loop body extends past the end of a body that encloses it (R80); a body goes on at bundle 0 behind bundle 0x1FFF. -/
def loopsOk (bs : List W128) : Bool :=
  let l := loopsOf bs
  l.all (fun o => l.all (fun i =>
    let d := (i.1 + 8192 - 1 - o.1) % 8192
    decide (o.2 ≤ d) || decide (d + 1 + i.2 ≤ o.2)))

/-- Step 5: every bundle of every BUNDLES section, and reduction 0x8 of every TEMPO section. -/
def imageStep5 (b : List Byte) : Bool :=
  let feat := leAt b 0x14 4
  (sections b).all (fun s =>
    let x := sectBytes b s
    match s.ty with
    | 1 => ((readBundles x).map (fun bs => bs.all (bundleOk feat) && loopsOk bs)).getD false
    | 8 => (planOps x).all (fun o => o != 8 || bit feat 3)
    | _ => true)

/-! ### LOAD_PROGRAM -/

/-- Bytes of the image at a hall address, or how reading it ends. -/
def State.readImage (s : State) (p h n : Nat) : Except (Nat × Nat) (List Byte) :=
  match s.place (some p) h with
  | .bad => .error (4, if field h 60 4 = 1 then 0 else 1)
  | .host b => .ok (rdN s.hostMem b n)
  | .remote q a =>
    if s.routable q = false ∨ s.homes.unreach.contains q = true then .error (9, 0)
    else .ok ((List.range n).map (fun i => Config.remoteByte s.freeCtr q (a + i)))
  | _ =>
    let a := h % 2 ^ 44
    match s.rangeBad p a ((n + 7) / 8 * 8) false with
    | some e => .error e
    | none =>
      let r := (List.range ((n + 7) / 8)).map (fun i => (s.hostAccess p (a + 8 * i) (.read 8)).2)
      match allSome (r.map (fun x => match x with | .data bs => some bs | _ => none)) with
      | some l => .ok (l.flatten.take n)
      | none => .error (5, 1)

/-- The first step of Table 3-21 that fails, or the program. -/
def State.checkImage (s : State) (p isize : Nat) (b : List Byte) : Except Nat Program :=
  if imageStep1 b isize = false then .error 1
  else if s.imageStep2 p b = false then .error 2
  else if imageStep3 b = false then .error 3
  else match imageStep4 b with
    | none => .error 4
    | some g => if imageStep5 b = false then .error 5 else .ok g

/-- LOAD_PROGRAM (R105, R106): every check before any store is written; then the command runs while the program is broadcast, and
COMMAND_FINISHES ends it. -/
def execLoadProgram (r : Ref) (s : State) : Host.Outcome State Fault Refusal :=
  .next (s.start 3 r (fun c s =>
    let p := c.part
    let h := c.u64 8
    let n := c.u32 0x10
    if c.zeroFrom 0x14 = false ∨ 2 ≤ field h 60 4 then (s, .fin 1 0 [])
    else if s.admitted p 3 c.target = false then s.conflict p
    else match s.readImage p h n with
      | .error (st, d) => (s, .fin st d [])
      | .ok b => match s.checkImage p n b with
        | .error step => (s.freshen, .fin 6 step [])
        | .ok g => ((s.beginLoad p h g).freshen, .run)))

end Sys2Proof.Machine
end

