-- ==== Sys2Proof/Machine/Partitions.lean ====
section
/-! DEFINITION. PARTITION_SET (12_host_interface.md R328, Table 12-11) with what it does to ranks, slices, grants, the tempo
tree and positions (06_scratchpad_and_copies.md R167, 10_memory_stacks.md R253, R256, 16_faults_and_recovery.md R420). -/
namespace Sys2Proof.Machine

/-! ### The record -/

/-- Bit i of a bitmap in a record. -/
def recBit (r : List Byte) (off i : Nat) : Bool := (r.getD (off + i / 8) 0).getLsbD (i % 8)

/-- Limits of the effective grant (R398, Table 15-15). -/
def State.limContexts (s : State) : Nat := s.regF Reg.llim 9 11
def State.limPartitions (s : State) : Nat := s.regF Reg.llim 4 5
def State.limPanels (s : State) : Nat :=
  if s.regF Reg.llim 20 12 = 0 ∧ s.limContexts ≠ 0 then 4096 else s.regF Reg.llim 20 12

/-- Two ports of a tempo path lie on different I/O dies (R287). -/
def twoDies (a b : Nat) : Bool := decide (a < 32) && decide (b < 32) && a / 4 != b / 4

/-- A reserved bit, PFLAGS or TENANT is wrong (reason 0x07). -/
def recReserved (r : List Byte) : Bool :=
  decide (1 < leAt r 2 1) || leAt r 4 4 == 0 || ((r.drop 0x14).take 12).any (· != 0)

/-- The band is out of range, overlaps another partition's, or holds a short rank, which no partition may (reason 0x01, R20,
R22). -/
def State.bandBad (s : State) (p : Nat) (r : List Byte) : Bool :=
  let f := leAt r 0 1
  let h := leAt r 1 1
  decide (f = 0) || decide (17 < f + h) || (List.range h).any (fun i => s.dieHole (f - 1 + i) == 15) || s.parts.any (fun e => e.1 != p && decide (0 < e.2.height) &&
    decide (f < e.2.first + e.2.height) && decide (e.2.first < f + h))

/-- The context window is beyond 1,024 or overlaps another (reason 0x04, R178). -/
def State.windowBad (s : State) (p : Nat) (r : List Byte) : Bool :=
  let b := leAt r 8 2
  let n := leAt r 0xA 2
  decide (1024 < b + n) || decide (1023 < b) || (List.range 16).any (fun q =>
    let w := s.ctxWindow q
    q != p && decide (0 < w.2) && decide (0 < n) && decide (b < w.1 + w.2) && decide (w.1 < b + n))

/-- The tempo links of the record break Table 12-11 (reason 0x05, R42). -/
def linksBad (own : Nat) (r : List Byte) : Bool :=
  let tree := leAt r 0xC 2
  let par := leAt r 0x10 2
  let n := leAt r 3 1
  let rep (i : Nat) : Nat := leAt r (0x20 + 4 * i) 4
  let child (i : Nat) : Nat := leAt r (0x4E0 + 4 * i) 4
  decide (64 < n) || decide (4095 < tree) || decide (4095 < leAt r 0xE 2) ||
  (tree == 0 && (n != 0 || par != 0xFFFF || leAt r 0xE 2 != 0)) ||
  (par != 0xFFFF && (decide (4095 < par) || par == own || !twoDies (leAt r 0x12 1) (leAt r 0x13 1))) ||
  (List.range 16).any (fun i => bit (rep i) 31 &&
    (field (rep i) 28 3 != 0 || field (rep i) 10 6 != 0 || field (rep i) 16 12 == 0 || field (rep i) 5 5 == field (rep i) 0 5)) ||
  (List.range n).any (fun i => field (child i) 28 4 != 0 || field (child i) 10 6 != 0 || field (child i) 16 12 == own ||
    !twoDies (field (child i) 5 5) (field (child i) 0 5))

/-- A slice of OWN is retired, a store slice (R414) or another partition's, or one of READ is not granted to another (reason 0x06). -/
def State.ownBad (s : State) (p : Nat) (r : List Byte) : Bool :=
  (List.range 3072).any (fun i =>
    let g := s.grantOf i
    let other := g.getLsbD 31 && grantOwner g != p
    (recBit r 0x60 i && (g.getLsbD 29 || other || decide (64 - s.regF Reg.pstore 0 7 ≤ i % 64))) || (recBit r 0x360 i && (g.getLsbD 29 || !other)))

/-- SPREAD is not a subset of OWN with the same number of slices on every stack (reason 0x03, R250). -/
def spreadBad (r : List Byte) : Bool :=
  let k (t : Nat) : Nat := ((List.range 64).filter (fun c => recBit r 0x1E0 (t * 64 + c))).length
  (List.range 3072).any (fun i => recBit r 0x1E0 i && !recBit r 0x60 i) || (List.range 48).any (fun t => k t != k 0)

/-! ### Grant words (R253, Table 10-7) -/

/-- The grant word of a slice after a record, or after the partition's deletion. (DEDUCED, log entry 83.) -/
def newGrant (p : Nat) (g : W32) (own spread read : Bool) : W32 :=
  let mine := g.getLsbD 31 && grantOwner g == p
  let keep := g &&& 0x20000000
  if own then
    0x80000000 ||| (if spread then 0x40000000 else 0) ||| BitVec.ofNat 32 (p * 2 ^ 24) ||| (if mine then g &&& 0xFFFF else 0)
  else if mine then keep
  else if read then g ||| BitVec.ofNat 32 (2 ^ p) else g &&& ~~~(BitVec.ofNat 32 (2 ^ p))

/-- Partitions that a grant word names. -/
def named (g : W32) : List Nat :=
  (List.range 16).filter (fun q => g.getLsbD 31 && (grantOwner g == q || g.getLsbD q))

/-- Another partition that a changed grant word names runs, or holds a lock (R253, Table 12-9). -/
def State.grantConflict (s : State) (p : Nat) (f : Nat → W32) : Bool :=
  let touched := (List.range 3072).flatMap (fun i => let g := s.grantOf i; if f i = g then [] else named g ++ named (f i))
  touched.eraseDups.any (fun q => q != p && !s.admitted q 0x82 (q * 4096 + s.ownId))

/-- Write the grant words and MEM_PSPREAD.K; newly granted slices of another last tenant are zeroed (R256). -/
def State.setGrants (s : State) (p : Nat) (tenant : W32) (f : Nat → W32) : State :=
  let give := (List.range 3072).filter (fun i => let g := f i; g.getLsbD 31 && grantOwner g == p)
  let wipe := give.filter (fun i => decide ((s.slice i).tenant ≠ some tenant))
  let inWipe (a : Nat) : Bool := decide (0x40000000000 ≤ a ∧ a < 0x70000000000) && wipe.contains (sliceOf a)
  let s1 : State := { s with mem := s.mem.filter (fun b => !inWipe b.1) }
  let s2 := s1.modHbm (fun h =>
    { h with errs := h.errs.filter (fun e => !inWipe (64 * e.1))
             poison := h.poison.filter (fun u => !inWipe (64 * u)), wb := h.wb.filter (fun u => !inWipe (64 * u)) })
  let s3 := give.foldl (fun t i => t.modSlice i (fun l =>
    { l with tenant := some tenant })) s2
  let s4 := (List.range 3072).foldl (fun t i => t.setReg (Reg.grant i) (f i)) s3
  s4.setReg (Reg.pspread p) (BitVec.ofNat 32 (s4.spreadK p))

/-! ### Ranks (R166, R167, Table 6-3) -/

/-- Sites of a die rank that are powered, if only on the spine rail, and not fenced (R157, R167). -/
def State.poweredSites (s : State) (r : Nat) : List Nat :=
  ((List.range 9).flatMap (fun f => coresOfDie (r * 9 + f))).filter (fun k => !s.siteFenced k && !(s.die (dieOf k)).dark)

/-- Zero and trap-fill the powered sites of die ranks, which take a new last tenant; the others are noted, so that they are zeroed before
they hold a logical place again. -/
def State.resetRanks (s : State) (rs : List Nat) (tenant : W32) : State :=
  let s0 := rs.foldl (fun t r => (t.poweredSites r).foldl (fun t k => t.blankCore k) t) s
  let s1 := rs.foldl (fun t r => (List.range 9).foldl (fun t f =>
    let d := r * 9 + f
    let gone := (coresOfDie d).filter (fun k => !(s.poweredSites r).contains k)
    t.modDie d (fun e => { e with stale := gone.map siteOf })) t) s0
  { s1 with rankTenants := rs.foldl (fun m r => sput 0 m r tenant) s1.rankTenants }

/-! ### The tempo tree of a new record (R31) -/

/-- Every node's copy of a partition's move number restarts, and its combining and releases are dropped (R31). -/
def State.clearTempo (s : State) (p : Nat) : State :=
  { s with tnodes := (s.tnodes.map (fun e =>
      (e.1, { e.2 with moves := sdel e.2.moves p, comb := e.2.comb.filter (fun c => c.1 / 64 != p), sched := e.2.sched.filter (fun c => c.1 / 64 != p)
                       unacked := e.2.unacked.filter (fun u => decide (s.partOfMsg u.msg ≠ some p))
                       out := e.2.out.filter (fun u => decide (s.partOfMsg u.2 ≠ some p)) }))).filter (fun e => e.2 != TempoNode.reset) }

/-! ### Positions (R420) -/

/-- Positions that a record keeps: band, tenant, tree and member ordinal as recorded. -/
def keptPositions (q : Part) (first height tree member : Nat) (tenant : W32) : List Position :=
  q.positions.filter (fun c => c.first == first && c.height == height && c.tree == tree && c.member == member && c.tenant == tenant)

/-- The buddy is told to drop every generation. -/
def State.dropAll (s : State) (p : Nat) : State :=
  match s.remoteBuddy with
  | some b => s.inject (.io s.mcIo) (s.storePacket p b 0xF 3 0 (leBytes 4 0xFFFFFFFF ++ List.replicate 60 0))
  | none => s

/-- The recovery counters of a partition clear (R432). -/
def State.clearRecovery (s : State) (p : Nat) : State :=
  ((((s.setReg (Reg.plost p) 0).setReg (Reg.puseful p) 0).setReg (Reg.pwall p) 0).setRegF (Reg.pstat p) 8 4 0).setRegF (Reg.pstat p) 0 8 0

/-! ### The command -/

/-- Registers of a partition whose positions changed. -/
def State.positionsShown (s : State) (p : Nat) : State :=
  match (s.part p).positions with
  | [] => ((s.setReg (Reg.pgen p) 0).setReg (Reg.mgtPmoveLo p) 0).setReg (Reg.pstat p) 0
  | c :: _ => (((s.setReg (Reg.pgen p) (BitVec.ofNat 32 c.gen)).setReg (Reg.mgtPmoveLo p) (BitVec.ofNat 32 c.move.toNat)).pstatState p 1).pstatCopies p

/-- Delete a partition: its grants, window, positions, tempo state and band go (R328). (DEDUCED, log entry 51.) -/
def State.deletePartition (s : State) (p : Nat) : State :=
  let s1 := s.setGrants p 0 (fun i => newGrant p (s.grantOf i) false false false)
  let s2 := (((s1.setReg (Reg.pctx p) 0).clearTempo p).clearRecovery p).dropAll p
  { s2 with parts := sdel s2.parts p }.positionsShown p

/-- Apply a checked record (R328); a partition reset also takes die firmware that waits for it (Table 15-11). -/
def State.applyRecord (s : State) (p : Nat) (r : List Byte) : State :=
  let q := s.part p
  let first := leAt r 0 1
  let height := leAt r 1 1
  let tenant : W32 := BitVec.ofNat 32 (leAt r 4 4)
  let tree := leAt r 0xC 2
  let member := leAt r 0xE 2
  let rst := bit (leAt r 2 1) 0
  let ranks := (List.range height).map (fun i => first - 1 + i)
  let same := q.first == first && q.height == height && q.tenant == tenant && !rst
  let kept := keptPositions q first height tree member tenant
  let s1 := s.resetRanks (ranks.filter (fun n => rst || sget 0 s.rankTenants n != tenant)) tenant
  let s2 := s1.setGrants p tenant (fun i => newGrant p (s.grantOf i) (recBit r 0x60 i) (recBit r 0x1E0 i) (recBit r 0x360 i))
  let s3 := (s2.setReg (Reg.pctx p) (BitVec.ofNat 32 (leAt r 8 2 + leAt r 0xA 2 * 2 ^ 16))).clearTempo p
  let s4 := s3.modPart p (fun q =>
    { Part.reset with
      first := first, height := height, tenant := tenant, tree := tree, member := member
      parent := if leAt r 0x10 2 = 0xFFFF then none else some (leAt r 0x10 2)
      upPorts := (leAt r 0x12 1, leAt r 0x13 1)
      children := (List.range (leAt r 3 1)).map (fun i => let w := leAt r (0x4E0 + 4 * i) 4; (field w 16 12, field w 5 5, field w 0 5))
      repeats := (List.range 16).filterMap (fun i => let w := leAt r (0x20 + 4 * i) 4; if bit w 31 then some (BitVec.ofNat 32 w) else none)
      prog := if same then q.prog else none, positions := kept, nextGen := if kept.isEmpty then 0 else q.nextGen
      launch := q.launch })
  let s5 := (s4.part p).sites.foldl (fun t k => t.modCore k (fun c => { c with move := 0 })) s4
  let s6 := (s5.clearRecovery p).positionsShown p
  let s7 := if kept.length = q.positions.length then s6 else s6.dropAll p
  let s8 := if rst then { s7 with mgmt := { s7.mgmt with image := s7.mgmt.image.filter (fun e => !(e.1 / 65536 == 3 && (s7.part p).dies.contains (e.1 % 65536))) } } else s7
  (s8.calibrate (s8.part p).dies).calibrateLinks p

/-- Why a record is refused: status and DETAIL. A deletion's record is checked in its length and reserved bits alone.
(DEDUCED, log entry 86.) -/
def State.recordBad (s : State) (p : Nat) (r : List Byte) : Option (Nat × Nat) :=
  if leAt r 1 1 = 0 then (if 1 < leAt r 2 1 then some (1, 7) else none)
  else if s.limPartitions ≤ p then some (3, 19)
  else if recReserved r then some (1, 7)
  else if s.bandBad p r then some (1, 1)
  else if s.windowBad p r then some (1, 4)
  else if s.limContexts < leAt r 8 2 + leAt r 0xA 2 then some (3, 18)
  else if linksBad s.ownId r then some (1, 5)
  else if s.limPanels ≤ leAt r 0xE 2 then some (3, 17)
  else if s.ownBad p r then some (1, 6)
  else if spreadBad r then some (1, 3)
  else none

/-- PARTITION_SET: it applies the whole record or none of it (R328). (DEDUCED, log entry 65.) -/
def execPartitionSet (r : Ref) (s : State) : Host.Outcome State Fault Refusal :=
  .next (s.start 0x82 r (fun c s =>
    let p := c.part
    let a := c.u64 8
    let n := c.u32 0x10
    if c.zeroFrom 0x14 = false then (s, .fin 1 7 [])
    else if s.admitted p 0x82 c.target = false then s.conflict p
    else if 2 ^ 57 ≤ a ∨ 2 ^ 57 < a + n then (s, .fin 4 0 [])
    else if n < 0x4E0 ∨ n ≠ 0x4E0 + 4 * leAt (rdN s.hostMem (a + 3) 1) 0 1 then (s, .fin 1 7 [])
    else
      let rec' := rdN s.hostMem a n
      match s.recordBad p rec' with
      | some (st, d) => (s, .fin st d [])
      | none =>
        let del := leAt rec' 1 1 == 0
        let f (i : Nat) : W32 :=
          if del then newGrant p (s.grantOf i) false false false
          else newGrant p (s.grantOf i) (recBit rec' 0x60 i) (recBit rec' 0x1E0 i) (recBit rec' 0x360 i)
        if s.grantConflict p f then s.conflict p
        else ((if del then s.deletePartition p else s.applyRecord p rec'), .fin 0 0 [])))

end Sys2Proof.Machine
end

