-- ==== Sys2Proof/Machine/Objects.lean ====
section
/-! DEFINITION. Signed objects, flashes, counters, the effective licence grant and measurements
(15_bring_up_and_trust.md R377 to R381, R385, R398, R403). -/
namespace Sys2Proof.Machine

/-! ### Headers (Table 15-1) -/

def objType (b : List Byte) : Nat := leAt b 4 2
def objBody (b : List Byte) : List Byte := bytesAt b 0x80 (leAt b 8 4)
def objSvn (b : List Byte) : Nat := leAt b 0xC 4
def objSig (b : List Byte) : List Byte := b.drop (128 + leAt b 8 4)

/-- Bytes of a digest, first byte first. -/
def digestBytes (d : BitVec 384) : List Byte := (leBytes 48 d.toNat).reverse

/-- Size of a slot of a TYPE (Table 15-3). -/
def slotSize (ty : Nat) : Nat :=
  if ty = 1 then 2 ^ 24
  else if ty = 2 ∨ ty = 3 ∨ ty = 4 then 2 ^ 23
  else if ty = 5 then 2 ^ 22
  else if ty = 6 ∨ ty = 0x10 ∨ ty = 0x11 ∨ ty = 0x12 then 2 ^ 20
  else if ty = 0x13 then 9 * 2 ^ 20
  else if ty = 0x20 then 2 ^ 16
  else 2 ^ 14

/-- Anti-rollback counter of a TYPE (Table 15-2). -/
def counterOf (ty : Nat) : Option Nat :=
  if 1 ≤ ty ∧ ty ≤ 6 then some (ty - 1)
  else if ty = 0x10 then some 6 else if ty = 0x11 then some 7 else if ty = 0x20 then some 8 else if ty = 0x30 then some 9
  else if ty = 0x13 then some 10 else none

/-- Bit of a TYPE's family in a certificate's mask (R377). -/
def familyBit (ty : Nat) : Nat := if ty ≤ 6 then ty - 1 else if ty < 0x20 then 16 else 17

/-- Is a TYPE bound to the panel (Table 15-2)? -/
def boundType (ty : Nat) : Bool := [0x11, 0x12, 0x13, 0x20].contains ty

/-- Is the header well formed and every size in range? -/
def headerOk (b : List Byte) : Bool :=
  let n := leAt b 8 4
  leAt b 0 4 == 0x4A42594B && leAt b 6 2 == 0x80 && mult n 8 && decide (n ≤ slotSize (objType b) - 224) && b.length == n + 224 &&
  decide (objSvn b ≤ 0xFFFFFFFE) && ((b.drop 0x48).take 56).all (· == 0)

/-- SIGNER names a key. -/
def signedBy (b key : List Byte) : Bool := (b.drop 0x10).take 8 == (digestBytes (Config.sha384 key)).take 8

/-- The signature over header and body verifies under a key. -/
def sigOk (b key : List Byte) : Bool := Config.ecdsaVerify key (Config.sha384 (b.take (128 + leAt b 8 4))) (objSig b)

/-! ### Flashes (R378, R379) -/

def noObj : FlashObj := ⟨0, []⟩
def slotKey (ty slot : Nat) : Nat := ty * 64 + slot
def State.flashFail (s : State) (second : Bool) : Bool := s.regF Reg.mgtState (if second then 24 else 25) 1 == 1
def State.flashObj (s : State) (second : Bool) (ty slot : Nat) : FlashObj :=
  if s.flashFail second then noObj else sget noObj (if second then s.mgmt.flashB else s.mgmt.flashA) (slotKey ty slot)
def State.modMgmt (s : State) (f : Mgmt → Mgmt) : State := { s with mgmt := f s.mgmt }

/-- An effective counter (R380, R405). -/
def State.counter (s : State) (i : Nat) : Nat := (s.reg (Reg.svn i)).toNat
/-- A counter only rises. -/
def State.raiseCounter (s : State) (i v : Nat) : State :=
  if s.counter i < v then s.setReg (Reg.svn i) (BitVec.ofNat 32 v) else s

/-- The panel's binding: the digest of its identity public key (Table 15-1); none without an identity. -/
def State.binding (s : State) : Option (List Byte) :=
  if (s.reg Reg.secStatus).getLsbD 31 then some (digestBytes (Config.sha384 Config.identityKey)) else none

/-- The root public key, where an object holds the one whose digest the boot ROM has (R377). -/
def State.rootKey (s : State) : Option (List Byte) :=
  let ok (o : FlashObj) : Bool :=
    let k := Config.certKey (objBody o.bytes)
    headerOk o.bytes && objType o.bytes == 0x31 && Config.sha384 k == Config.romRootDigest && sigOk o.bytes k
  if ok (s.flashObj false 0x31 0) then some (Config.certKey (objBody (s.flashObj false 0x31 0).bytes))
  else if ok (s.flashObj true 0x31 0) then some (Config.certKey (objBody (s.flashObj true 0x31 0).bytes))
  else none

/-- Bodies of the valid key certificates held (R377). (DEDUCED, log entry 72.) -/
def State.certificates (s : State) : List (List Byte) :=
  match s.rootKey with
  | none => []
  | some root =>
    ((List.range 32).flatMap (fun i => [s.flashObj false 0x30 i, s.flashObj true 0x30 i])).filterMap (fun o =>
      if headerOk o.bytes && objType o.bytes == 0x30 && signedBy o.bytes root && sigOk o.bytes root &&
        ((o.bytes.drop 0x18).take 48).all (· == 0) && decide (s.counter 9 ≤ objSvn o.bytes) then some (objBody o.bytes) else none)

/-- The key that SIGNER names, if it may sign the TYPE. -/
def State.signerKey (s : State) (b : List Byte) : Option (List Byte) :=
  if objType b = 0x13 then
    if (s.reg Reg.secStatus).getLsbD 31 && signedBy b Config.identityKey then some Config.identityKey else none
  else if objType b = 0x30 then s.rootKey.bind (fun k => if signedBy b k then some k else none)
  else (s.certificates.find? (fun c => signedBy b (Config.certKey c) && (Config.certMask c).getLsbD (familyBit (objType b)))).map Config.certKey

/-- Why an object is refused (R377, Table 15-13), in the order header, TYPE, signer, signature, binding, SVN; none for a valid
one. (DEDUCED, log entry 52.) -/
def State.objBad (s : State) (accept : List Nat) (b : List Byte) : Option Nat :=
  if headerOk b = false then some 1
  else if accept.contains (objType b) = false then some 6
  else match s.signerKey b with
    | none => some 3
    | some k =>
      if sigOk b k = false then some 2
      else if (if boundType (objType b) then s.binding == some ((b.drop 0x18).take 48) else ((b.drop 0x18).take 48).all (· == 0)) = false then some 4
      else if (match counterOf (objType b) with | some i => decide (objSvn b < s.counter i) | none => false) then some 5
      else none

/-- The valid copy of a slot with the higher generation (R379). -/
def State.slotObj (s : State) (ty slot : Nat) : Option FlashObj :=
  let ok (o : FlashObj) : Bool := (s.objBad [ty] o.bytes).isNone
  let a := s.flashObj false ty slot
  let b := s.flashObj true ty slot
  if ok a && (!ok b || decide (b.gen ≤ a.gen)) then some a else if ok b then some b else none

/-- Slots that a TYPE has in a flash. -/
def slotsOf (ty : Nat) : Nat := if ty = 0x20 then 16 else if ty = 0x30 then 32 else if ty = 0x12 ∨ ty = 0x31 then 1 else 2

/-- The highest generation of a kind. -/
def State.topGen (s : State) (ty : Nat) : Nat :=
  (List.range (slotsOf ty)).foldl (fun m i => max m (max (s.flashObj false ty i).gen (s.flashObj true ty i).gen)) 0

/-- Write an object into a slot of both flashes that have not failed (R379). -/
def State.writeSlot (s : State) (ty slot : Nat) (b : List Byte) : State :=
  let o : FlashObj := ⟨(s.topGen ty + 1) % 2 ^ 32, b⟩
  s.modMgmt (fun m =>
    { m with flashA := if s.flashFail false then m.flashA else sput noObj m.flashA (slotKey ty slot) o
             flashB := if s.flashFail true then m.flashB else sput noObj m.flashB (slotKey ty slot) o })

/-- Empty a slot of both flashes. -/
def State.clearSlot (s : State) (ty slot : Nat) : State :=
  s.modMgmt (fun m => { m with flashA := sdel m.flashA (slotKey ty slot), flashB := sdel m.flashB (slotKey ty slot) })

/-- Active slot of a kind, and the object in it. -/
def State.activeSlot (s : State) (ty : Nat) : Nat := sget 0 s.mgmt.active ty
def State.activeObj (s : State) (ty : Nat) : Option FlashObj := s.slotObj ty (s.activeSlot ty)

/-- An object refused for its SVN posts ROLLBACK_REFUSED (R380). -/
def State.refuseObj (s : State) (d : Nat) (b : List Byte) : State :=
  if d = 5 then s.raise 0x0044 0 (leBytes 2 (objType b) ++ leBytes 4 (objSvn b) ++ leBytes 4 (match counterOf (objType b) with
    | some i => s.counter i
    | none => 0)) else s

/-! ### Licences (R398 to R400, Table 15-10) -/

/-- Bodies of the valid licences held, with their slots. -/
def State.licences (s : State) : List (Nat × List Byte) :=
  (List.range 16).filterMap (fun i => (s.slotObj 0x20 i).map (fun o => (i, objBody o.bytes)))

/-- A grant: FEATURES, PORTMASK, PANELS, CONTEXTS, PARTITIONS. -/
structure Grant where
  features : W32
  ports : W32
  panels : Nat
  contexts : Nat
  partitions : Nat
  deriving DecidableEq, Repr

def Grant.zero : Grant := ⟨0, 0, 0, 0, 0⟩

/-- OR of the features and ports, largest of the limits. -/
def Grant.join (a b : Grant) : Grant :=
  ⟨a.features ||| b.features, a.ports ||| b.ports, max a.panels b.panels, max a.contexts b.contexts, max a.partitions b.partitions⟩

def licenceGrant (b : List Byte) : Grant :=
  ⟨BitVec.ofNat 32 (leAt b 0xC 4), BitVec.ofNat 32 (leAt b 0x10 4), leAt b 0x14 2, leAt b 0x16 2, leAt b 0x18 1⟩

/-- Is a licence body in range? -/
def licenceOk (b : List Byte) : Bool :=
  b.length == 32 && decide (leAt b 8 1 ≤ 3) && decide (leAt b 9 1 ≤ 1) && leAt b 0xA 2 == 0 && decide (leAt b 0xC 4 < 2 ^ 16) &&
  decide (leAt b 0x14 2 ≤ 4096) && decide (leAt b 0x16 2 ≤ 1024) && decide (leAt b 0x18 1 ≤ 16) && (b.drop 0x19).all (· == 0)

/-- The grant in force, as the registers hold it. -/
def State.grantNow (s : State) : Grant :=
  ⟨s.reg Reg.lfeat, s.reg Reg.lports, s.limPanels, s.limContexts, s.limPartitions⟩

/-- The 13 bytes of a grant in a SUMMARY. -/
def Grant.bytes (g : Grant) : List Byte :=
  leBytes 4 g.features.toNat ++ leBytes 4 g.ports.toNat ++ leBytes 2 g.panels ++ leBytes 2 g.contexts ++ leBytes 1 g.partitions

/-- Publish a grant: CFG_LFEAT, CFG_LPORTS, CFG_LLIM; ports outside PORTMASK are held down, and newly licensed ones train
(R399, Table 11-11). (DEDUCED, log entry 61.) -/
def State.setGrant (s : State) (g : Grant) : State :=
  let old := s.reg Reg.lports
  let s1 := ((s.setReg Reg.lfeat g.features).setReg Reg.lports g.ports).setReg Reg.llim
    (BitVec.ofNat 32 (g.panels % 4096 * 2 ^ 20 + g.contexts * 2 ^ 9 + g.partitions * 16))
  (List.range 32).foldl (fun t p =>
    if g.ports.getLsbD p = false then t.setRegF (Reg.sylPort p) 28 4 0
    else if old.getLsbD p = false then t.setRegF (Reg.sylPort p) 28 4 1
    else t) s1

/-- The grant of the licences held whose LICID is not to be removed (R389, R400). -/
def State.grantHeld (s : State) : Grant :=
  (s.licences.filter (fun e => licenceOk e.2 && !s.mgmt.removing.contains (BitVec.ofNat 64 (leAt e.2 0 8)))).foldl (fun g e => g.join (licenceGrant e.2)) Grant.zero

/-! ### Measurements (R385, Table 15-4) -/

/-- Units of a firmware TYPE. -/
def partCount (ty : Nat) : Nat :=
  if ty = 1 then 2 else if ty = 2 then 8 else if ty = 3 then 144 else if ty = 4 then 12 else if ty = 5 then 48 else if ty = 6 then 96 else 1

def State.objDigest (s : State) (ty slot : Nat) : BitVec 384 := Config.sha384 (((s.slotObj ty slot).map (·.bytes)).getD [])

/-- Parts that run another image than the active one: TYPE, unit, digest. -/
def State.otherParts (s : State) : List (Nat × Nat × BitVec 384) :=
  s.mgmt.image.map (fun e => (e.1 / 65536, e.1 % 65536, s.objDigest (e.1 / 65536) (e.2 - 1)))

/-- The eleven counters, 44 bytes. -/
def State.counterBytes (s : State) : List Byte := (List.range 11).flatMap (fun i => leBytes 4 (s.counter i))

/-- The defect map in SEQ order, factory entries first. -/
def State.defectBytes (s : State) : List Byte :=
  ((s.defects.filter (fun d => d.seq == 0)) ++ s.defects.filter (fun d => d.seq != 0)).flatMap Defect.bytes

/-- The value of a measurement index. -/
def State.measurement (s : State) (i : Nat) : List Byte :=
  if i = 1 then digestBytes Config.romDigest
  else if 2 ≤ i ∧ i ≤ 7 then digestBytes (s.objDigest (i - 1) (s.activeSlot (i - 1)))
  else if i = 8 then digestBytes (s.objDigest 0x10 (s.activeSlot 0x10))
  else if i = 9 then digestBytes (s.objDigest 0x11 (s.activeSlot 0x11))
  else if i = 10 then digestBytes (Config.sha384 s.defectBytes)
  else if i = 11 then bytesAt s.grantNow.bytes 0 16
  else if i = 12 then Config.partList s.otherParts
  else s.counterBytes

/-- The measurement blocks of indices 1 to 13. -/
def State.measurements (s : State) : List Byte :=
  (List.range 13).flatMap (fun i => Config.measureBlock (i + 1) (s.measurement (i + 1)))

end Sys2Proof.Machine
end

