-- ==== Sys2Proof/Machine/Admin.lean ====
section
/-! DEFINITION. The admin commands for licences, firmware, the defect map, gambits and trust (15_bring_up_and_trust.md R400 to
R403, Tables 15-11 and 15-12; 16_faults_and_recovery.md R429). -/
namespace Sys2Proof.Machine

/-! ### Input and output (Table 12-10, R402) -/

/-- The operands of the IADDR family: input and output ranges of host memory, subfunction; unused bytes zero. -/
def Cmd.iaddr (c : Cmd) : Nat := c.u64 8
def Cmd.ilen (c : Cmd) : Nat := c.u32 0x10
def Cmd.oaddr (c : Cmd) : Nat := c.u64 0x18
def Cmd.olen (c : Cmd) : Nat := c.u32 0x20

/-- Reserved bytes are zero, and so are the fields that a subfunction does not use. -/
def Cmd.fieldsOk (c : Cmd) (inp out : Bool) : Bool :=
  c.u32 0x14 == 0 && c.zeroFrom 0x28 && (inp || (c.iaddr == 0 && c.ilen == 0)) && (out || (c.oaddr == 0 && c.olen == 0))

/-- Does a range of host memory lie beyond 2^57? -/
def hostBad (a n : Nat) : Bool := decide (2 ^ 57 ≤ a) || decide (2 ^ 57 < a + n)

/-- The input object. -/
def State.input (s : State) (c : Cmd) : List Byte := rdN s.hostMem c.iaddr c.ilen

/-- Write an output to OADDR; longer than OLEN it writes nothing and SUMMARY gives the length needed (R402). -/
def State.output (s : State) (c : Cmd) (bs sum : List Byte) : State × Res :=
  if c.olen < bs.length then (s, .fin 1 0 (leBytes 4 bs.length))
  else if hostBad c.oaddr bs.length then (s, .fin 4 0 [])
  else ({ s with hostMem := wrN s.hostMem c.oaddr bs }, .fin 0 0 sum)

/-- Run a subfunction of an opcode; the row of subfunction 0 also answers reserved ones with INVALID. -/
def State.startFn (s : State) (op n top : Nat) (r : Ref) (f : Cmd → State → State × Res) : State :=
  s.startSub op r (fun c => c.sub == n || (n == 0 && decide (top < c.sub))) (fun c s => if c.sub = n then f c s else (s, .fin 1 0 []))

/-! ### Licences (R398 to R400) -/

/-- The slot of a LICID, else a free slot. -/
def State.licenceSlot (s : State) (id : Nat) : Option Nat :=
  match s.licences.find? (fun e => leAt e.2 0 8 == id) with
  | some e => some e.1
  | none => (List.range 16).find? (fun i => (s.slotObj 0x20 i).isNone)

/-- LICENSE_INSTALL: a valid licence widens the grant for every later check (R400). (DEDUCED, log entry 70.) -/
def execLicenseInstall (r : Ref) (s : State) : Host.Outcome State Fault Refusal :=
  .next (s.startFn 0x83 0 2 r (fun c s =>
    let b := s.input c
    let body := objBody b
    if c.fieldsOk true false = false then (s, .fin 1 0 [])
    else if hostBad c.iaddr c.ilen then (s, .fin 4 0 [])
    else match s.objBad [0x20] b with
      | some d => (s.refuseObj d b, .fin 0xA d [])
      | none =>
        if licenceOk body = false then (s, .fin 0xA 1 [])
        else match s.licenceSlot (leAt body 0 8) with
          | none => (s, .fin 1 0 [])
          | some i =>
            let g := s.grantNow.join (licenceGrant body)
            let s1 := (s.writeSlot 0x20 i b).modMgmt (fun m => { m with removing := m.removing.erase (BitVec.ofNat 64 (leAt body 0 8)) })
            let s2 := if leAt body 9 1 = 1 then s1.raiseCounter 8 (objSvn b) else s1
            ((s2.setGrant g).raise 0x0045 0 g.bytes, .fin 0 0 g.bytes)))

/-- LICENSE_INSTALL with SUB 1: every licence body to OADDR. -/
def execLicenseList (r : Ref) (s : State) : Host.Outcome State Fault Refusal :=
  .next (s.startFn 0x83 1 2 r (fun c s =>
    if c.fieldsOk false true = false then (s, .fin 1 0 [])
    else s.output c (s.licences.flatMap (fun e => bytesAt e.2 0 32)) (leBytes 4 s.licences.length)))

/-- LICENSE_INSTALL with SUB 2: the licence of a LICID goes at the next warm reset; SUMMARY gives the grant after it. -/
def execLicenseRemove (r : Ref) (s : State) : Host.Outcome State Fault Refusal :=
  .next (s.startFn 0x83 2 2 r (fun c s =>
    let id : W64 := BitVec.ofNat 64 (leNat (s.input c))
    if c.fieldsOk true false = false ∨ c.ilen ≠ 8 then (s, .fin 1 0 [])
    else if hostBad c.iaddr 8 then (s, .fin 4 0 [])
    else if s.licences.any (fun e => leAt e.2 0 8 == id.toNat) = false then (s, .fin 1 0 [])
    else
      let s1 := s.modMgmt (fun m => { m with removing := addNew id m.removing })
      (s1, .fin 0 0 s1.grantHeld.bytes)))

/-! ### Firmware (R401, Table 15-11) -/

/-- TYPEs that firmware commands take. -/
def firmwareTypes : List Nat := [1, 2, 3, 4, 5, 6, 0x10, 0x11]

/-- Why a firmware object is refused: also a pairing that the manifest does not list (0x07). -/
def State.firmwareBad (s : State) (b : List Byte) : Option Nat :=
  match s.objBad firmwareTypes b with
  | some d => some d
  | none =>
    if objType b ≤ 6 && !Config.firmwareAllowed (objBody (((s.activeObj 0x11).map (·.bytes)).getD [])) b then some 7 else none

/-- Stage a checked object into the inactive slot of its kind in both flashes. -/
def State.stage (s : State) (b : List Byte) : State := s.writeSlot (objType b) (1 - s.activeSlot (objType b)) b

/-- FW_STAGE. -/
def execFwStage (r : Ref) (s : State) : Host.Outcome State Fault Refusal :=
  .next (s.start 0x84 r (fun c s =>
    let b := s.input c
    if c.fieldsOk true false = false ∨ c.sub ≠ 0 then (s, .fin 1 0 [])
    else if s.mgmt.update then s.conflict c.part
    else if hostBad c.iaddr c.ilen then (s, .fin 4 0 [])
    else match s.firmwareBad b with
      | some d => (s.refuseObj d b, .fin 0xA d [])
      | none =>
        let t := s.stage b
        (t, .fin 0 0 (leBytes 2 (objType b) ++ leBytes 4 (objSvn b) ++ leBytes 4 (t.topGen (objType b))))))

/-- TYPE and MODE of FW_ACTIVATE's SUB. -/
def Cmd.fwType (c : Cmd) : Nat := field c.sub 16 16
def Cmd.fwMode (c : Cmd) : Nat := field c.sub 0 4

/-- Run FW_ACTIVATE with a MODE; the row of MODE 0 also answers reserved fields with INVALID. -/
def State.startFw (s : State) (mode : Nat) (r : Ref) (f : Cmd → State → State × Res) : State :=
  s.startSub 0x85 r (fun c => c.fwMode == mode || (mode == 0 && decide (3 < c.fwMode))) (fun c s =>
    if c.fwMode ≠ mode ∨ field c.sub 4 12 ≠ 0 ∨ c.u32 0x14 ≠ 0 ∨ c.zeroFrom 0x28 = false ∨ c.ilen ≠ 0 ∨ c.oaddr ≠ 0 ∨ c.olen ≠ 0 ∨
      2 ^ 16 ≤ c.iaddr ∨ firmwareTypes.contains c.fwType = false then (s, .fin 1 0 [])
    else if s.mgmt.update then s.conflict c.part
    else f c s)

/-- SUMMARY of FW_ACTIVATE: parts activated and the kind's counter. -/
def State.fwSummary (s : State) (ty parts : Nat) : List Byte :=
  leBytes 2 parts ++ leBytes 4 (match counterOf ty with
    | some i => s.counter i
    | none => 0)

/-- FW_ACTIVATED (Table 15-14). -/
def State.fwEvent (s : State) (ty unit svn mode : Nat) : State :=
  s.raise 0x0041 0 (leBytes 2 ty ++ leBytes 2 unit ++ leBytes 4 svn ++ [BitVec.ofNat 8 mode])

/-- Take the other slot of a kind at the next warm reset: MODE 0 and MODE 3; FW_ACTIVATED is posted there.
(DEDUCED, log entry 72.) -/
def State.fwLater (s : State) (c : Cmd) (mode : Nat) : State × Res :=
  let ty := c.fwType
  let b := (s.flashObj false ty (1 - s.activeSlot ty)).bytes
  match s.slotObj ty (1 - s.activeSlot ty) with
  | none =>
    let d := (s.objBad [ty] b).getD 1
    (s.refuseObj d b, .fin 0xA d [])
  | some o =>
    if s.firmwareBad o.bytes = some 7 then (s, .fin 0xA 7 [])
    else
      (s.modMgmt (fun m => { m with atWarm := sput 0 m.atWarm ty (2 - s.activeSlot ty + (if mode = 3 then 2 else 0)) }),
        .fin 0 0 (s.fwSummary ty 0))

/-- FW_ACTIVATE with MODE 0. (DEDUCED, log entry 72.) -/
def execFwActivateWarm (r : Ref) (s : State) : Host.Outcome State Fault Refusal := .next (s.startFw 0 r (fun c s => s.fwLater c 0))

/-- Units that a live activation of a kind takes for UNIT, none where Table 15-11 does not allow it. -/
def State.liveUnits (s : State) (ty u : Nat) : List Nat :=
  let idleDie (d : Nat) : Bool := match s.partOfRank (rankOfDie d) with
    | some p => (s.part p).st != 1
    | none => true
  if ty = 1 then (if u = 0xFFFF ∧ s.regF Reg.mgtState 26 1 = 1 then [0, 1] else [])
  else if ty = 2 then (if u < 8 then [u] else [])
  else if ty = 3 then (if u = 0xFFFF then (List.range 144).filter idleDie else if u < 144 ∧ idleDie u = true then [u] else [])
  else if ty = 4 then (if u < 12 then [u] else [])
  else if ty = 5 then (if u = 0xFFFF then List.range 48 else if u < 48 then [u] else [])
  else if ty = 6 then (if u < 96 ∧ s.regF (Reg.pwrTile (u / 8)) 28 4 = 8 then [u] else [])
  else []

/-- FW_ACTIVATE with MODE 1: a staged image becomes the active one and the units take it; the kind's other units keep the old
image until they are activated, reset or the panel is. With nothing newer staged, the units that keep the old image take
the active one. Controllers exchange their roles (R388). (DEDUCED, log entry 72.) -/
def execFwActivateLive (r : Ref) (s : State) : Host.Outcome State Fault Refusal :=
  .next (s.startFw 1 r (fun c s =>
    let ty := c.fwType
    let us := s.liveUnits ty c.iaddr
    let a := s.activeSlot ty
    let fresh := match s.slotObj ty (1 - a), s.slotObj ty a with
      | some n, some o => decide (o.gen < n.gen)
      | some _, none => true
      | none, _ => false
    let key (u : Nat) : Nat := ty * 65536 + u
    let waits := us.filter (fun u => sget 0 s.mgmt.image (key u) != 0)
    if us.isEmpty ∨ (fresh = false ∧ waits.isEmpty = true) then s.conflict c.part
    else
      let s1 := if fresh then s.modMgmt (fun m =>
          { m with active := sput 0 m.active ty (1 - a)
                   image := (List.range (partCount ty)).foldl (fun i u =>
                     if us.contains u then sput 0 i (key u) 0 else if sget 0 i (key u) = 0 then sput 0 i (key u) (a + 1) else i) m.image })
        else s.modMgmt (fun m => { m with image := us.foldl (fun i u => sput 0 i (key u) 0) m.image })
      let s2 := if ty = 1 then s1.setRegF Reg.mgtState 27 1 (1 - s1.regF Reg.mgtState 27 1) else s1
      let svn := objSvn (((s2.activeObj ty).map (·.bytes)).getD [])
      (s2.fwEvent ty c.iaddr svn 1, .fin 0 0 (s2.fwSummary ty us.length))))

/-- FW_ACTIVATE with MODE 2: the kind's counter rises to the active SVN (R401). -/
def execFwActivateCommit (r : Ref) (s : State) : Host.Outcome State Fault Refusal :=
  .next (s.startFw 2 r (fun c s =>
    let ty := c.fwType
    match s.activeObj ty, counterOf ty with
    | some o, some i =>
      let s1 := s.raiseCounter i (objSvn o.bytes)
      (s1.fwEvent ty c.iaddr (objSvn o.bytes) 2, .fin 0 0 (s1.fwSummary ty 0))
    | _, _ => (s, .fin 0xA 1 [])))

/-- FW_ACTIVATE with MODE 3: the kind goes back to the other image at the next warm reset; a committed kind's older image is
refused for its SVN (R401). -/
def execFwActivateRevert (r : Ref) (s : State) : Host.Outcome State Fault Refusal := .next (s.startFw 3 r (fun c s => s.fwLater c 3))

/-! ### Defect map (R395, R396) -/

/-- DEFECT_QUERY: every entry to OADDR in SEQ order. -/
def execDefectQuery (r : Ref) (s : State) : Host.Outcome State Fault Refusal :=
  .next (s.startFn 0x86 0 2 r (fun c s =>
    if c.fieldsOk false true = false then (s, .fin 1 0 [])
    else s.output c s.defectBytes (leBytes 4 s.defects.length ++ leBytes 4 s.topSeq)))

/-- Is the place of an operator's entry in range (Table 15-9)? -/
def locOk (kind : Nat) (loc : List Byte) : Bool :=
  decide (leAt loc 0 1 < 144) &&
  (if kind = 1 then decide (leAt loc 1 2 < 272) && (loc.drop 3).all (· == 0)
   else if kind = 2 then decide (leAt loc 1 1 < 8) && (loc.drop 2).all (· == 0)
   else kind == 3 && (loc.drop 1).all (· == 0))

/-- DEFECT_QUERY with SUB 1: an operator's entry, effective at the next warm reset. -/
def execDefectQueryAdd (r : Ref) (s : State) : Host.Outcome State Fault Refusal :=
  .next (s.startFn 0x86 1 2 r (fun c s =>
    let b := s.input c
    if c.fieldsOk true false = false ∨ c.ilen ≠ 32 then (s, .fin 1 0 [])
    else if hostBad c.iaddr 32 then (s, .fin 4 0 [])
    else if leAt b 6 1 ≠ 3 ∨ leAt b 7 1 ≠ 0 ∨ locOk (leAt b 4 1) ((b.drop 8).take 8) = false then (s, .fin 1 0 [])
    else
      let t := s.addDefect (b.getD 4 0) (b.getD 5 0) 3 (BitVec.ofNat 64 (leAt b 8 8)) (BitVec.ofNat 64 (leAt b 0x18 8))
      (t, .fin 0 0 (leBytes 4 t.topSeq))))

/-- DEFECT_QUERY with SUB 2: the extended level runs at the next warm reset. -/
def execDefectQueryExtended (r : Ref) (s : State) : Host.Outcome State Fault Refusal :=
  .next (s.startFn 0x86 2 2 r (fun c s =>
    if c.fieldsOk false false = false then (s, .fin 1 0 [])
    else (s.modMgmt (fun m => { m with extended := true }), .fin 0 0 [])))

/-! ### Gambits (R429, Table 16-9) -/

/-- Is a gambit record in range? (DEDUCED, log entry 74.) -/
def gambitOk (g : Gambit) : Bool :=
  let k := g.kind
  g.id != 0 && decide (1 ≤ k ∧ k ≤ 5) && decide (g.part < 16) && leAt g.bytes 6 2 == 0 && leAt g.bytes 0xE 2 == 0 &&
  leAt g.bytes 0x15 3 == 0 && leAt g.bytes 0x1C 4 == 0 &&
  (if k = 1 ∨ k = 3 ∨ k = 4 then decide (g.unit < 144) else if k = 2 then decide (g.unit < 144) && (decide (g.unit < 32) || g.unit / 12 != g.unit % 12) else true) &&
  (k != 3 || decide (g.site < 272)) && (!(k == 1 || k == 3) || decide (g.port < 4)) &&
  (!(k == 2 || k == 4 || k == 5) || decide (1 ≤ leAt g.bytes 0x18 4 ∧ leAt g.bytes 0x18 4 ≤ 600000))

/-- GAMBIT is accepted while MGT_GCFG.ENABLE is 1. -/
def State.gambitsOn (s : State) : Bool := (s.reg Reg.gcfg).getLsbD 31
def State.armed (s : State) : List Gambit := s.gambits.filter (fun g => !g.fired)

/-- GAMBIT with SUB 0. -/
def execGambitArm (r : Ref) (s : State) : Host.Outcome State Fault Refusal :=
  .next (s.startFn 0x87 0 2 r (fun c s =>
    let g : Gambit := ⟨s.input c, false⟩
    if c.fieldsOk true false = false ∨ c.ilen ≠ 32 ∨ s.gambitsOn = false ∨ 16 ≤ s.armed.length then (s, .fin 1 0 [])
    else if hostBad c.iaddr 32 then (s, .fin 4 0 [])
    else if gambitOk g = false ∨ s.armed.any (fun x => x.id == g.id) = true then (s, .fin 1 0 [])
    else ({ s with gambits := s.gambits.filter (fun x => x.id != g.id) ++ [g] }, .fin 0 0 [])))

/-- GAMBIT with SUB 1: every armed and fired gambit to OADDR. -/
def execGambitList (r : Ref) (s : State) : Host.Outcome State Fault Refusal :=
  .next (s.startFn 0x87 1 2 r (fun c s =>
    if c.fieldsOk false true = false ∨ s.gambitsOn = false ∨ 16 ≤ s.armed.length then (s, .fin 1 0 [])
    else s.output c (s.gambits.flatMap (·.bytes)) []))

/-- GAMBIT with SUB 2: an armed gambit is cancelled. -/
def execGambitCancel (r : Ref) (s : State) : Host.Outcome State Fault Refusal :=
  .next (s.startFn 0x87 2 2 r (fun c s =>
    let id := leNat (s.input c)
    if c.fieldsOk true false = false ∨ c.ilen ≠ 4 ∨ s.gambitsOn = false ∨ 16 ≤ s.armed.length then (s, .fin 1 0 [])
    else if hostBad c.iaddr 4 then (s, .fin 4 0 [])
    else if s.armed.any (fun x => x.id == id) = false then (s, .fin 1 0 [])
    else ({ s with gambits := s.gambits.filter (fun x => x.fired || x.id != id) }, .fin 0 0 [])))

/-! ### Trust (Table 15-12) -/

/-- TRUST_QUERY with SUB 0: the certificate chain of slot 0. -/
def execTrustQueryChain (r : Ref) (s : State) : Host.Outcome State Fault Refusal :=
  .next (s.startFn 0x89 0 3 r (fun c s =>
    if c.fieldsOk false true = false then (s, .fin 1 0 [])
    else s.output c Config.chain0 (leBytes 4 Config.chain0.length)))

/-- TRUST_QUERY with SUB 1: the measurement blocks. -/
def execTrustQueryMeasurements (r : Ref) (s : State) : Host.Outcome State Fault Refusal :=
  .next (s.startFn 0x89 1 3 r (fun c s =>
    if c.fieldsOk false true = false then (s, .fin 1 0 [])
    else s.output c s.measurements (leBytes 4 s.measurements.length)))

/-- TRUST_QUERY with SUB 2: the blocks, then the identity key's signature over the nonce and the blocks. -/
def execTrustQueryQuote (r : Ref) (s : State) : Host.Outcome State Fault Refusal :=
  .next (s.startFn 0x89 2 3 r (fun c s =>
    let bs := s.measurements ++ Config.identitySign (Config.sha384 (s.input c ++ s.measurements))
    if c.fieldsOk true true = false ∨ c.ilen ≠ 32 then (s, .fin 1 0 [])
    else if hostBad c.iaddr 32 then (s, .fin 4 0 [])
    else s.output c bs (leBytes 4 bs.length)))

/-- TRUST_QUERY with SUB 3: the eleven counters. -/
def execTrustQueryCounters (r : Ref) (s : State) : Host.Outcome State Fault Refusal :=
  .next (s.startFn 0x89 3 3 r (fun c s =>
    if c.fieldsOk false true = false then (s, .fin 1 0 [])
    else s.output c s.counterBytes (leBytes 4 44)))

end Sys2Proof.Machine
end

