-- ==== Sys2Proof/Machine/Power.lean ====
section
/-! DEFINITION. Power entry, converters, breakers, regulators, hints, droop, trips and the panel limit (13_power.md R337 to R358;
17_ratings_connections_registers.md R436). -/
namespace Sys2Proof.Machine

/-! ### Darkness -/

/-- A die loses its supply: it is dark, its regions are off, its cores unpowered. -/
def State.darken (s : State) (d : Nat) : State :=
  let s1 := (s.modDie d (fun e => { e with dark := true })).modCores (coresOfDie d) (fun c => { c with st := 0, mhz := 0, capped := false })
  let s2 := (s1.setRegF (Reg.pwrDie d) 30 1 0).setRegF (Reg.pwrDie d) 0 16 0
  (List.range 8).foldl (fun t k =>
    let r := d * 8 + k
    (if t.railState r = 4 then t else t.setRail r 0).setRegF (Reg.pwrReg r) 12 10 0) s2

/-- Every rail falls and the panel goes dark; the next start is a cold start (R338). -/
def State.goDark (s : State) : State :=
  ((List.range 144).foldl (fun t d => t.darken d) s).modRails (fun t => { t with dark := true })

/-- PWR_STATUS.MODE (Table 13-1). -/
def State.powerMode (s : State) : Nat := s.regF Reg.pwrStatus 30 2
/-- Bit of PWR_STATUS that says a feed is good: FEED_A 29, FEED_B 28. -/
def feedBit (feed : Bool) : Nat := if feed then 28 else 29

/-- FEED_LOST (R338): the feed is disconnected and reported; with every feed of the mode lost the panel goes dark. FEED_B is
never lost in single-feed mode, and direct mode ignores both. -/
def execFeedLost (feed : Bool) (cause : Byte) (s : State) : Host.Outcome State Fault Refusal :=
  .next (if 2 ≤ s.powerMode ∨ (s.powerMode = 1 ∧ feed = true) ∨ s.regF Reg.pwrStatus (feedBit feed) 1 = 0 then s
    else
      let s1 := (s.setRegF Reg.pwrStatus (feedBit feed) 1 0).raise 0x0030 0 [BitVec.ofNat 8 (bitN feed), cause]
      if s1.powerMode = 1 ∨ s1.regF Reg.pwrStatus (feedBit (!feed)) 1 = 0 then s1.goDark else s1)

/-- FEED_RESTORED (R338). -/
def execFeedRestored (feed : Bool) (s : State) : Host.Outcome State Fault Refusal :=
  .next (if 2 ≤ s.powerMode ∨ (s.powerMode = 1 ∧ feed = true) ∨ s.regF Reg.pwrStatus (feedBit feed) 1 = 1 then s
    else (s.setRegF Reg.pwrStatus (feedBit feed) 1 1).raise 0x0031 0 [BitVec.ofNat 8 (bitN feed)])

/-! ### Converters and dies (R340 to R342) -/

/-- Plane limit in A of a number of live modules: n × 170 × 0.95. -/
def planeLimit (n : Nat) : Nat := n * 1615 / 10

/-- Live modules of a tile, with the plane limit. -/
def State.setLive (s : State) (t n : Nat) : State := (s.setRegF (Reg.pwrTile t) 28 4 n).setRegF (Reg.pwrTile t) 0 16 (planeLimit n)

/-- Partitions with a die on a tile. -/
def State.partsOnTile (s : State) (t : Nat) : List Nat :=
  ((diesOfTile t).filterMap (fun d => s.partOfRank (rankOfDie d))).eraseDups

/-- With four or fewer modules, a tile's partitions are halted and its dies held on spine power (Table 13-2). -/
def State.tileLow (s : State) (t : Nat) : State :=
  let s1 := (s.partsOnTile t).foldl (fun u p => u.raiseHalt p .abort (.tileDark (Fin.ofNat _ t))) s
  (diesOfTile t).foldl (fun u d =>
    (List.range 8).foldl (fun v k =>
      let r := d * 8 + k
      (if v.railState r = 4 then v else v.setRail r 0).setRegF (Reg.pwrReg r) 12 10 0)
      (u.modCores (coresOfDie d) (fun c => { c with st := 0, mhz := 0, capped := false }))) s1

/-- A module that runs leaves its plane, in a state of PWR_CM. -/
def State.moduleStop (s : State) (m st : Nat) : State :=
  let t := m / 8
  let n := s.regF (Reg.pwrTile t) 28 4 - 1
  let s1 := (s.setReg (Reg.pwrCm m) (BitVec.ofNat 32 (st * 2 ^ 28))).setLive t n
  if n ≤ 4 then s1.tileLow t
  else if n ≤ 6 then ((diesOfTile t).flatMap (fun d => (List.range 8).map (fun k => d * 8 + k))).foldl (fun u r =>
    u.modRegion r (fun g => { g with braked := true })) s1
  else s1

/-- CONVERTER_FAILED (R340, Table 13-2). -/
def execConverterFailed (m : Fin 96) (s : State) : Host.Outcome State Fault Refusal :=
  .next (if s.regF (Reg.pwrCm m.val) 28 4 ≠ 1 then s
    else (s.moduleStop m.val 2).raise 0x0032 0 [BitVec.ofNat 8 m.val, BitVec.ofNat 8 (s.regF (Reg.pwrTile (m.val / 8)) 28 4 - 1)])

/-- DIE_BREAKER (R341): the die goes dark and its partition is halted; recovery fences it. -/
def execDieBreaker (d : Fin 144) (s : State) : Host.Outcome State Fault Refusal :=
  .next (if s.regF (Reg.pwrDie d.val) 31 1 = 1 then s
    else
      ((((s.setRegF (Reg.pwrDie d.val) 31 1 1).darken d.val).raise 0x0034 ((s.partOfRank (rankOfDie d.val)).getD 0) [BitVec.ofNat 8 d.val]).haltRank
        (rankOfDie d.val) .abort (.breaker d)))

/-- SPINE_REGULATOR_TRIP (R342): the die is then fenced as under R341. -/
def execSpineRegulatorTrip (d : Fin 144) (s : State) : Host.Outcome State Fault Refusal :=
  .next ((s.darken d.val).haltRank (rankOfDie d.val) .abort (.breaker d))

/-! ### Regulators (R344, R345, R353) -/

/-- Die and region of a region in two bytes. -/
def regionBytes (r : Nat) : List Byte := [BitVec.ofNat 8 (r / 8), BitVec.ofNat 8 (r % 8)]
def State.partOfRegion (s : State) (r : Nat) : Nat := (s.partOfRank (rankOfDie (r / 8))).getD 0

/-- A region's switch opens for good: it is fenced, and its partition is halted (Table 13-3). -/
def State.fenceRegion (s : State) (r : Nat) : State :=
  (((((s.setRail r 4).setRegF (Reg.pwrReg r) 12 10 0).modRegion r (fun g => { g with waiting := false, droop := false, extended := false })).modCores
    (coresOfRegion r) (fun c => { c with st := 0, mhz := 0, capped := false }))).haltRank (rankOfDie (r / 8)) .abort (.region (Fin.ofNat _ r))

/-- The region is fenced where its live phases, less one for a suspect bond, are five or fewer. -/
def State.phaseFence (s : State) (r : Nat) : State :=
  if (phaseCap (s.phases r)).isNone && s.railState r != 4 then s.fenceRegion r else s

/-- A phase is shut off and counted as lost. -/
def State.losePhase (s : State) (r ph : Nat) : State :=
  let n := s.regF (Reg.pwrReg r) 24 4 - 1
  let s1 := (s.setRegF (Reg.pwrReg r) 24 4 n).modRegion r (fun g => { g with lost := addNew ph g.lost, out := sput 0 g.out ph 0 })
  let s2 := if 6 ≤ n then s1.raise 0x0035 (s.partOfRegion r) (regionBytes r ++ [BitVec.ofNat 8 n]) else s1
  s2.phaseFence r

/-- PHASE_CHECK (R345): one 10 µs check of a live phase against the mean of the live phases; the tenth check in a row out of
balance makes 100 µs. (DESIGN CHOICE, log entry 66.) -/
def execPhaseCheck (r : Fin 1152) (phase : Fin 8) (amps : List Nat) (s : State) : Host.Outcome State Fault Refusal :=
  let g := s.region r.val
  let live := (List.range 8).filter (fun i => !g.lost.contains i)
  let sum := live.foldl (fun n i => n + amps.getD i 0) 0
  let a := 4 * amps.getD phase.val 0 * live.length
  .next (if g.lost.contains phase.val then s
    else if a < sum ∨ 7 * sum < a then
      let n := sget 0 g.out phase.val + 1
      if 10 ≤ n then s.losePhase r.val phase.val else s.modRegion r.val (fun g => { g with out := sput 0 g.out phase.val n })
    else s.modRegion r.val (fun g => { g with out := sput 0 g.out phase.val 0 }))

/-- The region is treated as having a suspect bond (Table 13-3). -/
def State.bond (s : State) (r : Nat) (mv : List Byte) : State :=
  if s.regF (Reg.pwrReg r) 23 1 = 1 then s
  else ((s.setRegF (Reg.pwrReg r) 23 1 1).raise 0x0036 (s.partOfRegion r) (regionBytes r ++ mv)).phaseFence r

/-- SUSPECT_BOND (R345). -/
def execSuspectBond (r : Fin 1152) (mv : BitVec 16) (s : State) : Host.Outcome State Fault Refusal := .next (s.bond r.val (leBytes 2 mv.toNat))

/-- REGION_SHORT (R353): the switch opens, a power-on is cancelled, the region is fenced. -/
def execRegionShort (r : Fin 1152) (s : State) : Host.Outcome State Fault Refusal :=
  .next (((s.setRegF (Reg.pwrReg r.val) 22 1 1).raise 0x0033 (s.partOfRegion r.val) (regionBytes r.val)).fenceRegion r.val)

/-! ### Hints (R346) -/

/-- Mark the oldest hint that has not arrived. -/
def markHint : List (BitVec 4 × Nat × Bool) → List (BitVec 4 × Nat × Bool)
  | [] => []
  | (l, c, true) :: t => (l, c, true) :: markHint t
  | (l, c, false) :: t => (l, c, true) :: t

/-- HINT_ARRIVAL (R346): a hint that raises the announced current pre-positions the regulator for the new value. -/
def execHintArrival (core : Fin 39168) (s : State) : Host.Outcome State Fault Refusal :=
  let r := regionOf core.val
  let s1 := s.modCore core.val (fun c => { c with hints := markHint c.hints })
  .next (if s.announced r < s1.announced r then s1.modRegion r (fun g => { g with ready := s1.announced r }) else s1)

/-- LEVEL_CHANGE (R346): LEAD × 16 cycles after its issue the oldest hint sets its core's level; where the announced current
falls, the regulator returns to normal. -/
def execLevelChange (core : Fin 39168) (s : State) : Host.Outcome State Fault Refusal :=
  let r := regionOf core.val
  .next (match (s.core core.val).hints with
    | [] => s
    | h :: t =>
      let s1 := s.modCore core.val (fun c => { c with level := h.1, hints := t })
      s1.modRegion r (fun g => { g with ready := s1.announced r }))

/-! ### Droop and trips (R348, R349) -/

/-- DROOP_STRETCHING (R348): a region's clocks, or a die's MCLK, start to stretch; a region counts its starts. -/
def execDroopStretching (r : Option (Fin 1152)) (d : Fin 144) (s : State) : Host.Outcome State Fault Refusal :=
  .next (match r with
    | some r =>
      if (s.region r.val).droop = true ∨ (s.railState r.val ≠ 1 ∧ s.railState r.val ≠ 2) then s
      else (s.setRegF (Reg.pwrRstat r.val) 16 16 (satAdd 16 (s.regF (Reg.pwrRstat r.val) 16 16) 1)).modRegion r.val (fun g => { g with droop := true })
    | none => s.modRails (fun t => { t with spine := addNew d.val t.spine }))

/-- STRETCH_END (R348). A region goes on stretching while the brake is on (Table 13-5). -/
def execStretchEnd (r : Option (Fin 1152)) (d : Fin 144) (s : State) : Host.Outcome State Fault Refusal :=
  .next (match r with
    | some r => s.modRegion r.val (fun g => { g with droop := false })
    | none => s.modRails (fun t => { t with spine := t.spine.erase d.val }))

/-- Does a region stretch: by its own droop, by the panel's brake, or by its tile's until its next release (R348, R354,
Table 13-2)? (DEDUCED, log entry 92.) -/
def State.stretches (s : State) (r : Nat) : Bool := (s.region r).droop || (s.region r).braked || (s.reg Reg.pwrStatus).getLsbD 27

/-- POWER_TRIP (R349): the clocks stop, the partition is halted, and the third trip within an hour is a suspect bond. Hours are
those of MGT_LIFE: a trip of the hour before counts by a free bit. (DESIGN CHOICE, log entry 50.) -/
def execPowerTrip (r : Fin 1152) (s : State) : Host.Outcome State Fault Refusal :=
  let now := s.life
  let old := (s.region r.val).trips.filter (fun h => h == now || (h + 1 == now && (Config.freeByte s.freeCtr 0).getLsbD 0))
  let s1 := ((s.stopClocks r.val 6).modRegion r.val (fun g => { g with trips := now :: old, droop := false })).raise 0x0037 (s.partOfRegion r.val)
    ([3] ++ regionBytes r.val ++ [0] ++ leBytes 2 (s.regF Reg.pin 0 16))
  let s2 := s1.haltRank (rankOfDie (r.val / 8)) .abort (.thermal r)
  let s3 := if 2 ≤ old.length then s2.bond r.val [Config.freeByte s.freeCtr 1, Config.freeByte s.freeCtr 2] else s2
  .next s3.freshen

/-! ### Switching on (R351) -/

/-- REGION_POWER_ON: while the brake is on the request is deferred (Table 13-5). -/
def execRegionPowerOn (r : Fin 1152) (s : State) : Host.Outcome State Fault Refusal := .next (s.requestOn r.val)

/-- ADMISSION_CHECK: a deferred power-on that the check admits enters soft start. -/
def execAdmissionCheck (r : Fin 1152) (s : State) : Host.Outcome State Fault Refusal :=
  .next (if s.railState r.val = 3 ∧ s.admits r.val = true ∧ (s.reg Reg.pwrStatus).getLsbD 27 = false then
      (s.setRail r.val 1).modRegion r.val (fun g => { g with extended := false })
    else s)

/-- DEFERRED_POWER_ON: 200 µs after the request it proceeds without the check, with an extended soft start. -/
def execDeferredPowerOn (r : Fin 1152) (s : State) : Host.Outcome State Fault Refusal :=
  .next (if s.railState r.val = 3 then (s.setRail r.val 1).modRegion r.val (fun g => { g with extended := true }) else s)

/-- SOFT_START_DONE: VREG is at its setpoint; the clocks start at the next release of the partition. -/
def execSoftStartDone (r : Fin 1152) (s : State) : Host.Outcome State Fault Refusal :=
  .next (if s.railState r.val = 1 then s.railUp r.val else s)

/-! ### The panel limit (R354, R355) -/

/-- Is the fluid limit of R368 in force: latched by a reading, or a fluid pair blind (R363)? THM_STATUS.LIMITED. -/
def State.fluidBlind (s : State) : Bool := s.rails.blind.contains (6 * 65536) || s.rails.blind.contains (6 * 65536 + 1)
def State.limitedNow (s : State) : Bool := s.rails.limited || s.fluidBlind

/-- CONT_W in force: at most 15,000 W under the fluid limit (R368). -/
def State.contW (s : State) : Nat := if s.limitedNow then min 15000 (s.regF Reg.plim 0 16) else s.regF Reg.plim 0 16

/-- A panel power trip: every running partition is halted and its clocks stop. -/
def State.panelTrip (s : State) : State :=
  let ps := (s.parts.filter (fun e => decide (0 < e.2.height) && e.2.st == 1)).map (·.1)
  let s1 := ps.foldl (fun t p =>
    ((t.part p).regions.foldl (fun u r => if u.railState r = 2 then u.stopClocks r 6 else u) t).raiseHalt p .abort .power) s
  (s1.setRegF Reg.pwrStatus 26 1 1).raise 0x0037 0 ([2, 0, 0, 0] ++ leBytes 2 (s.regF Reg.pin 0 16))

/-- INPUT_POWER_SAMPLE (R354, Table 13-4): the levers follow the sample, the 1 s average, 10 ms above CONT_W, 100 µs above 26 kW
and 1 s below CONT_W − 1,500 W. -/
def execInputPowerSample (now : BitVec 16) (avg : BitVec 16) (over10ms : Bool) (over100us : Bool) (below1s : Bool) (s : State) :
    Host.Outcome State Fault Refusal :=
  let w := s.contW
  let s1 := s.setReg Reg.pin (avg ++ now)
  let s2 := s1.modRails (fun t => { t with lever := if w - 500 < avg.toNat then 1 else if below1s && decide (avg.toNat < w - 1500) then 2 else 0 })
  let on := (s.reg Reg.pwrStatus).getLsbD 27
  let s3 := if (over10ms = true ∧ w < now.toNat) ∨ 24000 < now.toNat then
      (if on then s2 else (s2.setRegF Reg.pwrStatus 27 1 1).raise 0x0037 0 ([1, 0, 0, 0] ++ leBytes 2 now.toNat))
    else if now.toNat ≤ w then s2.setRegF Reg.pwrStatus 27 1 0 else s2
  .next (if over100us = true ∧ 26000 < now.toNat then s3.panelTrip else s3)

/-! ### Direct intermediate mode (R436) -/

/-- VMID_OVERVOLTAGE: every breaker opens and the panel goes dark. -/
def execVmidOvervoltage (s : State) : Host.Outcome State Fault Refusal :=
  .next (if s.powerMode ≠ 2 then s
    else ((List.range 144).foldl (fun t d => t.setRegF (Reg.pwrDie d) 31 1 1) s).goDark)

/-- VMID_UNDERVOLTAGE: a panel power trip. -/
def execVmidUndervoltage (s : State) : Host.Outcome State Fault Refusal := .next (if s.powerMode = 2 then s.panelTrip else s)

end Sys2Proof.Machine
end

