-- ==== Sys2Proof/Machine/Thermal.lean ====
section
/-! DEFINITION. Sensors, the arbiter, action levels, trips and heat-related power-ons (14_thermal.md R359 to R368, R373 to R376;
10_memory_stacks.md R261, R263). -/
namespace Sys2Proof.Machine

/-! ### Sensors (Table 14-2, R360, R361) -/

/-- Sensors of a kind. -/
def sensorCount (kind : Nat) : Nat :=
  match kind with
  | 1 => 2304
  | 2 => 1152
  | 3 => 816
  | 4 => 48
  | 5 => 192
  | 6 => 4
  | _ => 0

/-- Plausible range of a kind, °C. -/
def plausibleRange (kind : Nat) : Int × Int :=
  if kind = 3 ∨ kind = 4 then (-10, 130) else if kind = 6 then (0, 90) else (-10, 150)

/-- Largest plausible change in thousandths of °C per ms. -/
def plausibleRate (kind : Nat) : Int :=
  match kind with
  | 1 => 20000
  | 2 => 20000
  | 3 => 5000
  | 6 => 1
  | _ => 2000

/-- Is a reading plausible after a time in µs since the last plausible one? -/
def plausible (kind : Nat) (last : Option Int) (x : Int) (dtUs : Nat) : Bool :=
  let r := plausibleRange kind
  decide (r.1 ≤ x ∧ x ≤ r.2) && (match last with
    | none => true
    | some y => decide ((if x < y then y - x else x - y) * 1000000 ≤ plausibleRate kind * dtUs))

/-- The pair of a sensor. -/
def pairOf (kind i : Nat) : Nat := if kind = 3 then i / 17 * 9 + (if i % 17 = 0 then 8 else (i % 17 - 1) / 2) else i / 2

/-- The unit that levels act on, of a pair: a stack is one unit, and so is a tile. -/
def actionUnit (kind pair : Nat) : Nat := if kind = 3 then pair / 9 else if kind = 4 then pair / 2 else pair

/-- Pairs of an action unit. -/
def pairsOf (kind u : Nat) : List Nat :=
  if kind = 3 then (List.range 9).map (fun i => u * 9 + i) else if kind = 4 then [2 * u, 2 * u + 1] else [u]

/-- Reading of an action unit: the hottest of its pairs. -/
def State.unitTemp (s : State) (kind u : Nat) : Option Int :=
  (pairsOf kind u).foldl (fun m p => maxTemp m (s.pairTemp kind p)) none

/-- Key of a pair or unit by kind. -/
def kindKey (kind i : Nat) : Nat := kind * 65536 + i
def State.isBlind (s : State) (kind pair : Nat) : Bool := s.rails.blind.contains (kindKey kind pair)
def State.isFlagged (s : State) (kind pair : Nat) : Bool := s.rails.flagged.contains (kindKey kind pair)

/-! ### Levels (Table 14-3) -/

/-- Threshold of a level, none where the kind lacks it. -/
def threshold (kind level : Nat) : Option Int :=
  match kind, level with
  | 1, 1 => some 95
  | 1, 2 => some 100
  | 1, 3 => some 105
  | 1, 4 => some 115
  | 2, 1 => some 95
  | 2, 2 => some 100
  | 2, 4 => some 115
  | 3, 1 => some 95
  | 3, 4 => some 105
  | 4, 1 => some 90
  | 4, 4 => some 110
  | 5, 1 => some 110
  | 5, 4 => some 125
  | _, _ => none

/-- Highest level whose threshold a reading reaches. -/
def levelFor (kind : Nat) (t : Option Int) : Nat :=
  match t with
  | none => 0
  | some x => [1, 2, 3, 4].foldl (fun m l => match threshold kind l with
    | some y => if y ≤ x then l else m
    | none => m) 0

/-- The next lower level that a kind has. -/
def levelBelow (kind l : Nat) : Nat := [1, 2, 3].foldl (fun m k => if k < l ∧ (threshold kind k).isSome = true then k else m) 0

/-- Partitions that a unit's trip halts (R367). -/
def State.unitParts (s : State) (kind u : Nat) : List Nat :=
  match kind with
  | 1 => (s.partOfRank (rankOfDie (u / 8))).toList
  | 2 => (s.partOfRank (rankOfDie (u / 4))).toList
  | 3 => (List.range 16).filter (fun p => (s.ownedSlices p).any (fun sl => sl / 64 == u))
  | _ => s.partsOnTile (if kind = 4 then u else u / 8)

/-- A unit of a report as partition. -/
def State.unitPart (s : State) (kind u : Nat) : Nat := ((s.unitParts kind u).head?).getD 0

/-- DETAIL of an action unit. -/
def State.unitBytes (s : State) (kind u : Nat) : List Byte := unitDetail kind u (tempByte (s.unitTemp kind u))

/-- A region in Rest: powered off where it holds rest work, else castled through an entry that names it (R373). -/
def State.enterRest (s : State) (r : Nat) : State :=
  match s.partOfRank (rankOfDie (r / 8)) with
  | none => s
  | some p => if (s.restRegions p).contains r then s.heatOff r else s.askCastle p r

/-- Set a router's clock in MHz; 0 stops it (Table 11-10). -/
def State.setRouter (s : State) (d i mhz : Nat) : State :=
  (s.setRegF (Reg.er d i) 0 12 mhz).setRegF (Reg.er d i) 31 1 (bitN (decide (mhz < 2000)))

/-- The two ends of an edge router's link to its tile. -/
def routerLinks (u : Nat) : List LinkEnd :=
  let dir := routerDir (u % 4)
  [.edge (Fin.ofNat _ (u / 4)) dir true, .edge (Fin.ofNat _ (u / 4)) dir false]

/-- A trip stops a router's clock, and nothing moves through it (R283, R367). -/
def State.stopRouter (s : State) (u : Nat) : State :=
  ((routerLinks u).foldl (fun t l => t.modLink l (fun k => { k with stopped := true })) (s.setRouter (u / 4) (u % 4) 0)).modRails
    (fun t => { t with stopped := addNew u t.stopped })

/-- A router that a trip stopped runs again, at its floor, and what waited leaves. -/
def State.startRouter (s : State) (u : Nat) : State :=
  (routerLinks u).foldl (fun t l => (t.modLink l (fun k => { k with stopped := false })).drainLink l)
    ((s.setRouter (u / 4) (u % 4) 1400).modRails (fun t => { t with stopped := t.stopped.erase u }))

/-- Action of Table R367 at Trip: THERMAL_TRIP, what stops, and the halts. -/
def State.tripUnit (s : State) (kind u : Nat) : State :=
  let s1 := s.raise 0x003C (s.unitPart kind u) (s.unitBytes kind u)
  let halt (t : State) (src : HaltSrc) : State := (s.unitParts kind u).foldl (fun t p => t.raiseHalt p .abort src) t
  match kind with
  | 1 =>
    if s.railState u = 4 then s1
    else halt ((((s1.setRail u 5).setRegF (Reg.pwrReg u) 12 10 0).stopClocks u 6).modRegion u (fun g => { g with waiting := false, droop := false }))
      (.thermal (Fin.ofNat _ u))
  | 2 => halt (s1.stopRouter u) (.thermal (Fin.ofNat _ (u / 4 * 8)))
  | 3 => halt (s1.modRails (fun t => { t with stacksOff := addNew u t.stacksOff })) (.stackTrip (Fin.ofNat _ u))
  | 4 => halt ((s1.tileLow u).modRails (fun t => { t with tilesOff := addNew u t.tilesOff })) (.tile (Fin.ofNat _ u))
  | 5 => if s.regF (Reg.pwrCm u) 28 4 = 1 then (s1.moduleStop u 2).modRails (fun t => { t with modulesOff := addNew u t.modulesOff }) else s1
  | _ => s1

/-- A unit enters every level up to the one that its reading reaches: THERMAL_WARN once for each, then Rest or Trip acts
(R364, R367, R373). A blind unit never trips. -/
def State.enterLevels (s : State) (kind u : Nat) : State :=
  let old := s.levelOf kind u
  let new := levelFor kind (s.unitTemp kind u)
  if new ≤ old then s
  else
    let entered := [1, 2, 3, 4].filter (fun l => decide (old < l ∧ l ≤ new) && (threshold kind l).isSome)
    let s1 := (s.setLevel kind u new)
    let s2 := entered.foldl (fun t l => t.raise 0x0038 (t.unitPart kind u) (t.unitBytes kind u ++ [BitVec.ofNat 8 l])) s1
    let s3 := if kind = 1 ∧ entered.contains 3 = true ∧ new = 3 then s2.enterRest u else s2
    if new = 4 then s3.tripUnit kind u else s3

/-- What a reading below 95 °C ends: a stopped router, a tripped stack, a tripped tile (R367). (DEDUCED, log entry 67.) -/
def State.endTrips (s : State) (kind u : Nat) : State :=
  if below (s.unitTemp kind u) 95 = false then s
  else match kind with
    | 2 => if s.rails.stopped.contains u then s.startRouter u else s
    | 3 => s.modRails (fun t => { t with stacksOff := t.stacksOff.erase u })
    | 4 =>
      if s.rails.tilesOff.contains u then
        ((diesOfTile u).flatMap (fun d => (List.range 8).map (fun i => d * 8 + i))).foldl (fun t r =>
          if t.railState r = 0 ∧ (t.heldCores r).isEmpty = false then t.requestOn r else t)
          (s.modRails (fun t => { t with tilesOff := t.tilesOff.erase u }))
      else s
    | _ => s

/-! ### Registers (R263, R376) -/

/-- Refresh band of a hottest core-die reading (Table 10-3). -/
def bandOf (t : Int) : Nat := if t ≤ 85 then 0 else if t ≤ 95 then 1 else 2

/-- Hottest core die of a stack after the arbiter. -/
def State.hotDie (s : State) (u : Nat) : Option Int := (List.range 8).foldl (fun m i => maxTemp m (s.pairTemp 3 (u * 9 + i))) none

/-- The refresh band follows the hottest core die: up at once; down once readings have stayed 3 °C below the boundary for
100 ms, which a free bit says. A blind stack is held in band 2 (R261, R363). (DEDUCED, log entry 67.) -/
def State.setBand (s : State) (u : Nat) : State :=
  let old := s.regF (Reg.sstat u) 26 2
  if (List.range 9).any (fun i => s.isBlind 3 (u * 9 + i)) then s.setRegF (Reg.sstat u) 26 2 2
  else match s.hotDie u with
    | none => s
    | some t =>
      if old ≤ bandOf t then s.setRegF (Reg.sstat u) 26 2 (bandOf t)
      else if bandOf (t + 3) < old ∧ (Config.freeByte s.freeCtr 5).getLsbD 0 = true then (s.setRegF (Reg.sstat u) 26 2 (bandOf (t + 3))).freshen
      else s.freshen

/-- The temperature registers that show a sensor or its pair. -/
def State.showTemp (s : State) (kind i : Nat) : State :=
  let p := pairOf kind i
  let x := s.sensor kind i
  let own := tempByte (if x.fresh then x.last else none)
  let both := tempByte (s.pairTemp kind p)
  match kind with
  | 1 => s.setRegF (Reg.thmReg (p / 8) (p % 8 / 4)) (8 * (p % 4)) 8 both
  | 2 => s.setRegF (Reg.thmEr (p / 4)) (8 * (p % 4)) 8 both
  | 3 =>
    let u := i / 17
    let d := i % 17
    ((((s.setRegF (Reg.dtemp u (d / 4)) (8 * (d % 4)) 8 own).setRegF (Reg.stemp u) 8 8 (tempByte (s.hotDie u))).setRegF (Reg.stemp u) 0 8
      (tempByte (s.pairTemp 3 (u * 9 + 8))))).setBand u
  | 4 => s.setRegF (Reg.thmTile (i / 4)) (8 * (i % 4)) 8 own
  | 5 => s.setRegF (Reg.thmCm (i / 2)) (8 * (i % 2)) 8 own
  | 6 => s.setRegF Reg.thmFluid (if p = 0 then 24 else 16) 8 both
  | _ => s

/-! ### Fluid (R368) -/

/-- FLUID (Table 14-5). -/
def State.fluidEvent (s : State) (what : Nat) : State :=
  s.raise 0x003F 0 ([BitVec.ofNat 8 what, BitVec.ofNat 8 (s.regF Reg.thmFluid 24 8)] ++ leBytes 2 (s.regF Reg.thmFluid 0 16))

/-- Inside the Warn bounds: inlet at 40 °C or less, flow of 90 L/min or more. -/
def State.fluidFine (s : State) : Bool :=
  decide (900 ≤ s.regF Reg.thmFluid 0 16) && (match s.pairTemp 6 0 with | some t => decide (t ≤ 40) | none => false)

/-- A fluid reading with the flow derived from the pressures: Warn and Limit (R368). (DEDUCED, log entry 67.) -/
def State.fluidReading (s : State) (flow : Nat) : State :=
  let s1 := s.setRegF Reg.thmFluid 0 16 (min flow 0xFFFF)
  let hot (n : Int) : Bool := match s1.pairTemp 6 0 with | some t => decide (n < t) | none => false
  let warn := hot 40 || decide (flow < 900)
  let limit := hot 45 || decide (flow < 600)
  let s2 := if warn && !s1.rails.warned then
      ((s1.modRails (fun t => { t with warned := true })).raise 0x0038 0 (s1.unitBytes 6 0 ++ [1])).fluidEvent 1
    else if !warn && s1.rails.warned then s1.modRails (fun t => { t with warned := false }) else s1
  if limit && !s2.rails.limited then (s2.modRails (fun t => { t with limited := true })).fluidEvent 2 else s2

/-- FLUID_TRIP: beyond the Trip bounds for 1 s: a panel power trip. (DEDUCED, log entry 67.) -/
def execFluidTrip (s : State) : Host.Outcome State Fault Refusal :=
  .next (if decide (s.regF Reg.thmFluid 0 16 < 300) || (match s.pairTemp 6 0 with | some t => decide (50 < t) | none => false) then
      (s.fluidEvent 3).panelTrip else s)

/-- FLUID_LIMIT_END: inlet and flow have stayed inside the Warn bounds for 10 s. -/
def execFluidLimitEnd (s : State) : Host.Outcome State Fault Refusal :=
  .next (if s.fluidFine && !s.fluidBlind then s.modRails (fun t => { t with limited := false }) else s)

/-! ### Commands of the sensors -/

/-- SENSOR_SAMPLE (R361, R364): a plausible reading counts, an implausible one is discarded; then the registers, the end of
blindness, levels, and automatic castling follow. `dtUs` is the time since the sensor's last plausible reading. -/
def execSensorSample (kind : BitVec 4) (idx : Nat) (reading : Int) (flow : Nat) (dtUs : Nat) (s : State) : Host.Outcome State Fault Refusal :=
  let k := kind.toNat
  .next (if sensorCount k ≤ idx then s
    else
      let old := s.sensor k idx
      let good := plausible k old.last reading dtUs
      let p := pairOf k idx
      let u := actionUnit k p
      let s1 := s.modRails (fun t =>
        { t with sensors := sput Sensor.reset t.sensors (kindKey k idx) (if good then ⟨some reading, true⟩ else { old with fresh := false })
                 blind := if good then t.blind.erase (kindKey k p) else t.blind })
      let s2 := s1.showTemp k idx
      if good = false then s2
      else if k = 6 then s2.fluidReading flow
      else
        let s3 := (s2.endTrips k u).enterLevels k u
        match k, s3.partOfRank (rankOfDie (u / 8)) with
        | 1, some pt => if s3.levelOf 1 u = 2 then s3.askCastle pt u else s3
        | _, _ => s3)

/-- SENSOR_FLAGGED (R362): the pair's plausible readings have differed by more than 6 °C for 100 ms. -/
def execSensorFlagged (u : UnitId) (s : State) : Host.Outcome State Fault Refusal :=
  let k := u.kind.toNat
  let rs := s.readings k u.idx
  .next (match rs with
    | [a, b] =>
      if s.isFlagged k u.idx = true ∨ (if a < b then b - a else a - b) ≤ 6 then s
      else
        let s1 := s.modRails (fun t => { t with flagged := addNew (kindKey k u.idx) t.flagged })
        let s2 := if k = 3 then s1.setRegF (Reg.stemp (u.idx / 9)) 16 1 1 else s1
        s2.raise 0x003D (s2.unitPart k (actionUnit k u.idx)) (unitDetail k (actionUnit k u.idx) (tempByte (s.pairTemp k u.idx)) ++
          [BitVec.ofNat 8 (tempByte (some a)), BitVec.ofNat 8 (tempByte (some b))])
    | _ => s)

/-- SENSOR_LOST (R363): no plausible reading for 100 ms; the unit is blind and runs as Table R363 says. -/
def execSensorLost (u : UnitId) (s : State) : Host.Outcome State Fault Refusal :=
  let k := u.kind.toNat
  .next (if sensorCount k ≤ ((sensorsOf k u.idx).headD 0) ∨ s.isBlind k u.idx = true ∨ (s.readings k u.idx).isEmpty = false then s
    else
      let s1 := (s.modRails (fun t => { t with blind := addNew (kindKey k u.idx) t.blind })).raise 0x003E (s.unitPart k (actionUnit k u.idx))
        (unitDetail k (actionUnit k u.idx) 0xFF)
      match k with
      | 1 => s1.modRegion u.idx (fun g => { g with thermal := 2300, change := 0 })
      | 2 => if s1.rails.stopped.contains u.idx then s1 else s1.setRouter (u.idx / 4) (u.idx % 4) 1400
      | 3 => s1.setBand (u.idx / 9)
      | _ => s1)

/-- LEVEL_EXIT (R364): the reading has stayed 5 °C below the threshold for 1 s: the unit leaves the level. -/
def execLevelExit (u : UnitId) (s : State) : Host.Outcome State Fault Refusal :=
  let k := u.kind.toNat
  let a := actionUnit k u.idx
  let l := s.levelOf k a
  .next (match s.unitTemp k a, threshold k l with
    | some t, some y => if t ≤ y - 5 then s.setLevel k a (levelBelow k l) else s
    | _, _ => s)

/-! ### Caps (R365, R366) -/

/-- Does a router that stays at Cap at its floor make the manager treat a region as if at Cap: N region 7, S region 0, E and W
all (R366)? -/
def State.routerForces (s : State) (r : Nat) : Bool :=
  let d := r / 8
  let f (i : Nat) : Bool := decide (2 ≤ s.levelOf 2 (d * 4 + i)) && sget 0 s.rails.floor (d * 4 + i) != 0
  (f 0 && r % 8 == 7) || (f 2 && r % 8 == 0) || f 1 || f 3

/-- THERMAL_CAP (R365): each 1 ms at 100 °C or above lowers the thermal cap at the next release, each 1 ms out of Cap raises it;
10 ms at the floor is Rest. A blind region's cap is held. (DEDUCED, log entry 67.) -/
def execThermalCap (r : Fin 1152) (s : State) : Host.Outcome State Fault Refusal :=
  let g := s.region r.val
  let hot := !(below (s.regionTemp r.val) 100) && (s.regionTemp r.val).isSome && decide (2 ≤ s.levelOf 1 r.val)
  .next (if s.isBlind 1 r.val then s
    else if hot || s.routerForces r.val then
      let s1 := s.modRegion r.val (fun g => { g with change := g.change - 1, floorMs := if hot && g.thermal == 800 then g.floorMs + 1 else 0 })
      if hot && g.thermal == 800 && decide (9 ≤ g.floorMs) && decide (s.levelOf 1 r.val < 3) then
        ((s1.setLevel 1 r.val 3).raise 0x0038 (s.unitPart 1 r.val) (s.unitBytes 1 r.val ++ [3])).enterRest r.val
      else s1
    else if s.levelOf 1 r.val < 2 then s.modRegion r.val (fun g => { g with change := if g.thermal < 3300 then g.change + 1 else g.change, floorMs := 0 })
    else s.modRegion r.val (fun g => { g with floorMs := 0 }))

/-- ROUTER_CAP (R366): each 10 ms at Cap lowers the router's clock by 100 MHz to 1.4 GHz, each 10 ms out of Cap raises it. -/
def execRouterCap (d : Fin 144) (dir : Dir) (s : State) : Host.Outcome State Fault Refusal :=
  let i := dir.idx
  let u := d.val * 4 + i
  let f := s.regF (Reg.er d.val i) 0 12
  let ev (t : State) : State := t.raise 0x0039 (t.unitPart 2 u) (t.unitBytes 2 u ++ leBytes 2 (t.regF (Reg.er d.val i) 0 12))
  .next (if s.rails.stopped.contains u = true ∨ s.isBlind 2 u = true then s
    else if 2 ≤ s.levelOf 2 u then
      if 1400 < f then ev (s.setRouter d.val i (max 1400 (f - 100)))
      else s.modRails (fun t => { t with floor := sput 0 t.floor u (sget 0 t.floor u + 1) })
    else
      let s1 := s.modRails (fun t => { t with floor := sput 0 t.floor u 0 })
      if f < 2000 then ev (s1.setRouter d.val i (min 2000 (f + 100))) else s1)

/-! ### Powering on again (R367, R374) -/

/-- REST_POWER_ON: a region off for heat that holds rest work, with REST_OFF clear, has stayed below 85 °C for 1 s. -/
def execRestPowerOn (r : Fin 1152) (s : State) : Host.Outcome State Fault Refusal :=
  .next (match s.partOfRank (rankOfDie (r.val / 8)) with
    | none => s
    | some p =>
      if s.railState r.val = 5 ∧ (s.restRegions p).contains r.val = true ∧ (s.reg Reg.thmCfg).getLsbD 30 = false ∧ below (s.regionTemp r.val) 85 = true then
        (s.requestOn r.val).raise 0x003A p (unitDetail 1 r.val (tempByte (s.regionTemp r.val)) ++ [2])
      else s)

/-- CONVERTER_RESTART: a module stopped by its trip has been below 100 °C for 10 s; with five live again the tile's dies can be
powered. A module that failed otherwise does not restart. -/
def execConverterRestart (m : Fin 96) (s : State) : Host.Outcome State Fault Refusal :=
  .next (if s.rails.modulesOff.contains m.val = true ∧ below (s.unitTemp 5 m.val) 100 = true then
      ((s.setReg (Reg.pwrCm m.val) 0x10000000).setLive (m.val / 8) (s.regF (Reg.pwrTile (m.val / 8)) 28 4 + 1)).modRails (fun t =>
        { t with modulesOff := t.modulesOff.erase m.val })
    else s)

end Sys2Proof.Machine
end

