-- ==== Sys2Proof/Machine/BringUp.lean ====
section
/-! DEFINITION. Cold start, panel warm reset, management reset, takeover and training results (15_bring_up_and_trust.md R377 to
R397, Tables 15-5, 15-7 and 15-9; 17_ratings_connections_registers.md R439, R440, R445). -/
namespace Sys2Proof.Machine

/-! ### What a start keeps -/

/-- The block after its supply and its controllers have restarted: what the flashes, the host's memory and the queue hold stays
(R379, R395, R440). -/
def State.coldBase (s : State) : State :=
  { State.reset with
    pending := s.pending, freeCtr := s.freeCtr, rdata := s.rdata, answer := s.answer, hostMem := s.hostMem, defects := s.defects
    hbm := { Hbm.reset with repair := s.hbm.repair }
    regs := s.regs.filter (fun e => e.1 == Reg.mgtLife || (decide (Reg.svn 0 ≤ e.1) && decide (e.1 < Reg.svn 11)))
    mgmt := { Mgmt.reset with
      flashA := s.mgmt.flashA, flashB := s.mgmt.flashB, active := s.mgmt.active, atWarm := s.mgmt.atWarm, removing := s.mgmt.removing
      extended := s.mgmt.extended, chain1 := s.mgmt.chain1, nextSession := s.mgmt.nextSession } }

/-- Registers that a panel warm reset keeps: identity and counters, straps and feeds, temperatures, recoveries since the cold
start, and the store's slices (R389, R420, R432). -/
def warmKeeps (o : Nat) : Bool :=
  o == Reg.mgtState || o == Reg.mgtLife || o == Reg.rcnt || o == Reg.buddy || o == Reg.pstore || o == Reg.pwrStatus || o == Reg.feedA ||
  o == Reg.feedB || o == Reg.thmFluid || (decide (Reg.thmTile 0 ≤ o) && decide (o < Reg.cpair 0 0)) ||
  (decide (Reg.secStatus ≤ o) && decide (o < 0xA00010)) ||
  (decide (Reg.mem 0 0 ≤ o) && decide (o < Reg.mem 48 0) && o % 64 == 4) || (decide (Reg.dtemp 0 0 ≤ o) && decide (o < Reg.dtemp 48 0)) ||
  (decide (0x1000000 ≤ o) && decide (o % 0x40000 = 0x4000 ∨ o % 0x40000 = 0x4004 ∨ o % 0x40000 = 0x4008))

/-- What a core site keeps through a panel warm reset: scratchpad errors and poison, its instruction store, and the hours of
its errors (R166, R389). -/
def Core.warm (c : Core) : Core :=
  { Core.reset with
    istore := c.istore, istoreCe := c.istoreCe, istoreUe := c.istoreUe, poison := c.poison, spadCe := c.spadCe, spadUe := c.spadUe
    spadWb := c.spadWb, eccHours := c.eccHours, parHours := c.parHours }

/-- Map the values at the listed keys of a sparse map, in canonical form. -/
def smapMap {α : Type} [DecidableEq α] (d : α) (m : SMap α) (f : α → α) : SMap α :=
  m.foldl (fun (a : SMap α) e => sput d a e.1 (f (sget d m e.1))) []

/-- The block at the beginning of a panel warm reset: every partition and ring is deleted and grants are cleared; memory, last
tenants, positions, objects and readings stay; lost phases, suspect bonds, flags and detours clear (R389, R420).
(DEDUCED, log entry 71.) -/
def State.warmBase (s : State) : State :=
  { State.reset with
    pending := s.pending, freeCtr := s.freeCtr, rdata := s.rdata, answer := s.answer, hostMem := s.hostMem, defects := s.defects
    mem := s.mem, events := s.events, stores := s.stores, rankTenants := s.rankTenants
    regs := (s.regs.filter (fun e => warmKeeps e.1)).filterMap (fun e =>
      if decide (Reg.mem 0 0 ≤ e.1) && decide (e.1 < Reg.mem 48 0) && e.1 % 64 == 4 then
        (if e.2 &&& 0xFFFEFFFF = 0 then none else some (e.1, e.2 &&& 0xFFFEFFFF)) else some e)
    cores := smapMap Core.reset s.cores Core.warm
    dies := smapMap Die.reset s.dies (fun d => { Die.reset with quar := d.quar, stale := d.stale })
    parts := smapMap Part.reset s.parts (fun p => { Part.reset with positions := p.positions, nextGen := p.nextGen })
    hbm := { Hbm.reset with
      slices := smapMap Slice.reset s.hbm.slices (fun l => { l with cur := 0, cap := 0 })
      errs := s.hbm.errs, poison := s.hbm.poison, wb := s.hbm.wb, repair := s.hbm.repair }
    host := { HostPorts.reset with
      active := s.host.active, up0 := s.host.up0, up1 := s.host.up1, down := s.host.down, evLost := s.host.evLost, evSeq := s.host.evLost, msix := s.host.msix }
    rails := { Rails.reset with
      sensors := s.rails.sensors, levels := s.rails.levels, blind := s.rails.blind, warned := s.rails.warned, limited := s.rails.limited
      modulesOff := s.rails.modulesOff, stacksOff := s.rails.stacksOff }
    mgmt := s.mgmt }

/-! ### The flashes at a start (R379) -/

/-- TYPEs of objects. -/
def objTypes : List Nat := [1, 2, 3, 4, 5, 6, 0x10, 0x11, 0x12, 0x13, 0x20, 0x30, 0x31]

/-- FLASH_FAULT for a copy that is rewritten. -/
def State.flashFault (s : State) (second : Bool) (ty : Nat) : State :=
  s.raise 0x0042 0 ([BitVec.ofNat 8 (bitN second), 1] ++ leBytes 2 ty)

/-- For one slot, a missing or invalid copy is rewritten from the other flash. -/
def State.mendSlot (s : State) (ty slot : Nat) : State :=
  match s.slotObj ty slot with
  | none => s
  | some o =>
    let bad (second : Bool) : Bool := !s.flashFail second && (s.objBad [ty] (s.flashObj second ty slot).bytes).isSome
    let s1 := if bad false then
        (s.modMgmt (fun m => { m with flashA := sput noObj m.flashA (slotKey ty slot) o })).flashFault false ty else s
    if bad true then (s1.modMgmt (fun m => { m with flashB := sput noObj m.flashB (slotKey ty slot) o })).flashFault true ty else s1

/-- Every slot of every kind. -/
def State.mendFlashes (s : State) : State :=
  objTypes.foldl (fun t ty => (List.range (slotsOf ty)).foldl (fun u i => u.mendSlot ty i) t) s

/-- A flash that fails is marked and reported. -/
def State.markFlash (s : State) (second ok : Bool) : State :=
  if ok then s
  else (s.setRegF Reg.mgtState (if second then 24 else 25) 1 1).raise 0x0042 0 [BitVec.ofNat 8 (bitN second), 2,
    Config.freeByte s.freeCtr 0, Config.freeByte s.freeCtr 1]

/-! ### The defect map (R395 to R397) -/

/-- Entries of a kind. -/
def State.defectsOf (s : State) (kind : Nat) : List Defect := s.defects.filter (fun d => d.kind.toNat == kind)
def locByte (d : Defect) (i : Nat) : Nat := field d.loc.toNat (8 * i) 8

/-- Does the map hold an entry of a kind at a place? -/
def State.mapped (s : State) (kind : Byte) (loc : W64) : Bool := s.defects.any (fun d => d.kind == kind && d.loc == loc)

/-- Record an entry of a start's test, where the map does not hold it. -/
def State.recordFound (s : State) (f : Found) : State :=
  if s.mapped f.kind f.loc ∨ f.kind.toNat = 0 ∨ 10 < f.kind.toNat then s else s.addDefect f.kind f.cause 0x01 f.loc f.detail

/-- Factory entries of a body, SEQ 0. -/
def factoryEntries : Nat → List Byte → List Defect
  | 0, _ => []
  | n + 1, b => ⟨0, b.getD 4 0, b.getD 5 0, b.getD 6 0, BitVec.ofNat 64 (leAt b 8 8), leAt b 0x10 8, BitVec.ofNat 64 (leAt b 0x18 8)⟩ :: factoryEntries n (b.drop 32)

/-- The factory map joins the map. -/
def State.factoryMap (s : State) : State :=
  match s.slotObj 0x12 0 with
  | none => s
  | some o =>
    let es := factoryEntries (leAt o.bytes 8 4 / 32) (objBody o.bytes)
    { s with defects := es ++ s.defects.filter (fun d => d.seq != 0) }

/-- An I/O die is lost. -/
def State.ioLost (s : State) (i : Nat) : Bool := (s.defectsOf 0xA).any (fun d => locByte d 0 == i)

/-- A site of the map is fenced; a die that it fences as the second of a rank is recorded (R20, Table 15-9).
(DEDUCED, log entry 95.) -/
def State.mapSite (s : State) (e : Defect) : State :=
  let d := locByte e 0
  let n := locByte e 1 + 256 * locByte e 2
  if d < 144 ∧ n < 272 then
    let s1 := s.fenceSite d n
    if (s1.die d).fenced = true ∧ (s.die d).fenced = false then s1.recordFound ⟨3, e.cause, 1, BitVec.ofNat 64 d, e.detail⟩ else s1
  else s

/-- Light-source dies that gave no record are lost (DEDUCED, log entry 113); all eleven photonic pairs of a tile that has lost both are down,
with no detour (R11, R280, R281). -/
def State.lights (s : State) (rs : List CapRec) : State :=
  let off := (List.range 24).filter (fun i => !rs.any (fun c => c.kind == 5 && c.site == i))
  let dark := (List.range 12).filter (fun t => off.contains (2 * t) && off.contains (2 * t + 1))
  let pairs := dark.flatMap (fun a => ((List.range 12).filter (fun b => b != a && (decide (a < b) || !dark.contains b))).map (fun b => (a, b)))
  pairs.foldl (fun t e =>
    (((t.setPair e.1 e.2 3 0xFF).modLink (photonEnd e.1 e.2) (fun _ => { Link.reset with failed := true })).modLink (photonEnd e.2 e.1)
      (fun _ => { Link.reset with failed := true })).raiseFree 0x0013 0) (s.modRails (fun r => { r with lightsOff := off }))

/-- Sites that a tenant change could not zero are zeroed before they hold a logical place (R167). -/
def State.wipeStale (s : State) : State :=
  (List.range 144).foldl (fun t d =>
    let back := (s.die d).stale.filter (fun n => !t.siteFenced (d * 272 + n))
    if (s.die d).stale.isEmpty || (t.die d).dark then t
    else (back.foldl (fun u n => u.blankCore (d * 272 + n)) t).modDie d (fun e => { e with stale := minus e.stale back })) s

/-- The map takes effect: sites, regions and dies fenced, slices retired, stacks lost, lanes narrowed, modules and ports down; the
hole tables are published (R16 to R21, R397). -/
def State.applyMap (s : State) : State :=
  let s1 := (s.defectsOf 1).foldl State.mapSite s
  let s2 := (s.defectsOf 2).foldl (fun t d => if locByte d 0 < 144 then t.fenceRegionSites (locByte d 0 * 8 + locByte d 1 % 8) else t) s1
  let s3 := (s.defectsOf 3).foldl (fun t d => if locByte d 0 < 144 then t.fenceDie (locByte d 0) else t) s2
  let s4 := (s.defectsOf 5).foldl (fun t d =>
    let sl := (locByte d 0 + 256 * locByte d 1) % 3072
    if t.grantOf sl = 0x20000000 then t
    else (t.setReg (Reg.grant sl) 0x20000000).setRegF (Reg.sstat (sl / 64)) 8 7 (t.regF (Reg.sstat (sl / 64)) 8 7 + 1)) s3
  let s5 := (s.defectsOf 6).foldl (fun t d => if locByte d 0 < 48 then t.setRegF (Reg.sstat (locByte d 0)) 28 4 3 else t) s4
  let s6 := (s.defectsOf 7).foldl (fun t d =>
    let a := locByte d 0 % 12
    let b := locByte d 1 % 12
    if a = b then t
    else (t.setRegF (Reg.plink a b) 0 8 (t.regF (Reg.plink a b) 0 8 - 1)).setRegF (Reg.plink a b) 30 2 1) s5
  (List.range 96).foldl (fun t m =>
    if (s.defectsOf 9).any (fun d => locByte d 0 == m) then
      (t.setReg (Reg.pwrCm m) 0x20000000).setLive (m / 8) (t.regF (Reg.pwrTile (m / 8)) 28 4 - 1)
    else t) s6

/-! ### Rails and training (Table 15-5 steps 4 and 5) -/

/-- Converters run but in direct mode, breakers close, spine rails rise, feeds of the mode are good. -/
def State.powerUp (s : State) : State :=
  let run : W32 := if s.powerMode = 2 then 0 else 0x10000000
  let s1 := (List.range 96).foldl (fun t m => if t.rails.modulesOff.contains m then
      (t.setReg (Reg.pwrCm m) 0x20000000).setLive (m / 8) (t.regF (Reg.pwrTile (m / 8)) 28 4 - 1)
    else t.setReg (Reg.pwrCm m) run) s
  (List.range 144).foldl (fun t d => (t.setRegF (Reg.pwrDie d) 30 1 1).setRegF (Reg.pwrDie d) 31 1 0) s1

/-- Does a die's Dyber channel in a direction have an unfenced die at its other end (R10, R189)? -/
def State.hasNeighbour (s : State) (d : Nat) (i : Nat) : Bool :=
  let ok (e : Nat) : Bool := !(s.die e).fenced
  let r := rankOfDie d
  let f := fileOfDie d
  if (s.die d).fenced then false
  else if i = 0 then decide (r < 15) && (List.range 9).any (fun x => decide (x ≤ f + 1 ∧ f ≤ x + 1) && ok ((r + 1) * 9 + x))
  else if i = 2 then decide (0 < r) && (List.range 9).any (fun x => decide (x ≤ f + 1 ∧ f ≤ x + 1) && ok ((r - 1) * 9 + x))
  else if i = 1 then [1, 2].any (fun n => decide (f + n < 9) && ok (d + n))
  else [1, 2].any (fun n => decide (n ≤ f) && ok (d - n))

/-- Stacks that are not lost are trained, mesh links with a neighbour are up, licensed ports whose I/O die is present train. -/
def State.trainAll (s : State) : State :=
  let s1 := (List.range 48).foldl (fun t k => if t.stackState k = 3 then t else t.setRegF (Reg.sstat k) 28 4 2) s
  let s2 := (List.range 144).foldl (fun t d => (List.range 4).foldl (fun u i =>
    u.setReg (Reg.dlink d i) (if s.hasNeighbour d i then 0 else 0x55555555)) t) s1
  (List.range 32).foldl (fun t p =>
    t.setRegF (Reg.sylPort p) 28 4 (if s.ioLost (p / 4) then 4 else if (s.reg Reg.lports).getLsbD p && (s.reg (Reg.sylPortCfg p)).getLsbD 31 then 1 else 0)) s2

/-! ### The topology check and capabilities (R391 to R393) -/

/-- Body of the valid manifest. -/
def State.manifest (s : State) : Option (List Byte) := (s.activeObj 0x11).map (fun o => objBody o.bytes)

/-- The record of a wrong die, or of one that a pairing not listed names (R392). -/
def wrongDie (body : List Byte) (rs : List CapRec) : Option CapRec :=
  match rs.find? (fun c => decide (5 < c.kind.toNat) || c.kind == 0 || Config.sha384 (leBytes 16 c.serial.toNat) != Config.manifestSerial body c.kind c.site) with
  | some c => some c
  | none => if Config.manifestPairs body ((rs.filter (fun c => c.kind.toNat ≤ 4)).map (fun c => (c.kind, c.rev))) then none else rs.head?

/-- DIE_ID and DIE_CAP of the compute dies that answered. -/
def State.noteRecords (s : State) (rs : List CapRec) : State :=
  rs.foldl (fun t c =>
    if c.kind = 1 ∧ c.site < 144 then
      ((t.setReg (Reg.dieId c.site) (BitVec.ofNat 32 (c.rev.toNat * 2 ^ 24 + bitN c.passed * 2 ^ 16 + c.level.toNat % 128 * 2 ^ 17))).setReg
        (Reg.dieCapLo c.site) (c.caps.setWidth 32)).setReg (Reg.dieCapHi c.site) (BitVec.ofNat 32 (c.caps.toNat / 2 ^ 32))
    else t) s

/-- Dies that do not answer are recorded (Table 15-9): compute dies, base dies, I/O dies; the cause is left open.
(DESIGN CHOICE, log entry 69.) -/
def State.silentDies (s : State) (rs : List CapRec) : State :=
  let quiet (kind : Byte) (n : Nat) : List Nat := (List.range n).filter (fun i => !rs.any (fun c => c.kind == kind && c.site == i))
  let put (t : State) (kind : Byte) (i : Nat) : State :=
    (t.recordFound ⟨kind, Config.freeByte t.freeCtr i, 1, BitVec.ofNat 64 i, BitVec.ofNat 64 (Config.freeNat t.freeCtr i)⟩)
  let s1 := (quiet 1 144).foldl (fun t i => if t.mapped 3 (BitVec.ofNat 64 i) then t else put t 3 i) s
  let s2 := (quiet 3 48).foldl (fun t i => put t 6 i) s1
  ((quiet 4 8).foldl (fun t i => put t 0xA i) s2).freshen

/-- A compute die that lacks a REQUIRED capability is fenced with cause 0x07; then CFG_CAPS is the AND over the dies that are
not fenced (R393). -/
def State.capabilities (s : State) (body : List Byte) (rs : List CapRec) : State :=
  let req := Config.manifestRequired body
  let cs := rs.filter (fun c => c.kind == 1 && decide (c.site < 144))
  let s1 := cs.foldl (fun t c =>
    if c.caps &&& req = req ∨ (t.die c.site).fenced = true then t
    else (t.recordFound ⟨3, 7, 1, BitVec.ofNat 64 c.site, BitVec.ofNat 64 (Config.freeNat t.freeCtr c.site)⟩).fenceDie c.site) s
  let live := cs.filter (fun c => !(s1.die c.site).fenced)
  let all : W64 := match live with
    | [] => 0
    | _ => live.foldl (fun m c => m &&& c.caps) (BitVec.allOnes 64)
  ((s1.setReg Reg.capsLo (all.setWidth 32)).setReg Reg.capsHi (BitVec.ofNat 32 (all.toNat / 2 ^ 32))).freshen

/-- Marked rows are repaired and recorded (R260): their units, copied out with their poison and written back, are whole codewords again. -/
def State.repairRows (s : State) : State :=
  let s1 := s.hbm.repair.foldl (fun t k =>
    let sl := k / 2 ^ 30
    t.recordFound ⟨4, 4, 1, BitVec.ofNat 64 (sl / 64 % 256 + sl % 64 * 2 ^ 8 + k / 2 ^ 20 % 256 * 2 ^ 16 + k % 2 ^ 20 * 2 ^ 24), BitVec.ofNat 64 (Config.freeNat t.freeCtr k)⟩) s
  let mine (u : Nat) : Bool := s.hbm.repair.contains (rowKey u)
  let s2 := ((s.hbm.errs.map (·.1)).filter mine).foldl (fun t u => t.unitEcc u) s1
  (s2.modHbm (fun h =>
    { h with repair := [], rowErr := [], errs := h.errs.filter (fun e => !mine e.1), wb := h.wb.filter (fun u => !mine u) })).freshen

/-- Region rails at their setpoints: those of dies with logical places are on, idle and without program (step 9). -/
def State.railsUp (s : State) : State :=
  (List.range 1152).foldl (fun t r =>
    if (t.heldCores r).isEmpty ∨ (t.die (r / 8)).fenced = true ∨ t.regF (Reg.pwrTile (tileOfDie (r / 8))) 28 4 < 5 then t
    else (t.railUp r).modCores ((coresOfRegion r).filter (fun k => !t.siteFenced k)) (fun c => { c with st := 1 })) s

/-! ### Starts -/

def State.setStage (s : State) (n : Nat) : State := s.setRegF Reg.mgtState 28 4 n

/-- MANIFEST_MISMATCH goes out over MCTP only (Table 15-14). -/
def State.mismatch (s : State) (c : CapRec) : State :=
  let d := bytesAt (leBytes 2 c.site ++ [c.kind, c.rev]) 0 16
  if s.mgmt.receiver then s.modMgmt (fun m => { m with sent := m.sent ++ [(false, ⟨0x0048, 0, 0, d⟩)] }) else s

/-- Steps 4 to 12 of Table 15-5. With too little flow or too warm an inlet the book waits at step 4 (R445). -/
def State.openingBook (s : State) (rep : StartReport) (cold : Bool) : State :=
  if rep.flow < 600 ∨ 45 < rep.inlet then s.setStage 4
  else match s.manifest, s.activeObj 0x10 with
    | some body, some _ =>
      match wrongDie body rep.records with
      | some c => (s.powerUp.setStage 0xE).mismatch c
      | none =>
        let s1 := (s.powerUp.noteRecords rep.records).silentDies rep.records
        let s2 := (rep.found.foldl (fun t f => t.recordFound f) s1).repairRows
        let s3 := (((s2.applyMap).capabilities body rep.records).trainAll.lights rep.records).wipeStale
        let s4 := s3.railsUp.calibrate ((List.range 144).filter (fun d => !(s3.die d).fenced))
        let s5 := (s4.setRegF Reg.mgtState 27 1 (bitN (s4.ioLost 0))).setRegF Reg.mgtState 26 1 (bitN (!s4.ioLost 0 && !s4.ioLost 4))
        let s6 := s5.modHost (fun h =>
          { h with up0 := h.up0 && !s5.portLost false, up1 := h.up1 && !s5.portLost true, down := h.down || s5.portLost h.active })
        (s6.setStage 0xF).raise 0x0040 0 ([if cold then 1 else 2] ++ leBytes 4 rep.tenths.toNat)
    | _, _ => s.setStage 0xE

/-- Slots chosen for the next start become active, in a kind's every part (Table 15-11), and FW_ACTIVATED is posted. -/
def State.takeSlots (s : State) : State :=
  let s1 := s.mgmt.atWarm.foldl (fun t e =>
    let slot := (e.2 - 1) % 2
    let t1 := t.modMgmt (fun m => { m with active := sput 0 m.active e.1 slot })
    t1.fwEvent e.1 0xFFFF (objSvn (((t1.activeObj e.1).map (·.bytes)).getD [])) (if 2 < e.2 then 3 else 0)) s
  s1.modMgmt (fun m => { m with atWarm := [], image := [] })

/-- The grant is formed again from the licences held; removed ones leave their slots (R389, R400). -/
def State.takeLicences (s : State) : State :=
  let gone := (s.licences.filter (fun e => s.mgmt.removing.contains (BitVec.ofNat 64 (leAt e.2 0 8)))).map (·.1)
  let g := s.grantHeld
  let s1 := (gone.foldl (fun t i => t.clearSlot 0x20 i) s).modMgmt (fun m => { m with removing := [] })
  let s2 := s1.setGrant g
  if g = s.grantNow then s2 else s2.raise 0x0045 0 g.bytes

/-- The map that a start finds: behind its counter, DEFECT_LOG_GAP is posted and the extended level runs, which the report shows
(R396). -/
def State.findMap (s : State) : State :=
  let s1 := if s.topSeq < s.counter 10 then s.raise 0x0047 0 (leBytes 4 s.topSeq ++ leBytes 4 (s.counter 10)) else s
  (s1.modMgmt (fun m => { m with extended := false })).setReg Reg.defect (BitVec.ofNat 32 s1.topSeq)

/-- COLD_START (R386, Table 15-5): with both flashes failed, or no valid management-controller firmware, the panel stays in ROM
recovery; without an identity, or with the reserved power strap, in the management-only state (Table 15-7).
(DEDUCED, log entry 68.) -/
def execColdStart (rep : StartReport) (s : State) : Host.Outcome State Fault Refusal :=
  let s0 := s.coldBase
  let s1 := ((s0.setRegF Reg.pwrStatus 30 2 rep.pm.toNat).modHost (fun h => { h with active := !rep.hpsel })).markFlash false rep.flashA
  let s2 := (s1.markFlash true rep.flashB).freshen
  let feeds (t : State) : State :=
    if rep.pm = 0 then (t.setRegF Reg.pwrStatus 29 1 1).setRegF Reg.pwrStatus 28 1 1 else if rep.pm = 1 then t.setRegF Reg.pwrStatus 29 1 1 else t
  .next (if rep.flashA = false ∧ rep.flashB = false then s2.setStage 0xD
    else if ((List.range 2).all (fun i => (s2.slotObj 1 i).isNone)) then s2.setStage 0xD
    else
      let s3 := feeds (if (s2.slotObj 1 (s2.activeSlot 1)).isNone then
          s2.modMgmt (fun m => { m with active := sput 0 m.active 1 (1 - s2.activeSlot 1) }) else s2)
      let s4 := if rep.pufA then s3.setRegF Reg.secStatus 31 1 1
        else if rep.pufB then ((s3.setRegF Reg.secStatus 31 1 1).setRegF Reg.secStatus 30 1 1).raise 0x0043 0 [] else s3
      if rep.pufA = false ∧ rep.pufB = false then s4.setStage 0xE
      else
        let s5 := ((s4.mendFlashes.factoryMap).takeSlots).takeLicences
        let s7 := s5.findMap
        if rep.pm = 3 then s7.setStage 0xE else s7.openingBook rep true)

/-- A panel warm reset (R389): steps 4 to 12 again; it needs an identity and a power mode, and firmware that runs. -/
def State.warmReset (s : State) (rep : StartReport) : State :=
  if (s.reg Reg.secStatus).getLsbD 31 = false ∨ s.powerMode = 3 ∨ s.regF Reg.mgtState 28 4 = 0xD ∨ s.regF Reg.mgtState 28 4 = 0 ∨ s.rails.dark = true then s
  else
    (((s.warmBase.takeSlots).takeLicences).findMap).openingBook rep false

/-- MGT_RST (Table 15-15): ignored but with KEY 0x5A, zero in [23:1] and WARM. -/
def execMgtRst (value : W32) (rep : StartReport) (s : State) : Host.Outcome State Fault Refusal :=
  .next (if value = 0x5A000001 then s.warmReset rep else s)

/-- VENDOR_WARM_RESET_REQUEST (R389, R446): a vendor-defined MCTP message within a secured session. -/
def execVendorWarmResetRequest (c : SpdmCtx) (rep : StartReport) (s : State) : Host.Outcome State Fault Refusal :=
  .next (if c.path ≠ 0 ∧ s.mgmt.sessions.any (fun x => x.live && x.path == c.path && c.session == some x.id) = true then s.warmReset rep else s)

/-- MRST (R440): controllers and dies are held in reset, rails below VMID go off, partitions are lost, HBM is not kept; a cold
start follows. -/
def execMrst (s : State) : Host.Outcome State Fault Refusal := .next (s.coldBase.goDark)

/-- TAKEOVER (R388): the standby controller takes over; partitions and started commands go on. -/
def execTakeover (s : State) : Host.Outcome State Fault Refusal :=
  .next (if s.regF Reg.mgtState 26 1 = 0 then s
    else (s.setRegF Reg.mgtState 27 1 (1 - s.regF Reg.mgtState 27 1)).setRegF Reg.mgtState 26 1 0)

/-! ### Training results (R391, R286, Table 15-9) -/

/-- A die-crossing channel has finished its training: its counts start again (R201) and it is up, and a recovery that waits for it goes
on (R189). One that fails is out of use: outside every partition its die is fenced as at a start (Table 15-9); in a partition that runs or
recovers the failure is a second fault (R19, R425). -/
def State.meshTrained (s : State) (d : Fin 144) (dir : Dir) (lane : Nat) (ok : Bool) (free : W64) : State :=
  let s1 := (List.range 3).foldl (fun t g => t.modLink (segEnd d.val dir lane g) (fun _ => Link.reset))
    (s.setDlink d.val dir lane (if ok then 0 else 2))
  match s.partOfRank (rankOfDie d.val) with
  | none => if ok then s1 else ((s1.recordFound ⟨3, 5, 1, BitVec.ofNat 64 d.val, free⟩).fenceDie d.val).freshen
  | some p =>
    if s.regF (Reg.dlink d.val dir.idx) (2 * lane) 2 ≠ 3 then s
    else if ok then s1.channelTrained p
    else s1.raiseHalt p .abort (.quarantine d (Fin.ofNat _ ((s.dieAcross d.val dir).getD d.val)))

/-- TRAINING_COMPLETE: a port learns its peer and comes up, narrowed or failed (R286: one that faces the panel's own ID fails; a
second panel with an ID in use is reported as not ok); a lane count shows on a photonic pair; a Dyber
link that fails fences its die, a stack that fails is lost, as the start records them (Table 15-9).
(DEDUCED, log entry 72.) -/
def execTrainingComplete (u : TrainUnit) (ok : Bool) (peer : BitVec 13) (lanes : Nat) (s : State) : Host.Outcome State Fault Refusal :=
  let free : W64 := BitVec.ofNat 64 (Config.freeNat s.freeCtr 11)
  .next (match u with
    | .stack k =>
      if ok then (if s.stackState k.val = 4 ∨ s.stackState k.val = 3 then s else s.setRegF (Reg.sstat k.val) 28 4 2)
      else ((s.setRegF (Reg.sstat k.val) 28 4 3).recordFound ⟨6, 5, 1, BitVec.ofNat 64 k.val, free⟩).freshen
    | .link (.sys p) =>
      if s.regF (Reg.sylPort p.val) 28 4 ≠ 1 then s
      else if ok = false ∨ lanes < 8 ∨ peer.toNat = s.ownId ∨ 4096 ≤ peer.toNat then s.portFailed p.val
      else
        ((((s.setRegF (Reg.sylPort p.val) 0 13 peer.toNat).setRegF (Reg.sylPort p.val) 16 5 (min lanes 16)).setRegF (Reg.sylPort p.val) 28 4
          (if lanes < 16 then 3 else 2)).modLink (.sys p) (fun _ => Link.reset)).pathChanged p.val
    | .link (.mesh d dir lane _) => s.meshTrained d dir lane.val ok free
    | .link (.photon a b) =>
      if a = b then s
      else if ok = false ∨ lanes = 0 then s.pairFailed a.val b.val
      else ((s.setRegF (Reg.plink a.val b.val) 0 8 (min lanes 128)).setRegF (Reg.plink a.val b.val) 30 2 (bitN (decide (lanes < 128)))).modLink
        (photonEnd a.val b.val) (fun _ => Link.reset)
    | .link l => s.modLink l (fun _ => { Link.reset with failed := !ok }))

end Sys2Proof.Machine
end

