-- ==== Sys2Proof/Machine/Csr.lean ====
section
/-! DEFINITION. The control and status registers of a core (Table 3-5, R76): CSRR and CSRW. FFLAGS is read and written in program
order, whatever of the matrix instructions before it is still in the feed queue (R69). -/
namespace Sys2Proof.Machine

/-- LCOORD of a linear index. -/
def lcoord (l : Nat) : Nat := (l / 2048) * 4096 + (l / 256 % 8) * 256 + l % 256

/-- The value of a CSR; none where Table 3-5 lists no such number. -/
def csrValue (s : State) (k n : Nat) : Option W64 :=
  let c := s.core k
  let l := (s.logicalOf k).getD 0
  match n with
  | 0x000 => some c.cycle
  | 0x001 => some (c.move.zeroExtend 64)
  | 0x002 => some (BitVec.ofNat 64 l)
  | 0x003 => some (BitVec.ofNat 64 (lcoord l))
  | 0x004 => some (BitVec.ofNat 64 (s.regF Reg.sylPanelId 0 12))
  | 0x005 => some (BitVec.ofNat 64 ((s.partOfCore k).getD 0))
  | 0x006 => some (c.cls.zeroExtend 64)
  | 0x007 => some (c.mhz.zeroExtend 64)
  | 0x010 => some (c.flagsNow.zeroExtend 64)
  | 0x011 => some (c.rmode.zeroExtend 64)
  | 0x012 => some c.srseed
  | 0x013 => some c.srctr
  | 0x020 => some c.bankcol
  | 0x021 => some c.hintshort
  | 0x022 => some c.eccfix
  | _ => none

/-- A write of FFLAGS: the flags of matrix instructions issued before it no longer reach the register (R69). -/
def Core.writeFlags (c : Core) (v : Flags) : Core :=
  { c with fflags := v, queue := c.queue.map (fun e => { e with mute := true }) }

/-- A CSRW: the update, or none where the number is not writable or the value not accepted (R76). -/
def csrUpdate (s : State) (n : Nat) (v : W64) : Option (Core → Core) :=
  match n with
  | 0x010 => if v.toNat < 32 then some (fun c => c.writeFlags (BitVec.ofNat 5 v.toNat)) else none
  | 0x011 =>
    if v.toNat < 4 ∨ (v = 4 ∧ s.licensed 7 = true) then some (fun c => { c with rmode := BitVec.ofNat 3 v.toNat }) else none
  | 0x012 => some (fun c => { c with srseed := v })
  | 0x013 => some (fun c => { c with srctr := v })
  | _ => none

/-- CSRR (R76). -/
def effCsrr (s : State) (k : Nat) (f : CC) : Eff :=
  match csrValue s k f.csr.toNat with
  | some v => effCore k (fun d => d.setX f.x v)
  | none => .error (excIll 0 0x28 f.csr.toNat)

/-- CSRW (R76). -/
def effCsrw (s : State) (k : Nat) (f : CC) : Eff :=
  match csrUpdate s f.csr.toNat ((s.core k).getX f.x) with
  | some g => effCore k g
  | none => .error (excIll 0 0x29 f.csr.toNat)

end Sys2Proof.Machine
end

