-- ==== Sys2Proof/Machine/Sets.lean ====
section
/-! DEFINITION. The set engine (R83, R229 to R238). Records are read and written at issue, in bundle order (R88); vd and the
cursors change when the instruction finishes (SET_ENGINE_DONE; DEDUCED, log entry 11). -/
namespace Sys2Proof.Machine

/-- Control lanes of vd (Table 9-2). -/
structure SetCtl where
  na : Nat
  nb : Nat
  rc : Nat
  multi : Bool
  desc : Bool
  bits : Nat
  cap : Nat
  deriving DecidableEq, Repr

def readCtl (v : W512) : SetCtl :=
  let c := lane v 32 2
  ⟨lane v 32 0, lane v 32 1, field c 0 2, bit c 2, bit c 3, field c 8 5, lane v 32 3⟩

/-- Counts in range, reserved bits and lanes zero (R230). -/
def ctlOk (v : W512) : Bool :=
  let c := lane v 32 2
  (field c 4 4 == 0) && (c / 2 ^ 13 == 0) &&
  decide (lane v 32 0 < 2 ^ 24) && decide (lane v 32 1 < 2 ^ 24) && decide (lane v 32 3 < 2 ^ 24) &&
  (List.range 12).all (fun i => lane v 32 (4 + i) == 0)

/-- log2 of the record size (Table 9-1). -/
def recLog (rc : Nat) : Nat := if rc = 0 then 2 else if rc = 3 then 4 else 3
/-- Bits of a key (Table 9-1). -/
def keyBits (rc : Nat) : Nat := if rc = 0 ∨ rc = 1 then 32 else 64
/-- Does the record carry a payload? -/
def hasPay (rc : Nat) : Bool := rc == 1 || rc == 3
/-- The key of a record's value. -/
def keyOf (rc v : Nat) : Nat := v % 2 ^ keyBits rc
/-- The all-ones key (R229). -/
def sentinel (rc : Nat) : Nat := 2 ^ keyBits rc - 1

/-- Is an a-register fit for records (R229)? -/
def recReg (r : AGReg) (rc : Nat) : Bool := !AG.zpad r.desc && AG.esize r.desc == recLog rc

/-- Addresses of n elements from the cursor. -/
def streamAddrs (r : AGReg) (n : Nat) : List Nat :=
  (AG.steps r.desc n (r.cur % AG.total r.desc)).map (AG.addr r.desc)

/-- Values of records at addresses. -/
def recordsAt (s : State) (k : Nat) (rc : Nat) (as : List Nat) : List Nat :=
  as.map (fun a => leNat (s.spadRd k a (2 ^ recLog rc)))

/-- Progress of a set instruction: records written (last first), consumed counts and STATUS. -/
structure SetOut where
  out : List Nat
  ca : Nat
  cb : Nat
  status : Nat
  deriving DecidableEq, Repr

/-- Does a record break its stream's order (R232, R233)? -/
def breaks (rc : Nat) (multi : Bool) (last : Option Nat) (v : Nat) : Bool :=
  match last with
  | none => false
  | some l => if multi then decide (keyOf rc v < keyOf rc l) else decide (keyOf rc v ≤ keyOf rc l)

/-- SMERGE (R232, R233): fn 0 intersect, 1 union, 2 difference. The fuel bounds the records to consume.
(DEDUCED, log entry 31.) -/
def smergeLoop (fn rc cap : Nat) (multi : Bool) : Nat → List Nat → List Nat → Option Nat → Option Nat → SetOut → SetOut
  | 0, _, _, _, _, o => o
  | fuel + 1, as, bs, la, lb, o =>
    if as = [] ∧ bs = [] then o
    else if o.out.length = cap then { o with status := o.status ||| 1 }
    else
      let ba := match as with
        | a :: _ => breaks rc multi la a
        | [] => false
      let bb := match bs with
        | b :: _ => breaks rc multi lb b
        | [] => false
      if ba || bb then { o with status := o.status ||| (if ba then 2 else 0) ||| (if bb then 4 else 0) }
      else
        match as, bs with
        | [], [] => o
        | a :: as', [] =>
          let w := fn != 0
          smergeLoop fn rc cap multi fuel as' [] (some a) lb { o with out := if w then a :: o.out else o.out, ca := o.ca + 1 }
        | [], b :: bs' =>
          let w := fn == 1
          smergeLoop fn rc cap multi fuel [] bs' la (some b) { o with out := if w then b :: o.out else o.out, cb := o.cb + 1 }
        | a :: as', b :: bs' =>
          let ka := keyOf rc a
          let kb := keyOf rc b
          if ka < kb then
            let w := fn != 0
            smergeLoop fn rc cap multi fuel as' (b :: bs') (some a) lb
              { o with out := if w then a :: o.out else o.out, ca := o.ca + 1 }
          else if kb < ka then
            let w := fn == 1
            smergeLoop fn rc cap multi fuel (a :: as') bs' la (some b)
              { o with out := if w then b :: o.out else o.out, cb := o.cb + 1 }
          else
            let w := fn != 2
            if multi then
              smergeLoop fn rc cap multi fuel as' (b :: bs') (some a) lb
                { o with out := if w then a :: o.out else o.out, ca := o.ca + 1 }
            else
              smergeLoop fn rc cap multi fuel as' bs' (some a) (some b)
                { o with out := if w then a :: o.out else o.out, ca := o.ca + 1, cb := o.cb + 1 }

/-- Bucket of a key (R234). -/
def bucketOf (bits key : Nat) : Nat := (key * 0x9E3779B97F4A7C15 % 2 ^ 64) / 2 ^ (64 - bits)

/-- Address of slot n of the table, modulo the scratchpad size (DEDUCED, log entry 17). -/
def slotAddr (base rc n : Nat) : Nat := (base + n * 2 ^ recLog rc) % 2 ^ 21

/-- The first way of a key's bucket that holds it (R234): slot number and its record. -/
def probeMatch (s : State) (k base rc bits key : Nat) : Option (Nat × Nat) :=
  if key = sentinel rc then none else
  let h := bucketOf bits key
  ((List.range 4).map (fun w => (4 * h + w, leNat (s.spadRd k (slotAddr base rc (4 * h + w)) (2 ^ recLog rc))))).find?
    (fun e => keyOf rc e.2 == key)

/-- The record that SPROBE writes for one probe (R235). -/
def probeOut (rc v : Nat) (m : Option (Nat × Nat)) : Nat :=
  if hasPay rc then
    keyOf rc v + 2 ^ keyBits rc * (match m with
      | some e => e.2 / 2 ^ keyBits rc
      | none => sentinel rc)
  else match m with
    | some e => e.1
    | none => sentinel rc

/-- SCOMPACT (R236) over records with their mask bits. -/
def compactLoop (cap : Nat) : List (Nat × Bool) → SetOut → SetOut
  | [], o => o
  | (v, m) :: l, o =>
    if o.out.length = cap then { o with status := o.status ||| 1 }
    else compactLoop cap l { o with out := if m then v :: o.out else o.out, ca := o.ca + 1 }

/-- Insert into a sorted list behind the records with an equal key. -/
def sortIns (rc : Nat) (desc : Bool) (v : Nat) : List Nat → List Nat
  | [] => [v]
  | w :: l =>
    let before := if desc then decide (keyOf rc w < keyOf rc v) else decide (keyOf rc v < keyOf rc w)
    if before then v :: w :: l else w :: sortIns rc desc v l

/-- Stable sort by key (R237). -/
def sortRecs (rc : Nat) (desc : Bool) (l : List Nat) : List Nat := l.foldl (fun a v => sortIns rc desc v a) []

/-- Result lanes of vd (Table 9-2). -/
def setResult (o : SetOut) (lane2 : Nat) : W512 := ofLanes 32 [o.out.length, o.ca, lane2, o.status]

/-- Write records to addresses. -/
def writeRecs (k rc : Nat) : List (Nat × Nat) → State → State
  | [], s => s
  | (a, v) :: l, s => writeRecs k rc l (s.spadWr k a (leBytes (2 ^ recLog rc) v))

/-- Start a set instruction: output written, the result kept for SET_ENGINE_DONE; a poisoned row among the words read stops
the core at its next boundary instead (R164). (DEDUCED, log entry 11.) -/
def startSet (k : Nat) (c : Core) (ws : List Nat) (rc : Nat) (outAddrs : List Nat) (o : SetOut) (run : SetRun) : State → State :=
  match c.badRow ws with
  | some row => fun s => (s.modCore k (eccTouch ws)).engineExc k (excEcc 1 row)
  | none => fun s =>
    (writeRecs k rc (outAddrs.zip o.out.reverse) (s.modCore k (eccTouch ws))).modCore k (fun d => { d with setRun := some run })

/-- The first address of a list that is not a multiple of the record size (R74). -/
def misaligned (rc : Nat) (as : List Nat) : Option Nat := as.find? (fun a => a % 2 ^ recLog rc != 0)

/-- Words of records. -/
def recWords (rc : Nat) (as : List Nat) : List Nat := (as.flatMap (fun a => wordsOf a (2 ^ recLog rc))).eraseDups

/-- Finish a set instruction at issue: address checks of the records met, then its start. -/
def runSet (k : Nat) (c : Core) (rc : Nat) (inAddrs : List Nat) (more : List Nat) (outAddrs : List Nat) (o : SetOut)
    (run : SetRun) : Eff :=
  match misaligned rc (inAddrs ++ outAddrs) with
  | some a => .error (excAddr 1 a)
  | none => .ok (startSet k c ((recWords rc inAddrs ++ more).eraseDups) rc outAddrs o run)

/-- SMERGE. -/
def effSmerge (s : State) (k : Nat) (f : VS) : Eff :=
  let c := s.core k
  let v := c.getV f.vd
  let t := readCtl v
  let ra := c.getA f.aA
  let rb := c.getA f.aB
  let rd := c.getA f.aD
  if !s.licensed 4 || !ctlOk v || !recReg ra t.rc || !recReg rb t.rc || !recReg rd t.rc then .error (excIll 1 0x28 0) else
  let aa := streamAddrs ra t.na
  let ab := streamAddrs rb t.nb
  let o := smergeLoop f.fn.toNat t.rc t.cap t.multi (t.na + t.nb + 1) (recordsAt s k t.rc aa) (recordsAt s k t.rc ab)
    none none ⟨[], 0, 0, 0⟩
  runSet k c t.rc (aa.take (o.ca + 1) ++ ab.take (o.cb + 1)) [] (streamAddrs rd o.out.length) o
    ⟨f.vd, [(f.aA, o.ca), (f.aB, o.cb), (f.aD, o.out.length)], setResult o o.cb⟩

/-- SPROBE (R234, R235). -/
def effSprobe (s : State) (k : Nat) (f : VS) : Eff :=
  let c := s.core k
  let v := c.getV f.vd
  let t := readCtl v
  let ra := c.getA f.aA
  let rd := c.getA f.aD
  let base := AG.base (c.getA f.aB).desc
  let size := 2 ^ recLog t.rc
  if !s.licensed 4 || !ctlOk v || !recReg ra t.rc || !recReg rd t.rc || t.nb != 0 || decide (t.cap < t.na) ||
      decide (t.bits < 1) || decide (17 < t.bits) || decide (2 ^ 21 < 2 ^ t.bits * 4 * size) || base % (4 * size) != 0 then
    .error (excIll 1 0x29 0) else
  let aa := streamAddrs ra t.na
  let vs := recordsAt s k t.rc aa
  let ms := vs.map (fun x => probeMatch s k base t.rc t.bits (keyOf t.rc x))
  let hits := (ms.filter (·.isSome)).length
  let sent := vs.any (fun x => keyOf t.rc x == sentinel t.rc)
  let o : SetOut := ⟨((vs.zip ms).map (fun p => probeOut t.rc p.1 p.2)).reverse, t.na, 0, if sent then 8 else 0⟩
  let buckets := (vs.filter (fun x => keyOf t.rc x != sentinel t.rc)).flatMap (fun x =>
    wordsOf (slotAddr base t.rc (4 * bucketOf t.bits (keyOf t.rc x))) (4 * size))
  runSet k c t.rc aa buckets (streamAddrs rd t.na) o ⟨f.vd, [(f.aA, t.na), (f.aB, 0), (f.aD, t.na)], setResult o hits⟩

/-- SCOMPACT (R231, R236). -/
def effScompact (s : State) (k : Nat) (f : VS) : Eff :=
  let c := s.core k
  let v := c.getV f.vd
  let t := readCtl v
  let ra := c.getA f.aA
  let rb := c.getA f.aB
  let rd := c.getA f.aD
  if !s.licensed 4 || !ctlOk v || !recReg ra t.rc || !recReg rd t.rc || AG.esize rb.desc != 6 || t.nb != 0 then
    .error (excIll 1 0x2A 0) else
  let aa := streamAddrs ra t.na
  let ms := (AG.steps rb.desc ((t.na + 511) / 512) (rb.cur % AG.total rb.desc)).map
    (fun q => if AG.padded rb.desc q then none else some (AG.addr rb.desc q))
  let mask := ms.flatMap (fun q => match q with
    | none => List.replicate 64 (0 : Byte)
    | some a => s.spadRd k a 64)
  let recs := (recordsAt s k t.rc aa).zipIdx.map (fun p => (p.1, (mask.getD (p.2 / 8) 0).getLsbD (p.2 % 8)))
  let o := compactLoop t.cap recs ⟨[], 0, 0, 0⟩
  let begun := (o.ca + 511) / 512
  match (ms.filterMap id).find? (fun a => a % 64 != 0) with
  | some a => .error (excAddr 1 a)
  | none =>
    runSet k c t.rc (aa.take (o.ca + 1)) (((ms.take begun).filterMap id).flatMap (fun a => wordsOf a 64))
      (streamAddrs rd o.out.length) o
      ⟨f.vd, [(f.aA, o.ca), (f.aB, begun), (f.aD, o.out.length)], setResult o 0⟩

/-- SSORT (R237). -/
def effSsort (s : State) (k : Nat) (f : VS) : Eff :=
  let c := s.core k
  let v := c.getV f.vd
  let t := readCtl v
  let ra := c.getA f.aA
  let rd := c.getA f.aD
  if !s.licensed 4 || !ctlOk v || !recReg ra t.rc || !recReg rd t.rc || t.nb != 0 || decide (t.na < 1) || decide (256 < t.na) ||
      decide (t.cap < t.na) then .error (excIll 1 0x2B 0) else
  let aa := streamAddrs ra t.na
  let o : SetOut := ⟨(sortRecs t.rc t.desc (recordsAt s k t.rc aa)).reverse, t.na, 0, 0⟩
  runSet k c t.rc aa [] (streamAddrs rd t.na) o ⟨f.vd, [(f.aA, t.na), (f.aB, 0), (f.aD, t.na)], setResult o 0⟩

/-- Write the results of a finished set instruction: vd, then each cursor by what was consumed or written (R230, R231). -/
def Core.setDone (c : Core) (r : SetRun) : Core :=
  let c1 := r.adv.foldl (fun d e => d.setA e.1 (AG.advance (d.getA e.1) e.2)) c
  { c1.setV r.vd r.result with setRun := none, sw := { c1.sw with setWait := false } }

/-- SET_ENGINE_DONE (R230, R238): the running set-engine instruction finishes; with none running nothing happens. -/
def execSetEngineDone (core : Fin 39168) (s : State) : Host.Outcome State Fault Refusal :=
  .next (s.modCore core (fun c => match c.setRun with
    | none => c
    | some r => c.setDone r))

end Sys2Proof.Machine
end

