-- ==== Sys2Proof/Machine/Issue.lean ====
section
/-! DEFINITION. Issue of a bundle (R67, R68, R86 to R88, R94, R452) and the meaning of every slot instruction as the command
that presents the bundle holding it. -/
namespace Sys2Proof.Machine

/-! ### Effects by slot -/

/-- Effect of the C slot. -/
def effC (s : State) (k : Nat) (i : SlotInst) : Eff :=
  if !(s.core k).predBit i.pn i.pred 0 then effNone else
  match i.op with
  | .trap => .error (excTrap 0)
  | .alu f => effAlu s k f
  | .addi f => effAddi s k f
  | .andi f => effAndi s k f
  | .ori f => effOri s k f
  | .xori f => effXori s k f
  | .slli f => effSlli s k f
  | .srli f => effSrli s k f
  | .srai f => effSrai s k f
  | .clti f => effClti s k f
  | .li f => effLi s k f
  | .insh1 f => effInsh1 s k f
  | .insh2 f => effInsh2 s k f
  | .insh3 f => effInsh3 s k f
  | .ld f => effLd s k f
  | .lws f => effLws s k f
  | .lwz f => effLwz s k f
  | .st f => effSt s k f
  | .sw f => effSw s k f
  | .brcEq f => effBrcEq s k f
  | .brcNe f => effBrcNe s k f
  | .brcLt f => effBrcLt s k f
  | .brcGe f => effBrcGe s k f
  | .brcLtu f => effBrcLtu s k f
  | .brcGeu f => effBrcGeu s k f
  | .j f => effJ s k f
  | .jr f => effJr s k f
  | .loop f => effLoop s k f
  | .pcmp f => effPcmp s k f
  | .plog f => effPlog s k f
  | .pset f => effPset s k f
  | .pget f => effPget s k f
  | .csrr f => effCsrr s k f
  | .csrw f => effCsrw s k f
  | .agld f => effAgld s k f
  | .agrst f => effAgrst s k f
  | .agbase f => effAgbase s k f
  | .agpos f => effAgpos s k f
  | .loadhint f => effLoadhint s k f
  | _ => effNone

/-- Effect of the V slot: bit 0 of the predicate decides TRAP, VEXT and the set engine, the lane bits the others (R70). -/
def effV (s : State) (k : Nat) (i : SlotInst) : Eff :=
  let q := (s.core k).predBit i.pn i.pred 0
  match i.op with
  | .trap => if q then .error (excTrap 1) else effNone
  | .vadd f => effVadd s k i f
  | .vsub f => effVsub s k i f
  | .vmul f => effVmul s k i f
  | .vfma f => effVfma s k i f
  | .vfms f => effVfms s k i f
  | .vmax f => effVmax s k i f
  | .vmin f => effVmin s k i f
  | .vabs f => effVabs s k i f
  | .vneg f => effVneg s k i f
  | .vand f => effVand s k i f
  | .vor f => effVor s k i f
  | .vxor f => effVxor s k i f
  | .vexp f => effVexp s k i f
  | .vlog f => effVlog s k i f
  | .vrcp f => effVrcp s k i f
  | .vrsqrt f => effVrsqrt s k i f
  | .vrowstat f => effVrowstat s k i f
  | .vcmp f => effVcmp s k i f
  | .vmov f => effVmov s k i f
  | .vbcast f => effVbcast s k i f
  | .vext f => if q then effVext s k i f else effNone
  | .vcvt f => effVcvt s k i f
  | .vld f => effVld s k i f
  | .vst f => effVst s k i f
  | .smerge f => if q then effSmerge s k f else effNone
  | .sprobe f => if q then effSprobe s k f else effNone
  | .scompact f => if q then effScompact s k f else effNone
  | .ssort f => if q then effSsort s k f else effNone
  | _ => effNone

/-- Effect of the M slot; `ctr` is the value a stochastic drain takes (R144), `lost` the banks that the feeder loses in this cycle. -/
def effM (s : State) (k : Nat) (i : SlotInst) (ctr : W64) (lost : List Nat) : Eff :=
  if !(s.core k).predBit i.pn i.pred 0 then effNone else
  match i.op with
  | .trap => .error (excTrap 2)
  | .mmul f => effMmul s k f lost
  | .mload f => effMload s k f lost
  | .mouter f => effMouter s k f lost
  | .mdrain f => effMdrain s k f ctr
  | .mcfg f => effMcfg s k f
  | _ => effNone

/-- Effect of the X slot. -/
def effX (s : State) (k : Nat) (i : SlotInst) : Eff :=
  if !(s.core k).predBit i.pn i.pred 0 then effNone else
  match i.op with
  | .trap => .error (excTrap 3)
  | .xply f => effXply s k f
  | .cpy f => effCpy s k f
  | .cwait f => effCwait s k f
  | .crd f => effCrd s k f
  | .bclm f => effBclm s k f
  | .arr f => effArr s k f
  | .wrel f => effWrel s k f
  | .rres f => effRres s k f
  | .rflg f => effRflg s k f
  | .halt f => effHalt f
  | .xfence f => effXfence s k f
  | .endp f => effEndp s k f
  | _ => effNone

/-! ### Holds (R83, R84, R86, R115) -/

/-- Banks that a slot's own accesses reach through the vector port and the matrix feeder: of SPROBE the buckets too, of SCOMPACT the
mask. -/
def slotBanks (s : State) (k : Nat) (o : SlotOp) : List Nat :=
  let c := s.core k
  match o with
  | .ld f => [bankOf (scalarAddr (c.getX f.xs1) f.imm.toInt 8)]
  | .lws f => [bankOf (scalarAddr (c.getX f.xs1) f.imm.toInt 4)]
  | .lwz f => [bankOf (scalarAddr (c.getX f.xs1) f.imm.toInt 4)]
  | .st f => [bankOf (scalarAddr (c.getX f.xs1) f.imm.toInt 8)]
  | .sw f => [bankOf (scalarAddr (c.getX f.xs1) f.imm.toInt 4)]
  | .agld f => [bankOf (scalarAddr (c.getX f.x) f.imm.toNat 64)]
  | .vld f => agBanks c f.an 64
  | .vst f => agBanks c f.an 64
  | .smerge f => let t := readCtl (c.getV f.vd); setBanks c f.aA t.na ++ setBanks c f.aB t.nb ++ setBanks c f.aD t.cap
  | .sprobe f =>
    let t := readCtl (c.getV f.vd)
    let keys := (recordsAt s k t.rc (streamAddrs (c.getA f.aA) t.na)).map (keyOf t.rc)
    setBanks c f.aA t.na ++ setBanks c f.aD t.na ++ ((keys.filter (· != sentinel t.rc)).map (fun x =>
      bankOf (slotAddr (AG.base (c.getA f.aB).desc) t.rc (4 * bucketOf t.bits x)))).eraseDups
  | .scompact f => let t := readCtl (c.getV f.vd); setBanks c f.aA t.na ++ setBanks c f.aB ((t.na + 511) / 512) ++ setBanks c f.aD t.cap
  | .ssort f => let t := readCtl (c.getV f.vd); setBanks c f.aA t.na ++ setBanks c f.aD t.na
  | .mmul f => agBanks c f.aS (streamWidth f.fmt f.t)
  | .mload f => agBanks c f.aS (mloadWidth f.fmt)
  | .mouter f => agBanks c f.aX (streamWidth f.fmt false) ++ agBanks c f.aY (streamWidth f.fmt true)
  | _ => []
where
  agBanks (c : Core) (an : BitVec 4) (width : Nat) : List Nat :=
    let r := c.getA an
    banksOf (AG.rows r.desc (AG.targets r width))
  setBanks (c : Core) (a : BitVec 4) (n : Nat) : List Nat := ((streamAddrs (c.getA a) n).map bankOf).eraseDups

/-- Banks that a slot asks for in its issue cycle (R70, R158): none where bit 0 of its predicate is false and decides. A set instruction
asks for its streams in later cycles, as the vector port among the rivals of the commands that follow. (DEDUCED, log entry 102.) -/
def slotAsks (s : State) (k : Nat) (i : SlotInst) : List Nat :=
  match i.op with
  | .vld f => slotBanks s k (.vld f)
  | .vst f => slotBanks s k (.vst f)
  | o => if o.isSet || !(s.core k).predBit i.pn i.pred 0 then [] else slotBanks s k o

/-- The bank requests of a bundle's issue cycle: the vector port, the matrix feeder, and the rivals' (Table 3-19). -/
def bundleAsks (s : State) (k : Nat) (b : Bundle) (rivals : List Rival) : List (Nat × Nat) :=
  ([b.c, b.v].flatMap (slotAsks s k)).map (fun x => (3, x)) ++ (slotAsks s k b.m).map (fun x => (1, x)) ++ rivalReqs rivals

/-- Does a slot lose a bank of its issue cycle in strict mode, where its access is not performed (R161)? -/
def slotDenied (s : State) (k : Nat) (reqs : List (Nat × Nat)) (i : SlotInst) (eng : Nat) : Bool :=
  !(slotAsks s k i).isEmpty && s.strictLoses k reqs eng

/-- Words that a C-slot load, AGLD or VLD reads: a poisoned row among them is found although the bundle does not issue (R164). -/
def readWords (c : Core) : SlotOp → List Nat
  | .ld f => wordsOf (scalarAddr (c.getX f.xs1) f.imm.toInt 8) 8
  | .lws f => wordsOf (scalarAddr (c.getX f.xs1) f.imm.toInt 4) 4
  | .lwz f => wordsOf (scalarAddr (c.getX f.xs1) f.imm.toInt 4) 4
  | .agld f => wordsOf (scalarAddr (c.getX f.x) f.imm.toNat 64) 64
  | .vld f => let r := c.getA f.an; AG.words r.desc (AG.targets r 64)
  | _ => []

/-- The exception of a slot at issue; 0x05 first records the poisoned row that the slot's read found. (DEDUCED, log entry 15.) -/
def slotException (s : State) (k : Nat) (o : SlotOp) (e : Exc) : State :=
  (if e.code = 0x05 then s.modCore k (eccTouch (readWords (s.core k) o)) else s).coreException k e

/-- Is the slot's instruction of the M slot's matrix instructions? -/
def isMatrix : SlotOp → Bool
  | .mmul _ | .mload _ | .mouter _ | .mdrain _ | .mcfg _ => true
  | _ => false

/-- Is an MCFG still in the feed queue, or zeroing? -/
def Core.configuring (c : Core) : Bool :=
  c.zeroing || c.queue.any (fun e => match e.op with
    | .mcfg _ _ => true
    | _ => false)

/-- Is an MDRAIN in the feed queue? -/
def Core.draining (c : Core) : Bool := c.queue.any (fun e => match e.op with
  | .mdrain _ _ _ _ _ => true
  | _ => false)

/-- Why the X slot holds. -/
def holdX (c : Core) : SlotOp → Option Hold
  | .cwait f =>
    let need : Nat := if f.x = 0 then f.imm.toNat else (c.getX f.x).toNat
    if (c.getC f.cn).toNat < need then some .cwait else none
  | .wrel f => if c.arrOut.getLsbD f.g.toNat then some .wrel else none
  | .rres f => if c.arrOut.getLsbD f.g.toNat then some .wrel else none
  | .rflg f => if c.arrOut.getLsbD f.g.toNat then some .wrel else none
  | .cpy _ => if 64 ≤ c.copies.length then some .copies64 else none
  | .xfence _ => if c.setRun.isSome || c.draining then some .fence else none
  | _ => none

/-- Why a bundle holds at decode, whatever its predicates; the first reason found. (DEDUCED, log entry 9.)
(DEDUCED, log entry 32.) -/
def holdReason (s : State) (k : Nat) (b : Bundle) : Option Hold :=
  let c := s.core k
  let ops := [b.c.op, b.v.op, b.m.op, b.x.op]
  let ags := ops.flatMap SlotOp.ags
  let setHold : Bool := match c.setRun with
    | none => false
    | some r => b.v.op.vregs.contains (.v r.vd) || ags.any (fun a => r.adv.any (fun e => e.1 == a))
  if setHold || ags.any (fun a => c.queue.any (fun e => e.ags.contains a)) then some .register
  else if !(drainBanks c).isEmpty && ops.any (fun o => (slotBanks s k o).any (fun x => (drainBanks c).contains x)) then
    some .drainBank
  else if b.v.op.isSet && c.setRun.isSome then some .setBusy
  else if isMatrix b.m.op && c.configuring then some .mcfg
  else
    match b.m.op with
    | .mdrain f => if drainWaits c f then some .drainRow else holdX c b.x.op
    | _ => holdX c b.x.op

/-! ### Issue -/

/-- Counter values that the V and M slots use (R144). -/
def ctrUsed (c : Core) (b : Bundle) : Nat × Nat :=
  (bitN (usesCtrV b.v.op c),
    match b.m.op with
    | .mdrain f => bitN (f.rnd == 4 && c.predBit b.m.pn b.m.pred 0)
    | _ => 0)

/-- Does nothing enter the array: the M slot holds no matrix instruction, or its predicate is false (Table 4-8)? -/
def idleArray (c : Core) (b : Bundle) : Bool := !isMatrix b.m.op || !c.predBit b.m.pn b.m.pred 0

/-- The cycles of a bundle: one, and those it was held, which are bubbles like the one of an idle M slot (Tables 3-2, 4-8). They pay
the array cycles that are owed: each cycle carries one operation or one bubble (R127). -/
def Core.passCycles (c : Core) (held : Nat) (idle : Bool) : Core :=
  { c.arrayCycles 0 (held + bitN idle) (1 + held) with owed := c.owed - (held + bitN idle) }

/-- A legal bundle that nothing holds issues: every slot reads the state before it; the C slot's change of the program
counter is applied last. In strict mode an access that loses its bank is not performed (R161). Time beyond one cycle is free (DESIGN
CHOICE, log entry 5); taken jumps are part of it. Bytes that two engines of the core write in one move have no defined result: here the
commands' order decides them (DESIGN CHOICE, log entry 103). (DEDUCED, log entry 29.) -/
def issueEffects (s : State) (k : Nat) (b : Bundle) (rivals : List Rival) : State :=
  let c := s.core k
  let u := ctrUsed c b
  let reqs := bundleAsks s k b rivals
  match effC s k b.c, effV s k b.v, effM s k b.m (c.srctr + BitVec.ofNat 64 u.1) (s.lostBanks k reqs 1), effX s k b.x with
  | .ok ec, .ok ev, .ok em, .ok ex =>
    let s1 := s.meet k reqs (!(slotAsks s k b.m).isEmpty)
    let go (i : SlotInst) (eng : Nat) (e : State → State) (t : State) : State := if slotDenied s k reqs i eng then t else e t
    let s2 := s1.freshen.modCore k (fun d =>
      { d.goNext.passCycles (Config.stall s.freeCtr).toNat (idleArray c b) with
        srctr := d.srctr + BitVec.ofNat 64 (u.1 + u.2)
        fresh := false
        hold := none })
    go b.c 3 ec (ex (go b.m 1 em (go b.v 3 ev s2)))
  | .error e, _, _, _ => slotException s k b.c.op e
  | .ok _, .error e, _, _ => slotException s k b.v.op e
  | .ok _, .ok _, .error e, _ => s.coreException k e
  | .ok _, .ok _, .ok _, .error e => (if e.code = 0x09 then s.modCore k (fun d => { d with copyCause := 0x01 }) else s).coreException k e

/-- The 64-bit halves of a stored bundle, by which its errors are held (R97). -/
def halves (pc : BitVec 13) : List Nat := [2 * pc.toNat, 2 * pc.toNat + 1]

/-- A bundle is presented at a core: a single-bit error of a half of it is corrected and counted at each fetch, a double-bit one raises
0x06 (R97). A core that does not run issues nothing; a core held at a release holds it. -/
def issueBundle (s : State) (k : Nat) (b : Bundle) (rivals : List Rival) : State :=
  let c := s.core k
  if c.st ≠ 3 ∧ c.st ≠ 4 then s
  else
    match firstExc c.excPend with
    | some e => s.coreException k e
    | none =>
      if c.st = 4 then s.modCore k (fun d => { d with hold := some .release })
      else if (halves c.pc).any c.istoreUe.contains then s.coreException k ⟨0x06, 0xF, 0⟩
      else
        let n := ((halves c.pc).filter c.istoreCe.contains).length
        let s0 := if n = 0 then s else s.modCore k (fun d => { d with eccfix := d.eccfix + BitVec.ofNat 64 n })
        match holdReason s0 k b with
        | some h => s0.modCore k (fun d => { d with hold := some h })
        | none =>
          match bundleEncodingBad b with
          | some (sl, op, fld) => s0.coreException k (excIll sl op fld)
          | none =>
            if illegalMask b ≠ 0 then s0.coreException k ⟨0x03, 0xF, BitVec.ofNat 16 (illegalMask b)⟩
            else issueEffects s0 k b rivals

/-- The command that presents the bundle holding an instruction in a slot. (DEDUCED, log entry 8.) -/
def issue (w : Issue) (sl : Slot) (op : SlotOp) (s : State) : Host.Outcome State Fault Refusal :=
  .next (issueBundle s w.core.val ((decodeBundle w.rest).put sl ⟨op, w.pn, w.pred⟩) w.rivals)

/-! ### One command per instruction -/

/-- NOP in a slot (R78). -/
def execNop (w : Issue) (slot : Slot) (s : State) : Host.Outcome State Fault Refusal := issue w slot .nop s

/-- TRAP in a slot (R78). -/
def execTrap (w : Issue) (slot : Slot) (s : State) : Host.Outcome State Fault Refusal := issue w slot .trap s

/-- ALU. -/
def execAlu (w : Issue) (f : CR) (s : State) : Host.Outcome State Fault Refusal := issue w .c (.alu f) s

/-- ADDI. -/
def execAddi (w : Issue) (f : CI) (s : State) : Host.Outcome State Fault Refusal := issue w .c (.addi f) s

/-- ANDI. -/
def execAndi (w : Issue) (f : CI) (s : State) : Host.Outcome State Fault Refusal := issue w .c (.andi f) s

/-- ORI. -/
def execOri (w : Issue) (f : CI) (s : State) : Host.Outcome State Fault Refusal := issue w .c (.ori f) s

/-- XORI. -/
def execXori (w : Issue) (f : CI) (s : State) : Host.Outcome State Fault Refusal := issue w .c (.xori f) s

/-- SLLI. -/
def execSlli (w : Issue) (f : CI) (s : State) : Host.Outcome State Fault Refusal := issue w .c (.slli f) s

/-- SRLI. -/
def execSrli (w : Issue) (f : CI) (s : State) : Host.Outcome State Fault Refusal := issue w .c (.srli f) s

/-- SRAI. -/
def execSrai (w : Issue) (f : CI) (s : State) : Host.Outcome State Fault Refusal := issue w .c (.srai f) s

/-- CLTI. -/
def execClti (w : Issue) (f : CI) (s : State) : Host.Outcome State Fault Refusal := issue w .c (.clti f) s

/-- LI. -/
def execLi (w : Issue) (f : CU) (s : State) : Host.Outcome State Fault Refusal := issue w .c (.li f) s

/-- INSH1. -/
def execInsh1 (w : Issue) (f : CU) (s : State) : Host.Outcome State Fault Refusal := issue w .c (.insh1 f) s

/-- INSH2. -/
def execInsh2 (w : Issue) (f : CU) (s : State) : Host.Outcome State Fault Refusal := issue w .c (.insh2 f) s

/-- INSH3. -/
def execInsh3 (w : Issue) (f : CU) (s : State) : Host.Outcome State Fault Refusal := issue w .c (.insh3 f) s

/-- LD. -/
def execLd (w : Issue) (f : CI) (s : State) : Host.Outcome State Fault Refusal := issue w .c (.ld f) s

/-- LWS. -/
def execLws (w : Issue) (f : CI) (s : State) : Host.Outcome State Fault Refusal := issue w .c (.lws f) s

/-- LWZ. -/
def execLwz (w : Issue) (f : CI) (s : State) : Host.Outcome State Fault Refusal := issue w .c (.lwz f) s

/-- ST. -/
def execSt (w : Issue) (f : CS) (s : State) : Host.Outcome State Fault Refusal := issue w .c (.st f) s

/-- SW. -/
def execSw (w : Issue) (f : CS) (s : State) : Host.Outcome State Fault Refusal := issue w .c (.sw f) s

/-- BRC_EQ. -/
def execBrcEq (w : Issue) (f : CB) (s : State) : Host.Outcome State Fault Refusal := issue w .c (.brcEq f) s

/-- BRC_NE. -/
def execBrcNe (w : Issue) (f : CB) (s : State) : Host.Outcome State Fault Refusal := issue w .c (.brcNe f) s

/-- BRC_LT. -/
def execBrcLt (w : Issue) (f : CB) (s : State) : Host.Outcome State Fault Refusal := issue w .c (.brcLt f) s

/-- BRC_GE. -/
def execBrcGe (w : Issue) (f : CB) (s : State) : Host.Outcome State Fault Refusal := issue w .c (.brcGe f) s

/-- BRC_LTU. -/
def execBrcLtu (w : Issue) (f : CB) (s : State) : Host.Outcome State Fault Refusal := issue w .c (.brcLtu f) s

/-- BRC_GEU. -/
def execBrcGeu (w : Issue) (f : CB) (s : State) : Host.Outcome State Fault Refusal := issue w .c (.brcGeu f) s

/-- J. -/
def execJ (w : Issue) (f : CJ) (s : State) : Host.Outcome State Fault Refusal := issue w .c (.j f) s

/-- JR. -/
def execJr (w : Issue) (f : CR) (s : State) : Host.Outcome State Fault Refusal := issue w .c (.jr f) s

/-- LOOP. -/
def execLoop (w : Issue) (f : CO) (s : State) : Host.Outcome State Fault Refusal := issue w .c (.loop f) s

/-- PCMP. -/
def execPcmp (w : Issue) (f : CP) (s : State) : Host.Outcome State Fault Refusal := issue w .c (.pcmp f) s

/-- PLOG. -/
def execPlog (w : Issue) (f : CL) (s : State) : Host.Outcome State Fault Refusal := issue w .c (.plog f) s

/-- PSET. -/
def execPset (w : Issue) (f : CL) (s : State) : Host.Outcome State Fault Refusal := issue w .c (.pset f) s

/-- PGET. -/
def execPget (w : Issue) (f : CL) (s : State) : Host.Outcome State Fault Refusal := issue w .c (.pget f) s

/-- CSRR. -/
def execCsrr (w : Issue) (f : CC) (s : State) : Host.Outcome State Fault Refusal := issue w .c (.csrr f) s

/-- CSRW. -/
def execCsrw (w : Issue) (f : CC) (s : State) : Host.Outcome State Fault Refusal := issue w .c (.csrw f) s

/-- AGLD. -/
def execAgld (w : Issue) (f : CA) (s : State) : Host.Outcome State Fault Refusal := issue w .c (.agld f) s

/-- AGRST. -/
def execAgrst (w : Issue) (f : CA) (s : State) : Host.Outcome State Fault Refusal := issue w .c (.agrst f) s

/-- AGBASE. -/
def execAgbase (w : Issue) (f : CA) (s : State) : Host.Outcome State Fault Refusal := issue w .c (.agbase f) s

/-- AGPOS. -/
def execAgpos (w : Issue) (f : CA) (s : State) : Host.Outcome State Fault Refusal := issue w .c (.agpos f) s

/-- LOADHINT. -/
def execLoadhint (w : Issue) (f : CH) (s : State) : Host.Outcome State Fault Refusal := issue w .c (.loadhint f) s

/-- VADD. -/
def execVadd (w : Issue) (f : VR) (s : State) : Host.Outcome State Fault Refusal := issue w .v (.vadd f) s

/-- VSUB. -/
def execVsub (w : Issue) (f : VR) (s : State) : Host.Outcome State Fault Refusal := issue w .v (.vsub f) s

/-- VMUL. -/
def execVmul (w : Issue) (f : VR) (s : State) : Host.Outcome State Fault Refusal := issue w .v (.vmul f) s

/-- VFMA. -/
def execVfma (w : Issue) (f : VR) (s : State) : Host.Outcome State Fault Refusal := issue w .v (.vfma f) s

/-- VFMS. -/
def execVfms (w : Issue) (f : VR) (s : State) : Host.Outcome State Fault Refusal := issue w .v (.vfms f) s

/-- VMAX. -/
def execVmax (w : Issue) (f : VR) (s : State) : Host.Outcome State Fault Refusal := issue w .v (.vmax f) s

/-- VMIN. -/
def execVmin (w : Issue) (f : VR) (s : State) : Host.Outcome State Fault Refusal := issue w .v (.vmin f) s

/-- VABS. -/
def execVabs (w : Issue) (f : VR) (s : State) : Host.Outcome State Fault Refusal := issue w .v (.vabs f) s

/-- VNEG. -/
def execVneg (w : Issue) (f : VR) (s : State) : Host.Outcome State Fault Refusal := issue w .v (.vneg f) s

/-- VAND. -/
def execVand (w : Issue) (f : VR) (s : State) : Host.Outcome State Fault Refusal := issue w .v (.vand f) s

/-- VOR. -/
def execVor (w : Issue) (f : VR) (s : State) : Host.Outcome State Fault Refusal := issue w .v (.vor f) s

/-- VXOR. -/
def execVxor (w : Issue) (f : VR) (s : State) : Host.Outcome State Fault Refusal := issue w .v (.vxor f) s

/-- VEXP. -/
def execVexp (w : Issue) (f : VR) (s : State) : Host.Outcome State Fault Refusal := issue w .v (.vexp f) s

/-- VLOG. -/
def execVlog (w : Issue) (f : VR) (s : State) : Host.Outcome State Fault Refusal := issue w .v (.vlog f) s

/-- VRCP. -/
def execVrcp (w : Issue) (f : VR) (s : State) : Host.Outcome State Fault Refusal := issue w .v (.vrcp f) s

/-- VRSQRT. -/
def execVrsqrt (w : Issue) (f : VR) (s : State) : Host.Outcome State Fault Refusal := issue w .v (.vrsqrt f) s

/-- VROWSTAT. -/
def execVrowstat (w : Issue) (f : VR) (s : State) : Host.Outcome State Fault Refusal := issue w .v (.vrowstat f) s

/-- VCMP. -/
def execVcmp (w : Issue) (f : VC) (s : State) : Host.Outcome State Fault Refusal := issue w .v (.vcmp f) s

/-- VMOV. -/
def execVmov (w : Issue) (f : VR) (s : State) : Host.Outcome State Fault Refusal := issue w .v (.vmov f) s

/-- VBCAST. -/
def execVbcast (w : Issue) (f : VX) (s : State) : Host.Outcome State Fault Refusal := issue w .v (.vbcast f) s

/-- VEXT. -/
def execVext (w : Issue) (f : VX) (s : State) : Host.Outcome State Fault Refusal := issue w .v (.vext f) s

/-- VCVT. -/
def execVcvt (w : Issue) (f : VV) (s : State) : Host.Outcome State Fault Refusal := issue w .v (.vcvt f) s

/-- VLD. -/
def execVld (w : Issue) (f : VM) (s : State) : Host.Outcome State Fault Refusal := issue w .v (.vld f) s

/-- VST. -/
def execVst (w : Issue) (f : VM) (s : State) : Host.Outcome State Fault Refusal := issue w .v (.vst f) s

/-- SMERGE. -/
def execSmerge (w : Issue) (f : VS) (s : State) : Host.Outcome State Fault Refusal := issue w .v (.smerge f) s

/-- SPROBE. -/
def execSprobe (w : Issue) (f : VS) (s : State) : Host.Outcome State Fault Refusal := issue w .v (.sprobe f) s

/-- SCOMPACT. -/
def execScompact (w : Issue) (f : VS) (s : State) : Host.Outcome State Fault Refusal := issue w .v (.scompact f) s

/-- SSORT. -/
def execSsort (w : Issue) (f : VS) (s : State) : Host.Outcome State Fault Refusal := issue w .v (.ssort f) s

/-- MMUL. -/
def execMmul (w : Issue) (f : MM) (s : State) : Host.Outcome State Fault Refusal := issue w .m (.mmul f) s

/-- MLOAD. -/
def execMload (w : Issue) (f : ML) (s : State) : Host.Outcome State Fault Refusal := issue w .m (.mload f) s

/-- MOUTER. -/
def execMouter (w : Issue) (f : MO) (s : State) : Host.Outcome State Fault Refusal := issue w .m (.mouter f) s

/-- MDRAIN. -/
def execMdrain (w : Issue) (f : MD) (s : State) : Host.Outcome State Fault Refusal := issue w .m (.mdrain f) s

/-- MCFG. -/
def execMcfg (w : Issue) (f : MW) (s : State) : Host.Outcome State Fault Refusal := issue w .m (.mcfg f) s

/-- XPLY. -/
def execXply (w : Issue) (f : XP) (s : State) : Host.Outcome State Fault Refusal := issue w .x (.xply f) s

/-- CPY. -/
def execCpy (w : Issue) (f : XC) (s : State) : Host.Outcome State Fault Refusal := issue w .x (.cpy f) s

/-- CWAIT. -/
def execCwait (w : Issue) (f : XC) (s : State) : Host.Outcome State Fault Refusal := issue w .x (.cwait f) s

/-- CRD. -/
def execCrd (w : Issue) (f : XC) (s : State) : Host.Outcome State Fault Refusal := issue w .x (.crd f) s

/-- BCLM. -/
def execBclm (w : Issue) (f : XP) (s : State) : Host.Outcome State Fault Refusal := issue w .x (.bclm f) s

/-- ARR. -/
def execArr (w : Issue) (f : XT) (s : State) : Host.Outcome State Fault Refusal := issue w .x (.arr f) s

/-- WREL. -/
def execWrel (w : Issue) (f : XT) (s : State) : Host.Outcome State Fault Refusal := issue w .x (.wrel f) s

/-- RRES. -/
def execRres (w : Issue) (f : XT) (s : State) : Host.Outcome State Fault Refusal := issue w .x (.rres f) s

/-- RFLG. -/
def execRflg (w : Issue) (f : XT) (s : State) : Host.Outcome State Fault Refusal := issue w .x (.rflg f) s

/-- HALT. -/
def execHalt (w : Issue) (f : XH) (s : State) : Host.Outcome State Fault Refusal := issue w .x (.halt f) s

/-- XFENCE. -/
def execXfence (w : Issue) (f : XH) (s : State) : Host.Outcome State Fault Refusal := issue w .x (.xfence f) s

/-- END. -/
def execEndp (w : Issue) (f : XT) (s : State) : Host.Outcome State Fault Refusal := issue w .x (.endp f) s

end Sys2Proof.Machine
end

