-- ==== Sys2Proof/Machine/Trust.lean ====
section
/-! DEFINITION. SPDM, PLDM Firmware Update, MCTP and I3C, and the TAP (15_bring_up_and_trust.md R383 to R385,
17_ratings_connections_registers.md R441, R446 to R450). Response bodies are uninterpreted where DMTF fixes their encoding
(DESIGN CHOICE, log entry 6); `answer` holds a response, and is empty where none is given. -/
namespace Sys2Proof.Machine

/-! ### SPDM (R384) -/

/-- SPDM is answered with an identity, outside ROM recovery (Table 15-7). -/
def State.spdmOn (s : State) : Bool := (s.reg Reg.secStatus).getLsbD 31 && s.regF Reg.mgtState 28 4 != 0xD

def State.conn (s : State) (path : Nat) : Conn := sget Conn.reset s.mgmt.conns path
def State.modConn (s : State) (path : Nat) (f : Conn → Conn) : State :=
  s.modMgmt (fun m => { m with conns := smod Conn.reset m.conns path f })

/-- A response, or an ERROR response by its reason (1 unexpected request, 2 invalid request, 3 session limit, 4 unsupported). -/
def State.say (s : State) (code : Nat) (vals : List (List Byte)) : State := { s with answer := Config.spdmBody code vals }
def State.spdmError (s : State) (why : Nat) : State := s.say 0x7F [leBytes 1 why]

/-- Is a request outside sessions, or in a live session of its path? -/
def State.inContext (s : State) (c : SpdmCtx) : Bool :=
  match c.session with
  | none => true
  | some n => s.mgmt.sessions.any (fun x => x.live && x.id == n && x.path == c.path)

/-- Is a request within a live secured session? -/
def State.secured (s : State) (c : SpdmCtx) : Bool := c.session.isSome && s.inContext c

/-- Run a request: not answered without SPDM or in a session that is not its path's. -/
def State.spdm (s : State) (c : SpdmCtx) (f : State → State) : State :=
  if s.spdmOn && s.inContext c then f s else { s with answer := [] }

/-- Run a request that needs version, capabilities and algorithms agreed. -/
def State.spdmReady (s : State) (c : SpdmCtx) (f : State → State) : State :=
  s.spdm c (fun s => let k := s.conn c.path; if k.version && k.caps && k.algs then f s else s.spdmError 1)

/-- SEC_STATUS.SESSION: a secured session is open. -/
def State.showSession (s : State) : State := s.setRegF Reg.secStatus 29 1 (bitN (s.mgmt.sessions.any (·.live)))

/-- GET_VERSION: version 1.2; the connection begins again. -/
def execGetVersion (c : SpdmCtx) (s : State) : Host.Outcome State Fault Refusal :=
  .next (s.spdm c (fun s => (s.modConn c.path (fun _ => ⟨true, false, false⟩)).say 0x84 [leBytes 1 0x12]))

/-- GET_CAPABILITIES. -/
def execGetCapabilities (c : SpdmCtx) (s : State) : Host.Outcome State Fault Refusal :=
  .next (s.spdm c (fun s => if (s.conn c.path).version then (s.modConn c.path (fun k => { k with caps := true })).say 0xE1 [] else s.spdmError 1))

/-- NEGOTIATE_ALGORITHMS: algorithm 0x0001 of Karelle's registry, where it is offered. -/
def execNegotiateAlgorithms (c : SpdmCtx) (algs : List Nat) (s : State) : Host.Outcome State Fault Refusal :=
  .next (s.spdm c (fun s =>
    let k := s.conn c.path
    if k.version && k.caps then
      (if algs.contains 1 then (s.modConn c.path (fun k => { k with algs := true })).say 0xE3 [leBytes 2 1] else s.spdmError 4)
    else s.spdmError 1))

/-- Chain of a certificate slot: 0 the manufacturer's, 1 the operator's (R383). -/
def State.chain (s : State) (slot : Nat) : Option (List Byte) :=
  if slot = 0 then some Config.chain0 else if slot = 1 ∧ s.mgmt.chain1.isEmpty = false then some s.mgmt.chain1 else none

/-- GET_DIGESTS. -/
def execGetDigests (c : SpdmCtx) (s : State) : Host.Outcome State Fault Refusal :=
  .next (s.spdmReady c (fun s => s.say 0x81 ([0, 1].filterMap (fun i => (s.chain i).map (fun b => digestBytes (Config.sha384 b))))))

/-- GET_CERTIFICATE: a portion of a slot's chain. -/
def execGetCertificate (c : SpdmCtx) (slot : Nat) (off : Nat) (len : Nat) (s : State) : Host.Outcome State Fault Refusal :=
  .next (s.spdmReady c (fun s => match s.chain slot with
    | some b => if b.length ≤ off then s.spdmError 2 else s.say 0x82 [leBytes 1 slot, (b.drop off).take len, leBytes 4 (b.length - off - len)]
    | none => s.spdmError 2))

/-- CHALLENGE: the identity key signs the transcript. -/
def execChallenge (c : SpdmCtx) (slot : Nat) (nonce : List Byte) (s : State) : Host.Outcome State Fault Refusal :=
  .next (s.spdmReady c (fun s => match s.chain slot with
    | some b =>
      let t := [leBytes 1 slot, digestBytes (Config.sha384 b), nonce, s.measurements]
      s.say 0x83 (t ++ [Config.identitySign (Config.sha384 (Config.spdmBody 0x183 t))])
    | none => s.spdmError 2))

/-- GET_MEASUREMENTS (R385): the count, every block, or one. -/
def execGetMeasurements (c : SpdmCtx) (index : Nat) (s : State) : Host.Outcome State Fault Refusal :=
  .next (s.spdmReady c (fun s =>
    if index = 0 then s.say 0x60 [leBytes 1 13]
    else if index = 0xFF then s.say 0x60 [s.measurements]
    else if index ≤ 13 then s.say 0x60 [Config.measureBlock index (s.measurement index)]
    else s.spdmError 2))

/-- KEY_EXCHANGE: a session begins; at most four across all paths (R446). -/
def execKeyExchange (c : SpdmCtx) (id : Nat) (s : State) : Host.Outcome State Fault Refusal :=
  .next (s.spdmReady c (fun s =>
    if 4 ≤ s.mgmt.sessions.length then s.spdmError 3
    else if s.mgmt.sessions.any (fun x => x.id == id) then s.spdmError 2
    else (s.modMgmt (fun m => { m with sessions := m.sessions ++ [⟨id, c.path, false, 0⟩], nextSession := m.nextSession + 1 })).say 0x64 [leBytes 4 id]))

/-- FINISH: with a good MAC the session of the path is established, else it ends. -/
def execFinish (c : SpdmCtx) (macOk : Bool) (s : State) : Host.Outcome State Fault Refusal :=
  let mine (x : Session) : Bool := !x.live && x.path == c.path && c.session == some x.id
  .next (if s.spdmOn = false then { s with answer := [] }
    else if s.mgmt.sessions.any mine = false then s.spdmError 1
    else if macOk then
      ((s.modMgmt (fun m => { m with sessions := m.sessions.map (fun x => if mine x then { x with live := true } else x) })).showSession).say 0x65 []
    else (s.modMgmt (fun m => { m with sessions := m.sessions.filter (fun x => !mine x) })).spdmError 2)

/-- KEY_UPDATE: the session's keys change. -/
def execKeyUpdate (c : SpdmCtx) (s : State) : Host.Outcome State Fault Refusal :=
  .next (s.spdm c (fun s => if s.secured c then
      (s.modMgmt (fun m => { m with sessions := m.sessions.map (fun x => if c.session = some x.id then { x with updates := x.updates + 1 } else x) })).say 0x69 []
    else s.spdmError 1))

/-- HEARTBEAT: acknowledged within a session. -/
def execHeartbeat (c : SpdmCtx) (s : State) : Host.Outcome State Fault Refusal :=
  .next (s.spdm c (fun s => if s.secured c then s.say 0x68 [] else s.spdmError 1))

/-- END_SESSION. -/
def execEndSession (c : SpdmCtx) (s : State) : Host.Outcome State Fault Refusal :=
  .next (s.spdm c (fun s => if s.secured c then
      ((s.modMgmt (fun m => { m with sessions := m.sessions.filter (fun x => decide (c.session ≠ some x.id)) })).showSession).say 0x6C []
    else s.spdmError 1))

/-- SET_CERTIFICATE (R383): slot 1, within a secured session, a chain for the same key. -/
def execSetCertificate (c : SpdmCtx) (slot : Nat) (chain : List Byte) (s : State) : Host.Outcome State Fault Refusal :=
  .next (s.spdm c (fun s =>
    if s.secured c = false then s.spdmError 1
    else if slot ≠ 1 ∨ Config.chainKey chain ≠ Config.identityKey then s.spdmError 2
    else (s.modMgmt (fun m => { m with chain1 := chain })).say 0x6E [leBytes 1 1]))

/-- IDE_KEY_SET_UP (R384): a key of the host link stream or of a selective stream, within a secured session. -/
def execIdeKeySetUp (c : SpdmCtx) (stream : Fin 5) (key : BitVec 256) (s : State) : Host.Outcome State Fault Refusal :=
  .next (s.spdm c (fun s => if s.secured c then (s.modMgmt (fun m => { m with ide := sput 0 m.ide stream.val key })).say 0x01 [leBytes 1 stream.val]
    else s.spdmError 1))

/-! ### PLDM (R447, R448) -/

/-- Does FW_STAGE or FW_ACTIVATE run? -/
def State.fwRuns (s : State) : Bool :=
  s.rings.any (fun e => e.2.cmds.any (fun c => c.started && c.fin.isNone && (c.op == 0x84 || c.op == 0x85)))

/-- REQUEST_UPDATE: answered with RETRY_REQUEST_UPDATE while FW_STAGE or FW_ACTIVATE runs. -/
def execRequestUpdate (s : State) : Host.Outcome State Fault Refusal :=
  .next (if s.fwRuns then { s with answer := Config.pldmBody 1 }
    else if s.mgmt.update then { s with answer := Config.pldmBody 2 }
    else { s.modMgmt (fun m => { m with update := true }) with answer := Config.pldmBody 0 })

/-- PLDM_COMPONENT_TRANSFER: written as FW_STAGE does; in ROM recovery a management-controller image goes to RAM, and to flash
only if one works (Table 15-7). -/
def execPldmComponentTransfer (obj : List Byte) (s : State) : Host.Outcome State Fault Refusal :=
  .next (if s.mgmt.update = false then { s with answer := Config.pldmBody 2 }
    else if s.regF Reg.mgtState 28 4 = 0xD then
      if objType obj = 1 ∧ s.objBad [1] obj = none then
        let s1 := s.modMgmt (fun m => { m with ram := obj })
        { (if s.flashFail false && s.flashFail true then s1 else s1.stage obj) with answer := Config.pldmBody 0 }
      else { s with answer := Config.pldmBody 2 }
    else match s.firmwareBad obj with
      | some d => { s.refuseObj d obj with answer := Config.pldmBody 2 }
      | none => { s.stage obj with answer := Config.pldmBody 0 })

/-- ACTIVATE_FIRMWARE: every staged component is taken at the next warm reset; the update is over. -/
def execActivateFirmware (s : State) : Host.Outcome State Fault Refusal :=
  let staged (ty : Nat) : Bool :=
    let a := s.activeSlot ty
    match s.slotObj ty (1 - a), s.slotObj ty a with
    | some n, some o => decide (o.gen < n.gen)
    | some _, none => true
    | none, _ => false
  .next (if s.mgmt.update = false then { s with answer := Config.pldmBody 2 }
    else
      let s1 := (firmwareTypes.filter staged).foldl (fun t ty => t.modMgmt (fun m => { m with atWarm := sput 0 m.atWarm ty (2 - s.activeSlot ty) })) s
      { s1.modMgmt (fun m => { m with update := false }) with answer := Config.pldmBody 0 })

/-- EVENT_RECEIVER_REGISTRATION (R447): events go out as platform events from now on. -/
def execEventReceiverRegistration (s : State) : Host.Outcome State Fault Refusal :=
  .next (s.modMgmt (fun m => { m with receiver := true }))

/-! ### I3C and MCTP (R446) -/

/-- ENTDAA: the panel takes its dynamic address on a bus: MGT_I3C, HC0_I3C, HC1_I3C. -/
def execEntdaa (bus : Fin 3) (addr : BitVec 7) (s : State) : Host.Outcome State Fault Refusal :=
  .next (s.modMgmt (fun m => { m with i3c := sput 0 m.i3c bus.val addr }))

/-- ENDPOINT_ID_ASSIGNMENT: the bus owner of a binding assigns the panel's endpoint ID. -/
def execEndpointIdAssignment (binding : Fin 4) (eid : Byte) (s : State) : Host.Outcome State Fault Refusal :=
  .next (s.modMgmt (fun m => { m with eids := sput 0 m.eids binding.val eid }))

/-! ### The TAP (R441, R450) -/

/-- The IDCODE of IO0. -/
def tapIdcode : W32 := Config.ioStepping ++ (0x0128 : BitVec 16) ++ Config.jedecId ++ (1 : BitVec 1)

/-- Does the stage admit every TAP instruction? DBG_STATUS.TAP_FULL. -/
def State.tapFull (s : State) : Bool :=
  let n := s.regF Reg.mgtState 28 4
  decide (1 ≤ n ∧ n ≤ 3) || n == 0xD || n == 0xE

/-- TAP_INSTRUCTION: 0 BYPASS, 1 IDCODE and 2 SAMPLE are accepted at all times; any other only where the stage admits it, and is
BYPASS elsewhere, which DBG_STATUS records. What the test instructions do behind the I/O dies the manual does not say.
(DESIGN CHOICE, log entry 73.) -/
def execTapInstruction (ir : Nat) (s : State) : Host.Outcome State Fault Refusal :=
  let s1 := s.setRegF Reg.dbgStatus 30 1 1
  .next (if ir ≤ 2 ∨ s.tapFull = true then
      { s1.modMgmt (fun m => { m with tap := ir }) with answer := if ir = 1 then leBytes 4 tapIdcode.toNat else s.answer }
    else (s1.modMgmt (fun m => { m with tap := 0 })).setRegF Reg.dbgStatus 29 1 1)

/-- TAP_ACTIVE_TIMEOUT (R450): TCK has not toggled for 1 ms. -/
def execTapActiveTimeout (s : State) : Host.Outcome State Fault Refusal := .next (s.setRegF Reg.dbgStatus 30 1 0)

end Sys2Proof.Machine
end

