-- ==== Sys2Proof/Machine/Regs.lean ====
section
/-! DEFINITION. The registers as a reader sees them, writes by field access type, and the BAR2 aperture (12_host_interface.md
R303, R309, R310, R336; 17_ratings_connections_registers.md R449; the register tables of every chapter). -/
namespace Sys2Proof.Machine

/-! ### Reads -/

/-- A register of a core block (Tables 3-14, 4-10, 6-12, 7-13). (DEDUCED, log entry 37.) -/
def State.coreReg (s : State) (k o : Nat) : Nat :=
  let c := s.core k
  let w := c.sw
  match o with
  | 0x00 => c.st.toNat * 2 ^ 28 + c.cls.toNat * 2 ^ 16 + c.pc.toNat
  | 0x04 => c.fault.word.toNat
  | 0x08 => c.fmove.toNat % 2 ^ 32
  | 0x0C => c.fmoveHi.toNat
  | 0x10 => c.fflagsReg.toNat
  | 0x14 => bitN c.capped * 2 ^ 31 + c.mhz.toNat
  | 0x18 => bitN c.mode * 2 ^ 31 + c.w.toNat * 2 ^ 16 + bitN c.shadow.valid * 2 ^ 15 + c.shadow.fmt.toNat * 2 ^ 8 +
      bitN c.active.valid * 2 ^ 7 + c.active.fmt.toNat
  | 0x1C => c.mtxOps.toNat
  | 0x20 => c.mtxBubbles.toNat
  | 0x24 => c.mtxQmax.toNat
  | 0x28 => c.spdColl.toNat
  | 0x2C => c.spdRbwait.toNat
  | 0x30 => c.spdEccCount.toNat * 2 ^ 16 + bitN c.spdEccUe * 2 ^ 15 + c.spdEccBank.toNat * 2 ^ 11 + c.spdEccRow.toNat
  | 0x34 => c.copyCause.toNat * 2 ^ 24 + c.copies.length
  | 0x38 => min (c.copyBytes / 64) (2 ^ 32 - 1)
  | 0x3C => c.spdScrub.toNat
  | 0x40 => w.set.toNat * 2 ^ 24 + bitN w.active * 2 ^ 23 + bitN w.standing * 2 ^ 22 +
      dirs.foldl (fun t d => t + bitN (!s.outDone k d) * 2 ^ (11 - d.idx) + bitN (!s.inDone k d) * 2 ^ (7 - d.idx) +
        bitN (!(sget [] w.fifo d.idx).isEmpty) * 2 ^ (3 - d.idx)) 0
  | 0x44 => w.sent.toNat
  | 0x48 => w.rcvd.toNat
  | 0x4C => w.pass.toNat
  | _ => 0

/-- THM_DLEVEL and THM_DFLAG of a die (Table 14-6). -/
def State.dieLevels (s : State) (d : Nat) : Nat := (List.range 8).foldl (fun t k => t + s.levelOf 1 (d * 8 + k) * 2 ^ (3 * k)) 0
def State.dieFlags (s : State) (d : Nat) : Nat :=
  (List.range 4).foldl (fun t i => t + s.levelOf 2 (d * 4 + i) * 2 ^ (20 + 3 * i) + bitN (s.isFlagged 2 (d * 4 + i)) * 2 ^ (8 + i))
    ((List.range 8).foldl (fun t k => t + bitN (s.isFlagged 1 (d * 8 + k)) * 2 ^ k) 0)

/-- A register of a per-die window (Table 17-9); a dark die answers 0xFFFF_FFFF (R26). -/
def State.dieReg (s : State) (d o : Nat) : Nat :=
  if 144 ≤ d then 0
  else if (s.die d).dark then 0xFFFFFFFF
  else if 0x20000 ≤ o then
    let site := (o - 0x20000) / 0x100
    if site < 272 then s.coreReg (d * 272 + site) (o % 0x100) else 0
  else if o = 0x400C then s.dieLevels d
  else if 0x1000 ≤ o ∧ o < 0x1010 then
    (List.range 16).foldl (fun t l => t + s.dlink d (dirs.getD ((o - 0x1000) / 4) .n) l * 2 ^ (2 * l)) 0
  else if o = 0x4010 then s.dieFlags d
  else (s.reg (Reg.die d o)).toNat

/-- THM_STATUS (Table 14-6). -/
def State.thmStatus (s : State) : Nat :=
  s.rails.levels.foldl (fun m e => max m e.2) 0 * 2 ^ 29 + bitN s.limitedNow * 2 ^ 28 + min 255 s.rails.flagged.length * 2 ^ 8 +
    min 255 s.rails.blind.length

/-- The value that a read of a BAR0 offset returns, apart from what the read latches; an offset that no register occupies,
and every write-only register, reads as zero (R303, R449). -/
def State.regRead (s : State) (off : Nat) : W32 :=
  BitVec.ofNat 32 (
    if off % 4 ≠ 0 then 0
    else if 0x1000000 ≤ off then s.dieReg ((off - 0x1000000) / 0x40000) ((off - 0x1000000) % 0x40000)
    else if off = Reg.hifStatus then s.hifStatus
    else if Reg.rhalt 0 ≤ off ∧ off < Reg.rhalt 32 then
      let w := (off - Reg.rhalt 0) / 4
      maskOf ((List.range 32).map (fun b => (s.ring (32 * w + b)).halted))
    else if Reg.tpo 0 0 ≤ off ∧ off < Reg.tpo 16 0 then
      let p := (off - Reg.tpo 0 0) / 0x100
      match off % 0x100 with
      | 0x00 => (s.part p).move.toNat % 2 ^ 32
      | 0x0C => s.pstatus p
      | 0x18 => (s.part p).result.toNat % 2 ^ 32
      | _ => (s.reg off).toNat
    else if off = Reg.pkfCong then (s.reg off).toNat % 2 ^ 29 + s.regF off 30 2 * 2 ^ 30 + bitN s.throttling * 2 ^ 29
    else if Reg.mem 0 0 ≤ off ∧ off < Reg.mem 48 0 ∧ off % 0x40 = 0x0C then
      let t := (off - Reg.mem 0 0) / 0x40
      s.regF off 16 16 * 2 ^ 16 + min 0xFFFF (s.hbm.poison.filter (fun u => stackOfUnit u == t)).length
    else if Reg.dirty 0 0 ≤ off ∧ off < Reg.dirty 3072 0 then
      let o := off - Reg.dirty 0 0
      field (s.slice (o / 0x40)).cur.toNat (32 * (o % 0x40 / 4)) 32
    else if off = Reg.thmStatus then s.thmStatus
    else if off = Reg.pstore then min 0xFFFF (s.storeUsed / 2 ^ 30) * 2 ^ 16 + s.regF off 0 7
    else if off = Reg.gcfg then s.regF off 31 1 * 2 ^ 31 + (s.gambits.filter (fun g => !g.fired)).length
    else if off = Reg.secStatus then s.regF off 30 2 * 2 ^ 30 + bitN (s.mgmt.sessions.any (fun e => e.live)) * 2 ^ 29
    else if off = Reg.dbgStatus then bitN s.tapFull * 2 ^ 31 + s.regF off 29 2 * 2 ^ 29
    else if off = Reg.dbgIdcode then tapIdcode.toNat
    else (s.reg off).toNat)

/-! ### Writes by field access type -/

/-- Set-up registers of the host interface with the bits that hold their fields (Table 12-15, R336). -/
def hifSetup (off : Nat) : Option W32 :=
  if off = Reg.asqLo ∨ off = Reg.acqLo ∨ off = Reg.dbp0Lo ∨ off = Reg.dbp1Lo ∨ off = Reg.evqLo then some 0xFFFFF000
  else if off = Reg.asqLo + 4 ∨ off = Reg.acqLo + 4 ∨ off = Reg.dbp0Lo + 4 ∨ off = Reg.dbp1Lo + 4 ∨ off = Reg.evqLo + 4 ∨ off = Reg.evhdHi then
    some 0xFFFFFFFF
  else if off = Reg.evhdLo then some 0xFFFFFFF8
  else if off = Reg.acfg ∨ off = Reg.evcfg then some 0xFFFF001F
  else none

/-- HIF_DMEMBER entries that would be valid with one entry's new value (R399). -/
def State.membersWith (s : State) (i : Nat) (v : W32) : Nat :=
  ((List.range 64).filter (fun j => (if j = i then v else s.reg (Reg.dmember j)).getLsbD 31)).length

/-- A write to an MSI-X table word: once a vector is unmasked its pending message is sent (R316). -/
def State.writeMsix (s : State) (off : Nat) (v : W32) : State :=
  let n := (off - Reg.msix) / 16
  match off % 16 with
  | 0 => s.setReg off (v &&& 0xFFFFFFFC)
  | 12 =>
    let s1 := s.setReg off (v &&& 1)
    let a := Reg.msixPba + n / 32 * 4
    if v.getLsbD 0 = false ∧ (s.reg a).getLsbD (n % 32) = true then (s1.setRegF a (n % 32) 1 0).msix n else s1
  | _ => s.setReg off v

/-- SYL_PORTCFG: ENABLE 0 holds the port down; ENABLE 1 lets a licensed port train (Table 11-11, R399). -/
def State.writePortCfg (s : State) (p : Nat) (v : W32) : State :=
  let was := (s.reg (Reg.sylPortCfg p)).getLsbD 31
  let now := v.getLsbD 31
  let st := s.regF (Reg.sylPort p) 28 4
  let s1 := s.setReg (Reg.sylPortCfg p) (v &&& 0xC0000000)
  if was && !now then (if st = 2 ∨ st = 3 then s1.portFailed p else s1).setRegF (Reg.sylPort p) 28 4 0
  else if !was && now && (s.reg Reg.lports).getLsbD p then s1.setRegF (Reg.sylPort p) 28 4 (if s.ioLost (p / 4) then 4 else 1)
  else s1

/-- Bits of a write-1-to-clear flag: cleared where the write has a one. -/
def State.clearFlag (s : State) (off b : Nat) (v : W32) : State := if v.getLsbD b then s.setRegF off b 1 0 else s

/-- A register with some read-write bits; the others stay. -/
def State.writeBits (s : State) (off : Nat) (mask v : W32) : State := s.setReg off ((s.reg off &&& ~~~mask) ||| (v &&& mask))

/-- A write to a register of BAR0, apart from those that have commands of their own. (DEDUCED, log entry 58.) -/
def State.regWrite (s : State) (off : Nat) (v : W32) : State :=
  let n := v.toNat
  if off % 4 ≠ 0 then s
  else match hifSetup off with
  | some mask => if s.hifOn then s else s.setReg off (v &&& mask)
  | none =>
  if Reg.dmember 0 ≤ off ∧ off < Reg.dmember 64 then
    let i := (off - Reg.dmember 0) / 4
    if s.hifOn = true ∨ (v.getLsbD 31 = true ∧ s.limPanels < s.membersWith i v) then s else s.setReg off (v &&& 0x80000FFF)
  else if Reg.msix ≤ off ∧ off < Reg.msix + 0x8000 then s.writeMsix off v
  else if off = Reg.apctl then s.setReg off (v &&& 0x800F3FFF)
  else if off = Reg.aperr then s.clearFlag off 31 v
  else if off = Reg.calCtl then s.writeBits off 0x00FFFFFF v
  else if Reg.tpo 0 0 ≤ off ∧ off < Reg.tpo 16 0 then
    if off % 0x100 = 0x08 then s.setReg off (BitVec.ofNat 32 (clampN 1 10000 (n % 2 ^ 24))) else s
  else if off = Reg.mshCfg then s.setReg off (BitVec.ofNat 32 (field n 16 8 * 2 ^ 16 + clampN 10 200 (n % 2 ^ 16)))
  else if off = Reg.pkfCfg then s.setReg off (BitVec.ofNat 32 (clampN 10 10000 (field n 16 16) * 2 ^ 16 + n % 2 ^ 16))
  else if off = Reg.pkfCong then s.setReg off (v &&& 0xC0FFFFFF)
  else if off = Reg.pkfE2e then s.setReg off (BitVec.ofNat 32 (field n 20 12 * 2 ^ 20 + clampN 2 1000 (n % 2 ^ 16)))
  else if off = Reg.pkfErr then s.clearFlag off 31 v
  else if off = Reg.sylPanelId then
    if 4096 ≤ n % 2 ^ 13 ∨ s.parts.any (fun e => e.2.st != 0) = true then s else s.setReg off (BitVec.ofNat 32 (2 ^ 31 + n % 2 ^ 13))
  else if off = Reg.sylLead then s.setReg off (v &&& 0x80001FFF)
  else if Reg.sylPort 0 ≤ off ∧ off < Reg.sylPort 32 then
    if off % 0x10 = 4 then s.writePortCfg ((off - Reg.sylPort 0) / 0x10) v else s
  else if off = Reg.nmerr then s.clearFlag off 31 v
  else if off = Reg.memCfg then s.writeBits off 0x00FFFFFF v
  else if off = Reg.plim then s.setReg off (BitVec.ofNat 32 (clampN 5000 21000 (n % 2 ^ 16)))
  else if off = Reg.thmCfg then s.setReg off (v &&& 0xC0000000)
  else if Reg.cpair 0 0 ≤ off ∧ off < Reg.cpair 16 0 then
    if s.idleOrHalted ((off - Reg.cpair 0 0) / 0x40) then s.setReg off (v &&& 0xE7FF07FF) else s
  else if off = Reg.pstore then
    let k := n % 2 ^ 7
    if 64 ≤ k ∨ (List.range 48).any (fun t => (List.range k).any (fun i => (s.grantOf (t * 64 + 63 - i)).getLsbD 31)) = true then s
    else s.setReg off (BitVec.ofNat 32 k)
  else if off = Reg.gcfg then s.setReg off (v &&& 0x80000000)
  else if Reg.mgt 0 0 ≤ off ∧ off < Reg.mgt 16 0 then
    if off % 0x20 = 0 then s.setReg off (BitVec.ofNat 32 (field n 31 1 * 2 ^ 31 + clampN 100 600000 (n % 2 ^ 24))) else s
  else if off = Reg.dbgStatus then s.clearFlag off 29 v
  else s

/-- REGISTER_WRITE (R303): a write to BAR0 by the host, or by a management controller to a follower (R306). Read-only fields,
reserved bits, registers that have a command of their own and offsets that no register occupies are left as they are. -/
def execRegisterWrite (off : BitVec 26) (value : W32) (s : State) : Host.Outcome State Fault Refusal := .next (s.regWrite off.toNat value)

/-- SYL_ROUTE (R289, R292, R399): a write that would make more than PANELS − 1 entries valid is discarded; an entry that first
becomes valid opens the streams. A valid entry without CAND0 enabled is not one (Table 11-8). (DEDUCED, log entry 58.) -/
def execSylRoute (panel : Fin 4096) (value : W32) (s : State) : Host.Outcome State Fault Refusal :=
  let a := Reg.sylRoute panel.val
  let was := (s.reg a).getLsbD 31
  let others := (s.regs.filter (fun e =>
    decide (Reg.sylRoute 0 ≤ e.1) && decide (e.1 < Reg.sylRoute 4096) && e.1 != a && e.2.getLsbD 31)).length
  .next (if value.getLsbD 31 = true ∧ (s.limPanels < others + 2 ∨ value.getLsbD 5 = false) then s
    else
      let s1 := s.setReg a (value &&& 0x9FFFFFFF)
      if value.getLsbD 31 && !was && panel.val != s.ownId && !(s.stream panel.val 0).opened then s1.openStreams panel.val else s1)

/-- MGT_BUDDY (R414, R418): the buddy is named, and the next capture of every partition is a full capture. Buddy copies at another panel
than the one named now cannot be read. (DEDUCED, log entry 116.) -/
def execMgtBuddy (value : W32) (s : State) : Host.Outcome State Fault Refusal :=
  let s1 := s.setReg Reg.buddy (value &&& 0x80001FFF)
  let same := s1.remoteBuddy == s.remoteBuddy
  let s2 : State := { s1 with parts := smapMap Part.reset s1.parts (fun p =>
    { p with full := true, positions := if same then p.positions else p.positions.map (fun c => { c with buddy := false }) }) }
  .next (if same then s2 else s2.parts.foldl (fun t e => t.pstatCopies e.1) s2)

/-! ### Requests by packet (R23, R58, R276, R277, R299) -/

/-- A management controller's packet to register space is served as its reads and writes of BAR0 are (R23). -/
def State.mgmtRequest (s : State) (p : Packet) (off : Nat) : State :=
  match packetAccess p with
  | .read n => s.answerTo p (.data ((List.range (n / 4)).flatMap (fun i => leBytes 4 (s.regRead (off + 4 * i)).toNat)))
  | .write bs => ((List.range (bs.length / 4)).foldl (fun t i => t.regWrite (off + 4 * i) (BitVec.ofNat 32 (leAt bs (4 * i) 4))) s).answerTo p .ok
  | .atomic _ _ _ => s.answerTo p (.err 0x07)

/-- A request that its unit can take is performed there. -/
def State.serveRequest (s : State) (p : Packet) : State :=
  match s.packetPlace p with
  | .reg off => if s.askerOf p = .mgmt ∧ p.spanel.toNat = s.ownId ∧ p.bcast = false then s.mgmtRequest p off else s.performRequest p
  | _ => s.performRequest p

/-- A request packet of opcode `o` reaches its unit, behind those that its engine sent there before (R58). -/
def State.request (o : BitVec 4) (p : Packet) (s : State) : State :=
  if s.overtakes p then s else State.delivered o p (fun t => t.serveRequest p) s

/-- READ (R276, R299). -/
def execRead (p : Packet) (s : State) : Host.Outcome State Fault Refusal := .next (s.request 1 p)
/-- WRITE (R276, R277, R299). -/
def execWrite (p : Packet) (s : State) : Host.Outcome State Fault Refusal := .next (s.request 2 p)
/-- ATOMIC (R175, R276, R299). -/
def execAtomic (p : Packet) (s : State) : Host.Outcome State Fault Refusal := .next (s.request 3 p)

/-! ### The BAR2 aperture (R309, R310) -/

/-- The runs of an access, cut at the aligned 64-byte units: address and length. -/
def runsOf (a n : Nat) : List (Nat × Nat) := (rowsOf a n).map (fun w => (max a (64 * w), min (a + n) (64 * w + 64) - max a (64 * w)))

/-- Why a run is refused, as HIF_APERR.REASON (Table 12-16). -/
def State.apertureBad (s : State) (a n : Nat) (write : Bool) : Option Nat :=
  let p := s.regF Reg.apctl 16 4
  if (s.reg Reg.apctl).getLsbD 31 = false then some 0
  else if 0xF0000000000 ≤ a then some 3
  else match s.localPlace (some p) a with
  | .hbm pa => if s.granted (some p) (sliceOf pa) write then none else some 1
  | .beyond => some 1
  | .spad k _ =>
    if s.siteFenced k = true ∨ s.retained k = true then some 2
    else match s.partOfCore k with
      | some q => if s.idleOrHalted q then none else some 0
      | none => none
  | .ctx off => if s.ctxAllowed (some p) off n = false then some 2 else if s.idleOrHalted p then none else some 0
  | .census q _ => if !write && q == p then none else some 2
  | _ => some 2

/-- HIF_APERR records a refused access; the first stands until VALID is cleared. -/
def State.apertureError (s : State) (off : Nat) (write : Bool) (reason : Nat) : State :=
  if (s.reg Reg.aperr).getLsbD 31 then s
  else s.setReg Reg.aperr (BitVec.ofNat 32 (2 ^ 31 + bitN write * 2 ^ 30 + reason * 2 ^ 28 + off / 256 % 2 ^ 28))

/-- Panel-local address of a BAR2 offset (R309). (DEDUCED, log entry 58.) -/
def State.aperture (s : State) (off : Nat) : Nat := s.regF Reg.apctl 0 14 * 2 ^ 30 + off

/-- The refusal of an access, by the first of its runs that is refused. (DEDUCED, log entry 58.) -/
def State.apertureRefusal (s : State) (off n : Nat) (write : Bool) : Option Nat :=
  ((runsOf (s.aperture off) n).filterMap (fun r => s.apertureBad r.1 r.2 write)).head?

/-- Statuses of a completion as the first byte of `answer`: successful, Completer Abort, poisoned data. -/
def cplSuccess : Byte := 0x00
def cplAbort : Byte := 0x04
def cplPoison : Byte := 0x80

/-- The runs of a read, in rising order: the state after them, the bytes, and whether any was poisoned.
(DESIGN CHOICE, log entry 57.) -/
def State.apertureRead (s : State) (l : List (Nat × Nat)) : State × List Byte × Bool :=
  l.foldl (fun (a : State × List Byte × Bool) r =>
    match a.1.hostAccess (s.regF Reg.apctl 16 4) r.1 (.read r.2) with
    | (t, .data bs) => (t, a.2.1 ++ bs, a.2.2)
    | (t, _) => (t, a.2.1 ++ List.replicate r.2 0, true)) (s, [], false)

/-- BAR2_READ (R310): refused with Completer Abort and a record in HIF_APERR, or the bytes; poisoned data make the completion
poisoned. -/
def execBar2Read (off len : Nat) (s : State) : Host.Outcome State Fault Refusal :=
  .next (match s.apertureRefusal off len false with
    | some r => { s.apertureError off false r with answer := [cplAbort] }
    | none =>
      let a := s.apertureRead (runsOf (s.aperture off) len)
      { a.1 with answer := if a.2.2 then [cplPoison] else cplSuccess :: a.2.1 })

/-- BAR2_WRITE (R310): discarded with a record in HIF_APERR, or performed run by run. -/
def execBar2Write (off : Nat) (bytes : List Byte) (s : State) : Host.Outcome State Fault Refusal :=
  .next (match s.apertureRefusal off bytes.length true with
    | some r => s.apertureError off true r
    | none =>
      (runsOf (s.aperture off) bytes.length).foldl (fun (t : State) r =>
        (t.hostAccess (s.regF Reg.apctl 16 4) r.1 (.write (bytesAt bytes (r.1 - s.aperture off) r.2))).1) s)

end Sys2Proof.Machine
end

