-- ==== Sys2Proof/Machine/Dispatch.lean ====
section
/-! DEFINITION. The dispatch of commands to their meanings: one arm per constructor. -/
namespace Sys2Proof.Machine

/-- The effect of a command on everything but the queue. -/
def exec (i : Instr) (s : State) : Host.Outcome State Fault Refusal :=
  match i with
  | .nop w slot => Sys2Proof.Machine.execNop w slot s
  | .trap w slot => Sys2Proof.Machine.execTrap w slot s
  | .alu w f => Sys2Proof.Machine.execAlu w f s
  | .addi w f => Sys2Proof.Machine.execAddi w f s
  | .andi w f => Sys2Proof.Machine.execAndi w f s
  | .ori w f => Sys2Proof.Machine.execOri w f s
  | .xori w f => Sys2Proof.Machine.execXori w f s
  | .slli w f => Sys2Proof.Machine.execSlli w f s
  | .srli w f => Sys2Proof.Machine.execSrli w f s
  | .srai w f => Sys2Proof.Machine.execSrai w f s
  | .clti w f => Sys2Proof.Machine.execClti w f s
  | .li w f => Sys2Proof.Machine.execLi w f s
  | .insh1 w f => Sys2Proof.Machine.execInsh1 w f s
  | .insh2 w f => Sys2Proof.Machine.execInsh2 w f s
  | .insh3 w f => Sys2Proof.Machine.execInsh3 w f s
  | .ld w f => Sys2Proof.Machine.execLd w f s
  | .lws w f => Sys2Proof.Machine.execLws w f s
  | .lwz w f => Sys2Proof.Machine.execLwz w f s
  | .st w f => Sys2Proof.Machine.execSt w f s
  | .sw w f => Sys2Proof.Machine.execSw w f s
  | .brcEq w f => Sys2Proof.Machine.execBrcEq w f s
  | .brcNe w f => Sys2Proof.Machine.execBrcNe w f s
  | .brcLt w f => Sys2Proof.Machine.execBrcLt w f s
  | .brcGe w f => Sys2Proof.Machine.execBrcGe w f s
  | .brcLtu w f => Sys2Proof.Machine.execBrcLtu w f s
  | .brcGeu w f => Sys2Proof.Machine.execBrcGeu w f s
  | .j w f => Sys2Proof.Machine.execJ w f s
  | .jr w f => Sys2Proof.Machine.execJr w f s
  | .loop w f => Sys2Proof.Machine.execLoop w f s
  | .pcmp w f => Sys2Proof.Machine.execPcmp w f s
  | .plog w f => Sys2Proof.Machine.execPlog w f s
  | .pset w f => Sys2Proof.Machine.execPset w f s
  | .pget w f => Sys2Proof.Machine.execPget w f s
  | .csrr w f => Sys2Proof.Machine.execCsrr w f s
  | .csrw w f => Sys2Proof.Machine.execCsrw w f s
  | .agld w f => Sys2Proof.Machine.execAgld w f s
  | .agrst w f => Sys2Proof.Machine.execAgrst w f s
  | .agbase w f => Sys2Proof.Machine.execAgbase w f s
  | .agpos w f => Sys2Proof.Machine.execAgpos w f s
  | .loadhint w f => Sys2Proof.Machine.execLoadhint w f s
  | .vadd w f => Sys2Proof.Machine.execVadd w f s
  | .vsub w f => Sys2Proof.Machine.execVsub w f s
  | .vmul w f => Sys2Proof.Machine.execVmul w f s
  | .vfma w f => Sys2Proof.Machine.execVfma w f s
  | .vfms w f => Sys2Proof.Machine.execVfms w f s
  | .vmax w f => Sys2Proof.Machine.execVmax w f s
  | .vmin w f => Sys2Proof.Machine.execVmin w f s
  | .vabs w f => Sys2Proof.Machine.execVabs w f s
  | .vneg w f => Sys2Proof.Machine.execVneg w f s
  | .vand w f => Sys2Proof.Machine.execVand w f s
  | .vor w f => Sys2Proof.Machine.execVor w f s
  | .vxor w f => Sys2Proof.Machine.execVxor w f s
  | .vexp w f => Sys2Proof.Machine.execVexp w f s
  | .vlog w f => Sys2Proof.Machine.execVlog w f s
  | .vrcp w f => Sys2Proof.Machine.execVrcp w f s
  | .vrsqrt w f => Sys2Proof.Machine.execVrsqrt w f s
  | .vrowstat w f => Sys2Proof.Machine.execVrowstat w f s
  | .vcmp w f => Sys2Proof.Machine.execVcmp w f s
  | .vmov w f => Sys2Proof.Machine.execVmov w f s
  | .vbcast w f => Sys2Proof.Machine.execVbcast w f s
  | .vext w f => Sys2Proof.Machine.execVext w f s
  | .vcvt w f => Sys2Proof.Machine.execVcvt w f s
  | .vld w f => Sys2Proof.Machine.execVld w f s
  | .vst w f => Sys2Proof.Machine.execVst w f s
  | .smerge w f => Sys2Proof.Machine.execSmerge w f s
  | .sprobe w f => Sys2Proof.Machine.execSprobe w f s
  | .scompact w f => Sys2Proof.Machine.execScompact w f s
  | .ssort w f => Sys2Proof.Machine.execSsort w f s
  | .setEngineDone core => Sys2Proof.Machine.execSetEngineDone core s
  | .mmul w f => Sys2Proof.Machine.execMmul w f s
  | .mload w f => Sys2Proof.Machine.execMload w f s
  | .mouter w f => Sys2Proof.Machine.execMouter w f s
  | .mdrain w f => Sys2Proof.Machine.execMdrain w f s
  | .mcfg w f => Sys2Proof.Machine.execMcfg w f s
  | .feedQueueLeave core => Sys2Proof.Machine.execFeedQueueLeave core s
  | .mcfgZeroing core => Sys2Proof.Machine.execMcfgZeroing core s
  | .xply w f => Sys2Proof.Machine.execXply w f s
  | .cpy w f => Sys2Proof.Machine.execCpy w f s
  | .cwait w f => Sys2Proof.Machine.execCwait w f s
  | .crd w f => Sys2Proof.Machine.execCrd w f s
  | .bclm w f => Sys2Proof.Machine.execBclm w f s
  | .arr w f => Sys2Proof.Machine.execArr w f s
  | .wrel w f => Sys2Proof.Machine.execWrel w f s
  | .rres w f => Sys2Proof.Machine.execRres w f s
  | .rflg w f => Sys2Proof.Machine.execRflg w f s
  | .halt w f => Sys2Proof.Machine.execHalt w f s
  | .xfence w f => Sys2Proof.Machine.execXfence w f s
  | .endp w f => Sys2Proof.Machine.execEndp w f s
  | .patrolScrubber core bank => Sys2Proof.Machine.execPatrolScrubber core bank s
  | .scratchpadWriteBack core => Sys2Proof.Machine.execScratchpadWriteBack core s
  | .copyStart core rivals => Sys2Proof.Machine.execCopyStart core rivals s
  | .transferSend core dir => Sys2Proof.Machine.execTransferSend core dir s
  | .transferReceive core dir data parity rivals => Sys2Proof.Machine.execTransferReceive core dir data parity rivals s
  | .deliveryAcknowledgement core dir => Sys2Proof.Machine.execDeliveryAcknowledgement core dir s
  | .dataFlit l flit => Sys2Proof.Machine.execDataFlit l flit s
  | .idleFlit l flit => Sys2Proof.Machine.execIdleFlit l flit s
  | .ackFlit l flit => Sys2Proof.Machine.execAckFlit l flit s
  | .nakFlit l flit => Sys2Proof.Machine.execNakFlit l flit s
  | .quarantine l => Sys2Proof.Machine.execQuarantine l s
  | .beat d rank b rivals => Sys2Proof.Machine.execBeat d rank b rivals s
  | .arrive hub child m => Sys2Proof.Machine.execArrive hub child m s
  | .release node m => Sys2Proof.Machine.execRelease node m s
  | .releaseInstant node part group => Sys2Proof.Machine.execReleaseInstant node part group s
  | .tempoHalt part kind src tests => Sys2Proof.Machine.execTempoHalt part kind src tests s
  | .tempoAck node peer m => Sys2Proof.Machine.execTempoAck node peer m s
  | .tempoResend node peer seq group => Sys2Proof.Machine.execTempoResend node peer seq group s
  | .echoReq node parent m => Sys2Proof.Machine.execEchoReq node parent m s
  | .echoRsp node child m now => Sys2Proof.Machine.execEchoRsp node child m now s
  | .cal node m => Sys2Proof.Machine.execCal node m s
  | .reMeasurement node child port now => Sys2Proof.Machine.execReMeasurement node child port now s
  | .stalemateDetector wait => Sys2Proof.Machine.execStalemateDetector wait s
  | .censusReq d part => Sys2Proof.Machine.execCensusReq d part s
  | .censusRsp part d group heat bits => Sys2Proof.Machine.execCensusRsp part d group heat bits s
  | .censusAbsent part d => Sys2Proof.Machine.execCensusAbsent part d s
  | .tpoPhaltAbort part => Sys2Proof.Machine.execTpoPhaltAbort part s
  | .tpoPhaltStop part => Sys2Proof.Machine.execTpoPhaltStop part s
  | .recal => Sys2Proof.Machine.execRecal s
  | .tpoPmoveLo part => Sys2Proof.Machine.execTpoPmoveLo part s
  | .tpoPresultLo part => Sys2Proof.Machine.execTpoPresultLo part s
  | .coreFmoveLo core => Sys2Proof.Machine.execCoreFmoveLo core s
  | .memSerrLo stk => Sys2Proof.Machine.execMemSerrLo stk s
  | .mgtPmoveLo part => Sys2Proof.Machine.execMgtPmoveLo part s
  | .read p => Sys2Proof.Machine.execRead p s
  | .write p => Sys2Proof.Machine.execWrite p s
  | .atomic p => Sys2Proof.Machine.execAtomic p s
  | .readRsp p => Sys2Proof.Machine.execReadRsp p s
  | .ack p => Sys2Proof.Machine.execAck p s
  | .errRsp p => Sys2Proof.Machine.execErrRsp p s
  | .e2eAck p => Sys2Proof.Machine.execE2eAck p s
  | .e2eAckInterval panel cls => Sys2Proof.Machine.execE2eAckInterval panel cls s
  | .openStream p => Sys2Proof.Machine.execOpenStream p s
  | .openRsp p => Sys2Proof.Machine.execOpenRsp p s
  | .stale p => Sys2Proof.Machine.execStale p s
  | .mgt p => Sys2Proof.Machine.execMgt p s
  | .storePut p => Sys2Proof.Machine.execStorePut p s
  | .storeGet p => Sys2Proof.Machine.execStoreGet p s
  | .storeCtlOpen p => Sys2Proof.Machine.execStoreCtlOpen p s
  | .storeCtlCommit p => Sys2Proof.Machine.execStoreCtlCommit p s
  | .storeCtlDrop p => Sys2Proof.Machine.execStoreCtlDrop p s
  | .storeCtlQuery p => Sys2Proof.Machine.execStoreCtlQuery p s
  | .tempoSlot port slot rx => Sys2Proof.Machine.execTempoSlot port slot rx s
  | .fabricLinkFailed l => Sys2Proof.Machine.execFabricLinkFailed l s
  | .retraining l => Sys2Proof.Machine.execRetraining l s
  | .retrainComplete l lanes => Sys2Proof.Machine.execRetrainComplete l lanes s
  | .noLight port => Sys2Proof.Machine.execNoLight port s
  | .handoverRequest a b => Sys2Proof.Machine.execHandoverRequest a b s
  | .handoverReply a b ackseq => Sys2Proof.Machine.execHandoverReply a b ackseq s
  | .requestTimeout core tag => Sys2Proof.Machine.execRequestTimeout core tag s
  | .escapeWait port p => Sys2Proof.Machine.execEscapeWait port p s
  | .e2eTimeout panel cls => Sys2Proof.Machine.execE2eTimeout panel cls s
  | .trainingComplete u ok peer lanes => Sys2Proof.Machine.execTrainingComplete u ok peer lanes s
  | .refresh stk pc bank => Sys2Proof.Machine.execRefresh stk pc bank s
  | .stackPatrol stk => Sys2Proof.Machine.execStackPatrol stk s
  | .unitWriteBack stk => Sys2Proof.Machine.execUnitWriteBack stk s
  | .stackLost stk => Sys2Proof.Machine.execStackLost stk s
  | .capturePageRead slice => Sys2Proof.Machine.execCapturePageRead slice s
  | .jobStart stk => Sys2Proof.Machine.execJobStart stk s
  | .jobComplete stk => Sys2Proof.Machine.execJobComplete stk s
  | .doorbellPoll stores => Sys2Proof.Machine.execDoorbellPoll stores s
  | .hifWake value => Sys2Proof.Machine.execHifWake value s
  | .postCompletion ring => Sys2Proof.Machine.execPostCompletion ring s
  | .postEvent => Sys2Proof.Machine.execPostEvent s
  | .commandNop r => Sys2Proof.Machine.execCommandNop r s
  | .copyIn r ans => Sys2Proof.Machine.execCopyIn r ans s
  | .copyOut r ans => Sys2Proof.Machine.execCopyOut r ans s
  | .loadProgram r => Sys2Proof.Machine.execLoadProgram r s
  | .launch r => Sys2Proof.Machine.execLaunch r s
  | .waitMove r => Sys2Proof.Machine.execWaitMove r s
  | .position r => Sys2Proof.Machine.execPosition r s
  | .restore r => Sys2Proof.Machine.execRestore r s
  | .fence r => Sys2Proof.Machine.execFence r s
  | .castle r => Sys2Proof.Machine.execCastle r s
  | .queryPartition r => Sys2Proof.Machine.execQueryPartition r s
  | .queryPanel r => Sys2Proof.Machine.execQueryPanel r s
  | .signal r => Sys2Proof.Machine.execSignal r s
  | .ringCreate r => Sys2Proof.Machine.execRingCreate r s
  | .ringDelete r => Sys2Proof.Machine.execRingDelete r s
  | .partitionSet r => Sys2Proof.Machine.execPartitionSet r s
  | .licenseInstall r => Sys2Proof.Machine.execLicenseInstall r s
  | .licenseList r => Sys2Proof.Machine.execLicenseList r s
  | .licenseRemove r => Sys2Proof.Machine.execLicenseRemove r s
  | .fwStage r => Sys2Proof.Machine.execFwStage r s
  | .fwActivateWarm r => Sys2Proof.Machine.execFwActivateWarm r s
  | .fwActivateLive r => Sys2Proof.Machine.execFwActivateLive r s
  | .fwActivateCommit r => Sys2Proof.Machine.execFwActivateCommit r s
  | .fwActivateRevert r => Sys2Proof.Machine.execFwActivateRevert r s
  | .defectQuery r => Sys2Proof.Machine.execDefectQuery r s
  | .defectQueryAdd r => Sys2Proof.Machine.execDefectQueryAdd r s
  | .defectQueryExtended r => Sys2Proof.Machine.execDefectQueryExtended r s
  | .gambitArm r => Sys2Proof.Machine.execGambitArm r s
  | .gambitList r => Sys2Proof.Machine.execGambitList r s
  | .gambitCancel r => Sys2Proof.Machine.execGambitCancel r s
  | .gambitDuration id => Sys2Proof.Machine.execGambitDuration id s
  | .resumeContinue r => Sys2Proof.Machine.execResumeContinue r s
  | .resumeFlush r => Sys2Proof.Machine.execResumeFlush r s
  | .trustQueryChain r => Sys2Proof.Machine.execTrustQueryChain r s
  | .trustQueryMeasurements r => Sys2Proof.Machine.execTrustQueryMeasurements r s
  | .trustQueryQuote r => Sys2Proof.Machine.execTrustQueryQuote r s
  | .trustQueryCounters r => Sys2Proof.Machine.execTrustQueryCounters r s
  | .bar2Read off len => Sys2Proof.Machine.execBar2Read off len s
  | .bar2Write off bytes => Sys2Proof.Machine.execBar2Write off bytes s
  | .enPassantHeaderRead ring => Sys2Proof.Machine.execEnPassantHeaderRead ring s
  | .hifCtlEnable => Sys2Proof.Machine.execHifCtlEnable s
  | .hifCtlDisable => Sys2Proof.Machine.execHifCtlDisable s
  | .sylRoute panel value => Sys2Proof.Machine.execSylRoute panel value s
  | .mgtBuddy value => Sys2Proof.Machine.execMgtBuddy value s
  | .mgtRst value rep => Sys2Proof.Machine.execMgtRst value rep s
  | .registerWrite off value => Sys2Proof.Machine.execRegisterWrite off value s
  | .linkDown => Sys2Proof.Machine.execLinkDown s
  | .failover => Sys2Proof.Machine.execFailover s
  | .hcxPerst port => Sys2Proof.Machine.execHcxPerst port s
  | .flr => Sys2Proof.Machine.execFlr s
  | .feedLost feed cause => Sys2Proof.Machine.execFeedLost feed cause s
  | .feedRestored feed => Sys2Proof.Machine.execFeedRestored feed s
  | .converterFailed m => Sys2Proof.Machine.execConverterFailed m s
  | .dieBreaker d => Sys2Proof.Machine.execDieBreaker d s
  | .spineRegulatorTrip d => Sys2Proof.Machine.execSpineRegulatorTrip d s
  | .phaseCheck r phase amps => Sys2Proof.Machine.execPhaseCheck r phase amps s
  | .suspectBond r mv => Sys2Proof.Machine.execSuspectBond r mv s
  | .hintArrival core => Sys2Proof.Machine.execHintArrival core s
  | .levelChange core => Sys2Proof.Machine.execLevelChange core s
  | .droopStretching r d => Sys2Proof.Machine.execDroopStretching r d s
  | .stretchEnd r d => Sys2Proof.Machine.execStretchEnd r d s
  | .powerTrip r => Sys2Proof.Machine.execPowerTrip r s
  | .regionShort r => Sys2Proof.Machine.execRegionShort r s
  | .inputPowerSample now avg over10ms over100us below1s => Sys2Proof.Machine.execInputPowerSample now avg over10ms over100us below1s s
  | .regionPowerOn r => Sys2Proof.Machine.execRegionPowerOn r s
  | .admissionCheck r => Sys2Proof.Machine.execAdmissionCheck r s
  | .deferredPowerOn r => Sys2Proof.Machine.execDeferredPowerOn r s
  | .softStartDone r => Sys2Proof.Machine.execSoftStartDone r s
  | .vmidOvervoltage => Sys2Proof.Machine.execVmidOvervoltage s
  | .vmidUndervoltage => Sys2Proof.Machine.execVmidUndervoltage s
  | .sensorSample kind idx reading flow dtUs => Sys2Proof.Machine.execSensorSample kind idx reading flow dtUs s
  | .fluidTrip => Sys2Proof.Machine.execFluidTrip s
  | .fluidLimitEnd => Sys2Proof.Machine.execFluidLimitEnd s
  | .sensorFlagged u => Sys2Proof.Machine.execSensorFlagged u s
  | .sensorLost u => Sys2Proof.Machine.execSensorLost u s
  | .levelExit u => Sys2Proof.Machine.execLevelExit u s
  | .thermalCap r => Sys2Proof.Machine.execThermalCap r s
  | .routerCap d dir => Sys2Proof.Machine.execRouterCap d dir s
  | .restPowerOn r => Sys2Proof.Machine.execRestPowerOn r s
  | .converterRestart m => Sys2Proof.Machine.execConverterRestart m s
  | .coldStart rep => Sys2Proof.Machine.execColdStart rep s
  | .takeover => Sys2Proof.Machine.execTakeover s
  | .mrst => Sys2Proof.Machine.execMrst s
  | .tapInstruction ir => Sys2Proof.Machine.execTapInstruction ir s
  | .getVersion c => Sys2Proof.Machine.execGetVersion c s
  | .getCapabilities c => Sys2Proof.Machine.execGetCapabilities c s
  | .negotiateAlgorithms c algs => Sys2Proof.Machine.execNegotiateAlgorithms c algs s
  | .getDigests c => Sys2Proof.Machine.execGetDigests c s
  | .getCertificate c slot off len => Sys2Proof.Machine.execGetCertificate c slot off len s
  | .challenge c slot nonce => Sys2Proof.Machine.execChallenge c slot nonce s
  | .getMeasurements c index => Sys2Proof.Machine.execGetMeasurements c index s
  | .keyExchange c id => Sys2Proof.Machine.execKeyExchange c id s
  | .finish c macOk => Sys2Proof.Machine.execFinish c macOk s
  | .keyUpdate c => Sys2Proof.Machine.execKeyUpdate c s
  | .heartbeat c => Sys2Proof.Machine.execHeartbeat c s
  | .endSession c => Sys2Proof.Machine.execEndSession c s
  | .setCertificate c slot chain => Sys2Proof.Machine.execSetCertificate c slot chain s
  | .requestUpdate => Sys2Proof.Machine.execRequestUpdate s
  | .activateFirmware => Sys2Proof.Machine.execActivateFirmware s
  | .copyCompletion core => Sys2Proof.Machine.execCopyCompletion core s
  | .controlFlitInterval l => Sys2Proof.Machine.execControlFlitInterval l s
  | .hostLinkUp port => Sys2Proof.Machine.execHostLinkUp port s
  | .waitMoveTimeout r => Sys2Proof.Machine.execWaitMoveTimeout r s
  | .commandFinishes r => Sys2Proof.Machine.execCommandFinishes r s
  | .tapActiveTimeout => Sys2Proof.Machine.execTapActiveTimeout s
  | .vendorWarmResetRequest c rep => Sys2Proof.Machine.execVendorWarmResetRequest c rep s
  | .eventReceiverRegistration => Sys2Proof.Machine.execEventReceiverRegistration s
  | .entdaa bus addr => Sys2Proof.Machine.execEntdaa bus addr s
  | .endpointIdAssignment binding eid => Sys2Proof.Machine.execEndpointIdAssignment binding eid s
  | .ideKeySetUp c stream key => Sys2Proof.Machine.execIdeKeySetUp c stream key s
  | .pldmComponentTransfer obj => Sys2Proof.Machine.execPldmComponentTransfer obj s

end Sys2Proof.Machine
end

