-- ==== Sys2Proof/Safety.lean ====
section
/-! DEFINITION. The terms in which claims are made: when a core issues a bundle that holds one instruction, the state that
issuing leaves before the instruction's own effect, and the invariant that every command keeps. -/
namespace Sys2Proof.Claims

open Sys2Proof.Machine

/-! ### A core that issues one instruction -/

/-- The core runs, no exception waits for its next bundle boundary, and the bundle is fetched without an ECC event in either half (R94,
R97, R98, R452). -/
def Ready (s : State) (k : Nat) : Prop :=
  (s.core k).st = 3 ∧ (s.core k).excPend = [] ∧ ∀ h ∈ halves (s.core k).pc, h ∉ (s.core k).istoreUe ∧ h ∉ (s.core k).istoreCe

/-- The instruction in one slot of a bundle. -/
def slotOf (b : Bundle) : Slot → SlotInst
  | .c => b.c
  | .v => b.v
  | .m => b.m
  | .x => b.x

/-- The other three slots of the bundle hold NOP. -/
def Alone (w : Issue) (sl : Slot) : Prop := ∀ t, t ≠ sl → (slotOf (decodeBundle w.rest) t).op = .nop

/-- The bundle that the command presents. -/
def bundleOf (w : Issue) (sl : Slot) (op : SlotOp) : Bundle := (decodeBundle w.rest).put sl ⟨op, w.pn, w.pred⟩

/-- The engine by which a slot reaches the banks: the matrix feeder (1) or the vector port (3). -/
def engineOf (sl : Slot) : Nat := if sl = .m then 1 else 3

/-- Bank requests of the issue cycle (Table 3-19, R158). -/
def asks (s : State) (w : Issue) (sl : Slot) (op : SlotOp) : List (Nat × Nat) := bundleAsks s w.core (bundleOf w sl op) w.rivals

/-- The instruction's access of the issue cycle is performed: it asks for no bank, loses none, or the partition's program is not strict
(R158, R161). -/
def Granted (s : State) (w : Issue) (sl : Slot) (op : SlotOp) : Prop :=
  slotDenied s w.core (asks s w sl op) ⟨op, w.pn, w.pred⟩ (engineOf sl) = false

/-- The instruction, alone in its bundle, is issued: the core is ready, nothing holds the bundle (R86) and its encoding is
accepted (R78, R452). -/
def Passes (s : State) (w : Issue) (sl : Slot) (op : SlotOp) : Prop :=
  Ready s w.core ∧ Alone w sl ∧ holdReason s w.core (bundleOf w sl op) = none ∧ encodingBad ⟨op, w.pn, w.pred⟩ = none

/-- It is issued, and in strict mode loses no bank. -/
def Issues (s : State) (w : Issue) (sl : Slot) (op : SlotOp) : Prop := Passes s w sl op ∧ Granted s w sl op

/-- It issues and bit 0 of its predicate qualifies it (R70). -/
def Fires (s : State) (w : Issue) (sl : Slot) (op : SlotOp) : Prop :=
  Issues s w sl op ∧ (s.core w.core).predBit w.pn w.pred 0 = true

/-- The bank requests of the cycle meet: collisions are counted, and in strict mode raise 0x07 (R158 to R161). -/
def contended (s : State) (w : Issue) (sl : Slot) (op : SlotOp) : State :=
  s.meet w.core (asks s w sl op) (!(slotAsks s w.core (bundleOf w sl op).m).isEmpty)

/-- Does the instruction take one value of the stochastic counter (R144)? -/
def takesCtr (c : Core) (w : Issue) : SlotOp → Bool
  | .mdrain f => f.rnd == 4 && c.predBit w.pn w.pred 0
  | op => usesCtrV op c

/-- What issuing does whatever the instruction: bank conflicts are counted, the program counter and the loops go on, CYCLE
and the array's bubbles count, the stochastic counter advances where the instruction takes a value. -/
def issued (s : State) (w : Issue) (sl : Slot) (op : SlotOp) : State :=
  (contended s w sl op).freshen.modCore w.core (fun d =>
    { d.goNext.passCycles (Config.stall s.freeCtr).toNat (idleArray (s.core w.core) (bundleOf w sl op)) with
      srctr := d.srctr + BitVec.ofNat 64 (bitN (takesCtr (s.core w.core) w op))
      fresh := false
      hold := none })

/-- Two states of a core agree in every register file, CSR, tile and accumulator but the address generators and CYCLE. -/
def SameFiles (c d : Core) : Prop :=
  d.x = c.x ∧ d.p = c.p ∧ d.v = c.v ∧ d.c = c.c ∧ d.fflags = c.fflags ∧ d.rmode = c.rmode ∧ d.srseed = c.srseed ∧
    d.srctr = c.srctr ∧ d.acc = c.acc ∧ d.cell = c.cell ∧ d.queue = c.queue ∧ d.active = c.active ∧ d.shadow = c.shadow ∧
    d.mode = c.mode ∧ d.w = c.w ∧ d.copies = c.copies ∧ d.claim = c.claim ∧ d.arrOut = c.arrOut

/-! ### The command of each slot instruction -/

/-- The command that presents a bundle with an instruction in a slot; a reserved code has none. -/
def commandOf (w : Issue) (sl : Slot) : SlotOp → Option Instr
  | .reserved _ => none
  | .nop => some (.nop w sl)
  | .trap => some (.trap w sl)
  | .alu f => some (.alu w f)
  | .addi f => some (.addi w f)
  | .andi f => some (.andi w f)
  | .ori f => some (.ori w f)
  | .xori f => some (.xori w f)
  | .slli f => some (.slli w f)
  | .srli f => some (.srli w f)
  | .srai f => some (.srai w f)
  | .clti f => some (.clti w f)
  | .li f => some (.li w f)
  | .insh1 f => some (.insh1 w f)
  | .insh2 f => some (.insh2 w f)
  | .insh3 f => some (.insh3 w f)
  | .ld f => some (.ld w f)
  | .lws f => some (.lws w f)
  | .lwz f => some (.lwz w f)
  | .st f => some (.st w f)
  | .sw f => some (.sw w f)
  | .brcEq f => some (.brcEq w f)
  | .brcNe f => some (.brcNe w f)
  | .brcLt f => some (.brcLt w f)
  | .brcGe f => some (.brcGe w f)
  | .brcLtu f => some (.brcLtu w f)
  | .brcGeu f => some (.brcGeu w f)
  | .j f => some (.j w f)
  | .jr f => some (.jr w f)
  | .loop f => some (.loop w f)
  | .pcmp f => some (.pcmp w f)
  | .plog f => some (.plog w f)
  | .pset f => some (.pset w f)
  | .pget f => some (.pget w f)
  | .csrr f => some (.csrr w f)
  | .csrw f => some (.csrw w f)
  | .agld f => some (.agld w f)
  | .agrst f => some (.agrst w f)
  | .agbase f => some (.agbase w f)
  | .agpos f => some (.agpos w f)
  | .loadhint f => some (.loadhint w f)
  | .vadd f => some (.vadd w f)
  | .vsub f => some (.vsub w f)
  | .vmul f => some (.vmul w f)
  | .vfma f => some (.vfma w f)
  | .vfms f => some (.vfms w f)
  | .vmax f => some (.vmax w f)
  | .vmin f => some (.vmin w f)
  | .vabs f => some (.vabs w f)
  | .vneg f => some (.vneg w f)
  | .vand f => some (.vand w f)
  | .vor f => some (.vor w f)
  | .vxor f => some (.vxor w f)
  | .vexp f => some (.vexp w f)
  | .vlog f => some (.vlog w f)
  | .vrcp f => some (.vrcp w f)
  | .vrsqrt f => some (.vrsqrt w f)
  | .vrowstat f => some (.vrowstat w f)
  | .vcmp f => some (.vcmp w f)
  | .vmov f => some (.vmov w f)
  | .vbcast f => some (.vbcast w f)
  | .vext f => some (.vext w f)
  | .vcvt f => some (.vcvt w f)
  | .vld f => some (.vld w f)
  | .vst f => some (.vst w f)
  | .smerge f => some (.smerge w f)
  | .sprobe f => some (.sprobe w f)
  | .scompact f => some (.scompact w f)
  | .ssort f => some (.ssort w f)
  | .mmul f => some (.mmul w f)
  | .mload f => some (.mload w f)
  | .mouter f => some (.mouter w f)
  | .mdrain f => some (.mdrain w f)
  | .mcfg f => some (.mcfg w f)
  | .xply f => some (.xply w f)
  | .cpy f => some (.cpy w f)
  | .cwait f => some (.cwait w f)
  | .crd f => some (.crd w f)
  | .bclm f => some (.bclm w f)
  | .arr f => some (.arr w f)
  | .wrel f => some (.wrel w f)
  | .rres f => some (.rres w f)
  | .rflg f => some (.rflg w f)
  | .halt f => some (.halt w f)
  | .xfence f => some (.xfence w f)
  | .endp f => some (.endp w f)

/-- The instruction may stand in the slot. -/
def fits (op : SlotOp) (sl : Slot) : Prop := op.slot = some sl ∨ op = .nop ∨ op = .trap

/-! ### Links -/

/-- A flit command at a link end that can take it: a die-crossing channel that is up and clocked, or a fabric link that neither failed nor
stopped; and no gambit has a flit of the link to corrupt. -/
def Hears (s : State) (e : LinkEnd) : Prop :=
  (s.link e).corrupt = false ∧
    match e with
    | .mesh d dir lane seg => s.meshUp d dir lane seg = true
    | _ => (s.link e).failed = false ∧ (s.link e).stopped = false

/-- TYPE of a flit: bits 7 to 4 of byte 33 on the mesh, bits 2 to 0 on the fabric (R201, Table 11-5). -/
def flitType (e : LinkEnd) (f : BitVec 288) : Nat :=
  if e.isMesh then flitByte f 33 / 16 else flitByte f 33 % 8

/-! ### Packets -/

/-- A packet of an opcode that its unit takes: its ECRC and its fields are good (R276). -/
def Good (o : BitVec 4) (p : Packet) : Prop := p.opc = o ∧ BitVec.ofNat 32 (ecrcOf p) = p.ecrc ∧ packetOk p = true

/-- A request is answered, in a state of which m holds. -/
def Answers (i : Instr) (s : State) (p : Packet) (a : Answer) (m : State → Prop) : Prop :=
  ∃ u, exec i s = .next (u.answerTo p a) ∧ m u

/-- The one enabled route to a panel is a port that is up and whose link takes what it is given. -/
def OnePort (s : State) (q : Nat) (port : Fin 32) : Prop :=
  s.candidates q = [port.val] ∧ s.portUp port = true ∧
    let l := s.link (.sys port)
    l.stopped = false ∧ l.failed = false ∧ l.held = [] ∧ l.replay.length + 17 ≤ 16384

/-- A control packet of an opcode has gone out on a port to a panel, and nothing else on it. -/
def SentOn (s t : State) (port : Fin 32) (q opc : Nat) : Prop :=
  ∃ p : Packet, p.opc.toNat = opc ∧ p.dpanel.toNat = q ∧ p.spanel.toNat = s.ownId ∧
    (t.link (.sys port)).replay = (s.link (.sys port)).replay ++ packetFlits p (s.link (.sys port)).sendSeq

/-- Only the fabric's own state differs: links, packets under way, streams, registers. -/
def FabricOnly (s t : State) : Prop := t = { s with links := t.links, net := t.net, homes := t.homes, regs := t.regs }

/-! ### Commands of the rings -/

/-- The commands of the rings by opcode, and the subfunction test of the rows that share one (Tables 12-8 and 12-10). -/
def ringCommands (r : Ref) : List (Nat × (Cmd → Bool) × Instr) :=
  let always (_ : Cmd) : Bool := true
  let sub (n top : Nat) (c : Cmd) : Bool := c.sub == n || (n == 0 && decide (top < c.sub))
  let mode (n : Nat) (c : Cmd) : Bool := c.fwMode == n || (n == 0 && decide (3 < c.fwMode))
  [(0x00, always, .commandNop r), (0x01, always, .copyIn r .ok), (0x02, always, .copyOut r .ok), (0x03, always, .loadProgram r),
    (0x04, always, .launch r), (0x05, always, .waitMove r), (0x06, always, .position r), (0x07, always, .restore r),
    (0x08, always, .fence r), (0x09, always, .castle r), (0x0A, fun c => leAt c.desc 8 1 != 1, .queryPartition r),
    (0x0A, fun c => leAt c.desc 8 1 == 1, .queryPanel r), (0x0B, always, .signal r)] ++
  [(0x80, always, .ringCreate r), (0x81, always, .ringDelete r), (0x82, always, .partitionSet r), (0x83, sub 0 2, .licenseInstall r),
    (0x83, sub 1 2, .licenseList r), (0x83, sub 2 2, .licenseRemove r), (0x84, always, .fwStage r), (0x85, mode 0, .fwActivateWarm r),
    (0x85, mode 1, .fwActivateLive r), (0x85, mode 2, .fwActivateCommit r), (0x85, mode 3, .fwActivateRevert r),
    (0x86, sub 0 2, .defectQuery r), (0x86, sub 1 2, .defectQueryAdd r), (0x86, sub 2 2, .defectQueryExtended r)] ++
  [(0x87, sub 0 2, .gambitArm r), (0x87, sub 1 2, .gambitList r), (0x87, sub 2 2, .gambitCancel r),
    (0x88, fun c => leAt c.desc 0xA 1 != 1, .resumeContinue r), (0x88, fun c => leAt c.desc 0xA 1 == 1, .resumeFlush r),
    (0x89, sub 0 3, .trustQueryChain r), (0x89, sub 1 3, .trustQueryMeasurements r), (0x89, sub 2 3, .trustQueryQuote r),
    (0x89, sub 3 3, .trustQueryCounters r)]

/-- A fetched command of an opcode starts on this panel: R321 lets it, its ring takes the opcode, its reserved bits are zero and its
TARGET names this panel, a listed member. -/
def Starts (s : State) (op : Nat) (r : Ref) (c : Cmd) : Prop :=
  s.cmd r = some c ∧ c.op = op ∧ c.started = false ∧ s.mayStart r.ring.val c = true ∧ ringAccepts r.ring.val op = true ∧
    leAt c.desc 1 1 / 16 = 0 ∧ s.listed c.panel = true ∧ c.panel = s.ownId

/-- The command finishes with STATUS, DETAIL and SUMMARY, in a state of which m holds. -/
def Ends (i : Instr) (s : State) (r : Ref) (c : Cmd) (st d : Nat) (su : List Byte) (m : State → Prop) : Prop :=
  ∃ u, exec i s = .next (u.finish r.ring.val c.seq st d su) ∧ m u

/-- The command has started and runs on, in a state of which m holds. -/
def Goes (i : Instr) (s : State) (r : Ref) (c : Cmd) (m : State → Prop) : Prop :=
  ∃ u, exec i s = .next (u.modCmd r.ring.val c.seq (fun c => { c with started := true })) ∧ m u

/-! ### What every command keeps -/

/-- Both memories are in canonical form. -/
def MemOk (s : State) : Prop := Memory.wf s.mem = true ∧ Memory.wf s.hostMem = true

end Sys2Proof.Claims
end

