-- ==== Sys2Proof/Certificates/Slice0/Obligations.lean ====
section
/-! DEFINITION. Statements for the provers, each a proposition about the block's commands. They are grouped as the table of
commands is: slot instructions, then the engines, the tempo network, the fabric, memory, the host interface, power, heat and
bring-up. Hypotheses are on the state and the operands alone. -/

open Sys2Proof Sys2Proof.Machine Sys2Proof.Claims

/-! ### The queue and the encodings -/

/-- One step runs the command at the front of the queue on the state with the queue's rest; with no command waiting it leaves
the state as it is (the model's choice, log entry 1). -/
def Obligations.StepRunsTheFrontCommand : Prop :=
  ∀ s : State,
    (∀ (c : Instr) (rest : List Instr), s.pending = c :: rest → step s = exec c { s with pending := rest }) ∧
    (s.pending = [] → step s = .next s)

/-- Logical files (R17): in a rank with hole h a logical file L has the physical file L below the hole and L + 1 from the hole on. So
the core of a logical place stands in the place's die rank and core rank, at the physical die file and core file that the holes of the
two ranks give, and it has that place again; a short die rank holds no logical place. -/
def Obligations.LogicalFilesSkipTheHole : Prop :=
  ∀ (s : State) (n : Nat),
    let dieRank := n / 2048
    let coreRank := n / 16 % 16
    let place (h l f : Nat) : Prop := (l < h → f = l) ∧ (h ≤ l → f = l + 1)
    (s.dieHole dieRank = 15 → s.physOf n = none) ∧
    (s.dieHole dieRank ≠ 15 → ∃ k, s.physOf n = some k ∧ s.logicalOf k = some n ∧
      rankOfDie (dieOf k) = dieRank ∧ place (s.dieHole dieRank) (n / 256 % 8) (fileOfDie (dieOf k)) ∧
      rankOfSite (siteOf k) = coreRank ∧ place (s.coreHole (dieOf k) coreRank) (n % 16) (fileOfSite (siteOf k)))

/-- Table 3-6 to 3-12: the word of a slot instruction, header and operand fields packed as the tables lay them out, decodes in
its slot to that instruction; NOP and TRAP do so in every slot (R77, R78). -/
def Obligations.SlotWordsDecodeToTheirInstruction : Prop :=
  ∀ (sl : Slot) (i : SlotInst), (i.op.slot = some sl ∨ i.op = .nop ∨ i.op = .trap) → decodeSlot sl (wordOf i) = i

/-! ### The C slot -/

/-- x0 reads as zero and p0 as all ones; writes to them are discarded, a write to any other register is read back and leaves
the other registers as they are (Table 3-3).
PCMP, PLOG, PSET and PGET (R70, Table 3-8): PCMP writes all 64 bits of pd from one scalar compare. -/
def Obligations.PredicatesAndFixedRegistersHold : Prop :=
  (
  ∀ (c : Core) (v : W64),
    (c.setX 0 v).getX 0 = 0 ∧ c.setX 0 v = c ∧ (c.setP 0 v).getP 0 = -1 ∧ c.setP 0 v = c ∧
    (∀ i j : BitVec 5, i ≠ 0 → (c.setX i v).getX j = if j = i then v else c.getX j) ∧
    (∀ i j : BitVec 3, i ≠ 0 → (c.setP i v).getP j = if j = i then v else c.getP j)) ∧
  (
  ∀ (s : State) (w : Issue),
    let c := s.core w.core
    (∀ f : CP, Fires s w .c (.pcmp f) →
      let a := c.getX f.xs1
      let b := c.getX f.xs2
      ∃ h : Bool, exec (.pcmp w f) s =
          .next ((issued s w .c (.pcmp f)).modCore w.core (fun d => d.setP f.pd (if h then BitVec.allOnes 64 else 0))) ∧
        (f.cond = 0 → (h = true ↔ a = b)) ∧ (f.cond = 1 → (h = true ↔ a ≠ b)) ∧ (f.cond = 2 → (h = true ↔ a.toInt < b.toInt)) ∧
        (f.cond = 3 → (h = true ↔ b.toInt ≤ a.toInt)) ∧ (f.cond = 4 → (h = true ↔ a.toNat < b.toNat)) ∧
        (f.cond = 5 → (h = true ↔ b.toNat ≤ a.toNat))) ∧
    (∀ f : CL,
      (Fires s w .c (.plog f) → ∃ v : W64,
        exec (.plog w f) s = .next ((issued s w .c (.plog f)).modCore w.core (fun d => d.setP f.pd v)) ∧
        (f.fn = 0 → v = c.getP f.pa &&& c.getP f.pb) ∧ (f.fn = 1 → v = c.getP f.pa ||| c.getP f.pb) ∧
        (f.fn = 2 → v = c.getP f.pa ^^^ c.getP f.pb) ∧ (f.fn = 3 → v = c.getP f.pa &&& ~~~ c.getP f.pb)) ∧
      (Fires s w .c (.pset f) →
        exec (.pset w f) s = .next ((issued s w .c (.pset f)).modCore w.core (fun d => d.setP f.pd (c.getX f.x)))) ∧
      (Fires s w .c (.pget f) →
        exec (.pget w f) s = .next ((issued s w .c (.pget f)).modCore w.core (fun d => d.setX f.x (c.getP f.pa))))))

/-- Issuing counts bank conflicts, moves the program counter on and counts a cycle; no register file, no memory byte, no other
core and nothing outside the cores changes but the free-value counter, the core's next counters and, in strict mode, its
pending exceptions (R67, R158 to R161).
All slots read before any writes (R87): an ADDI in the C slot that writes the register an ARR in the X slot reads leaves the
arrival the old value. -/
def Obligations.IssuingReadsFirstAndKeepsTheRest : Prop :=
  (
  ∀ (s : State) (w : Issue) (sl : Slot) (op : SlotOp), Ready s w.core →
    let t := issued s w sl op
    let c := s.core w.core
    let d := t.core w.core
    (∀ i, d.getX i = c.getX i) ∧ (∀ i, d.getP i = c.getP i) ∧ (∀ i, d.getV i = c.getV i) ∧ (∀ i, d.getA i = c.getA i) ∧
    (∀ i, d.getC i = c.getC i) ∧ d.acc = c.acc ∧ d.cell = c.cell ∧ d.queue = c.queue ∧ d.active = c.active ∧
    d.shadow = c.shadow ∧ d.fflags = c.fflags ∧ d.rmode = c.rmode ∧ d.srseed = c.srseed ∧ d.st = 3 ∧ d.claim = c.claim ∧
    (∀ j, j ≠ w.core.val → t.core j = s.core j) ∧ (∀ a, rd t.mem a = rd s.mem a) ∧ (∀ a, rd t.hostMem a = rd s.hostMem a) ∧
    t.pending = s.pending ∧ t.regs = s.regs ∧ t.parts = s.parts ∧ t.events = s.events ∧ t.net = s.net) ∧
  (
  ∀ (s : State) (w : Issue) (f : CI) (g : XT) (pn : Bool) (pr : BitVec 3),
    let c := s.core w.core
    let b := bundleOf w .c (.addi f)
    b.x = ⟨.arr g, pn, pr⟩ → b.v.op = .nop → b.m.op = .nop → Ready s w.core → holdReason s w.core b = none →
    bundleEncodingBad b = none → c.predBit w.pn w.pred 0 = true → c.predBit pn pr 0 = true →
    f.xd = g.x → f.xd ≠ 0 → s.inGroup w.core g.g.toNat = true → c.arrOut.getLsbD g.g.toNat = false →
    ∃ t, exec (.addi w f) s = .next t ∧
      (t.core w.core).getX f.xd = c.getX f.xs1 + f.imm.signExtend 64 ∧
      (t.core w.core).arrHeld = c.arrHeld ++ [⟨g.g.toNat, c.getX g.x, false, c.copySeq⟩])

/-- ALU (Table 3-9): xd takes the function's value; the arithmetic wraps modulo 2^64, shifts use xs2[5:0]; CLZ and CTZ count
the zero bits above the highest and below the lowest one bit. Nothing else changes but what issuing changes.
ADDI, ANDI, ORI, XORI, SLLI, SRLI, SRAI, CLTI on xs1 and the sign-extended immediate, LI, and INSH1 to INSH3, which replace
16 bits of xd (Table 3-8). -/
def Obligations.ArithmeticWritesItsFunction : Prop :=
  (
  ∀ (s : State) (w : Issue) (f : CR), Fires s w .c (.alu f) →
    let a := (s.core w.core).getX f.xs1
    let b := (s.core w.core).getX f.xs2
    let n := b.toNat % 64
    ∃ v : W64,
      exec (.alu w f) s = .next ((issued s w .c (.alu f)).modCore w.core (fun d => d.setX f.xd v)) ∧
      (f.fn = 0x00 → v = a + b) ∧ (f.fn = 0x01 → v = a - b) ∧ (f.fn = 0x02 → v = a &&& b) ∧ (f.fn = 0x03 → v = a ||| b) ∧
      (f.fn = 0x04 → v = a ^^^ b) ∧ (f.fn = 0x05 → v.toNat = a.toNat * 2 ^ n % 2 ^ 64) ∧
      (f.fn = 0x06 → v.toNat = a.toNat / 2 ^ n) ∧ (f.fn = 0x07 → v.toInt = a.toInt / 2 ^ n) ∧
      (f.fn = 0x08 → v = if a.toInt < b.toInt then 1 else 0) ∧ (f.fn = 0x09 → v = if a.toNat < b.toNat then 1 else 0) ∧
      (f.fn = 0x0A → v.toInt = min a.toInt b.toInt) ∧ (f.fn = 0x0B → v.toInt = max a.toInt b.toInt) ∧
      (f.fn = 0x0C → v.toNat = min a.toNat b.toNat) ∧ (f.fn = 0x0D → v.toNat = max a.toNat b.toNat) ∧
      (f.fn = 0x0E → v = a * b) ∧ (f.fn = 0x0F → v.toNat = a.toNat * b.toNat / 2 ^ 64) ∧
      (f.fn = 0x10 → v.toInt = a.toInt * b.toInt / 2 ^ 64) ∧
      (f.fn = 0x11 → v.toNat = ((List.range 64).filter (fun i => a.getLsbD i)).length) ∧
      (f.fn = 0x12 → v.toNat ≤ 64 ∧ (∀ i < v.toNat, a.getLsbD (63 - i) = false) ∧ (v.toNat < 64 → a.getLsbD (63 - v.toNat) = true)) ∧
      (f.fn = 0x13 → v.toNat ≤ 64 ∧ (∀ i < v.toNat, a.getLsbD i = false) ∧ (v.toNat < 64 → a.getLsbD v.toNat = true))) ∧
  (
  ∀ (s : State) (w : Issue),
    let wrote (op : SlotOp) (xd : BitVec 5) (v : W64) : Host.Outcome State Fault Refusal :=
      .next ((issued s w .c op).modCore w.core (fun d => d.setX xd v))
    let get := (s.core w.core).getX
    (∀ f : CI,
      let a := get f.xs1
      let m : W64 := f.imm.signExtend 64
      (Fires s w .c (.addi f) → exec (.addi w f) s = wrote (.addi f) f.xd (a + m)) ∧
      (Fires s w .c (.andi f) → exec (.andi w f) s = wrote (.andi f) f.xd (a &&& m)) ∧
      (Fires s w .c (.ori f) → exec (.ori w f) s = wrote (.ori f) f.xd (a ||| m)) ∧
      (Fires s w .c (.xori f) → exec (.xori w f) s = wrote (.xori f) f.xd (a ^^^ m)) ∧
      (Fires s w .c (.slli f) → exec (.slli w f) s = wrote (.slli f) f.xd (a <<< f.imm.toNat)) ∧
      (Fires s w .c (.srli f) → exec (.srli w f) s = wrote (.srli f) f.xd (a >>> f.imm.toNat)) ∧
      (Fires s w .c (.srai f) → exec (.srai w f) s = wrote (.srai f) f.xd (a.sshiftRight f.imm.toNat)) ∧
      (Fires s w .c (.clti f) → exec (.clti w f) s = wrote (.clti f) f.xd (if a.toInt < f.imm.toInt then 1 else 0))) ∧
    (∀ f : CU,
      let a := get f.xd
      (Fires s w .c (.li f) → exec (.li w f) s = wrote (.li f) f.xd (f.imm.signExtend 64)) ∧
      (Fires s w .c (.insh1 f) →
        exec (.insh1 w f) s = wrote (.insh1 f) f.xd (a.extractLsb' 32 32 ++ f.imm ++ a.extractLsb' 0 16)) ∧
      (Fires s w .c (.insh2 f) →
        exec (.insh2 w f) s = wrote (.insh2 f) f.xd (a.extractLsb' 48 16 ++ f.imm ++ a.extractLsb' 0 32)) ∧
      (Fires s w .c (.insh3 f) → exec (.insh3 w f) s = wrote (.insh3 f) f.xd (f.imm ++ a.extractLsb' 0 48))))

/-- LD, LWS and LWZ (R79) complete at every aligned address within the scratchpad: xd takes its little-endian bytes, LWS
sign-extended; an ECC event of a word read is recorded on the way. The address is the unsigned base plus the scaled immediate, not
reduced (log entry 100). Any other address raises 0x04 with DETAIL address / 64, and a poisoned row 0x05 with its bank.
ST and SW (R79) complete at every aligned address within the scratchpad: the 8 or 4 low bytes of xs2, low byte first, stand in the
core's own scratchpad, and every other byte of memory reads as before; any other address raises 0x04 and stores nothing.
In strict mode one that loses its bank is not performed: the bundle issues, 0x07 waits, and neither xd nor memory changes (R161). -/
def Obligations.ScalarLoadsAndStoresMoveTheirBytes : Prop :=
  (
  ∀ (s : State) (w : Issue) (f : CI),
    let c := s.core w.core
    let loads (op : SlotOp) (i : Instr) (size : Nat) (val : Nat → W64) : Prop :=
      let n : Int := (c.getX f.xs1).toNat + f.imm.toInt * size
      let a := n.toNat
      let good := 0 ≤ n ∧ n % size = 0 ∧ n ≤ 0x1FFFFF
      Fires s w .c op →
        (good → c.badRow (wordsOf a size) = none →
          exec i s = .next ((issued s w .c op).modCore w.core (fun d =>
            (d.engineRead (wordsOf a size)).setX f.xd (val (leNat (rdN s.mem (spadAddr w.core a) size)))))) ∧
        (¬ good → exec i s = .next (s.coreException w.core ⟨0x04, 0, BitVec.ofInt 16 (n / 64)⟩)) ∧
        (∀ r, good → c.badRow (wordsOf a size) = some r →
          exec i s = .next ((s.modCore w.core (fun d => d.engineRead (wordsOf a size))).coreException w.core
            ⟨0x05, 0, BitVec.ofNat 16 (r / 2048)⟩))
    loads (.ld f) (.ld w f) 8 (fun v => BitVec.ofNat 64 v) ∧
    loads (.lws f) (.lws w f) 4 (fun v => (BitVec.ofNat 32 v).signExtend 64) ∧
    loads (.lwz f) (.lwz w f) 4 (fun v => BitVec.ofNat 64 v)) ∧
  (
  ∀ (s : State) (w : Issue) (f : CS),
    let c := s.core w.core
    let stores (op : SlotOp) (i : Instr) (size : Nat) : Prop :=
      let n : Int := (c.getX f.xs1).toNat + f.imm.toInt * size
      let a := n.toNat
      let good := 0 ≤ n ∧ n % size = 0 ∧ n ≤ 0x1FFFFF
      let p := spadAddr w.core a
      Fires s w .c op →
        (good → ∃ t, exec i s = .next t ∧
          (∀ j < size, rd t.mem (p + j) = (c.getX f.xs2).extractLsb' (8 * j) 8) ∧
          (∀ q, (q < p ∨ p + size ≤ q) → rd t.mem q = rd s.mem q) ∧
          SameFiles c (t.core w.core) ∧ (t.core w.core).a = c.a ∧ (t.core w.core).pc = (c.goNext).pc ∧
          (∀ j, j ≠ w.core.val → t.core j = s.core j) ∧ t.hostMem = s.hostMem ∧ t.regs = s.regs) ∧
        (¬ good → exec i s = .next (s.coreException w.core ⟨0x04, 0, BitVec.ofInt 16 (n / 64)⟩))
    stores (.st f) (.st w f) 8 ∧ stores (.sw f) (.sw w f) 4) ∧
  (
  ∀ (s : State) (w : Issue),
    let c := s.core w.core
    let lost (op : SlotOp) (i : Instr) (n : Int) (size : Nat) : Prop :=
      Passes s w .c op → ¬ Granted s w .c op → c.predBit w.pn w.pred 0 = true → 0 ≤ n → n % size = 0 → n ≤ 0x1FFFFF →
        c.badRow (wordsOf n.toNat size) = none → ∃ t, exec i s = .next t ∧ t = issued s w .c op ∧ t.mem = s.mem ∧
          (∀ j, (t.core w.core).getX j = c.getX j) ∧ (t.core w.core).excPend.map (·.code) = [0x07]
    (∀ f : CI,
      lost (.ld f) (.ld w f) ((c.getX f.xs1).toNat + f.imm.toInt * 8) 8 ∧
      lost (.lws f) (.lws w f) ((c.getX f.xs1).toNat + f.imm.toInt * 4) 4 ∧
      lost (.lwz f) (.lwz w f) ((c.getX f.xs1).toNat + f.imm.toInt * 4) 4) ∧
    (∀ f : CS,
      lost (.st f) (.st w f) ((c.getX f.xs1).toNat + f.imm.toInt * 8) 8 ∧
      lost (.sw f) (.sw w f) ((c.getX f.xs1).toNat + f.imm.toInt * 4) 4))

/-- BRC, J and JR (R80): a compare that holds goes to this bundle + OFF, modulo 2^13, one that does not hold changes nothing
beyond issuing; J and JR write the next bundle's index into xd and go to TARGET or xs1[12:0]. A taken branch ends the loops
whose bodies its target leaves, with every loop inside them.
LOOP (R80): a count xs1[31:0] above zero makes the next LEN bundles the body of a new innermost loop, unless four loops are
active, which raises 0x0A; a count of zero skips the body. At the last bundle of a body an iteration left goes back to the
body's first bundle, and the last one leaves the loop. -/
def Obligations.BranchesAndLoopsSetTheProgramCounter : Prop :=
  (
  ∀ (s : State) (w : Issue),
    let c := s.core w.core
    let kept (target : BitVec 13) : List LoopRec :=
      (c.loops.reverse.takeWhile (fun l => decide ((target - l.start).toNat < l.len))).reverse
    let branches (f : CB) (op : SlotOp) (i : Instr) (holds : W64 → W64 → Prop) : Prop :=
      let target : BitVec 13 := c.pc + f.off.signExtend 13
      Fires s w .c op →
        (holds (c.getX f.xs1) (c.getX f.xs2) →
          exec i s = .next ((issued s w .c op).modCore w.core (fun d => { d with pc := target, loops := kept target }))) ∧
        (¬ holds (c.getX f.xs1) (c.getX f.xs2) → exec i s = .next (issued s w .c op))
    let jumps (xd : BitVec 5) (target : BitVec 13) (op : SlotOp) (i : Instr) : Prop :=
      Fires s w .c op → exec i s = .next ((issued s w .c op).modCore w.core (fun d =>
        ({ d with pc := target, loops := kept target } : Core).setX xd ((c.pc + 1).zeroExtend 64)))
    (∀ f : CB, branches f (.brcEq f) (.brcEq w f) (fun a b => a = b) ∧ branches f (.brcNe f) (.brcNe w f) (fun a b => a ≠ b) ∧
      branches f (.brcLt f) (.brcLt w f) (fun a b => a.toInt < b.toInt) ∧
      branches f (.brcGe f) (.brcGe w f) (fun a b => b.toInt ≤ a.toInt) ∧
      branches f (.brcLtu f) (.brcLtu w f) (fun a b => a.toNat < b.toNat) ∧
      branches f (.brcGeu f) (.brcGeu w f) (fun a b => b.toNat ≤ a.toNat)) ∧
    (∀ f : CJ, jumps f.xd f.target (.j f) (.j w f)) ∧
    (∀ f : CR, jumps f.xd ((c.getX f.xs1).extractLsb' 0 13) (.jr f) (.jr w f))) ∧
  (
  (∀ (s : State) (w : Issue) (f : CO), Fires s w .c (.loop f) →
    let c := s.core w.core
    let n := (c.getX f.xs1).toNat % 2 ^ 32
    (0 < n → c.loops.length < 4 →
      exec (.loop w f) s = .next ((issued s w .c (.loop f)).modCore w.core (fun d =>
        { d with pc := c.pc + 1, loops := ⟨c.pc + 1, f.len.toNat, n⟩ :: c.loops }))) ∧
    (0 < n → 4 ≤ c.loops.length → exec (.loop w f) s = .next (s.coreException w.core ⟨0x0A, 0, 0⟩)) ∧
    (n = 0 → ∃ t, exec (.loop w f) s = .next t ∧
      (c.loops = [] → (t.core w.core).pc = c.pc + f.len.zeroExtend 13 + 1) ∧ (t.core w.core).loops.length ≤ c.loops.length)) ∧
  (∀ (c : Core) (l : LoopRec) (ls : List LoopRec), c.loops = l :: ls →
    (c.pc = l.start + BitVec.ofNat 13 l.len - 1 → 1 < l.left →
      c.goNext.pc = l.start ∧ c.goNext.loops = { l with left := l.left - 1 } :: ls) ∧
    (c.pc = l.start + BitVec.ofNat 13 l.len - 1 → l.left ≤ 1 → c.goNext = ({ c with loops := ls } : Core).goNext) ∧
    (c.pc ≠ l.start + BitVec.ofNat 13 l.len - 1 → c.goNext.pc = c.pc + 1 ∧ c.goNext.loops = c.loops)) ∧
  (∀ c : Core, c.loops = [] → c.goNext.pc = c.pc + 1 ∧ c.goNext.loops = []))

/-- CSRR and CSRW (R76, Table 3-5): CSRR copies the register into x; CSRW writes FFLAGS, RMODE, SRSEED or SRCTR. FFLAGS is read and
written in program order: a read gives what it is once the queued matrix instructions have acted, a write is what their flags no longer
reach (R69). A number not
in the table, a read-only register on a write, a value with a bit outside the defined fields, a reserved rounding code, and the
stochastic code without the STOCH feature raise 0x02 with the low byte of the number in DETAIL[15:8], and change no CSR.
AGLD loads a descriptor whose reserved bits are zero and whose ESIZE is not 7 and sets the cursor to step 0, and raises 0x02
and keeps aN on any other; AGRST and AGBASE set the cursor to step 0, AGBASE with a new BASE; AGPOS gives the steps taken since
then; LOADHINT announces a level, counting a LEAD below 125 in HINTSHORT and taking it as 125 (R72, R73, R92). -/
def Obligations.CsrsAndGeneratorsReadAndWrite : Prop :=
  (
  ∀ (s : State) (w : Issue) (f : CC),
    let c := s.core w.core
    let n := f.csr.toNat
    let x := c.getX f.x
    let gives (v : W64) : Prop := exec (.csrr w f) s = .next ((issued s w .c (.csrr f)).modCore w.core (fun d => d.setX f.x v))
    let ill (op : BitVec 8) : Host.Outcome State Fault Refusal :=
      .next (s.coreException w.core ⟨0x02, 0, f.csr.extractLsb' 0 8 ++ op⟩)
    let puts (g : Core → Core) : Prop := exec (.csrw w f) s = .next ((issued s w .c (.csrw f)).modCore w.core g)
    (Fires s w .c (.csrr f) →
      (n = 0x000 → gives c.cycle) ∧ (n = 0x001 → gives (c.move.zeroExtend 64)) ∧ (n = 0x006 → gives (c.cls.zeroExtend 64)) ∧
      (∀ l, s.logicalOf w.core = some l → (n = 0x002 → gives (BitVec.ofNat 64 l)) ∧
        (n = 0x003 → gives (BitVec.ofNat 64 (l / 2048 * 4096 + l / 256 % 8 * 256 + l / 16 % 16 * 16 + l % 16)))) ∧
      (n = 0x004 → gives (BitVec.ofNat 64 ((s.reg Reg.sylPanelId).toNat % 4096))) ∧
      (∀ p, s.partOfCore w.core = some p → n = 0x005 → gives (BitVec.ofNat 64 p)) ∧ (n = 0x007 → gives (c.mhz.zeroExtend 64)) ∧
      (n = 0x010 → gives (c.flagsNow.zeroExtend 64)) ∧ (n = 0x011 → gives (c.rmode.zeroExtend 64)) ∧ (n = 0x012 → gives c.srseed) ∧
      (n = 0x013 → gives c.srctr) ∧ (n = 0x020 → gives c.bankcol) ∧ (n = 0x021 → gives c.hintshort) ∧ (n = 0x022 → gives c.eccfix) ∧
      ((0x007 < n ∧ n < 0x010 ∨ 0x013 < n ∧ n < 0x020 ∨ 0x022 < n) → exec (.csrr w f) s = ill 0x28)) ∧
    (Fires s w .c (.csrw f) →
      (n = 0x010 → x.toNat < 32 → puts (fun d =>
        { d with fflags := x.extractLsb' 0 5, queue := d.queue.map (fun e => { e with mute := true }) })) ∧
      (n = 0x011 → (x.toNat < 4 ∨ (x.toNat = 4 ∧ s.licensed 7)) → puts (fun d => { d with rmode := x.extractLsb' 0 3 })) ∧
      (n = 0x012 → puts (fun d => { d with srseed := x })) ∧ (n = 0x013 → puts (fun d => { d with srctr := x })) ∧
      ((n < 0x010 ∨ 0x013 < n ∨ (n = 0x010 ∧ 32 ≤ x.toNat) ∨ (n = 0x011 ∧ (4 < x.toNat ∨ (x.toNat = 4 ∧ s.licensed 7 = false)))) →
        exec (.csrw w f) s = ill 0x29))) ∧
  (
  ∀ (s : State) (w : Issue),
    let c := s.core w.core
    (∀ f : CA,
      let a := (c.getX f.x).toNat + f.imm.toNat * 64
      let d := BitVec.ofNat 512 (leNat (rdN s.mem (spadAddr w.core a) 64))
      let r := c.getA f.an
      (Fires s w .c (.agld f) →
        (a % 64 = 0 → a ≤ 0x1FFFFF → c.badRow (wordsOf a 64) = none →
          (AG.ok d = true → exec (.agld w f) s = .next ((issued s w .c (.agld f)).modCore w.core (fun e =>
            (e.engineRead (wordsOf a 64)).setA f.an ⟨d, 0, 0⟩))) ∧
          (AG.ok d = false → exec (.agld w f) s = .next (s.coreException w.core ⟨0x02, 0, 0x002C⟩))) ∧
        (∀ q, a % 64 = 0 → a ≤ 0x1FFFFF → c.badRow (wordsOf a 64) = some q →
          exec (.agld w f) s = .next ((s.modCore w.core (fun e => e.engineRead (wordsOf a 64))).coreException w.core
            ⟨0x05, 0, BitVec.ofNat 16 (q / 2048)⟩)) ∧
        ((a % 64 ≠ 0 ∨ 0x1FFFFF < a) → exec (.agld w f) s = .next (s.coreException w.core ⟨0x04, 0, BitVec.ofNat 16 (a / 64)⟩))) ∧
      (Fires s w .c (.agrst f) → exec (.agrst w f) s =
        .next ((issued s w .c (.agrst f)).modCore w.core (fun e => e.setA f.an ⟨r.desc, 0, 0⟩))) ∧
      (Fires s w .c (.agbase f) → ∃ d' : W512, exec (.agbase w f) s =
          .next ((issued s w .c (.agbase f)).modCore w.core (fun e => e.setA f.an ⟨d', 0, 0⟩)) ∧
        d'.toNat = r.desc.toNat / 2 ^ 21 * 2 ^ 21 + (c.getX f.x).toNat % 2 ^ 21) ∧
      (Fires s w .c (.agpos f) → exec (.agpos w f) s =
        .next ((issued s w .c (.agpos f)).modCore w.core (fun e => e.setX f.x r.steps)))) ∧
    (∀ f : CH, Fires s w .c (.loadhint f) → exec (.loadhint w f) s =
      .next ((issued s w .c (.loadhint f)).modCore w.core (fun e =>
        { e with
          hintshort := if f.lead.toNat < 125 then e.hintshort + 1 else e.hintshort
          hints := e.hints ++ [(f.level, (if f.lead.toNat < 125 then 125 else f.lead.toNat), false)] }))))

/-! ### The V slot -/

/-- VADD, VSUB, VMUL, VFMA, VFMS, VMAX, VMIN, VABS, VNEG and VMOV (R70, R81, R132): each lane whose predicate bit is 1 takes
the operation's result on that lane, rounded once by RMODE in a floating-point format and wrapped modulo 2^8 in INT8; every
other lane keeps its bits. The flags of the written lanes join FFLAGS, and nothing else changes. An unlicensed format raises
0x02 with FMT in DETAIL[15:8]. -/
def Obligations.VectorLanesTakeTheirResult : Prop :=
  ∀ (s : State) (w : Issue) (f : VR),
    let c := s.core w.core
    let n := lanesOf f.fmt
    let b := laneBits f.fmt
    let d (j : Nat) := lane (c.getV f.vd) b j
    let x (j : Nat) := lane (c.getV f.vs1) b j
    let y (j : Nat) := lane (c.getV f.vs2) b j
    let m (j : Nat) := rndOf c.rmode c.srseed c.srctr j
    let on (j : Nat) := c.predBit w.pn w.pred j
    let lanes (op : SlotOp) (i : Instr) (fl : Fp → Nat → Nat × Flags) (it : Nat → Int) : Prop :=
      let res (j : Nat) : Nat × Flags := match fpOf f.fmt with
        | some F => fl F j
        | none => ((it j % 256).toNat, 0)
      Issues s w .v op →
        (s.fmtOk f.fmt = true → ∃ (r : W512) (g : Flags),
          exec i s = .next ((issued s w .v op).modCore w.core (fun e =>
            ({ e.setV f.vd r with fflags := e.fflags ||| g } : Core))) ∧
          (∀ j < n, lane r b j = if on j then (res j).1 % 2 ^ b else d j) ∧
          (∀ q, g.getLsbD q = true ↔ ∃ j < n, on j = true ∧ (res j).2.getLsbD q = true)) ∧
        (s.fmtOk f.fmt = false → exec i s = .next (s.coreException w.core ⟨0x02, 1, BitVec.ofNat 16 (op.code.toNat + 256 * f.fmt.toNat)⟩))
    lanes (.vadd f) (.vadd w f) (fun F j => fadd F (m j) (x j) (y j)) (fun j => sgn 8 (x j) + sgn 8 (y j)) ∧
    lanes (.vsub f) (.vsub w f) (fun F j => fsub F (m j) (x j) (y j)) (fun j => sgn 8 (x j) - sgn 8 (y j)) ∧
    lanes (.vmul f) (.vmul w f) (fun F j => fmul F (m j) (x j) (y j)) (fun j => sgn 8 (x j) * sgn 8 (y j)) ∧
    lanes (.vfma f) (.vfma w f) (fun F j => ffma F (m j) false (d j) (x j) (y j)) (fun j => sgn 8 (d j) + sgn 8 (x j) * sgn 8 (y j)) ∧
    lanes (.vfms f) (.vfms w f) (fun F j => ffma F (m j) true (d j) (x j) (y j)) (fun j => sgn 8 (d j) - sgn 8 (x j) * sgn 8 (y j)) ∧
    lanes (.vmax f) (.vmax w f) (fun F j => (fpick F true (x j) (y j), 0)) (fun j => max (sgn 8 (x j)) (sgn 8 (y j))) ∧
    lanes (.vmin f) (.vmin w f) (fun F j => (fpick F false (x j) (y j), 0)) (fun j => min (sgn 8 (x j)) (sgn 8 (y j))) ∧
    lanes (.vabs f) (.vabs w f) (fun F j => (fsign F false (x j), 0)) (fun j => max (sgn 8 (x j)) (-sgn 8 (x j))) ∧
    lanes (.vneg f) (.vneg w f) (fun F j => (fsign F true (x j), 0)) (fun j => -sgn 8 (x j)) ∧
    lanes (.vmov f) (.vmov w f) (fun _ j => (x j, 0)) (fun j => sgn 8 (x j))

/-- VAND, VOR, VXOR on 512 bits, FN 1 complementing vs2, and VBCAST of xs1's low bits, masked by lanes of the format; VEXT gives
x the sign-extended lane (Table 3-10).
VCMP (R70, Table 3-10): bit j of pd is lane j's compare where the predicate's bit is 1, keeps its value where it is 0 (log
entry 16), and is zero above the lane count. The compare of INT8 lanes is signed, LTU and GEU compare raw bits. -/
def Obligations.VectorBitsElementsAndCompares : Prop :=
  (
  ∀ (s : State) (w : Issue),
    let c := s.core w.core
    let on (j : Nat) := c.predBit w.pn w.pred j
    let wrote (op : SlotOp) (i : Instr) (fmt : BitVec 4) (vd : BitVec 5) (res : Nat → Nat) : Prop :=
      Issues s w .v op → s.fmtOk fmt = true → ∃ r : W512,
        exec i s = .next ((issued s w .v op).modCore w.core (fun e => e.setV vd r)) ∧
        ∀ j < lanesOf fmt, lane r (laneBits fmt) j = if on j then res j else lane (c.getV vd) (laneBits fmt) j
    (∀ f : VR,
      let a := c.getV f.vs1
      let b := if f.fn = 1 then ~~~ c.getV f.vs2 else c.getV f.vs2
      wrote (.vand f) (.vand w f) f.fmt f.vd (fun j => lane (a &&& b) (laneBits f.fmt) j) ∧
      wrote (.vor f) (.vor w f) f.fmt f.vd (fun j => lane (a ||| b) (laneBits f.fmt) j) ∧
      wrote (.vxor f) (.vxor w f) f.fmt f.vd (fun j => lane (a ^^^ b) (laneBits f.fmt) j)) ∧
    (∀ f : VX,
      wrote (.vbcast f) (.vbcast w f) f.fmt f.d (fun _ => (c.getX f.src).toNat % 2 ^ laneBits f.fmt) ∧
      (Fires s w .v (.vext f) → s.fmtOk f.fmt = true → ∃ v : W64,
        exec (.vext w f) s = .next ((issued s w .v (.vext f)).modCore w.core (fun e => e.setX f.d v)) ∧
        v.toInt = sgn (laneBits f.fmt) (lane (c.getV f.src) (laneBits f.fmt) f.lane.toNat)))) ∧
  (
  ∀ (s : State) (w : Issue) (f : VC), Issues s w .v (.vcmp f) → s.fmtOk f.fmt = true →
    let c := s.core w.core
    let b := laneBits f.fmt
    let x (j : Nat) := lane (c.getV f.vs1) b j
    let y (j : Nat) := lane (c.getV f.vs2) b j
    ∃ v : W64,
      exec (.vcmp w f) s = .next ((issued s w .v (.vcmp f)).modCore w.core (fun e => e.setP f.pd v)) ∧
      (∀ j < 64, lanesOf f.fmt ≤ j → v.getLsbD j = false) ∧
      (∀ j < lanesOf f.fmt, c.predBit w.pn w.pred j = false → v.getLsbD j = (c.getP f.pd).getLsbD j) ∧
      (∀ j < lanesOf f.fmt, c.predBit w.pn w.pred j = true →
        (f.cond = 4 → (v.getLsbD j = true ↔ x j < y j)) ∧ (f.cond = 5 → (v.getLsbD j = true ↔ y j ≤ x j)) ∧
        (f.fmt = 0xB → (f.cond = 0 → (v.getLsbD j = true ↔ sgn 8 (x j) = sgn 8 (y j))) ∧
          (f.cond = 1 → (v.getLsbD j = true ↔ sgn 8 (x j) ≠ sgn 8 (y j))) ∧
          (f.cond = 2 → (v.getLsbD j = true ↔ sgn 8 (x j) < sgn 8 (y j))) ∧
          (f.cond = 3 → (v.getLsbD j = true ↔ sgn 8 (y j) ≤ sgn 8 (x j)))) ∧
        (f.fmt ≠ 0xB → f.cond.toNat < 4 → (elemVal f.fmt (x j) = .nan ∨ elemVal f.fmt (y j) = .nan) →
          (v.getLsbD j = true ↔ f.cond = 1)) ∧
        (f.fmt ≠ 0xB → elemVal f.fmt (x j) ≠ .nan → elemVal f.fmt (y j) ≠ .nan →
          let o := FV.cmp (elemVal f.fmt (x j)) (elemVal f.fmt (y j))
          (f.cond = 0 → (v.getLsbD j = true ↔ o = 0)) ∧ (f.cond = 1 → (v.getLsbD j = true ↔ o ≠ 0)) ∧
          (f.cond = 2 → (v.getLsbD j = true ↔ o < 0)) ∧ (f.cond = 3 → (v.getLsbD j = true ↔ 0 ≤ o)))))

/-- VEXP, VLOG, VRCP and VRSQRT complete in every licensed format: each written lane takes the function's value rounded once to FP32,
in BF16 rounded again, with the special values of Table 3-22, and the flags of the written lanes join FFLAGS; VROWSTAT completes with its
two running values in lanes 0 and 1 and zero in the others, whatever the predicate selects, and their flags in FFLAGS (R81, R82).
VCVT (R137 to R139, R150) completes for every licensed pair. To a floating-point, INT8, INT4 or FWA128 format element j of the destination
group is the input element's exact value rounded by RND where the predicate's bit is 1, and keeps its bits where it is 0; the flags of
the written elements join FFLAGS. To a block format the whole record follows bit 0 (R138). An unlicensed format, of the input first, and
an unlicensed stochastic RND raise 0x02. -/
def Obligations.VectorFunctionsAndConversionsRound : Prop :=
  (
  ∀ (s : State) (w : Issue) (f : VR),
    let c := s.core w.core
    let n := lanesOf f.fmt
    let b := laneBits f.fmt
    let on (j : Nat) := c.predBit w.pn w.pred j
    let x (j : Nat) := lane (c.getV f.vs1) b j
    let ill (op : SlotOp) (i : Instr) : Prop :=
      s.fmtOk f.fmt = false → exec i s = .next (s.coreException w.core ⟨0x02, 1, BitVec.ofNat 16 (op.code.toNat + 256 * f.fmt.toNat)⟩)
    let fns (op : SlotOp) (i : Instr) (fn : Nat) : Prop :=
      let res (j : Nat) : Nat × Flags :=
        if f.fmt = 0 then special32 fn (fp32.decode (x j))
        else
          let y := special32 fn (bf16.decode (x j))
          let z := roundFp bf16 false .rne (fp32.decode y.1)
          (z.1, y.2 ||| z.2)
      Issues s w .v op → ill op i ∧ (s.fmtOk f.fmt = true → ∃ (r : W512) (g : Flags),
        exec i s = .next ((issued s w .v op).modCore w.core (fun e => ({ e.setV f.vd r with fflags := e.fflags ||| g } : Core))) ∧
        (∀ j < n, lane r b j = if on j = true then (res j).1 % 2 ^ b else lane (c.getV f.vd) b j) ∧
        (∀ q, g.getLsbD q = true ↔ ∃ j < n, on j = true ∧ (res j).2.getLsbD q = true))
    fns (.vexp f) (.vexp w f) 0 ∧ fns (.vlog f) (.vlog w f) 1 ∧ fns (.vrcp f) (.vrcp w f) 2 ∧ fns (.vrsqrt f) (.vrsqrt w f) 3 ∧
    (Issues s w .v (.vrowstat f) →
      let ms := lane (c.getV f.vd) 32 0
      let ss := lane (c.getV f.vd) 32 1
      let xs := ((List.range n).filter on).map (fun j => if f.fmt = 0 then x j else x j * 65536)
      ill (.vrowstat f) (.vrowstat w f) ∧ (s.fmtOk f.fmt = true → ∃ (r : W512) (g : Flags),
        exec (.vrowstat w f) s =
          .next ((issued s w .v (.vrowstat f)).modCore w.core (fun e => ({ e.setV f.vd r with fflags := e.fflags ||| g } : Core))) ∧
        (∀ j < 16, 2 ≤ j → lane r 32 j = 0) ∧
        (f.fn = 0 → lane r 32 0 = (rowMax ms ss xs).1 % 2 ^ 32 ∧ lane r 32 1 = (rowMax ms ss xs).2.1 % 2 ^ 32 ∧ g = (rowMax ms ss xs).2.2) ∧
        (f.fn = 1 → lane r 32 0 = (rowSum ms ss xs).1 % 2 ^ 32 ∧ lane r 32 1 = (rowSum ms ss xs).2.1 % 2 ^ 32 ∧ g = (rowSum ms ss xs).2.2)))) ∧
  (
  ∀ (s : State) (w : Issue) (f : VV), Issues s w .v (.vcvt f) →
    let c := s.core w.core
    let sh := (cvtShape f.fmtIn f.fmtOut).getD (1, 1)
    let n := cvtElems f.fmtIn f.fmtOut
    let vs := cvtInputs c f n
    let e := elemBits f.fmtOut
    let go := s.fmtOk f.fmtIn = true ∧ s.fmtOk f.fmtOut = true ∧ (f.rnd = 4 → s.licensed 7 = true)
    let out (j : Nat) := cvtOut c f (rndOf f.rnd c.srseed c.srctr j) (vs.getD j .nan)
    let on (j : Nat) := c.predBit w.pn w.pred j
    (go → isBlock f.fmtOut = false → ∃ (r : Nat) (g : Flags),
      exec (.vcvt w f) s = .next ((issued s w .v (.vcvt f)).modCore w.core (fun q =>
        ({ setGroup q f.vd sh.2 r with fflags := q.fflags ||| g } : Core))) ∧
      r < 2 ^ (512 * sh.2) ∧
      (∀ j < n, field r (e * j) e = if on j = true then (out j).1 % 2 ^ e else field (groupBits c f.vd sh.2) (e * j) e) ∧
      (∀ q, g.getLsbD q = true ↔ ∃ j < n, on j = true ∧ (out j).2.getLsbD q = true)) ∧
    (go → isBlock f.fmtOut = true → c.predBit w.pn w.pred 0 = false → exec (.vcvt w f) s = .next (issued s w .v (.vcvt f))) ∧
    (go → isBlock f.fmtOut = true → c.predBit w.pn w.pred 0 = true →
      let bl := toBlock f.fmtOut (fun j => rndOf f.rnd c.srseed c.srctr j) vs
      exec (.vcvt w f) s = .next ((issued s w .v (.vcvt f)).modCore w.core (fun q =>
        ({ q.setV f.vd (BitVec.ofNat 512 (recordOf f.fmtOut bl.1)) with fflags := q.fflags ||| bl.2 } : Core)))) ∧
    (s.fmtOk f.fmtIn = false →
      exec (.vcvt w f) s = .next (s.coreException w.core ⟨0x02, 1, BitVec.ofNat 16 (0x1D + 256 * f.fmtIn.toNat)⟩)) ∧
    (s.fmtOk f.fmtIn = true → s.fmtOk f.fmtOut = false →
      exec (.vcvt w f) s = .next (s.coreException w.core ⟨0x02, 1, BitVec.ofNat 16 (0x1D + 256 * f.fmtOut.toNat)⟩)) ∧
    (s.fmtOk f.fmtIn = true → s.fmtOk f.fmtOut = true → f.rnd = 4 → s.licensed 7 = false →
      exec (.vcvt w f) s = .next (s.coreException w.core ⟨0x02, 1, 0x001D⟩)))

/-- VLD and VST complete wherever every element is aligned and, of a VLD, no row is poisoned: they move 64 bytes through an address
generator (R70, R73, R74); a padding element loads as zero and is dropped on a store, element j follows bit j of the predicate, and the
cursor advances by the elements consumed whatever the predicate. A misaligned element raises 0x04 with its address / 64, the first of
them, and moves nothing; a poisoned row raises 0x05 with its bank. Every descriptor that an a-register holds has passed AGLD's check
(R72). -/
def Obligations.VectorLoadsAndStoresWalk : Prop :=
  ∀ (s : State) (w : Issue) (f : VM),
    let c := s.core w.core
    let r := c.getA f.an
    let sz := 2 ^ AG.esize r.desc
    let n := 64 / sz
    let t := r.cur % AG.total r.desc
    let at_ (j : Nat) := ((AG.succ r.desc)^[j]) t
    let bad := ∃ j < n, AG.padded r.desc (at_ j) = false ∧ AG.addr r.desc (at_ j) % sz ≠ 0
    let on (j : Nat) := c.predBit w.pn w.pred j
    (Issues s w .v (.vld f) → AG.ok r.desc = true → ¬ bad →
      c.badRow (AG.words r.desc (AG.targets r 64)) = none → ∃ q : W512,
        exec (.vld w f) s = .next ((issued s w .v (.vld f)).modCore w.core (fun e =>
          ((e.engineRead (AG.words r.desc (AG.targets r 64))).setV f.v q).setA f.an (AG.advance r n))) ∧
        ∀ j < n, lane q (8 * sz) j = if on j = true
          then (if AG.padded r.desc (at_ j) = true then 0 else leNat (rdN s.mem (spadAddr w.core (AG.addr r.desc (at_ j))) sz))
          else lane (c.getV f.v) (8 * sz) j) ∧
    (Issues s w .v (.vst f) → AG.ok r.desc = true → ¬ bad → ∃ u,
      exec (.vst w f) s = .next u ∧
      (u.core w.core).getA f.an = AG.advance r n ∧ (∀ i, i ≠ f.an → (u.core w.core).getA i = c.getA i) ∧
      SameFiles c (u.core w.core) ∧ (∀ j, j ≠ w.core.val → u.core j = s.core j) ∧
      (∀ a, (∀ j < n, on j = true → AG.padded r.desc (at_ j) = false →
          (a < spadAddr w.core (AG.addr r.desc (at_ j)) ∨ spadAddr w.core (AG.addr r.desc (at_ j)) + sz ≤ a)) →
        rd u.mem a = rd s.mem a) ∧
      (∀ j < n, on j = true → AG.padded r.desc (at_ j) = false →
        (∀ i < n, j < i → on i = true → AG.padded r.desc (at_ i) = false → AG.addr r.desc (at_ i) ≠ AG.addr r.desc (at_ j)) →
        rdN u.mem (spadAddr w.core (AG.addr r.desc (at_ j))) sz = leBytes sz (lane (c.getV f.v) (8 * sz) j))) ∧
    (∀ q, Issues s w .v (.vld f) → AG.ok r.desc = true → ¬ bad → c.badRow (AG.words r.desc (AG.targets r 64)) = some q →
      exec (.vld w f) s = .next ((s.modCore w.core (fun e => e.engineRead (AG.words r.desc (AG.targets r 64)))).coreException w.core
        ⟨0x05, 1, BitVec.ofNat 16 (q / 2048)⟩)) ∧
    (∀ j < n, AG.ok r.desc = true → AG.padded r.desc (at_ j) = false → AG.addr r.desc (at_ j) % sz ≠ 0 →
      (∀ i < j, AG.padded r.desc (at_ i) = true ∨ AG.addr r.desc (at_ i) % sz = 0) →
      let a : BitVec 16 := BitVec.ofNat 16 (AG.addr r.desc (at_ j) / 64)
      (Issues s w .v (.vld f) → exec (.vld w f) s = .next (s.coreException w.core ⟨0x04, 1, a⟩)) ∧
      (Issues s w .v (.vst f) → exec (.vst w f) s = .next (s.coreException w.core ⟨0x04, 1, a⟩)))

/-! ### The set engine -/

/-- A set instruction reads its records and writes its output when it issues, holds its result until SET_ENGINE_DONE, and changes
vd and the cursors only then (R83, R229 to R232; when the records are written is the model's choice, log entry 11). SSORT: the
output holds the input records, in rising or falling order of their keys.
SET_ENGINE_DONE (R230, R238): the running instruction's result goes into vd, each of its cursors advances by the steps it
took, and the engine is idle; with none running nothing changes. A union of two streams in order, with distinct keys in each and
room for every record, writes every key of either stream, rising, and consumes both (R233). -/
def Obligations.SortsFinishAndMergeInOrder : Prop :=
  (
  ∀ (s : State) (w : Issue) (f : VS),
    let c := s.core w.core
    let t := readCtl (c.getV f.vd)
    let ra := c.getA f.aA
    let rd' := c.getA f.aD
    let ins := streamAddrs ra t.na
    let vs := recordsAt s w.core t.rc ins
    Fires s w .v (.ssort f) → s.licensed 4 = true → ctlOk (c.getV f.vd) = true → recReg ra t.rc = true → recReg rd' t.rc = true →
      t.nb = 0 → 1 ≤ t.na → t.na ≤ 256 → t.na ≤ t.cap → misaligned t.rc (ins ++ streamAddrs rd' t.na) = none →
      c.badRow ((recWords t.rc ins ++ []).eraseDups) = none → ∃ (out : List Nat) (u : State),
        out.Perm vs ∧
        out.Pairwise (fun a b => if t.desc then keyOf t.rc b ≤ keyOf t.rc a else keyOf t.rc a ≤ keyOf t.rc b) ∧
        exec (.ssort w f) s = .next (u.modCore w.core (fun d => 
          { d with setRun := some ⟨f.vd, [(f.aA, t.na), (f.aB, 0), (f.aD, t.na)], setResult ⟨out.reverse, t.na, 0, 0⟩ 0⟩ })) ∧
        (u.core w.core).getV f.vd = c.getV f.vd ∧ (u.core w.core).getA f.aD = rd' ∧
        u.mem = (writeRecs w.core t.rc ((streamAddrs rd' t.na).zip out) s).mem) ∧
  (
  (∀ (s : State) (k : Fin 39168),
    ((s.core k).setRun = none → exec (.setEngineDone k) s = .next s) ∧
    (∀ r, (s.core k).setRun = some r → ∃ t, exec (.setEngineDone k) s = .next t ∧
      (t.core k).setRun = none ∧ (t.core k).getV r.vd = r.result ∧ (∀ i, i ≠ r.vd → (t.core k).getV i = (s.core k).getV i) ∧
      (∀ a n, r.adv = [(a, n)] → (t.core k).getA a = AG.advance ((s.core k).getA a) n) ∧
      (∀ i, (∀ e ∈ r.adv, e.1 ≠ i) → (t.core k).getA i = (s.core k).getA i) ∧ (∀ i, (t.core k).getX i = (s.core k).getX i) ∧
      t.mem = s.mem ∧ ∀ j, j ≠ k.val → t.core j = s.core j)) ∧
  (∀ (rc cap : Nat) (as bs : List Nat),
    as.Pairwise (fun a b => keyOf rc a < keyOf rc b) → bs.Pairwise (fun a b => keyOf rc a < keyOf rc b) →
    as.length + bs.length ≤ cap →
    let o := smergeLoop 1 rc cap false (as.length + bs.length + 1) as bs none none ⟨[], 0, 0, 0⟩
    o.status = 0 ∧ o.ca = as.length ∧ o.cb = bs.length ∧
    o.out.reverse.Pairwise (fun a b => keyOf rc a < keyOf rc b) ∧
    ∀ x, x ∈ o.out.map (keyOf rc) ↔ (x ∈ as.map (keyOf rc) ∨ x ∈ bs.map (keyOf rc))))

/-- SMERGE, SPROBE and SCOMPACT start in the same way: the records that the rules select stand at the output stream's addresses
and the running mark keeps vd's result and the cursor steps (R232 to R236). -/
def Obligations.MergeProbeAndCompactStart : Prop :=
  ∀ (s : State) (w : Issue) (f : VS),
    let c := s.core w.core
    let v := c.getV f.vd
    let t := readCtl v
    let ra := c.getA f.aA
    let rb := c.getA f.aB
    let ro := c.getA f.aD
    let va := recordsAt s w.core t.rc (streamAddrs ra t.na)
    let starts (i : Instr) (o : SetOut) (adv : List (BitVec 4 × Nat)) (lane2 : Nat) (ins : List Nat) (ws : List Nat) : Prop :=
      misaligned t.rc (ins ++ streamAddrs ro o.out.length) = none →
      c.badRow ((recWords t.rc ins ++ ws).eraseDups) = none → ∃ u : State,
        exec i s = .next (u.modCore w.core (fun d => { d with setRun := some ⟨f.vd, adv, setResult o lane2⟩ })) ∧
        u.mem = (writeRecs w.core t.rc ((streamAddrs ro o.out.length).zip o.out.reverse) s).mem ∧
        (∀ i, (u.core w.core).getV i = c.getV i) ∧ (∀ i, (u.core w.core).getA i = c.getA i)
    s.licensed 4 = true → ctlOk v = true → recReg ra t.rc = true → recReg ro t.rc = true →
    (Fires s w .v (.smerge f) → recReg rb t.rc = true →
      let o := smergeLoop f.fn.toNat t.rc t.cap t.multi (t.na + t.nb + 1) va (recordsAt s w.core t.rc (streamAddrs rb t.nb))
        none none ⟨[], 0, 0, 0⟩
      starts (.smerge w f) o [(f.aA, o.ca), (f.aB, o.cb), (f.aD, o.out.length)] o.cb
        ((streamAddrs ra t.na).take (o.ca + 1) ++ (streamAddrs rb t.nb).take (o.cb + 1)) []) ∧
    (Fires s w .v (.sprobe f) → t.nb = 0 → t.na ≤ t.cap → 1 ≤ t.bits → t.bits ≤ 17 →
      2 ^ t.bits * 4 * 2 ^ recLog t.rc ≤ 2 ^ 21 → AG.base rb.desc % (4 * 2 ^ recLog t.rc) = 0 →
      let found (x : Nat) := probeMatch s w.core (AG.base rb.desc) t.rc t.bits (keyOf t.rc x)
      let o : SetOut := ⟨(va.map (fun x => probeOut t.rc x (found x))).reverse, t.na, 0,
        if va.any (fun x => keyOf t.rc x == sentinel t.rc) then 8 else 0⟩
      starts (.sprobe w f) o [(f.aA, t.na), (f.aB, 0), (f.aD, t.na)] ((va.filter (fun x => (found x).isSome)).length)
        (streamAddrs ra t.na) ((va.filter (fun x => keyOf t.rc x != sentinel t.rc)).flatMap (fun x =>
          wordsOf (slotAddr (AG.base rb.desc) t.rc (4 * bucketOf t.bits (keyOf t.rc x))) (4 * 2 ^ recLog t.rc)))) ∧
    (Fires s w .v (.scompact f) → t.nb = 0 → AG.esize rb.desc = 6 →
      let ms := (AG.steps rb.desc ((t.na + 511) / 512) (rb.cur % AG.total rb.desc)).map
        (fun q => if AG.padded rb.desc q then none else some (AG.addr rb.desc q))
      (∀ a, some a ∈ ms → a % 64 = 0) →
      let mask := ms.flatMap (fun q => match q with
        | none => List.replicate 64 (0 : Byte)
        | some a => rdN s.mem (spadAddr w.core a) 64)
      let o := compactLoop t.cap (va.zipIdx.map (fun p => (p.1, (mask.getD (p.2 / 8) 0).getLsbD (p.2 % 8)))) ⟨[], 0, 0, 0⟩
      starts (.scompact w f) o [(f.aA, o.ca), (f.aB, (o.ca + 511) / 512), (f.aD, o.out.length)] 0
        ((streamAddrs ra t.na).take (o.ca + 1)) (((ms.take ((o.ca + 511) / 512)).filterMap id).flatMap (fun a => wordsOf a 64)))

/-! ### Bundles that do not issue, and rules of every slot -/

/-- A presented bundle that does not issue (R86, R87, R94, R98, R452): a core that is not running does nothing, one held at a
release holds; an exception that an engine raised comes first, the lowest code of those that wait; then an uncorrectable error
of the instruction store; a hold changes nothing but the hold itself; then the first slot whose encoding fails raises 0x02, and
an illegal bundle 0x03 with its slots' mask.
An instruction of the C, M or X slot whose predicate's bit 0 is 0 writes nothing, makes no access and raises nothing: its
bundle issues as a bundle of four NOPs does (R70, R79).
NOP in every slot, whose bundle nothing holds, whatever the array and the set engine do and with any single-bit error of its halves
corrected and counted (R97), and CWAIT, WREL and XFENCE once nothing holds them, only let the bundle issue (R78, R86). A CWAIT whose
counter is below its operand, a WREL, RRES or RFLG whose group is not released, a CPY behind 64 copies, and an XFENCE behind a
drain or a set instruction hold.
TRAP raises 0x01 in its slot, HALT 0x0B with its CODE (R78, Table 3-13); taking an exception stops the core at the bundle
with STATE 5, records it with the move and the flags, posts CORE_FAULT and raises an abort halt of the core's partition, and
leaves every register, the program counter and memory as they are (R94, R96). -/
def Obligations.BundlesIssueWholeOrNotAtAll : Prop :=
  (
  ∀ (s : State) (w : Issue) (sl : Slot) (op : SlotOp) (i : Instr), fits op sl → commandOf w sl op = some i →
    let k := w.core.val
    let c := s.core k
    let b := bundleOf w sl op
    let raises (e : Exc) : Prop := exec i s = .next (s.coreException k e)
    (c.st ≠ 3 → c.st ≠ 4 → exec i s = .next s) ∧
    (c.st = 4 → c.excPend = [] → exec i s = .next (s.modCore k (fun d => { d with hold := some .release }))) ∧
    (c.st = 3 ∨ c.st = 4 → c.excPend ≠ [] → ∃ e ∈ c.excPend, raises e ∧ ∀ e' ∈ c.excPend, e.code.toNat ≤ e'.code.toNat) ∧
    (c.st = 3 → c.excPend = [] → (∃ h ∈ halves c.pc, h ∈ c.istoreUe) → raises ⟨0x06, 0xF, 0⟩) ∧
    (Ready s k → ∀ h, holdReason s k b = some h → exec i s = .next (s.modCore k (fun d => { d with hold := some h }))) ∧
    (Ready s k → holdReason s k b = none →
      (∀ n o x, bundleEncodingBad b = some (n, o, x) →
        raises ⟨0x02, BitVec.ofNat 4 n, BitVec.ofNat 16 (o.toNat + x % 256 * 256)⟩) ∧
      (bundleEncodingBad b = none → illegalMask b ≠ 0 → raises ⟨0x03, 0xF, BitVec.ofNat 16 (illegalMask b)⟩))) ∧
  (
  ∀ (s : State) (w : Issue) (sl : Slot) (op : SlotOp) (i : Instr), fits op sl → sl ≠ .v → commandOf w sl op = some i →
    Issues s w sl op → (s.core w.core).predBit w.pn w.pred 0 = false →
    exec i s = .next (issued s w sl op)) ∧
  (
  ∀ (s : State) (w : Issue),
    let c := s.core w.core
    let held (i : Instr) (h : Hold) : Prop := exec i s = .next (s.modCore w.core (fun d => { d with hold := some h }))
    (∀ sl, Issues s w sl .nop → exec (.nop w sl) s = .next (issued s w sl .nop)) ∧
    (∀ sl, c.st = 3 → c.excPend = [] → (∀ h ∈ halves c.pc, h ∉ c.istoreUe) → Alone w sl → ∃ t, exec (.nop w sl) s = .next t ∧
      (t.core w.core).pc = c.goNext.pc ∧ t.mem = s.mem ∧ (∀ i, (t.core w.core).getX i = c.getX i) ∧
      (t.core w.core).eccfix = c.eccfix + BitVec.ofNat 64 ((halves c.pc).filter (fun h => h ∈ c.istoreCe)).length) ∧
    (∀ f : XC, Issues s w .x (.cwait f) → exec (.cwait w f) s = .next (issued s w .x (.cwait f))) ∧
    (∀ f : XT, Issues s w .x (.wrel f) → exec (.wrel w f) s = .next (issued s w .x (.wrel f))) ∧
    (∀ f : XH, Issues s w .x (.xfence f) → exec (.xfence w f) s = .next (issued s w .x (.xfence f))) ∧
    (Ready s w.core → Alone w .x →
      (∀ f : XC, (c.getC f.cn).toNat < (if f.x = 0 then f.imm.toNat else (c.getX f.x).toNat) → held (.cwait w f) .cwait) ∧
      (∀ f : XT, c.arrOut.getLsbD f.g.toNat = true →
        held (.wrel w f) .wrel ∧ held (.rres w f) .wrel ∧ held (.rflg w f) .wrel) ∧
      (∀ f : XC, 64 ≤ c.copies.length → held (.cpy w f) .copies64) ∧
      (∀ f : XH, (c.setRun.isSome = true ∨ c.draining = true) → held (.xfence w f) .fence))) ∧
  (
  (∀ (s : State) (w : Issue) (sl : Slot), Fires s w sl .trap →
    exec (.trap w sl) s = .next (s.coreException w.core ⟨0x01, (match sl with | .c => 0 | .v => 1 | .m => 2 | .x => 3), 0⟩)) ∧
  (∀ (s : State) (w : Issue) (f : XH), Fires s w .x (.halt f) →
    exec (.halt w f) s = .next (s.coreException w.core ⟨0x0B, 3, f.code⟩)) ∧
  (∀ (s : State) (k : Nat) (e : Exc),
    let t := s.coreException k e
    let c := s.core k
    let d := t.core k
    d.st = 5 ∧ d.fault = e ∧ d.fmove = c.move ∧ d.fflagsReg = c.fflags ∧ d.pc = c.pc ∧ d.x = c.x ∧ d.p = c.p ∧ d.v = c.v ∧
      d.a = c.a ∧ d.c = c.c ∧ d.acc = c.acc ∧ d.queue = c.queue ∧ t.mem = s.mem ∧ (∀ j, j ≠ k → t.core j = s.core j) ∧
    (s.host.started = true ∨ s.events.length < 256 → ∃ v, t.events = s.events ++ [v] ∧ v.type = 0x0010) ∧
    (∀ p, s.partOfCore k = some p → (s.part p).haltPend = none →
      (t.part p).haltPend = some (.abort, .core (Fin.ofNat _ k)))))

/-! ### The matrix array -/

/-- MMUL, MLOAD, MOUTER, MDRAIN and MCFG join the feed queue with the operands they latch at issue, advance their address
generators, and change neither tiles nor accumulators (R88, R108, R113, R115, R118, R123; that operands are latched at issue is
the model's choice, log entry 10). A bank that the feeder loses in the issue cycle costs the entry a read cycle more. -/
def Obligations.MatrixInstructionsJoinTheQueue : Prop :=
  ∀ (s : State) (w : Issue),
    let c := s.core w.core
    let lost (op : SlotOp) := s.lostBanks w.core (asks s w .m op) 1
    let joins (i : Instr) (e : FeedEntry) (ags : List (BitVec 4 × AGReg)) : Prop :=
      ∃ t, exec i s = .next t ∧ (t.core w.core).queue = c.queue ++ [e] ∧ (t.core w.core).active = c.active ∧
        (t.core w.core).shadow = c.shadow ∧ (t.core w.core).acc = c.acc ∧ (t.core w.core).cell = c.cell ∧ t.mem = s.mem ∧
        (t.core w.core).mtxQmax.toNat = max c.mtxQmax.toNat (min 17 (c.queue.length + 1)) ∧
        (∀ p ∈ ags, (t.core w.core).getA p.1 = p.2) ∧ (∀ i, (∀ p ∈ ags, p.1 ≠ i) → (t.core w.core).getA i = c.getA i)
    (∀ (f : MM) (ts : List (Option Nat)),
      let r := c.getA f.aS
      let n := streamWidth f.fmt f.t
      let mk := if f.sw then (marksAfter c).2 else (marksAfter c).1
      Fires s w .m (.mmul f) → s.fmtOk f.fmt = true → mk.1 = true → grpOf mk.2 = grpOf f.fmt → agCheck 2 0x01 r n = .ok ts →
      c.badRow (AG.words r.desc ts) = none →
      joins (.mmul w f) ⟨.mmul f ((f.acc.toNat + rowIndex r n) % 256) (AG.fetch s w.core r.desc ts), [f.aS],
        extraCycles (AG.rows r.desc ts) (lost (.mmul f)) + twoCycles c f.fmt, [], false⟩ [(f.aS, AG.advance r (AG.elems r.desc n))]) ∧
    (∀ (f : ML) (ts : List (Option Nat)),
      let r := c.getA f.aS
      let n := mloadWidth f.fmt
      Fires s w .m (.mload f) → s.fmtOk f.fmt = true → agCheck 2 0x02 r n = .ok ts → c.badRow (AG.words r.desc ts) = none →
      joins (.mload w f) ⟨.mload f.fmt (AG.fetch s w.core r.desc ts), [f.aS], extraCycles (AG.rows r.desc ts) (lost (.mload f)), [], false⟩
        [(f.aS, AG.advance r (AG.elems r.desc n))]) ∧
    (∀ (f : MO) (xs ys : List (Option Nat)),
      let rx := c.getA f.aX
      let ry := c.getA f.aY
      let nx := streamWidth f.fmt false
      let ny := streamWidth f.fmt true
      Fires s w .m (.mouter f) → s.fmtOk f.fmt = true → agCheck 2 0x04 rx nx = .ok xs → agCheck 2 0x04 ry ny = .ok ys →
      c.badRow (AG.words rx.desc xs ++ AG.words ry.desc ys).eraseDups = none →
      joins (.mouter w f) ⟨.mouter f.fmt f.z (AG.fetch s w.core rx.desc xs) (AG.fetch s w.core ry.desc ys), [f.aX, f.aY],
        extraCycles (AG.rows rx.desc xs ++ AG.rows ry.desc ys).eraseDups (lost (.mouter f)) + twoCycles c f.fmt, [], false⟩
        [(f.aX, AG.advance rx (AG.elems rx.desc nx)), (f.aY, AG.advance ry (AG.elems ry.desc ny))]) ∧
    (∀ (f : MD) (ts : List (Option Nat)),
      let r := c.getA f.aD
      let n := drainWidth f.fmt
      Fires s w .m (.mdrain f) → s.fmtOk f.fmt = true → (f.fmt = 0xE → c.mode = true) → (f.rnd = 4 → s.licensed 7 = true) →
      agCheck 2 0x05 r n = .ok ts →
      joins (.mdrain w f) ⟨.mdrain f (drainTarget c f) c.srseed c.srctr ts, [f.aD], extraCycles (AG.rows r.desc ts) [],
        banksOf (AG.rows r.desc ts), false⟩ [(f.aD, AG.advance r (AG.elems r.desc n))]) ∧
    (∀ f : MW, Fires s w .m (.mcfg f) → (f.mode = true → s.licensed 3 = true) →
      joins (.mcfg w f) ⟨.mcfg f.mode f.w, [], 0, [], false⟩ [])

/-- FEED_QUEUE_LEAVE (R113 to R124, R130): the first instruction leaves and acts. MLOAD fills the shadow tile. MMUL, after the
exchange that its SW asks for, adds to each of its 16 entries the products of the stream vector with the active tile (T = 0), and
leaves every other entry; with T = 1 it adds to the entries of Table 4-4. MDRAIN writes its row's 16 converted entries through the generator's addresses and zeroes the row where
CLR asks. MCFG sets mode and anchor and starts the zeroing. An empty queue lets nothing leave.
MCFG_ZEROING (R84, R120, R127, R130): after the 16 cycles every entry of the accumulator file and of the cell-local rows is zero,
and those array cycles of the zeroing and of earlier reads in which no bundle issued count as bubbles while the core runs; with no
zeroing under way nothing changes. -/
def Obligations.QueueHeadAndZeroingActOnTheArray : Prop :=
  (
  ∀ (s : State) (k : Fin 39168),
    let c := s.core k
    (c.queue = [] → exec (.feedQueueLeave k) s = .next s) ∧
    (∀ e rest, c.queue = e :: rest → ∃ t, exec (.feedQueueLeave k) s = .next t ∧
      let d := t.core k
      d.queue = rest ∧ (∀ i, d.getX i = c.getX i) ∧ (∀ j, j ≠ k.val → t.core j = s.core j) ∧
      (∀ fmt bs, e.op = .mload fmt bs → d.shadow = ⟨true, fmt, bs⟩ ∧ d.active = c.active ∧ d.acc = c.acc ∧ t.mem = s.mem) ∧
      (∀ f row bs, e.op = .mmul f row bs →
        let tile := if f.sw then c.shadow else c.active
        let xs := streamVals f.fmt bs (streamLen f.fmt f.t)
        d.active = tile ∧ d.shadow = (if f.sw then c.active else c.shadow) ∧ t.mem = s.mem ∧ d.cell = c.cell ∧
        (f.t = false → row < 256 →
          (∀ n < 16, sget 0 d.acc (accKey row n) =
            (accumulate c.mode c.w f.z (sget 0 c.acc (accKey row n)) ((List.range (depthOf (grpOf f.fmt))).map (fun q =>
              passProduct f.pass (tileVal tile q n) (xs.getD q (.fin false 0 0))))).1) ∧
          (∀ r n, n < 16 → r ≠ row → sget 0 d.acc (accKey r n) = sget 0 c.acc (accKey r n))) ∧
        (f.t = true → row < 256 → ∀ q < depthOf (grpOf f.fmt),
          let key := accKey (if q < 16 then row else (row + 128) % 256) (q % 16)
          sget 0 d.acc key = (accumulate c.mode c.w f.z (sget 0 c.acc key) ((List.range 16).map (fun n =>
            passProduct f.pass (tileVal tile q n) (xs.getD n (.fin false 0 0))))).1)) ∧
      (∀ fmt z xb yb, e.op = .mouter fmt z xb yb → d.acc = c.acc ∧ d.active = c.active ∧ d.shadow = c.shadow ∧ t.mem = s.mem ∧
        ∀ i n, i < depthOf (grpOf fmt) → n < 16 → sget 0 d.cell (accKey i n) =
          (accumulate c.mode c.w z (sget 0 c.cell (accKey i n))
            [(FV.mul ((streamVals fmt xb (streamLen fmt false)).getD i (.fin false 0 0))
              ((streamVals fmt yb 16).getD n (.fin false 0 0))).1]).1) ∧
      (∀ f row seed ctr ts, e.op = .mdrain f row seed ctr ts → f.src = false →
        t.mem = (drainWrite k (drainWidth f.fmt / ts.length) (drainRow c f seed ctr c.acc row).1 ts s).mem ∧
        (∀ r n, n < 16 → sget 0 d.acc (accKey r n) = if f.clr = true ∧ r = row then 0 else sget 0 c.acc (accKey r n))) ∧
      (∀ f row seed ctr ts, e.op = .mdrain f row seed ctr ts → f.src = true →
        t.mem = (drainWrite k (drainWidth f.fmt / ts.length) (drainRow c f seed ctr c.cell row).1 ts s).mem ∧ d.acc = c.acc ∧
        (∀ r n, n < 16 → sget 0 d.cell (accKey r n) = if f.clr = true ∧ r = row then 0 else sget 0 c.cell (accKey r n))) ∧
      (∀ mode wd, e.op = .mcfg mode wd → d.mode = mode ∧ d.w = wd ∧ d.zeroing = true ∧ t.mem = s.mem))) ∧
  (
  ∀ (s : State) (k : Fin 39168), ∃ t, exec (.mcfgZeroing k) s = .next t ∧
    ((s.core k).zeroing = true →
      (t.core k).zeroing = false ∧ (∀ key, sget 0 (t.core k).acc key = 0) ∧ (∀ key, sget 0 (t.core k).cell key = 0) ∧
      ((s.core k).st = 3 → (t.core k).mtxBubbles.toNat = min (2 ^ 32 - 1) ((s.core k).mtxBubbles.toNat + (s.core k).owed)) ∧
      (t.core k).owed = 0 ∧
      (t.core k).mode = (s.core k).mode ∧ (t.core k).w = (s.core k).w ∧ (t.core k).active = (s.core k).active) ∧
    ((s.core k).zeroing = false → t.core k = s.core k) ∧
    (∀ j, j ≠ k.val → t.core j = s.core j) ∧ t.mem = s.mem)

/-- Fixed-window accumulation does not depend on the order of the products (R152, R153): an entry that takes two lists of
products, one instruction after the other, ends as it does when it takes any rearrangement of all of them at once, and so do the
flags; and a drain without conversion gives the low 128 bits of an entry that lies within the window.
Rounding a magnitude m × 2^e to the grid of step 2^q (R139, R143) gives one of the two grid points around it, the point
itself where it is on the grid; to nearest the closer one, ties to even; toward zero the lower one; the directed modes the one on
their side; stochastically the higher one exactly when the fraction's first 32 bits and the random word carry. -/
def Obligations.SumsAndRoundingFollowTheirGrid : Prop :=
  (
  (∀ (w : BitVec 10) (old : Acc) (ps qs rs : List FV), rs.Perm (ps ++ qs) →
    let a := accumulate true w false old ps
    let b := accumulate true w false a.1 qs
    let o := accumulate true w false old rs
    o.1 = b.1 ∧ o.2 = a.2 ||| b.2) ∧
  (∀ (w : BitVec 10) (m : Rnd) (e : Acc), -(2 ^ 127 : Int) ≤ e.toInt → e.toInt < 2 ^ 127 →
    (drainEntry true w 0xE m e).1 = e.toNat % 2 ^ 128 ∧ (drainEntry true w 0xE m e).2 = 0)) ∧
  (
  ∀ (mode : Rnd) (neg : Bool) (m : Nat) (e q : Int), e < q →
    let den := 2 ^ (q - e).toNat
    let r := roundGrid mode neg m e q
    (r.1 = m / den ∨ r.1 = m / den + 1) ∧ (r.2 = true ↔ m % den ≠ 0) ∧ (m % den = 0 → (∀ n, mode = .sr n → n < 2 ^ 32) → r.1 = m / den) ∧
    (mode = .rne → (2 * (r.1 * den) ≤ 2 * m + den ∧ 2 * m ≤ 2 * (r.1 * den) + den) ∧ (2 * (m % den) = den → r.1 % 2 = 0)) ∧
    (mode = .rtz → r.1 = m / den) ∧
    (mode = .rup → m % den ≠ 0 → r.1 = if neg then m / den else m / den + 1) ∧
    (mode = .rdn → m % den ≠ 0 → r.1 = if neg then m / den + 1 else m / den) ∧
    (∀ n, mode = .sr n → (r.1 = m / den + 1 ↔ 2 ^ 32 ≤ m % den * 2 ^ 32 / den + n)))

/-! ### The X slot -/

/-- XPLY starts the exchange ply of its set, CPY adds a copy behind the outstanding ones, one that waits for the MDRAINs issued before it,
CRD copies a copy counter into x, BCLM
selects a claim set from the next bundle on; a second XPLY, one that names an overlapped set later than the first bundle, an
exchange or claim set the class does not have, and a bad descriptor address raise their exception (R85, R89, R93, R176, R192). -/
def Obligations.ExchangeCopyAndClaimInstructions : Prop :=
  ∀ (s : State) (w : Issue),
    let k := w.core.val
    let c := s.core k
    let raises (i : Instr) (e : Exc) : Prop := exec i s = .next (s.coreException k e)
    (∀ f : XP, Fires s w .x (.xply f) →
      let set := ((s.classOf k).bind (fun r => r.exch)).bind (fun e => e.sets[f.set.toNat]?)
      let lapped := ((s.progOf k).map (fun g => g.overlap.getLsbD f.set.toNat)).getD false
      (set = none → raises (.xply w f) ⟨0x02, 3, 0x0001⟩) ∧
      (set ≠ none → c.xplyDone = true → raises (.xply w f) ⟨0x08, 3, 0x0100⟩) ∧
      (set ≠ none → c.xplyDone = false → lapped = true → c.fresh = false → raises (.xply w f) ⟨0x08, 3, 0x0200⟩) ∧
      (∀ x, set = some x → c.xplyDone = false → (lapped = true → c.fresh = true) → exec (.xply w f) s =
        .next (((issued s w .x (.xply f)).modCore k (fun d =>
          { d with
            xplyDone := true
            sw := { d.sw with
              set := f.set, active := true, standing := false, xc := x.xc, outSent := [], inTaken := [], unack := [],
              routes := [], drains := drainsQueued c.queue, setWait := c.setRun.isSome } })).runSwitch k))) ∧
    (∀ f : XC,
      let a := (c.getX f.x).toNat
      (Fires s w .x (.cpy f) → a % 64 = 0 → a < 0x200000 → ∃ t, exec (.cpy w f) s = .next t ∧
        (∃ y : Copy, (t.core k).copies = c.copies ++ [y] ∧ y.cn = f.cn ∧ y.addr = a ∧ y.started = false ∧ y.id = c.copySeq ∧
          y.drains = drainsQueued c.queue) ∧
        (t.core k).copySeq = c.copySeq + 1 ∧ (∀ i, (t.core k).getC i = c.getC i) ∧ t.mem = s.mem) ∧
      (Fires s w .x (.cpy f) → (a % 64 ≠ 0 ∨ 0x200000 ≤ a) → exec (.cpy w f) s =
        .next ((s.modCore k (fun d => { d with copyCause := 0x01 })).coreException k ⟨0x09, 3, 0x0001⟩)) ∧
      (Fires s w .x (.crd f) → exec (.crd w f) s =
        .next ((issued s w .x (.crd f)).modCore k (fun d => d.setX f.x ((c.getC f.cn).zeroExtend 64))))) ∧
    (∀ f : XP, Fires s w .x (.bclm f) →
      let n := ((s.classOf k).map (fun r => r.claims.length)).getD 0
      (f.set.toNat < n → exec (.bclm w f) s = .next ((issued s w .x (.bclm f)).modCore k (fun d => { d with claim := f.set }))) ∧
      (n ≤ f.set.toNat → raises (.bclm w f) ⟨0x02, 3, 0x0006⟩))

/-- ARR and END (R35, R90, R91): an arrival is outstanding with the operand of x and the copies issued before it; at group 0 the
core is held until the release; END arrives at group 0 as the final arrival and records in CORE_FFLAGS the flags of every instruction
issued before it, those still in the feed queue among them (R69). A group the core is not a member of, and a second
arrival, raise 0x08. RRES and RFLG read the group's last result and overflow flag. -/
def Obligations.ArrivalsAndReleasesOfGroups : Prop :=
  ∀ (s : State) (w : Issue) (f : XT),
    let k := w.core.val
    let c := s.core k
    let arrives (op : SlotOp) (i : Instr) (g : BitVec 6) (last : Bool) : Prop :=
      Fires s w .x op →
        (s.inGroup k g.toNat = false → exec i s = .next (s.coreException k ⟨0x08, 3, BitVec.ofNat 16 (0x400 + g.toNat)⟩)) ∧
        (s.inGroup k g.toNat = true → c.arrOut.getLsbD g.toNat = true →
          exec i s = .next (s.coreException k ⟨0x08, 3, BitVec.ofNat 16 g.toNat⟩)) ∧
        (s.inGroup k g.toNat = true → c.arrOut.getLsbD g.toNat = false → ∃ t, exec i s = .next t ∧
          let d := t.core k
          d.arrHeld = c.arrHeld ++ [⟨g.toNat, c.getX f.x, last, c.copySeq⟩] ∧
          (∀ j, d.arrOut.getLsbD j = (c.arrOut.getLsbD j || decide (j = g.toNat))) ∧
          d.st = (if g = 0 then 4 else 3) ∧ d.ended = (c.ended || last) ∧ (last = true → d.fflagsReg = c.flagsNow) ∧ (last = false → d.fflagsReg = c.fflagsReg) ∧
          (∀ i, d.getX i = c.getX i) ∧ t.mem = s.mem ∧ ∀ j, j ≠ k → t.core j = s.core j)
    arrives (.arr f) (.arr w f) f.g false ∧ arrives (.endp f) (.endp w f) 0 true ∧
    (Fires s w .x (.rres f) → exec (.rres w f) s =
      .next ((issued s w .x (.rres f)).modCore k (fun d => d.setX f.x (sget 0 c.gres f.g.toNat)))) ∧
    (Fires s w .x (.rflg f) → exec (.rflg w f) s =
      .next ((issued s w .x (.rflg f)).modCore k (fun d =>
        d.setP f.pd (if c.govf.getLsbD f.g.toNat then BitVec.allOnes 64 else 0))))

/-! ### Scratchpads and copies -/

/-- While its site's clock runs the scrubber reads the next row of its bank: a single-bit error is corrected, counted once and waits
for its write-back, a double-bit error poisons the row and is reported without an exception, and a pass over every bank is counted
(R163, R165). A write-back mends the oldest waiting word. Neither changes a byte of memory.
REFRESH closes the row of one bank and changes no other state (R261). The patrol reads the next unit: wrong symbols that the code
corrects, one to three, are counted, their address recorded, and the unit waits for its write-back; those that it detects poison the
unit and are reported; a lost stack has no patrol (R257 to R260). The patrol changes no byte of memory unless the code takes the unit
for another codeword. A write-back mends the oldest waiting unit. STACK_LOST marks the stack, drops the panel's own copies that it held,
and halts every running partition that owns a slice of it (R260). The capture engine reads the lowest marked page and clears its bit;
the last page of a capture with no other buddy completes the generation (R265, R414, R416). MEM_SERR_LO latches its high half
(Table 10-9). -/
def Obligations.ScrubbingAndRefreshKeepMemory : Prop :=
  (
  (∀ (s : State) (k : Fin 39168) (bank : BitVec 4),
    let c := s.core k
    let n := sget 0 c.scrub bank.toNat
    let row := bank.toNat * 2048 + n % 2048
    let inRow (w : Nat) : Prop := row * 8 ≤ w ∧ w < row * 8 + 8
    let fixes := ((List.range 8).filter (fun i => c.spadCe.contains (row * 8 + i) && !c.spadWb.contains (row * 8 + i))).length
    let passes (m : SMap Nat) (p : Nat) : Prop := ∀ b < 16, p ≤ sget 0 m b / 2048
    (s.clockStopped k = true → exec (.patrolScrubber k bank) s = .next s) ∧
    (s.clockStopped k = false → ∃ t, exec (.patrolScrubber k bank) s = .next t ∧
      let d := t.core k
      d.eccfix = c.eccfix + BitVec.ofNat 64 fixes ∧
      (∀ w, w ∈ d.spadWb ↔ w ∈ c.spadWb ∨ (inRow w ∧ w ∈ c.spadCe)) ∧ d.spadCe = c.spadCe ∧
      (∀ w, w ∈ d.spadUe ↔ w ∈ c.spadUe ∧ ¬ inRow w) ∧
      (∀ r, d.poisoned r = true ↔ c.poisoned r = true ∨ (r = row ∧ ∃ w ∈ c.spadUe, inRow w)) ∧
      (∀ b, sget 0 d.scrub b = if b = bank.toNat then n + 1 else sget 0 c.scrub b) ∧
      ((∃ p, passes d.scrub p ∧ ¬ passes c.scrub p) → d.spdScrub.toNat = min 65535 (c.spdScrub.toNat + 1)) ∧
      ((∀ p, passes d.scrub p → passes c.scrub p) → d.spdScrub = c.spdScrub) ∧
      ((∃ w ∈ c.spadUe, inRow w) → d.ueRows = c.ueRows ++ [row]) ∧ ((∀ w ∈ c.spadUe, ¬ inRow w) → d.ueRows = c.ueRows) ∧
      d.st = c.st ∧ d.excPend = c.excPend ∧ (∀ i, d.getX i = c.getX i) ∧ t.mem = s.mem ∧ ∀ j, j ≠ k.val → t.core j = s.core j)) ∧
  (∀ (s : State) (k : Fin 39168),
    let c := s.core k
    ∃ t, exec (.scratchpadWriteBack k) s = .next t ∧
      (c.spadWb = [] → t.core k = c) ∧
      (∀ w ws, c.spadWb = w :: ws → t.core k = { c with spadWb := ws, spadCe := c.spadCe.erase w }) ∧
      t.mem = s.mem ∧ ∀ j, j ≠ k.val → t.core j = s.core j)) ∧
  (
  (∀ (s : State) (st : Fin 48),
    (∀ (pc : Fin 64) (b : Nat), ∃ t, exec (.refresh st pc b) s = .next t ∧ t = { s with hbm := { s.hbm with banks := t.hbm.banks } } ∧
      ∀ k, sget Bank.reset t.hbm.banks k =
        if k = (st.val * 64 + pc.val) * 1024 + b % 1024 then
          { sget Bank.reset s.hbm.banks k with row := none, refreshed := (sget Bank.reset s.hbm.banks k).refreshed + 1 }
        else sget Bank.reset s.hbm.banks k) ∧
    (let n := (s.stack st).patrol
     let u := 2 ^ 36 + st.val * 2 ^ 30 + n
     (s.stackLost st = true → exec (.stackPatrol st) s = .next s) ∧
     (s.stackLost st = false → ∃ t, exec (.stackPatrol st) s = .next t ∧ t.cores = s.cores ∧ (s.hbm.missAt u = false → t.mem = s.mem) ∧
       (t.stack st).patrol = (n + 1) % 2 ^ 30 ∧ (∀ j, j ≠ u → t.hbm.errAt j = s.hbm.errAt j) ∧
       (s.hbm.errAt u = .symbols [] → t.hbm.errAt u = .symbols [] ∧ t.hbm.poison = s.hbm.poison ∧ t.hbm.wb = s.hbm.wb ∧
         t.events = s.events ∧ ∀ a, a ≠ Reg.srfm (stackOfUnit u) → t.reg a = s.reg a) ∧
       (∀ l, n < 2 ^ 30 → s.hbm.errAt u = .symbols l → 1 ≤ l.length → l.length ≤ 3 → u ∉ s.hbm.wb →
         t.hbm.errAt u = .symbols l ∧ t.hbm.wb = s.hbm.wb ++ [u] ∧ t.hbm.poison = s.hbm.poison ∧
         (t.reg (Reg.sce st)).toNat = min (2 ^ 32 - 1) ((s.reg (Reg.sce st)).toNat + 1) ∧
         t.reg (Reg.serrLo st) = BitVec.ofNat 32 (64 * u)) ∧
       (n < 2 ^ 30 → (s.hbm.errAt u = .misplaced ∨ ∃ l, s.hbm.errAt u = .symbols l ∧ 4 ≤ l.length ∧ l.length ≤ 5) →
         u ∈ t.hbm.poison ∧ t.hbm.errAt u = .symbols [] ∧
         t.regF (Reg.sue st) 16 16 = min 65535 (s.regF (Reg.sue st) 16 16 + 1) ∧ t.reg (Reg.serrLo st) = BitVec.ofNat 32 (64 * u)))) ∧
    (s.hbm.wb.find? (fun u => stackOfUnit u == st.val) = none → exec (.unitWriteBack st) s = .next s) ∧
    (∀ u, s.hbm.wb.find? (fun u => stackOfUnit u == st.val) = some u → ∃ t, exec (.unitWriteBack st) s = .next t ∧
      t = { s with hbm := { s.hbm with wb := s.hbm.wb.erase u, errs := t.hbm.errs } } ∧
      ∀ j, t.hbm.errAt j = if j = u then .symbols [] else s.hbm.errAt j) ∧
    (∃ t, exec (.stackLost st) s = .next t ∧ t.mem = s.mem ∧ t.cores = s.cores ∧ t.stackLost st = true ∧
      (∀ p < 16, ∃ b : Position → Bool, (s.remoteBuddy ≠ none → ∀ c, b c = true) ∧ (t.part p).positions = (s.part p).positions.map
        (fun c => { c with mine := c.mine && c.gen % 2 != st.val % 2, buddy := c.buddy && b c })) ∧
      (∀ p < 16, (s.part p).st = 1 ∨ (s.part p).st = 5 →
        (∃ c < 64, (s.grantOf (st.val * 64 + c)).getLsbD 31 = true ∧ grantOwner (s.grantOf (st.val * 64 + c)) = p) →
        (t.part p).haltPend.map (·.1) = some .abort)) ∧
    (∃ t, exec (.memSerrLo st) s = .next t ∧ t = { s with regs := t.regs, rdata := s.reg (Reg.serrLo st) } ∧
      t.reg (Reg.serrHi st) = BitVec.ofNat 32 (s.stack st).errHi)) ∧
  (∀ (s : State) (sl : Fin 3072),
    let p := grantOwner (s.grantOf sl)
    let cap := (s.slice sl).cap
    (cap = 0 → (s.part p).capturing = none → exec (.capturePageRead sl) s = .next s) ∧
    (∀ pg c, pg < 512 → cap.getLsbD pg = true → (∀ j < pg, cap.getLsbD j = false) → s.hbm.held = [] → s.remoteBuddy = none →
      (s.part p).capturing = some c → (s.part p).puts = 0 → s.hbm.errs = [] → ∃ t, exec (.capturePageRead sl) s = .next t ∧ t.mem = s.mem ∧
        (∀ j < 512, (t.slice sl).cap.getLsbD j = (cap.getLsbD j && j != pg)) ∧ (t.slice sl).cur = (s.slice sl).cur ∧
        (∀ k, k ≠ sl.val → t.slice k = s.slice k) ∧
        (1 < s.regF (Reg.pcap p) 0 21 → t.regF (Reg.pcap p) 0 21 = s.regF (Reg.pcap p) 0 21 - 1 ∧
          (t.part p).capturing.map (·.gen) = some c.gen ∧ (t.part p).positions = (s.part p).positions) ∧
        (s.regF (Reg.pcap p) 0 21 = 1 → s.regF (Reg.pcap p) 31 1 = 1 → (t.part p).capturing = none ∧
          (t.part p).positions.map (·.gen) = (c.gen :: (s.part p).positions.map (·.gen)).take 2 ∧
          t.reg (Reg.pgen p) = BitVec.ofNat 32 c.gen))))

/-- The copy engine takes the oldest copy it has not begun (R173), once the MDRAINs issued before it have written (R88). With none it
does nothing. A descriptor that the checks refuse
fails the copy with the lowest cause of the checks that fail, recorded and taken as exception 0x09 (R176). A linear copy within
the scratchpad moves exactly its bytes, as they were before, and is then finished; from a remote address it issues a read for each
piece. A counter advances, by one, only when a copy has started, has not failed and has no request outstanding (R60, R182); a
request without an answer fails its copy with cause 0x06 for a read and 0x07 otherwise (R285). -/
def Obligations.CopiesMoveTheirBytes : Prop :=
  ∀ (s : State) (k : Fin 39168),
    let c := s.core k
    ((∀ q ∈ c.copies, q.started = true) → ∀ rivals, exec (.copyStart k rivals) s = .next s) ∧
    (∀ q rivals, c.copies.find? (fun q => !q.started) = some q → q.drains ≠ 0 → exec (.copyStart k rivals) s = .next s) ∧
    (∀ q, c.copies.find? (fun q => !q.started) = some q → c.copies.filter (fun y => y.id == q.id) = [q] → q.failed = false →
      q.drains = 0 → c.spadUe = [] → c.poison = [] →
      let d : W512 := BitVec.ofNat 512 (leNat (s.spadRd k q.addr 64))
      let src := CopyDesc.src d
      let dst := CopyDesc.dst d
      let len := CopyDesc.len d
      (∀ cause, s.copyCheck d = some cause → ∃ t, exec (.copyStart k []) s = .next t ∧
        (t.core k).copyCause = BitVec.ofNat 8 cause ∧
        (c.st = 3 → (t.core k).excPend = c.excPend ++ [⟨0x09, 3, BitVec.ofNat 16 cause⟩]) ∧
        (∀ i, (t.core k).getC i = c.getC i) ∧ t.mem = s.mem) ∧
      (s.copyCheck d = none → CopyDesc.mode d = 0 → CopyDesc.sloc d = true → CopyDesc.dloc d = true →
        ∃ t, exec (.copyStart k []) s = .next t ∧
          (∀ i < len, rd t.mem (spadAddr k (dst + i)) = rd s.mem (spadAddr k (src + i))) ∧
          (∀ a, a < spadAddr k dst ∨ spadAddr k (dst + len) ≤ a → rd t.mem a = rd s.mem a) ∧
          (∃ y ∈ (t.core k).copies, y.id = q.id ∧ y.cn = q.cn ∧ y.started = true ∧ y.failed = false ∧ y.reqs = q.reqs ∧ y.bytes = len) ∧
          (∀ i, (t.core k).getC i = c.getC i) ∧ (t.core k).excPend = c.excPend) ∧
      (∀ p, s.copyCheck d = none → CopyDesc.mode d = 0 → CopyDesc.sloc d = false → CopyDesc.dloc d = true → len ≤ 512 →
        src % 4096 + len ≤ 4096 → s.requestPanel k src (.read len) = .ok p →
        ∃ t, exec (.copyStart k []) s = .next t ∧
          (∃ y ∈ (t.core k).copies, y.id = q.id ∧ y.started = true ∧ y.failed = false ∧
            y.reqs = q.reqs ++ [⟨c.nextTag, 1, p, .spad dst, len⟩]) ∧
          (t.core k).nextTag = c.nextTag + 1 ∧ (∀ i, (t.core k).getC i = c.getC i) ∧ t.mem = s.mem)) ∧
    ((∀ q ∈ c.copies, ¬ (q.started = true ∧ q.failed = false ∧ q.reqs = [])) → exec (.copyCompletion k) s = .next s) ∧
    (∀ q, c.copies.find? (fun q => q.started && !q.failed && q.reqs.isEmpty) = some q → ∃ t, exec (.copyCompletion k) s = .next t ∧
      (∀ i, (t.core k).getC i = if i = q.cn then c.getC i + 1 else c.getC i) ∧
      (∀ y, y ∈ (t.core k).copies ↔ y ∈ c.copies ∧ y.id ≠ q.id) ∧
      (t.core k).copyBytes = (if c.st = 3 ∨ c.st = 4 then c.copyBytes + q.bytes else c.copyBytes) ∧
      t.mem = s.mem ∧ ∀ j, j ≠ k.val → t.core j = s.core j) ∧
    (∀ tag, s.findReq k tag = none → exec (.requestTimeout k tag) s = .next s) ∧
    (∀ tag q r, s.findReq k tag = some (q, r) → c.copies.filter (fun y => y.id == q.id) = [q] → q.failed = false →
      let cause : Nat := if r.opc = 1 then 0x06 else 0x07
      ∃ t, exec (.requestTimeout k tag) s = .next t ∧
        (t.core k).copyCause = BitVec.ofNat 8 cause ∧
        (c.st = 3 → (t.core k).excPend = c.excPend ++ [⟨0x09, 3, BitVec.ofNat 16 (cause + 256)⟩]) ∧
        (∃ y ∈ (t.core k).copies, y.id = q.id ∧ y.failed = true ∧ ∀ r' ∈ y.reqs, r'.tag ≠ tag) ∧
        (∀ i, (t.core k).getC i = c.getC i) ∧ t.mem = s.mem)

/-! ### The mesh -/

/-- The output engine of a direction sends the next transfer of its list, read from the scratchpad, or zero for a zero entry: the
list position, the transfers not acknowledged and XCH_SENT advance, and a credit is spent; on a die-crossing channel the DATA flit
that carries the transfer joins the replay buffer, on an on-die wire the transfer is on its way to the neighbour's input (R191, R195,
R202). With its list at an end, the switch's list not running, the mesh of the die not clocked, earlier writes of the core not complete,
or no credit, it does nothing; a poisoned row raises 0x05 and is not sent (R164, R196). -/
def Obligations.OutputEnginesSendTheirList : Prop :=
  ∀ (s : State) (k : Fin 39168) (dir : Dir),
    let c := s.core k
    let w := c.sw
    let n := sget 0 w.outSent dir.idx
    let blocked := w.active = false ∨ s.meshOn (dieOf k) = false ∨ xcOut w.xc dir ≠ 1 ∨ w.drains ≠ 0 ∨ w.setWait = true ∨ s.outReady k dir = false
    (listAt (s.outList k dir) n = none → exec (.transferSend k dir) s = .next s) ∧
    (blocked → exec (.transferSend k dir) s = .next s) ∧
    (∀ e i, listAt (s.outList k dir) n = some (e, i) → ¬ blocked →
      let a := entryAddr e i
      let data : BitVec 256 := if e.zero then 0 else BitVec.ofNat 256 (leNat (s.spadRd k a 32))
      (e.zero = true ∨ c.badRow (wordsOf a 32) = none → ∃ t, exec (.transferSend k dir) s = .next t ∧
        (t.core k).sw.unack = smod 0 w.unack dir.idx (· + 1) ∧ sget 0 (t.core k).sw.outSent dir.idx = n + 1 ∧
        (t.core k).sw.sent.toNat = min (2 ^ 32 - 1) (w.sent.toNat + 1) ∧ (t.core k).sw.fifo = w.fifo ∧
        (∀ u, s.hop k dir = .core u → t.links = s.links ∧ sget 0 (t.core k).sw.spent dir.idx = sget 0 w.spent dir.idx + 1 ∧
          sget [] (t.core u).sw.wire dir.opp.idx = sget [] (s.core u).sw.wire dir.opp.idx ++ [data] ∧
          (u ≠ k.val → ∃ m, t.core u = { s.core u with sw := { (s.core u).sw with wire := m } })) ∧
        (∀ d o lane, s.hop k dir = .edge d o lane →
          let l := s.link (segEnd d o lane 0)
          let l' := t.link (segEnd d o lane 0)
          l'.replay = l.replay ++ [mkFlit data.toNat (l.sendSeq % 128) (0x10 + min 15 (sget 0 l.owe 0))] ∧
          l'.sendSeq = l.sendSeq + 1 ∧ sget 0 l'.spent 0 = sget 0 l.spent 0 + 1 ∧ l'.awaited = l.awaited + 1 ∧
          (t.core k).sw.spent = w.spent) ∧
        t.mem = s.mem ∧ ∀ j, j ≠ k.val → s.hop k dir ≠ .core j → t.core j = s.core j) ∧
      (∀ r, e.zero = false → c.badRow (wordsOf a 32) = some r → c.st = 3 → ∃ t, exec (.transferSend k dir) s = .next t ∧
        (t.core k).excPend = c.excPend ++ [⟨0x05, 0xF, BitVec.ofNat 16 (r / 2048)⟩] ∧ (t.core k).sw = w ∧ t.links = s.links ∧
        t.mem = s.mem))

/-- The oldest transfer on an on-die wire, and no other, reaches the input that the wire ends at, while the mesh of the die is clocked
(R183, R191). It enters the input's FIFO, in order, where the switch names no destination; with bad parity it is recorded, raises 0x0C,
enters nothing, and the input delivers nothing more in the move (R57, R200). Where the input feeds the local engine alone and no other
transfer waits anywhere, it is stored at the address of its list entry, counted, and its credit and its acknowledgement go back to
the switch that sent it (R191, R195, R197). An acknowledgement that arrives counts off a local transfer, or one branch of a route
that waits; a route whose last branch is acknowledged acknowledges upstream.
A beat of a rank bus (R206 to R210). An ill-formed sideband, one out of its router's turn and one on a die without spine supply are not
driven. A write, or a response, stores the words that WEN names, and no other byte, in the row of the one site of the bus's rank that
FMASK names; a read request answers the row; an atomic beat combines the words that WEN names with its data (R175); at a fenced or
unpowered site nothing. The bus's last driver is noted. -/
def Obligations.InputsAndBeatsReachTheirSite : Prop :=
  (
  ∀ (s : State) (k : Fin 39168) (dir : Dir),
    let c := s.core k
    let w := c.sw
    (∀ data par u, s.hop k dir = .core u →
      let good := ∀ q < 4, par.getLsbD q = (((List.range 64).filter (fun i => data.getLsbD (64 * q + i))).length % 2 == 1)
      let wire := sget [] w.wire dir.idx
      let run := exec (.transferReceive k dir data par []) s
      (wire = [] ∨ s.meshOn (dieOf k) = false ∨ (good ∧ wire.head? ≠ some data) → run = .next s) ∧
      (¬ good → wire ≠ [] → s.meshOn (dieOf k) = true → ∃ t, run = .next t ∧
        t.reg (Reg.parerr (dieOf k)) = BitVec.ofNat 32 (2 ^ 31 + siteOf k * 2 ^ 16 + dir.idx) ∧
        (c.st = 3 → (t.core k).excPend = c.excPend ++ [⟨0x0C, 0xF, BitVec.ofNat 16 dir.idx⟩]) ∧
        (c.st = 7 → (t.core k).excPend = c.excPend ∧
          ∀ p, s.partOfRank (rankOfDie (dieOf k)) = some p → (t.part p).haltPend.map (·.1) = some .abort) ∧
        sget [] (t.core k).sw.wire dir.idx = wire.drop 1 ∧ (t.core k).sw.fifo = w.fifo ∧ (t.core k).sw.inTaken = w.inTaken ∧
        dir ∈ (t.core k).sw.dead ∧ t.mem = s.mem) ∧
      (good → s.meshOn (dieOf k) = true → wire.head? = some data → w.active = false → w.standing = false →
        (sget [] w.fifo dir.idx).length < 8 → ∃ t, run = .next t ∧
        (∀ i, sget [] (t.core k).sw.fifo i = sget [] w.fifo i ++ if i = dir.idx then [data] else []) ∧
        sget [] (t.core k).sw.wire dir.idx = wire.drop 1 ∧
        (t.core k).sw.inTaken = w.inTaken ∧ t.mem = s.mem ∧ ∀ j, j ≠ k.val → t.core j = s.core j) ∧
      (∀ e i, good → s.meshOn (dieOf k) = true → wire.head? = some data → dir ∉ w.dead → (∀ j, (s.core j).sw.fifo = []) → w.active = true → xcLocal w.xc dir = true → xcBranches w.xc dir = [] →
        s.inDone k dir = false → listAt (s.inList k dir) (sget 0 w.inTaken dir.idx) = some (e, i) → ∃ t, run = .next t ∧
        (∀ n < 32, e.zero = false → entryAddr e i + 32 ≤ 2 ^ 21 →
          rd t.mem (spadAddr k (entryAddr e i + n)) = data.extractLsb' (8 * n) 8) ∧
        (∀ a, e.zero = true ∨ a < spadAddr k (entryAddr e i) ∨ spadAddr k (entryAddr e i) + 32 ≤ a → rd t.mem a = rd s.mem a) ∧
        sget 0 (t.core k).sw.inTaken dir.idx = sget 0 w.inTaken dir.idx + 1 ∧
        (t.core k).sw.rcvd.toNat = min (2 ^ 32 - 1) (w.rcvd.toNat + 1) ∧ (∀ j, (t.core j).sw.fifo = []) ∧
        sget 0 (t.core u).sw.ackWire dir.opp.idx = sget 0 (s.core u).sw.ackWire dir.opp.idx + 1 ∧
        sget 0 (t.core u).sw.spent dir.opp.idx = sget 0 (s.core u).sw.spent dir.opp.idx - 1)) ∧
    (sget 0 w.ackWire dir.idx = 0 → exec (.deliveryAcknowledgement k dir) s = .next s) ∧
    (0 < sget 0 w.ackWire dir.idx → ∃ t, exec (.deliveryAcknowledgement k dir) s = .next t ∧
      let d := t.core k
      t.mem = s.mem ∧
      (xcOut w.xc dir = 1 → sget 0 d.sw.ackWire dir.idx = sget 0 w.ackWire dir.idx - 1 ∧
        sget 0 d.sw.unack dir.idx = sget 0 w.unack dir.idx - 1 ∧ d.sw.routes = w.routes) ∧
      (xcOut w.xc dir ≠ 1 → (∀ r ∈ w.routes, dir ∉ r.wait) → d.sw.routes = w.routes ∧ d.sw.unack = w.unack) ∧
      (∀ r rs, xcOut w.xc dir ≠ 1 → w.routes = r :: rs → dir ∈ r.wait → r.wait.erase dir ≠ [] →
        d.sw.routes = { r with wait := r.wait.erase dir } :: rs) ∧
      (∀ r rs u, xcOut w.xc dir ≠ 1 → w.routes = r :: rs → r.wait = [dir] → s.hop k r.inp = .core u → u ≠ k.val → d.sw.routes = rs ∧
        sget 0 (t.core u).sw.ackWire r.inp.opp.idx = sget 0 (s.core u).sw.ackWire r.inp.opp.idx + 1))) ∧
  (
  ∀ (s : State) (d : Fin 144) (rank : Fin 16) (b : Beat),
    (b.ok = false ∨ s.meshOn d = false ∨ (s.die d).turnOf rank b = false → exec (.beat d rank b []) s = .next s) ∧
    (∀ l : Fin 16, b.ok = true → s.meshOn d = true → (b.both = true → (rank.val ∈ (s.die d).turnE ↔ b.fromE = true)) →
      b.diebc = false → b.fmask = BitVec.ofNat 16 (2 ^ l.val) →
      let k := d.val * 272 + rank.val * 17 + physFile (s.coreHole d rank) l
      (s.core k).rx = [] →
      let deaf := s.siteFenced k = true ∨ (s.core k).st = 7
      let row := b.row.toNat * 64
      ∃ t, exec (.beat d rank b []) s = .next t ∧
        (b.fromE = false → rank.val ∈ (t.die d).turnE) ∧ (b.fromE = true → (t.die d).turnE = (s.die d).turnE.erase rank.val) ∧
        (deaf → t.cores = s.cores ∧ t.mem = s.mem) ∧
        (¬ deaf → b.kind = 1 ∨ b.kind = 4 →
          (∀ w < 8, ∀ i < 8, rd t.mem (spadAddr k (row + 8 * w + i)) =
            if b.wen.getLsbD w then b.data.extractLsb' (64 * w + 8 * i) 8 else rd s.mem (spadAddr k (row + 8 * w + i))) ∧
          (∀ a, a < spadAddr k row ∨ spadAddr k row + 64 ≤ a → rd t.mem a = rd s.mem a) ∧
          (∀ j, j ≠ k → t.core j = s.core j)) ∧
        (¬ deaf → b.kind = 2 → (s.core k).spadUe = [] → (s.core k).poison = [] →
          t.answer = s.spadRd k row 64 ∧ t.mem = s.mem ∧ (t.core k).excPend = (s.core k).excPend) ∧
        (¬ deaf → b.kind = 3 → (s.core k).spadUe = [] → (s.core k).poison = [] → field b.attr.toNat 8 4 < 4 →
          let new := combineBytes (field b.attr.toNat 12 4) (field b.attr.toNat 8 4) (s.spadRd k row 64) (leBytes 64 b.data.toNat)
          (∀ w < 8, ∀ i < 8, rd t.mem (spadAddr k (row + 8 * w + i)) =
            if b.wen.getLsbD w then new.getD (8 * w + i) 0 else rd s.mem (spadAddr k (row + 8 * w + i))) ∧
          (∀ a, a < spadAddr k row ∨ spadAddr k row + 64 ≤ a → rd t.mem a = rd s.mem a) ∧ (t.core k).excPend = (s.core k).excPend)))

/-- Flits (R201, R202, R278, R279). One that fails its CRC changes the link's receiver and error registers only: a NAK is put on the
wire; a DATA flit that fails is counted, unless it follows another that is expected again, and at the limit of failures in a row the link
is marked failed. A DATA flit out of order is answered with
one NAK and taken no further. A DATA flit of a mesh segment in order is taken once, and at a retimer its data goes on along the
channel, where it waits while the replay buffer is full, at the die into the FIFO of the switch it faces; a DATA flit of a fabric link in order is taken once and its packet's
bytes join those of its channel. ACK and NAK drop from the replay buffer the oldest flits they cover and no others; IDLE drops
none; the flits that a mesh segment resends carry no credits. -/
def Obligations.FlitsAreTakenOnceInOrder : Prop :=
  ∀ (s : State) (e : LinkEnd) (f : BitVec 288), Hears s e →
    let l := s.link e
    let limit := if e.isMesh then s.regF Reg.mshCfg 16 8 else s.regF Reg.pkfCfg 8 8
    (flitOk f = false → ∀ i ∈ [Instr.dataFlit e f, .idleFlit e f, .ackFlit e f, .nakFlit e f], ∃ t, exec i s = .next t ∧
      t = { s with links := t.links, regs := t.regs } ∧
      let l' := t.link e
      (i ≠ .dataFlit e f → l'.fails = l.fails ∧ l'.failed = l.failed) ∧
      (i = .dataFlit e f →
        l'.fails = l.fails + (if l.nakked = true ∧ flitByte f 32 % e.seqMod ≠ l.expSeq % e.seqMod then 0 else 1) ∧
        l'.failed = (l.failed || decide (max 1 limit ≤ l'.fails))) ∧
      (∃ c, l'.ctl = some c ∧ flitType e c = 4) ∧ l'.expSeq = l.expSeq ∧ l'.replay = l.replay ∧ l'.asm = l.asm) ∧
    (flitOk f = true → flitType e f = 1 → flitByte f 32 ≠ l.expSeq % e.seqMod → (e.isMesh = true → flitByte f 33 % 16 = 0) →
      flitByte f 32 < e.seqMod → ∃ t, exec (.dataFlit e f) s = .next t ∧ t = { s with links := t.links, regs := t.regs } ∧
      (t.link e).expSeq = l.expSeq ∧ (t.link e).asm = l.asm ∧ (t.link e).nakked = true ∧
      (l.nakked = true → (t.link e).ctl = l.ctl) ∧ (l.nakked = false → ∃ c, (t.link e).ctl = some c ∧ flitType e c = 4)) ∧
    (flitOk f = true → flitType e f = 1 → flitByte f 32 = l.expSeq % e.seqMod →
      (∀ d dir lane seg, e = .mesh d dir lane seg → flitByte f 33 % 16 = 0 → seg ≠ 0 → ∃ t, exec (.dataFlit e f) s = .next t ∧
        t = { s with links := t.links, regs := t.regs } ∧ (t.link e).expSeq = l.expSeq + 1 ∧ (t.link e).fails = 0 ∧
        let o := relayEnd d dir lane seg
        ((s.link o).wait = [] → (s.link o).replay.length < 64 →
          ∃ g, (t.link o).replay = (s.link o).replay ++ [g] ∧ flitData g = flitData f) ∧
        ((s.link o).wait ≠ [] ∨ 64 ≤ (s.link o).replay.length →
          (t.link o).wait = (s.link o).wait ++ [flitData f] ∧ (t.link o).replay = (s.link o).replay)) ∧
      (∀ d dir lane, e = .mesh d dir lane 0 → flitByte f 33 % 16 = 0 →
        let k := s.edgeSite d dir lane
        (s.core k).sw.active = false → (s.core k).sw.standing = false →
        (sget [] (s.core k).sw.fifo dir.idx).length < s.fifoMax k dir → ∃ t, exec (.dataFlit e f) s = .next t ∧
        (t.link e).expSeq = l.expSeq + 1 ∧
        sget [] (t.core k).sw.fifo dir.idx = sget [] (s.core k).sw.fifo dir.idx ++ [flitData f] ∧ t.mem = s.mem) ∧
      (e.isMesh = false →
        let vc := flitByte f 33 / 16
        let cur := (if bit (flitByte f 33) 3 then [] else sget [] l.asm vc) ++ leBytes 32 (flitData f).toNat
        let whole := 32 + 64 * (leAt cur 1 1 / 16) ≤ cur.length
        (∀ p, e ≠ .sys p) ∨ ¬ whole → ∃ t, exec (.dataFlit e f) s = .next t ∧ t = { s with links := t.links } ∧
          (t.link e).expSeq = l.expSeq + 1 ∧ (t.link e).fails = 0 ∧
          (whole → sget [] (t.link e).asm vc = []) ∧ (¬ whole → sget [] (t.link e).asm vc = cur))) ∧
    (∀ ty i, (ty = 2 ∧ i = Instr.idleFlit e f) ∨ (ty = 3 ∧ i = Instr.ackFlit e f) ∨ (ty = 4 ∧ i = Instr.nakFlit e f) →
      flitOk f = true → flitType e f = ty →
      (e.isMesh = false → l.held = []) → (e.isMesh = true → l.wait = []) →
      (∀ d dir lane seg, e = .mesh d dir lane seg → flitByte f 33 % 16 = 0 ∧
        ahead ((flitData f).toNat / 2 ^ 16 % 2 ^ 16) l.dackRcvd = 0 ∧
        (s.core (s.edgeSite d dir lane)).sw.active = false ∧ (s.core (s.edgeSite d dir lane)).sw.standing = false) →
      ∃ t, exec i s = .next t ∧ t = { s with links := t.links, regs := t.regs } ∧ (t.link e).expSeq = l.expSeq ∧
        (let m := if e.isMesh then 128 else 2 ^ 32
         let n := ((flitData f).toNat % m + m - (l.sendSeq - l.replay.length) % m) % m
         let left := if ty ≠ 2 ∧ n ≤ l.replay.length then l.replay.drop n else l.replay
         (ty ≠ 4 ∨ e.isMesh = false → (t.link e).replay = left) ∧
         (ty = 4 → e.isMesh = true → (t.link e).replay.map flitData = left.map flitData ∧
           (t.link e).replay.map (fun g => flitByte g 32) = left.map (fun g => flitByte g 32) ∧
           ∀ g ∈ (t.link e).replay, flitByte g 33 = 0x10)) ∧
        (∀ d dir lane, e = .mesh d dir lane 0 →
          sget 0 (t.link e).spent 0 = sget 0 l.spent 0 - ahead ((flitData f).toNat / 2 ^ 32 % 2 ^ 16) (sget 0 l.credRcvd 0)))

/-- QUARANTINE stops a channel that is up at both its ends where the link is marked failed or something is owed: it is counted,
reported, and its partition halts by abort unless a halt by abort waits already; any other end is left alone (R203). At the
interval of control flits a link end that runs sends an ACK where it has taken flits since its last, else an IDLE, with the next
sequence number that it expects; every credit owed is returned with it (R202, R278). -/
def Obligations.LinksReportTheirStateAndQuarantine : Prop :=
  (∀ (s : State) (e : LinkEnd),
    let l := s.link e
    let run := exec (.quarantine e) s
    (e.isMesh = false → run = .next s) ∧
    (∀ d dir lane seg, e = .mesh d dir lane seg →
      let owed := l.replay ≠ [] ∨ 0 < sget 0 l.spent 0 ∨ 0 < l.awaited
      (s.meshUp d dir lane seg = false ∨ (l.failed = false ∧ ¬ owed) → run = .next s) ∧
      (s.meshUp d dir lane seg = true → l.failed = true ∨ owed → ∃ t, run = .next t ∧
        t.dlink d dir lane = 2 ∧ (∀ o, s.dieAcross d dir = some o → o ≠ d.val → t.dlink o dir.opp lane = 2) ∧
        (∀ p, s.partOfRank (rankOfDie d) = some p → (t.part p).haltPend.map (·.1) = some .abort ∧
          ∀ q, q ≠ p → t.part q = s.part q) ∧
        (t.events.map (·.type) = s.events.map (·.type) ++ [0x0012] ∨ t.host.evLost = s.host.evLost + 1) ∧
        t.mem = s.mem ∧ t.cores = s.cores ∧ t.links = s.links))) ∧
  (∀ (s : State) (e : LinkEnd),
    let l := s.link e
    let run := exec (.controlFlitInterval e) s
    let off := ∃ d dir lane seg, e = .mesh d dir lane seg ∧ s.meshUp d dir lane seg = false
    (l.failed = true ∨ l.stopped = true ∨ off → run = .next s) ∧
    (l.failed = false → l.stopped = false → ¬ off → ∃ t, run = .next t ∧ t = { s with links := t.links } ∧
      ∃ c, (t.link e).ctl = some c ∧ flitType e c = (if 0 < l.sinceAck then 3 else 2) ∧
        (let m := if e.isMesh then 128 else 2 ^ 32
         (flitData c).toNat % m = l.expSeq % m) ∧
        (t.link e).sinceAck = 0 ∧ sget 0 (t.link e).owe 0 = 0 ∧
        sget 0 (t.link e).credSent 0 = (sget 0 l.credSent 0 + sget 0 l.owe 0) % 2 ^ 16 ∧
        (t.link e).replay = l.replay ∧ (t.link e).expSeq = l.expSeq))

/-! ### Packets and streams -/

/-- What is written is read back: a packet from its bytes, a packet's bytes from its flits, a flit's data and sideband from the
flit, whose CRC then holds; and two packets of the same bytes are the same packet (Tables 11-3 and 11-5, R201, R275, R278). -/
def Obligations.PacketsAndFlitsReadBack : Prop :=
  (∀ p : Packet, parsePacket (packetBytes p) = p) ∧
  (∀ (p : Packet) (n : Nat), p.payload.length % 32 = 0 →
    (packetFlits p n).flatMap (fun f => leBytes 32 (flitData f).toNat) = packetBytes p ∧
    ∀ f ∈ packetFlits p n, flitOk f = true ∧ flitByte f 33 / 16 = vcOf p) ∧
  (∀ d a b : Nat, flitOk (mkFlit d a b) = true ∧ flitData (mkFlit d a b) = BitVec.ofNat 256 d ∧
    flitByte (mkFlit d a b) 32 = a % 256 ∧ flitByte (mkFlit d a b) 33 = b % 256) ∧
  (∀ p q : Packet, packetBytes p = packetBytes q → p = q)

/-- Request packets (R58, R276, R277, R299, Tables 11-4 and 11-9). A packet of another opcode is not this command's, and one that an
earlier packet of its engine, class and slice precedes has not arrived yet. One whose ECRC fails is
discarded and recorded, one of a reserved opcode answered with ERR_RSP; a request answered with ERR_RSP has no effect on memory. A read of memory that the requester may use
answers the bytes; a write stores exactly its bytes and marks their page; an atomic combines; a unit poisoned or found
uncorrectable answers 0x10; a slice that is not granted 0x08; a write to a page under capture is held. Scratchpads answer the
same way to their own partition and refuse others with 0x09; a whole record in a job window joins the queue, and the host's and the
management controllers' accesses to it are ignored (R246); register space serves a management controller of the panel as BAR0 does (R23)
and is refused to others, as is anything unmapped. A broadcast write reaches every site that its masks name and that is neither fenced nor off, and is refused with cause
0x09 where one of them is off for heat. -/
def Obligations.RequestPacketsActAtTheirPlace : Prop :=
  ∀ (s : State) (p : Packet),
    let n := 8 * wordsField p
    let bs := p.payload.take n
    let pl := s.packetPlace p
    let req := s.requester p
    let same (u : State) : Prop := u.mem = s.mem
    let wrote (a : Nat) (l : List Byte) (u : State) : Prop :=
      (∀ i (h : i < l.length), rd u.mem (a + i) = l[i]) ∧ ∀ x, x < a ∨ a + l.length ≤ x → rd u.mem x = rd s.mem x
    let known (pa : Nat) : Prop := ∀ x ∈ unitsOf pa n, s.hbm.missAt x = false
    let clean (pa : Nat) : Prop := ∀ x ∈ unitsOf pa n, s.hbm.ueAt x = false ∧ x ∉ s.hbm.poison
    let usable (pa : Nat) : Prop := s.stackLost (stackOf pa) = false ∧ stackOf pa ∉ s.rails.stacksOff
    let rows (k off : Nat) : Prop := (s.core k).badRow (wordsOf off n) = none
    let op := field p.attr.toNat 12 4
    let ty := field p.attr.toNat 8 4
    let local' := p.bcast = false
    let asker := s.askerOf p
    let requests := [((1 : BitVec 4), Instr.read p), (2, .write p), (3, .atomic p)]
    (∀ i ∈ requests, (s.overtakes p = true ∨ (p.opc ≠ i.1 ∧ p.opc ≠ 0 ∧ p.opc ≠ 4) → exec i.2 s = .next s)) ∧
    (s.overtakes p = false →
    (∀ i ∈ requests,
      (p.opc = i.1 ∨ p.opc = 0 ∨ p.opc = 4 →
        (BitVec.ofNat 32 (ecrcOf p) ≠ p.ecrc → ∃ t, exec i.2 s = .next t ∧
          t = { s with net := s.net.erase p, regs := t.regs } ∧
          ((s.reg Reg.pkfErr).getLsbD 31 = false → t.regF Reg.pkfErr 31 1 = 1 ∧ t.regF Reg.pkfErr 8 8 = 1)) ∧
        (BitVec.ofNat 32 (ecrcOf p) = p.ecrc → packetOk p = false →
          (p.spanel.toNat < 4096 → Answers i.2 s p (.err (if p.opc = 1 then 0x06 else 0x07)) same) ∧
          (4096 ≤ p.spanel.toNat → ∃ t, exec i.2 s = .next t ∧ t = { s with net := s.net.erase p, regs := t.regs })) ∧
        (p.opc ≠ i.1 → packetOk p = false)) ∧
      (Good i.1 p → local' →
        let cause : Nat := if i.1 = 1 then 0x06 else 0x07
        (∀ o, pl = .reg o → ¬ (asker = .mgmt ∧ p.spanel.toNat = s.ownId) →
          Answers i.2 s p (.err (if p.spanel.toNat = s.ownId then cause else 0x07)) same) ∧
        (pl = .bad → Answers i.2 s p (.err (if i.1 = 3 ∧ inReserved p.addr.toNat = true then 0x0A else cause)) same) ∧
        (pl = .beyond → Answers i.2 s p (.err 0x08) same) ∧
        (∀ pa, pl = .hbm pa → asker = .other ∨ (asker ≠ .mgmt ∧ s.granted req (sliceOf pa) (i.1 != 1) = false) →
          Answers i.2 s p (.err 0x08) same) ∧
        (∀ k off, pl = .spad k off → s.siteFenced k = true → Answers i.2 s p (.err cause) same) ∧
        (∀ k off, pl = .spad k off → s.siteFenced k = false → (s.retained k = true ∨
            ((asker = .core ∨ asker = .near) ∧ ¬ (∃ q, req = some q ∧ s.partOfCore k = some q))) →
          Answers i.2 s p (.err 0x09) same) ∧
        (∀ k off, pl = .spad k off → s.retained k = false → asker = .other → Answers i.2 s p (.err cause) same))) ∧
    (∀ o, local' → pl = .reg o → asker = .mgmt → p.spanel.toNat = s.ownId →
      let word (i : Nat) : W32 := BitVec.ofNat 32 (leNat ((p.payload.drop (4 * i)).take 4))
      let s1 : State := { s with net := s.net.erase p }
      (Good 1 p → Answers (.read p) s p (.data ((List.range (n / 4)).flatMap (fun i => leBytes 4 (s.regRead (o + 4 * i)).toNat))) same) ∧
      (Good 2 p → wordsField p = 1 → Answers (.write p) s p .ok (fun u => u = (s1.regWrite o (word 0)).regWrite (o + 4) (word 1)))) ∧
    (∀ pa, local' → pl = .hbm pa → s.mayUse asker req (sliceOf pa) false = true → Good 1 p →
      (usable pa → known pa → clean pa → Answers (.read p) s p (.data (rdN s.mem pa n)) same) ∧
      (usable pa → known pa → ¬ clean pa → Answers (.read p) s p (.err 0x10) same) ∧
      (s.stackLost (stackOf pa) = true → Answers (.read p) s p (.err 0x10) same)) ∧
    (∀ pa, local' → pl = .hbm pa → s.mayUse asker req (sliceOf pa) true = true →
      (Good 2 p → usable pa → known pa → s.writeHeld pa = false → Answers (.write p) s p .ok (fun u => wrote pa bs u ∧
        (u.slice (sliceOf pa)).cur.getLsbD (pageOf pa) = true)) ∧
      (Good 3 p → usable pa → known pa → s.writeHeld pa = false → clean pa → (ty = 4 → n % 16 = 0) → Answers (.atomic p) s p .ok (fun u =>
        wrote pa (combineBytes op ty (rdN s.mem pa n) bs) u ∧ (u.slice (sliceOf pa)).cur.getLsbD (pageOf pa) = true)) ∧
      (∀ i ∈ [((2 : BitVec 4), Instr.write p), (3, .atomic p)], Good i.1 p →
        (s.stackLost (stackOf pa) = true → Answers i.2 s p (.err 0x07) same) ∧
        (s.stackLost (stackOf pa) = false → s.writeHeld pa = true → ∃ t, exec i.2 s = .next t ∧
          t.mem = s.mem ∧ t.hbm.held = s.hbm.held ++ [p] ∧ t.net = s.net.erase p))) ∧
    (∀ k off, local' → pl = .spad k off → s.spadRefused asker req k (packetAccess p) = none → off + n ≤ 2 ^ 21 → (s.core k).rx = [] →
      (Good 1 p → rows k off → Answers (.read p) s p (.data (s.spadRd k off n)) same) ∧
      (Good 2 p → Answers (.write p) s p .ok (wrote (spadAddr k off) bs)) ∧
      (Good 3 p → rows k off → Answers (.atomic p) s p .ok (wrote (spadAddr k off) (combineBytes op ty (s.spadRd k off n) bs))) ∧
      (∀ i ∈ [((1 : BitVec 4), Instr.read p), (3, .atomic p)], Good i.1 p → ¬ rows k off →
        Answers i.2 s p (.err 0x10) same)) ∧
    (∀ off, local' → pl = .ctx off → Good 1 p → s.ctxAllowed req off n = true →
      Answers (.read p) s p (.data (rdN s.mem (ctxBase + off) n)) same) ∧
    (∀ q off, local' → pl = .census q off → Good 1 p → req = some q →
      Answers (.read p) s p (.data (rdN s.mem (censusBase q + off) n)) same) ∧
    (∀ st off, local' → pl = .job st off → Good 2 p →
      (off = 0 → wordsField p = 8 → p.spanel.toNat = s.ownId → p.sep.toNat < 0x90 → ∃ t, exec (.write p) s = .next t ∧
        (t.stack st).queue = (s.stack st).queue ++ [⟨p, 0⟩] ∧ t.mem = s.mem ∧ t.net = s.net.erase p) ∧
      (off ≠ 0 ∨ wordsField p ≠ 8 ∨ p.spanel.toNat ≠ s.ownId ∨ 0x90 ≤ p.sep.toNat → asker ≠ .host → asker ≠ .mgmt →
        Answers (.write p) s p (.err 0x07) same) ∧
      (asker = .host ∨ asker = .mgmt → Answers (.write p) s p .ok (fun u => u = { s with net := s.net.erase p }))) ∧
    (p.bcast = true → Good 2 p →
      (bcastOk p = false → Answers (.write p) s p (.err 0x07) same) ∧
      (bcastOk p = true →
        let a := p.addr.toNat
        let site (m l : Fin 16) : Nat := a / 2 ^ 56 * 272 + m.val * 17 + physFile (s.coreHole (a / 2 ^ 56) m) l
        let named (m l : Fin 16) : Prop := a.testBit (40 + m.val) = true ∧ a.testBit (24 + l.val) = true
        let takes (m l : Fin 16) : Prop := named m l ∧ s.siteFenced (site m l) = false ∧ s.retained (site m l) = false
        let anyOff : Prop := ∃ m l, named m l ∧ s.retained (site m l) = true
        let reached (u : State) : Prop :=
          (∀ m l, takes m l → ∀ i (h : i < bs.length), rd u.mem (spadAddr (site m l) (a % 2 ^ 21 + i)) = bs[i]) ∧
          (∀ x, (∀ m l, takes m l → x < spadAddr (site m l) (a % 2 ^ 21) ∨ spadAddr (site m l) (a % 2 ^ 21) + bs.length ≤ x) →
            rd u.mem x = rd s.mem x)
        (¬ anyOff → Answers (.write p) s p .ok reached) ∧ (anyOff → Answers (.write p) s p (.err 0x09) reached))))

/-- Answers (R276, R176). A read response brings its data to the copy that waits for its tag, an acknowledgement ends its request,
an error response fails its copy with its cause, as exception 0x09; an answer that nothing waits for changes nothing. A read
response to a management controller, and the words of a management packet, are what the controller takes (R307).
A packet of a stream that arrives whole on a system-link port (R290 to R293): with its streams not open STALE goes back and it
is dropped; with the number expected it is delivered once and the next number is expected; one that was taken before is counted and
dropped; one of another panel leaves by a port on its way. -/
def Obligations.AnswersAndStreamPacketsArrive : Prop :=
  (
  ∀ (s : State) (p : Packet),
    (∀ i ∈ [((5 : BitVec 4), Instr.readRsp p), (6, .ack p), (7, .errRsp p), (0xC, .mgt p)],
      p.opc ≠ i.1 → p.opc ≠ 0 → p.opc ≠ 4 → exec i.2 s = .next s) ∧
    (∀ k q r, p.sep.toNat < 0x90 → p.ssite.toNat < 272 → k = p.sep.toNat * 272 + p.ssite.toNat →
      s.findReq k p.tag = some (q, r) → (s.core k).copies.filter (fun y => y.id == q.id) = [q] → q.failed = false →
      let c := s.core k
      let answered (t : State) : Prop := ∃ y ∈ (t.core k).copies, y.id = q.id ∧ y.failed = false ∧
        (∀ r', r' ∈ y.reqs ↔ r' ∈ q.reqs ∧ r'.tag ≠ p.tag)
      let calm (t : State) : Prop := (∀ j, (t.core k).getC j = c.getC j) ∧ ∀ j, j ≠ k → t.core j = s.core j
      (∀ off, Good 5 p → r.dst = .spad off → CopyDesc.mode q.desc ≠ 4 → r.len ≤ p.payload.length → off + r.len ≤ 2 ^ 21 →
        ∃ t, exec (.readRsp p) s = .next t ∧ answered t ∧ calm t ∧ (t.core k).excPend = c.excPend ∧
          (∀ i (h : i < r.len) (h' : i < p.payload.length), rd t.mem (spadAddr k (off + i)) = p.payload[i]) ∧
          (∀ a, a < spadAddr k off ∨ spadAddr k off + r.len ≤ a → rd t.mem a = rd s.mem a)) ∧
      (Good 6 p → ∃ t, exec (.ack p) s = .next t ∧ answered t ∧ calm t ∧ (t.core k).excPend = c.excPend ∧ t.mem = s.mem) ∧
      (Good 7 p → c.st = 3 → ∃ t, exec (.errRsp p) s = .next t ∧ calm t ∧ t.mem = s.mem ∧
        (t.core k).copyCause = BitVec.ofNat 8 p.attr.toNat ∧
        (t.core k).excPend = c.excPend ++ [⟨0x09, 3, BitVec.ofNat 16 (p.attr.toNat % 256 + 256)⟩] ∧
        ∃ y ∈ (t.core k).copies, y.id = q.id ∧ y.failed = true)) ∧
    (∀ k, p.sep.toNat < 0x90 → p.ssite.toNat < 272 → k = p.sep.toNat * 272 + p.ssite.toNat → s.findReq k p.tag = none →
      ∀ i ∈ [((5 : BitVec 4), Instr.readRsp p), (6, .ack p), (7, .errRsp p)], Good i.1 p →
        exec i.2 s = .next { s with net := s.net.erase p }) ∧
    (0xD0 ≤ p.sep.toNat → Good 5 p → isMc p.sep = false ∨ (∀ q, s.storeTag p ≠ some (4, q)) →
      exec (.readRsp p) s = .next { s with net := s.net.erase p, answer := p.payload }) ∧
    (Good 0xC p → exec (.mgt p) s =
      .next { s with net := s.net.erase p, answer := p.payload.take (8 * wordsField p) })) ∧
  (
  ∀ (s : State) (port : Fin 32) (f : BitVec 288),
    let e := LinkEnd.sys port
    let p := parsePacket (leBytes 32 (flitData f).toNat)
    let q := p.spanel.toNat
    let c := p.cls.toNat
    let x := s.stream q c
    Hears s e → flitOk f = true → flitType e f = 1 → flitByte f 32 = (s.link e).expSeq % 256 → bit (flitByte f 33) 3 = true →
      p.len = 0 → q < 4096 → p.dpanel.toNat < 4096 →
      (p.dpanel.toNat = s.ownId → p.opc.toNat ∉ [8, 9, 0xA, 0xB] →
        (x.opened = false → ∃ t, exec (.dataFlit e f) s = .next t ∧ FabricOnly s t ∧ t.net = s.net ∧ t.homes.streams = s.homes.streams ∧
          ∀ o, o ≠ port → OnePort s q o → SentOn s t o q 0xB) ∧
        (x.opened = true → x.buf = [] → x.sinceAck < 15 → p.eseq.toNat = x.expect → p.opc ≠ 1 → p.opc ≠ 2 → p.opc ≠ 3 → x.expect < 2 ^ 32 - 1 →
          ∃ t, exec (.dataFlit e f) s = .next t ∧ t.mem = s.mem ∧ t.cores = s.cores ∧
          (t.stream q c).expect = x.expect + 1 ∧ (t.net = s.net ++ [p] ∨ t.net = s.net)) ∧
        (x.opened = true → x.sinceAck < 15 → 2048 ≤ (p.eseq.toNat + 2 ^ 32 - x.expect) % 2 ^ 32 →
          ∃ t, exec (.dataFlit e f) s = .next t ∧ FabricOnly s t ∧ t.net = s.net ∧ (t.stream q c).expect = x.expect ∧
            (t.stream q c).buf = x.buf ∧
            (t.reg Reg.sylDupdrop).toNat = min (2 ^ 32 - 1) ((s.reg Reg.sylDupdrop).toNat + 1))) ∧
      (p.dpanel.toNat = s.ownId → p.opc.toNat ∈ [8, 9, 0xA, 0xB] → ∃ t, exec (.dataFlit e f) s = .next t ∧
        t = { s with links := t.links, net := s.net ++ [p] }) ∧
      (p.dpanel.toNat ≠ s.ownId → ∃ t, exec (.dataFlit e f) s = .next t ∧ FabricOnly s t ∧
        (p.opc ≠ 1 → p.opc ≠ 2 → p.opc ≠ 3 → t.net = s.net) ∧ t.homes.streams = s.homes.streams))

/-- Streams between panels (R291 to R296). OPEN and the OPEN_RSP that answers one start every class at ESEQ 0 and make the panel
reachable; STALE closes the streams, fails with cause 0x11 every copy that waits for the panel, and opens again. E2E_ACK drops what
it covers, and no other packet, from what is unacknowledged. A timeout resends the stream in order, and after RETRIES in a row the
panel is unreachable and its copies fail. The interval acknowledges an open stream. A packet that has waited goes to an escape
channel. A control packet whose ECRC fails has no effect but on the error register; another bad one is answered with ERR_RSP. -/
def Obligations.StreamsDeliverOnceInOrder : Prop :=
  (∀ (s : State) (p : Packet),
    let q := p.spanel.toNat
    let idle := ∀ c < 4, (s.stream q c).waiting = []
    let failsCopies (t : State) : Prop := ∀ k, ((s.core k).copies.map (·.id)).Nodup → ∀ y ∈ (s.core k).copies,
      (∃ r ∈ y.reqs, r.panel = q) → k < 39168 → ∃ z ∈ (t.core k).copies, z.id = y.id ∧ z.failed = true
    (∀ i ∈ [((8 : BitVec 4), Instr.e2eAck p), (9, .openStream p), (0xA, .openRsp p), (0xB, .stale p)],
      (p.opc ≠ i.1 → p.opc ≠ 0 → p.opc ≠ 4 → exec i.2 s = .next s) ∧
      (p.opc = i.1 → BitVec.ofNat 32 (ecrcOf p) ≠ p.ecrc → ∃ t, exec i.2 s = .next t ∧
        t = { s with net := s.net.erase p, regs := t.regs }) ∧
      (p.opc = i.1 → BitVec.ofNat 32 (ecrcOf p) = p.ecrc → packetOk p = false → p.spanel.toNat < 4096 →
        Answers i.2 s p (.err 0x07) (fun u => u = { s with net := s.net.erase p, regs := u.regs }))) ∧
    (Good 9 p → idle → ∃ t, exec (.openStream p) s = .next t ∧
      t = { s with net := s.net.erase p, homes := t.homes, links := t.links } ∧
      (∀ c < 4, t.stream q c = { Stream.reset with opened := true }) ∧ t.homes.unreach = s.homes.unreach.erase q ∧
      (∀ c q', q' ≠ q → q' < 4096 → c < 4 → t.stream q' c = s.stream q' c) ∧
      (∀ port, OnePort s q port → SentOn s t port q 0xA)) ∧
    (Good 0xA p → idle → ∃ t, exec (.openRsp p) s = .next t ∧
      t = { s with net := s.net.erase p, homes := t.homes } ∧
      ((s.stream q 0).opening = true → ∀ c < 4, t.stream q c = { Stream.reset with opened := true }) ∧
      ((s.stream q 0).opening = false → t.homes = s.homes)) ∧
    (Good 0xB p → ∃ t, exec (.stale p) s = .next t ∧ t.mem = s.mem ∧ failsCopies t ∧
      (∀ c < 4, let x := t.stream q c
        x.opened = false ∧ x.opening = true ∧ x.una = [] ∧ x.waiting = (s.stream q c).waiting) ∧
      (∀ port, OnePort s q port → SentOn s t port q 9)) ∧
    (Good 8 p → idle → ∃ t, exec (.e2eAck p) s = .next t ∧
      t = { s with net := s.net.erase p, homes := t.homes, freeCtr := s.freeCtr + 1 } ∧
      let c := p.attr.toNat % 4
      let cum := p.eseq.toNat
      let covers (e : Packet × Nat) : Prop := (cum + 2 ^ 32 - e.1.eseq.toNat) % 2 ^ 32 < 2 ^ 31 ∨
        ∃ i < 64, p.addr.getLsbD i = true ∧ e.1.eseq.toNat = (cum + 1 + i) % 2 ^ 32
      (∀ e, e ∈ (t.stream q c).una ↔ e ∈ (s.stream q c).una ∧ ¬ covers e) ∧
      (∀ c' < 4, c' ≠ c → t.stream q c' = s.stream q c') ∧
      let w := s.e2eWindow
      let cw := sget w s.homes.cws q
      let cw' := sget w t.homes.cws q
      (s.throttling = true → cw' = cw) ∧ (s.throttling = false → p.tag = 0 → cw' = min (cw + 4096) w) ∧
      (s.throttling = false → p.tag ≠ 0 → cw' = cw ∨ cw' = max (cw - cw / 8) 16384))) ∧
  (∀ (s : State) (panel : Fin 4096) (cls : BitVec 2),
    let q := panel.val
    let x := s.stream q cls.toNat
    (x.opened = false → exec (.e2eAckInterval panel cls) s = .next s) ∧
    (x.opened = true → ∃ t, exec (.e2eAckInterval panel cls) s = .next t ∧ t = { s with homes := t.homes, links := t.links } ∧
      t.stream q cls.toNat = { x with marks := 0, sinceAck := 0 } ∧ (∀ port, OnePort s q port → SentOn s t port q 8)) ∧
    (x.una = [] → exec (.e2eTimeout panel cls) s = .next s) ∧
    (x.una ≠ [] → x.timeouts + 1 < max 1 (s.regF Reg.pkfE2e 20 4) → ∃ t, exec (.e2eTimeout panel cls) s = .next t ∧
      FabricOnly s t ∧ t.net = s.net ∧ (t.stream q cls.toNat).timeouts = x.timeouts + 1 ∧
      (t.stream q cls.toNat).una.map (·.1.eseq) = x.una.map (·.1.eseq) ∧ ∀ e ∈ (t.stream q cls.toNat).una, e.1.resend = true) ∧
    (x.una ≠ [] → max 1 (s.regF Reg.pkfE2e 20 4) ≤ x.timeouts + 1 → ∃ t, exec (.e2eTimeout panel cls) s = .next t ∧
      q ∈ t.homes.unreach ∧ t.links = s.links ∧ t.mem = s.mem ∧
      ∀ k < 39168, ((s.core k).copies.map (·.id)).Nodup → ∀ y ∈ (s.core k).copies, (∃ r ∈ y.reqs, r.panel = q) →
        ∃ z ∈ (t.core k).copies, z.id = y.id ∧ z.failed = true)) ∧
  (∀ (s : State) (port : Fin 32) (p : Packet),
    let l := s.link (.sys port)
    let esc := s.regF (Reg.sylRoute p.dpanel.toNat) 24 5
    (p ∉ l.held ∨ p.esc = true → exec (.escapeWait port p) s = .next s) ∧
    (∀ o : Fin 32, p ∈ l.held → p.esc = false → esc = o.val → o ≠ port → ∃ t, exec (.escapeWait port p) s = .next t ∧
      t = { s with links := t.links, homes := t.homes } ∧ (t.link (.sys port)).held = l.held.erase p ∧
      ∃ p' : Packet, p'.esc = true ∧ p'.payload = p.payload ∧ p'.addr = p.addr ∧ p'.eseq = p.eseq ∧
        ((t.link (.sys o)).held = (s.link (.sys o)).held ++ [p'] ∨
          (t.link (.sys o)).replay = (s.link (.sys o)).replay ++ packetFlits p' (s.link (.sys o)).sendSeq)))

/-- The store for other panels' positions (R419, Tables 16-14 and 16-15). OPEN reserves room for a generation, and refuses with
reason 0x01 where there is none; STORE_PUT writes into the open generation, with 0x02 where it is unknown and 0x04 out of range;
COMMIT completes the generation when its totals match, and discards it with 0x03 when they do not; DROP discards one generation or
every one; QUERY answers the newest complete header records; STORE_GET answers what was put in a complete generation. -/
def Obligations.StoreKeepsGenerations : Prop :=
  ∀ (s : State) (p : Packet),
    let k := storeKey p
    let gens := (s.store k).gens
    let fn := p.attr.toNat % 16
    let kind := p.addr.toNat / 2 ^ 60
    let gen := p.addr.toNat / 2 ^ 56 % 16
    let off := p.addr.toNat % 2 ^ 56
    let n := 8 * wordsField p
    let hdr := p.payload.take 32
    let word (o m : Nat) : Nat := leNat ((p.payload.drop o).take m)
    let sends (i : Instr) (opc : BitVec 4) (attr : Nat) (pay : List Byte) (m : State → Prop) : Prop :=
      ∃ u, exec i s = .next (u.inject (.io s.mcIo) (respond s.ownId p opc attr pay)) ∧ u.mem = s.mem ∧ u.cores = s.cores ∧
        u.hbm = s.hbm ∧ m u
    let kept (u : State) : Prop := u.stores = s.stores
    let others (u : State) : Prop := ∀ j, j ≠ k → u.store j = s.store j
    let refuses (i : Instr) (reason : Nat) (m : State → Prop) : Prop := sends i 7 (0x07 + 256 * reason) [] m
    let acks (i : Instr) (m : State → Prop) : Prop := sends i 6 0 [] m
    let inside (g : StoreGen) : Prop :=
      (kind = 1 ∧ off + n ≤ leNat ((g.hdr.drop 16).take 8)) ∨ (kind = 2 ∧ off + n ≤ 68 * 1024) ∨
        (kind = 3 ∧ off + n ≤ max g.progLen (leNat ((g.hdr.drop 28).take 4))) ∨ ((kind = 4 ∨ kind = 5) ∧ off + n ≤ 3072 * 2 ^ 30)
    (∀ i ∈ [((1 : Nat), Instr.storeCtlOpen p), (2, .storeCtlCommit p), (3, .storeCtlDrop p), (4, .storeCtlQuery p)],
      p.opc ≠ 0xF ∨ fn ≠ i.1 → exec i.2 s = .next s) ∧
    (p.opc ≠ 0 → p.opc ≠ 4 → (p.opc ≠ 0xD → exec (.storePut p) s = .next s) ∧ (p.opc ≠ 0xE → exec (.storeGet p) s = .next s)) ∧
    (Good 0xF p → fn = 1 →
      let room := s.regF Reg.pstore 0 7 ≠ 0 ∧ s.storeRoom (word 16 8 + word 28 4 + word 24 4 * 2 ^ 21) = true
      (¬ room → refuses (.storeCtlOpen p) 1 kept) ∧
      (room → acks (.storeCtlOpen p) (fun u => others u ∧
        (u.store k).base = (s.store k).base ∧
        ∃ g, (u.store k).gens = g :: gens.filter (fun g => g.complete) ∧
          g.gen = word 0 4 ∧ g.hdr = hdr ∧ g.complete = false ∧ g.bytes = [] ∧ g.core = 0 ∧ g.prog = 0 ∧ g.delta = 0))) ∧
    (Good 0xD p →
      (gens.find? (fun g => !g.complete && g.gen % 16 == gen) = none → refuses (.storePut p) 2 kept) ∧
      (∀ g, gens.find? (fun g => !g.complete && g.gen % 16 == gen) = some g →
        (¬ inside g → refuses (.storePut p) 4 kept) ∧
        (inside g → (gens.filter (fun x => x = g)) = [g] → acks (.storePut p) (fun u => others u ∧
          ∃ h ∈ (u.store k).gens, h.gen = g.gen ∧ h.hdr = g.hdr ∧ h.complete = false ∧
            (∀ i (hi : i < n) (hp : i < p.payload.length), rd h.bytes (kind * 2 ^ 56 + off + i) = p.payload[i]) ∧
            (∀ a, a < kind * 2 ^ 56 + off ∨ kind * 2 ^ 56 + off + n ≤ a → rd h.bytes a = rd g.bytes a) ∧
            h.core = g.core + (if kind = 1 then n else 0) ∧ h.prog = g.prog + (if kind = 3 then n else 0) ∧
            (u.store k).gens.length = gens.length)))) ∧
    (Good 0xF p → fn = 2 →
      (gens.find? (fun g => !g.complete && g.gen == word 0 4) = none → refuses (.storeCtlCommit p) 2 kept) ∧
      (∀ g, gens.find? (fun g => !g.complete && g.gen == word 0 4) = some g →
        let totals := g.core = word 16 8 ∧ g.prog = word 28 4 ∧ g.delta = word 24 4
        (¬ totals → refuses (.storeCtlCommit p) 3 (fun u => others u ∧ (u.store k).gens = gens.filter (fun x => x != g))) ∧
        (totals → acks (.storeCtlCommit p) (fun u => others u ∧
          ∃ h, (u.store k).gens = h :: (gens.filter (fun x => x.complete)).take 1 ∧ h.gen = g.gen ∧ h.complete = true ∧
            h.hdr = hdr ∧ (word 28 4 ≠ 0 → h.bytes = g.bytes ∧ h.progLen = word 28 4))))) ∧
    (Good 0xF p → fn = 3 → acks (.storeCtlDrop p) (fun u => others u ∧
      (word 0 4 = 0xFFFFFFFF → u.store k = Store.reset) ∧
      (word 0 4 ≠ 0xFFFFFFFF → (u.store k).gens = gens.filter (fun g => g.gen != word 0 4) ∧
        (u.store k).base = (s.store k).base))) ∧
    (Good 0xF p → fn = 4 →
      (gens.filter (fun g => g.complete) = [] → refuses (.storeCtlQuery p) 2 kept) ∧
      (∀ g h l, gens.filter (fun g => g.complete) = g :: h :: l → g.hdr.length = 32 → h.hdr.length = 32 →
        sends (.storeCtlQuery p) 5 8 (g.hdr ++ h.hdr) kept)) ∧
    (Good 0xE p →
      (gens.find? (fun g => g.complete && g.gen % 16 == gen) = none → refuses (.storeGet p) 2 kept) ∧
      (∀ g, gens.find? (fun g => g.complete && g.gen % 16 == gen) = some g →
        (¬ inside g → refuses (.storeGet p) 4 kept) ∧
        (inside g → kind ≠ 4 → wordsField p % 8 = 0 →
          sends (.storeGet p) 5 (wordsField p) (rdN g.bytes (kind * 2 ^ 56 + off) n) kept)))

/-- Failures and repair of fabric links (R279 to R281, R295, Table 11-6). A failed photonic pair stops and moves to its detour tile,
or is down where none qualifies; a failed port, or a trained one without light, reads as failed; another link is marked failed; a
mesh link is left to quarantine. A link that retrains stops, a port from up or narrowed only, and runs again on its live lanes when it
has; a port that keeps fewer than 8 lanes is failed. In a handover tile B drops the incomplete packet and answers the number of its last complete one, and tile
A sends what follows on the detour, on escape channel 0. -/
def Obligations.FailedLinksTakeTheirDetour : Prop :=
  (∀ (s : State) (e : LinkEnd) (lanes : Nat),
    let l := s.link e
    (e.isMesh = true → exec (.fabricLinkFailed e) s = .next s ∧ exec (.retraining e) s = .next s ∧
      exec (.retrainComplete e lanes) s = .next s) ∧
    (∀ t u : Fin 12, e = .photon t u →
      (t = u ∨ 2 ≤ s.plinkState t u → exec (.fabricLinkFailed e) s = .next s) ∧
      (t ≠ u → s.plinkState t u < 2 →
        let s0 := s.setPair t u 3 0xFF
        (∀ c, s0.detourTile t u = some c → ∃ r, exec (.fabricLinkFailed e) s = .next r ∧
          r = { s with links := r.links, regs := r.regs } ∧ r.plinkState t u = 2 ∧ r.plinkState u t = 2 ∧
          r.regF (Reg.plink t u) 8 8 = c ∧ r.regF (Reg.plink u t) 8 8 = c ∧
          (r.link e).stopped = true ∧ (r.link (.photon u t)).stopped = true ∧ (r.link e).replay = l.replay ∧ (r.link e).held = l.held) ∧
        (s0.detourTile t u = none → ∃ r, exec (.fabricLinkFailed e) s = .next r ∧
          r.plinkState t u = 3 ∧ r.plinkState u t = 3 ∧ (r.link e).failed = true ∧ (r.link e).held = [] ∧ r.mem = s.mem ∧
          r.cores = s.cores)) ∧
      (exec (.retraining e) s = .next (s.modLink e (fun k => { k with stopped := true }))) ∧
      (l.stopped = true → s.plinkState t u < 2 → lanes ≠ 0 → t ≠ u → ∃ r, exec (.retrainComplete e lanes) s = .next r ∧
        r = { s with links := r.links, regs := r.regs } ∧ (r.link e).stopped = false ∧
        r.plinkState t u = (if lanes < 128 then 1 else 0) ∧ r.regF (Reg.plink t u) 0 8 = min lanes 128)) ∧
    (∀ p : Fin 32, e = .sys p →
      (∃ r, exec (.fabricLinkFailed e) s = .next r ∧ r.regF (Reg.sylPort p) 28 4 = 4 ∧ r.mem = s.mem ∧ r.cores = s.cores) ∧
      let st := s.regF (Reg.sylPort p) 28 4
      (st ≠ 2 → st ≠ 3 → exec (.retraining e) s = .next s) ∧
      (st = 2 ∨ st = 3 → ∃ r, exec (.retraining e) s = .next r ∧ r = { s with links := r.links, regs := r.regs } ∧
        r.regF (Reg.sylPort p) 28 4 = 1 ∧ (r.link e).stopped = true ∧ (r.link e).replay = l.replay) ∧
      (st ≠ 1 ∨ l.stopped = false → exec (.retrainComplete e lanes) s = .next s) ∧
      (st = 1 → l.stopped = true → 8 ≤ lanes → l.held = [] → ∃ r, exec (.retrainComplete e lanes) s = .next r ∧
        r = { s with links := r.links, regs := r.regs } ∧ r.regF (Reg.sylPort p) 28 4 = (if lanes < 16 then 3 else 2) ∧
        r.regF (Reg.sylPort p) 16 5 = min lanes 16 ∧
        r.link e = { l with stopped := false, txSlot := 0, rxSlot := 0, wrong := 0 }) ∧
      (st = 1 → l.stopped = true → lanes < 8 → ∃ r, exec (.retrainComplete e lanes) s = .next r ∧ r.regF (Reg.sylPort p) 28 4 = 4) ∧
      (s.regF (Reg.sylPort p) 28 4 ∈ [1, 2, 3] → ∃ r, exec (.noLight p) s = .next r ∧ r.regF (Reg.sylPort p) 28 4 = 4 ∧ r.mem = s.mem) ∧
      (s.regF (Reg.sylPort p) 28 4 ∉ [1, 2, 3] → exec (.noLight p) s = .next s)) ∧
    (e.isMesh = false → (∀ t u, e ≠ .photon t u) → (∀ p, e ≠ .sys p) →
      exec (.fabricLinkFailed e) s = .next (s.modLink e (fun k => { k with failed := true })) ∧
      exec (.retraining e) s = .next (s.modLink e (fun k => { k with stopped := true })) ∧
      ((∀ d dir near, e = .edge d dir near → d.val * 4 + dir.idx ∉ s.rails.stopped) → l.held = [] →
        exec (.retrainComplete e lanes) s = .next (s.modLink e (fun k => { k with stopped := false }))))) ∧
  (∀ (s : State) (a b : Fin 12),
    let la := LinkEnd.photon a b
    let lb := LinkEnd.photon b a
    (∃ r, exec (.handoverRequest a b) s = .next r ∧ r = { s with links := r.links, answer := leBytes 4 (s.link lb).done } ∧
      (r.link lb).asm = [] ∧ (r.link lb).done = (s.link lb).done ∧ (a ≠ b → r.link la = s.link la)) ∧
    (∀ ackseq, s.plinkState a b ≠ 2 ∨ (s.link la).stopped = false → exec (.handoverReply a b ackseq) s = .next s) ∧
    (∀ (ps : List Packet) (h : List Packet) (c : Fin 12), s.plinkState a b = 2 → (s.link la).stopped = true →
      s.regF (Reg.plink a b) 8 8 = c.val → c ≠ a → c ≠ b → a ≠ b →
      (∀ p ∈ ps ++ h, p.payload.length = 64 * p.len.toNat) →
      (s.link la).replay = ps.flatMap (fun p => packetFlits p 0) → (s.link la).held = h →
      (s.link la).sendSeq = (s.link la).replay.length → (s.link (.photon a c)).stopped = true →
      ∃ r, exec (.handoverReply a b 0) s = .next r ∧ r = { s with links := r.links } ∧
        (r.link la).replay = [] ∧ (r.link la).stopped = false ∧
        (r.link (.photon a c)).held.map (fun p : Packet => { p with mark := false }) =
          ((s.link (.photon a c)).held ++ (ps ++ h).map (fun p : Packet => { p with esc := true })).map (fun p : Packet => { p with mark := false })))

/-! ### Memory stacks -/

/-- Near-memory jobs (R240 to R246, Tables 9-5 to 9-7). With no queued job, or eight running, nothing starts. A job that a check
refuses has no effect on memory: its window write is answered with the cause of its reason, which MEM_NMERR records while it is
free. An exchange of one element stores the old target element at the output and the source element at the target, and no other byte;
how many elements are done as a job starts is free (log entry 112), and completing it does the others. The oldest running job is completed
with an acknowledgement and counted. -/
def Obligations.NearMemoryJobsRunInOrder : Prop :=
  ∀ (s : State) (st : Fin 48),
    let swaps (j : Job) (pd pt ps : Nat) : Prop :=
      let r := bytesAt j.pkt.payload 0 64
      let req := s.requester j.pkt
      ∃ pi i, s.jobCheck st req r = none ∧ JobRec.op r = 4 ∧ JobRec.count r = 1 ∧ JobRec.atype r = 1 ∧ JobRec.isz r = 8 ∧
        s.place req (JobRec.idx r) = .hbm pi ∧ s.place req (JobRec.src r) = .hbm ps ∧ s.place req (JobRec.dst r) = .hbm pd ∧
        i = leNat (rdN s.mem pi 8) ∧ i < JobRec.limit r ∧ s.place req (jobRow r i) = .hbm pt ∧ pd ≠ pt ∧
        ∀ a ∈ [pi, ps, pd, pt], a % 8 = 0 ∧ s.granted req (sliceOf a) true = true ∧ s.stackLost (stackOf a) = false ∧
          stackOf a ∉ s.rails.stacksOff ∧ s.writeHeld a = false ∧ s.hbm.ueAt (a / 64) = false ∧ s.hbm.missAt (a / 64) = false ∧
          a / 64 ∉ s.hbm.poison
    let swapped (t : State) (pd pt ps : Nat) : Prop :=
      rdN t.mem pd 8 = rdN s.mem pt 8 ∧ rdN t.mem pt 8 = rdN s.mem ps 8 ∧
        ∀ a, (a < pd ∨ pd + 8 ≤ a) → (a < pt ∨ pt + 8 ≤ a) → rd t.mem a = rd s.mem a
    ((s.stack st).queue = [] ∨ 8 ≤ (s.stack st).running.length → exec (.jobStart st) s = .next s) ∧
    (∀ j js, (s.stack st).queue = j :: js → (s.stack st).running.length < 8 →
      let r := bytesAt j.pkt.payload 0 64
      let req := s.requester j.pkt
      (∀ reason, s.jobCheck st req r = some reason → ∃ u : State, exec (.jobStart st) s = .next (u.answerTo j.pkt (.err (jobCause reason))) ∧
        u.mem = s.mem ∧ (u.stack st).queue = js ∧ (u.stack st).running = (s.stack st).running ∧
        ((s.reg Reg.nmerr).getLsbD 31 = false → u.regF Reg.nmerr 31 1 = 1 ∧ u.regF Reg.nmerr 8 8 = reason ∧ u.regF Reg.nmerr 25 6 = st.val)) ∧
      (∀ pd pt ps, swaps j pd pt ps → ∃ t n, exec (.jobStart st) s = .next t ∧ (t.stack st).queue = js ∧
        (t.stack st).running = (s.stack st).running ++ [{ j with next := n }] ∧ n ≤ 1 ∧ (n = 0 → t.mem = s.mem) ∧
        (n = 1 → swapped t pd pt ps))) ∧
    ((s.stack st).running = [] → exec (.jobComplete st) s = .next s) ∧
    (∀ j js, (s.stack st).running = j :: js →
      let ends (m : State → Prop) : Prop := ∃ u : State, exec (.jobComplete st) s = .next (u.answerTo j.pkt .ok) ∧ m u ∧
        (u.stack st).running = js ∧ (u.stack st).queue = (s.stack st).queue ∧
        (u.reg Reg.nmdone).toNat = min (2 ^ 32 - 1) ((s.reg Reg.nmdone).toNat + 1)
      (JobRec.count (bytesAt j.pkt.payload 0 64) ≤ j.next → ends (fun u => u.mem = s.mem)) ∧
      (∀ pd pt ps, swaps j pd pt ps → j.next = 0 → ends (fun u => swapped u pd pt ps)))

/-! ### The tempo network -/

/-- Arrivals (R15, R35 to R39, R44, R50). A message that fails its check, is no ARRIVE, names no partition that runs, or has a node without
clock or supply at an end changes nothing; one that its child has not sent does not either, and a repetition is acknowledged and
not acted on. A core's arrival is taken from it, acknowledged, and its operand combined at its die hub with what has arrived there; while
one more is awaited nothing is sent on. The last one sends the combined operand, in its 128 bits, to the tile hub. At the panel hub of an
unlinked partition the last arrival issues the release: it is due when its hold-back reference has passed, the largest delay below and
the issue guard, every child is sent it with the result and the overflow flag that the combination gives, and combining begins
again; an abort halt on its way stops that (R54). -/
def Obligations.ArrivalsCombineUpToTheRelease : Prop :=
  ∀ (s : State) (m : TempoMsg),
    let g := m.group.toNat
    let runs (p : Nat) : Prop := (s.part p).st = 1 ∨ (s.part p).st = 5
    (∀ hub child, m.ok = false ∨ m.ty ≠ 1 ∨ s.partOfMsg m = none ∨ s.nodeDown hub.key = true ∨ s.nodeDown child.key = true →
      exec (.arrive hub child m) s = .next s) ∧
    (∀ hub child p, s.partOfMsg m = some p → ¬ runs p → exec (.arrive hub child m) s = .next s) ∧
    (∀ (hub child : TNode) p, m.ok = true → m.ty = 1 → s.partOfMsg m = some p → runs p →
      s.nodeDown hub.key = false → s.nodeDown child.key = false → 39168 ≤ child.key → child.key < 40000 →
      s.parentOf p child.key = some hub.key →
      (s.sentMsg child.key hub.key m = none → exec (.arrive hub child m) s = .next s) ∧
      (∀ u, s.sentMsg child.key hub.key m = some u → s.hasActed hub.key child.key m = true → ∃ t, exec (.arrive hub child m) s = .next t ∧
        t = { s with tnodes := t.tnodes } ∧ (∀ n q, t.combOf p q n = s.combOf p q n) ∧
        ∃ a, (t.tnode hub.key).out = (s.tnode hub.key).out ++ [(child.key, a)] ∧ a.ty = 4 ∧ a.seq = m.seq ∧ a.group = m.group)) ∧
    (∀ (k : Fin 39168) (d : Fin 144) p a, m.ok = true → m.ty = 1 → s.partOfMsg m = some p → runs p →
      d.val = dieOf k → s.partOfCore k = some p → (s.die d).dark = false → (s.die d).stopped = false →
      k.val ∉ (s.combOf p g (keyDie d)).arrived →
      (s.core k).arrHeld.find? (fun a => a.group == g) = some a → s.canSend k a = true →
      (s.tnode k).unacked = [] → m.seq = BitVec.ofNat 16 (s.nextSeq k (keyDie d) g) → s.hasActed (keyDie d) k m = false →
      sget 0 (s.tnode (keyDie d)).ports (2 * k) = 0 → sget 0 (s.tnode (keyDie d)).ports (2 * k + 1) = 0 →
      let c := s.combOf p g (keyDie d)
      let op := s.redOp p g
      let v : BitVec 128 := if 4 ≤ op ∧ op ≤ 7 then a.value.zeroExtend 128 else a.value.signExtend 128
      let total := if c.any then combine128 op c.value v else v
      let awaited := ∃ e ∈ s.expected p g (keyDie d), e ≠ k.val ∧ s.hasArrival p g (keyDie d) e = false
      let taken (t : State) : Prop := t.mem = s.mem ∧ t.core k = (if g = 0 ∧ (s.core k).stopReq = true then
            { s.core k with arrHeld := (s.core k).arrHeld.erase a, st := 6, stopReq := false, fflagsReg := (s.core k).fflags }
          else { s.core k with arrHeld := (s.core k).arrHeld.erase a }) ∧
        (∀ j, j ≠ k.val → t.core j = s.core j) ∧ t.parts = s.parts ∧
        (∃ w, (t.tnode k).unacked = [w] ∧ w.peer = keyDie d ∧ w.msg.value = a.value ∧ w.msg.seq = m.seq) ∧
        (∃ b, (t.tnode (keyDie d)).out = (s.tnode (keyDie d)).out ++ [(k.val, b)] ∧ b.ty = 4 ∧ b.seq = m.seq) ∧
        t.combOf p g (keyDie d) = ⟨c.arrived ++ [k.val], true, total, c.delay⟩
      (awaited → ∃ t, exec (.arrive (.die d) (.core k) m) s = .next t ∧ taken t ∧
        (t.tnode (keyDie d)).unacked = (s.tnode (keyDie d)).unacked) ∧
      (¬ awaited → k.val ∈ s.expected p g (keyDie d) → g = 0 → ∃ t, exec (.arrive (.die d) (.core k) m) s = .next t ∧ taken t ∧
        ∃ u, (t.tnode (keyDie d)).unacked = (s.tnode (keyDie d)).unacked ++ [u] ∧ u.peer = keyTile (tileOfDie d) ∧ u.resends = 0 ∧
          u.msg.ty = 1 ∧ u.msg.group = 0 ∧ u.msg.hi ++ u.msg.value = total ∧ u.msg.proxy = false ∧ u.msg.move = (s.part p).move ∧
          u.msg.seq = BitVec.ofNat 16 (s.nextSeq (keyDie d) (keyTile (tileOfDie d)) 0))) ∧
    (∀ (c : Fin 12) p u, m.ok = true → m.ty = 1 → m.group = 0 → s.partOfMsg m = some p → runs p →
      (s.part p).parent = none → keyTile c ∉ (s.combOf p 0 keyPanel).arrived → s.sentMsg (keyTile c) keyPanel m = some u →
      s.hasActed keyPanel (keyTile c) m = false →
      keyTile c ∈ s.expected p 0 keyPanel → (∀ e ∈ s.expected p 0 keyPanel, e = keyTile c ∨ e ∈ (s.combOf p 0 keyPanel).arrived) →
      let h := s.combOf p 0 keyPanel
      let v : BitVec 128 := u.msg.hi ++ u.msg.value
      let all : Comb := ⟨h.arrived ++ [keyTile c], h.any || !u.msg.proxy,
        (if u.msg.proxy then h.value else if h.any then combine128 (s.redOp p 0) h.value v else v),
        max h.delay (u.msg.delay.toNat + s.portDelay keyPanel (keyTile c))⟩
      let r := finalResult (s.redOp p 0) all
      (∀ src, (s.part p).haltPend = some (.abort, src) → ∃ t, exec (.arrive .panel (.tile c) m) s = .next t ∧
        t.parts = s.parts ∧ t.cores = s.cores ∧ t.mem = s.mem ∧ t.combOf p 0 keyPanel = all) ∧
      ((∀ src, (s.part p).haltPend ≠ some (.abort, src)) → s.releasePending p = none → (s.part p).move ≠ 0xFFFFFFFFFFFF →
        (s.part p).castling = none →
        ∃ t, exec (.arrive .panel (.tile c) m) s = .next t ∧
          (t.part p).move = (s.part p).move ∧ t.combOf p 0 keyPanel = Comb.empty ∧
          (∃ x, t.releasePending p = some x ∧ x.value = r.1 ∧ x.ovf = r.2 ∧ x.move = (s.part p).move ∧ x.late = false ∧
            x.hold = all.delay + issueGuard (s.linkLevels p)) ∧
          ∀ e ∈ s.expected p 0 keyPanel, ∃ u ∈ (t.tnode keyPanel).unacked, u.peer = e ∧ u.msg.ty = 2 ∧ u.msg.group = 0 ∧
            u.msg.move = (s.part p).move ∧ u.msg.value = r.1 ∧ u.msg.ovf = r.2))

/-- Releases (R31, R39, R45, R50, R51, R95). A release that its parent has not issued changes nothing, and a second copy is acknowledged
only. The first copy is scheduled by the hold-back that remains after the path delay of its port, or acted on at once where it is late,
which is counted where the release was resent to this node; either way it goes on to the children. At its instant the panel hub
advances the partition's move number and its own copy of it, delivers the result, and ends the partition's work at a stop halt or at the
final release; a core resumes with the next move number and the result, its copy counters at zero, its
registers and its memory as they were; after END it is idle, under a stop halt it halts; at the first release of a launch it begins at its
class's entry with registers, accumulators, tiles and flags cleared. A group release leaves the move alone. An
acknowledged message is forgotten; one without acknowledgement is sent again, a RELEASE as late, of which the sender records the move and
the child, and after the eighth time the partition halts. -/
def Obligations.ReleasesReachEveryMemberOnce : Prop :=
  (∀ (s : State) (node : TNode) (m : TempoMsg),
    let n := node.key
    let g := m.group.toNat
    (m.ok = false ∨ m.ty ≠ 2 ∨ s.partOfMsg m = none ∨ s.nodeDown n = true → exec (.release node m) s = .next s) ∧
    (∀ p up, m.ok = true → m.ty = 2 → s.partOfMsg m = some p → s.parentOf p n = some up → up < 40000 → s.nodeDown n = false →
      (s.nodeDown up = true ∨ s.sentMsg up n m = none → exec (.release node m) s = .next s) ∧
      (∀ u, s.nodeDown up = false → s.sentMsg up n m = some u →
        (s.hasActed n up m = true → ∃ t, exec (.release node m) s = .next t ∧ t = { s with tnodes := t.tnodes } ∧
          (∃ a, (t.tnode n).out = (s.tnode n).out ++ [(up, a)] ∧ a.ty = 4 ∧ a.seq = m.seq ∧ a.group = m.group) ∧
          ∀ k, (t.tnode k).sched = (s.tnode k).sched ∧ (t.tnode k).unacked = (s.tnode k).unacked) ∧
        (s.hasActed n up m = false → u.msg.late = false → u.resends = 0 → u.msg.lvl = (3 : BitVec 3) →
          ∃ t, exec (.release node m) s = .next t ∧ t = { s with tnodes := t.tnodes } ∧
            t.hasActed n up m = true ∧
            (∃ x, (t.tnode n).sched.find? (fun e => e.1 == pgKey p g) = some (pgKey p g, x) ∧ x.value = u.msg.value ∧ x.ovf = u.msg.ovf ∧
              x.late = false ∧ x.hold = u.msg.delay.toNat - sget 0 (s.tnode n).path (6 + bitN m.port) ∧ x.move = u.msg.move) ∧
            (∀ e ∈ s.expected p g n, ∃ v ∈ (t.tnode n).unacked, v.peer = e ∧ v.msg.ty = 2 ∧ v.msg.value = u.msg.value ∧
              v.msg.move = u.msg.move)) ∧
        (s.hasActed n up m = false → u.msg.late = true ∨ 0 < u.resends → s.releasePending p = none → (s.core n).rx = [] →
          ∃ t, exec (.release node m) s = .next t ∧ (t.part p).late = true ∧ (g ≠ 0 ∨ 39168 ≤ n → t.mem = s.mem) ∧
            (t.reg Reg.alignLost).toNat = min (2 ^ 32 - 1) ((s.reg Reg.alignLost).toNat + bitN (decide (0 < u.resends))) ∧
            (n < 39168 → g ≠ 0 → sget 0 (t.core n).gres g = u.msg.value))))) ∧
  (∀ (s : State) (node : TNode) (part : Fin 16) (group : BitVec 6),
    let p := part.val
    let g := group.toNat
    let q := s.part p
    let run := exec (.releaseInstant node part group) s
    (s.nodeDown node.key = true ∨ (∀ e ∈ (s.tnode node.key).sched, e.1 ≠ pgKey p g) → run = .next s) ∧
    (∀ r, node = .panel → g = 0 → (s.tnode keyPanel).sched.find? (fun e => e.1 == pgKey p g) = some (pgKey p g, r) →
      (s.combOf p 0 keyPanel).arrived = [] → q.recov = none → (∀ x ∈ s.gambits, x.part ≠ p) → ∃ t, run = .next t ∧
        (t.part p).move = r.move + 1 ∧ (t.part p).result = r.value ∧ (t.part p).ovf = r.ovf ∧
        sget 0 (t.tnode keyPanel).moves p = r.move + 1 ∧ t.releasePending p = none ∧
        (t.part p).st = (if r.stop then 3 else if r.final then 0 else if q.opens r.move = true ∧ q.st ≠ 5 then 1 else q.st)) ∧
    (∀ (k : Fin 39168) r, node = .core k → s.nodeDown k = false →
      (s.tnode k.val).sched.find? (fun e => e.1 == pgKey p g) = some (pgKey p g, r) →
      let c := s.core k
      (g ≠ 0 → ∃ t, run = .next t ∧ t.mem = s.mem ∧ t.core k = { c with
          gres := sput 0 c.gres g r.value, arrOut := c.arrOut &&& ~~~BitVec.ofNat 64 (2 ^ g)
          govf := if r.ovf then c.govf ||| BitVec.ofNat 64 (2 ^ g) else c.govf &&& ~~~BitVec.ofNat 64 (2 ^ g) } ∧
        ∀ j, j ≠ k.val → t.core j = s.core j) ∧
      (g = 0 → (∀ x, s.releasePending p = some x → x.move ≠ r.move) → c.rx = [] → s.clocked k = true →
        (c.st = 3 ∨ c.st = 4 ∨ c.st = 2 → q.opens r.move = false →
          ∃ t, run = .next t ∧ t.mem = s.mem ∧
          let d := t.core k
          d.move = r.move + 1 ∧ sget 0 d.gres 0 = r.value ∧ d.govf.getLsbD 0 = r.ovf ∧ (∀ i, d.getC i = 0) ∧
          d.xplyDone = false ∧ d.fresh = true ∧ d.arrOut.getLsbD 0 = false ∧ d.sw.active = false ∧ d.sw.standing = false ∧
          d.st = (if q.st = 3 then 6 else if c.ended then 2 else 3) ∧
          (∀ i, d.getX i = c.getX i) ∧ (∀ i, d.getV i = c.getV i) ∧ (∀ i, d.getP i = c.getP i) ∧ d.pc = c.pc ∧ d.acc = c.acc ∧
          ∀ j, j ≠ k.val → t.core j = s.core j) ∧
        (∀ cr, q.opens r.move = true → c.st ≠ 0 → q.st ≠ 3 → s.classOf k = some cr →
          ∃ t, run = .next t ∧ t.mem = s.mem ∧
          let d := t.core k
          d.st = 3 ∧ d.pc = cr.entry ∧ d.move = r.move + 1 ∧ d.cycle = 0 ∧ d.acc = [] ∧ d.cell = [] ∧ d.ended = false ∧ d.loops = [] ∧
          d.fault = Exc.none ∧ (∀ i, d.getX i = 0) ∧ (∀ i, d.getC i = 0) ∧ d.v = [] ∧ d.p = [] ∧ d.a = [] ∧ d.fflags = 0 ∧ d.rmode = 0 ∧
          d.active = Tile.empty ∧ d.shadow = Tile.empty ∧ ∀ j, j ≠ k.val → t.core j = s.core j)))) ∧
  (∀ (s : State) (node peer : TNode) (m : TempoMsg) (q : BitVec 16) (g : BitVec 6),
    let mine (u : Unacked) : Bool := u.peer == peer.key && u.msg.group == g && u.msg.seq == q
    let un := (s.tnode node.key).unacked
    let came := 40000 ≤ peer.key ∨ ∃ e ∈ (s.tnode peer.key).out, e.1 = node.key ∧ e.2.ty = 4 ∧ e.2.group = m.group ∧ e.2.seq = m.seq
    (m.ok = false ∨ m.ty ≠ 4 ∨ ¬ came ∨ s.nodeDown node.key = true → exec (.tempoAck node peer m) s = .next s) ∧
    (m.ok = true → m.ty = 4 → m.seq = q → m.group = g → came → s.nodeDown node.key = false → ∃ t, exec (.tempoAck node peer m) s = .next t ∧
      t = { s with tnodes := t.tnodes } ∧ (t.tnode node.key).unacked = un.filter (fun u => !mine u) ∧
      ∀ n, n ≠ node.key → (t.tnode n).unacked = (s.tnode n).unacked ∧ (n ≠ peer.key → t.tnode n = s.tnode n)) ∧
    (s.nodeDown node.key = true ∨ un.find? mine = none → exec (.tempoResend node peer q g) s = .next s) ∧
    (∀ u, s.nodeDown node.key = false → un.filter mine = [u] → u.resends < 8 → ∃ t, exec (.tempoResend node peer q g) s = .next t ∧
      t = { s with tnodes := t.tnodes, links := t.links } ∧ (peer.key < 40000 → t.links = s.links) ∧
      (t.tnode node.key).unacked.filter mine = [{ u with resends := u.resends + 1, msg := { u.msg with late := u.msg.late || u.msg.ty == 2 } }] ∧
      (t.tnode node.key).unacked.length = un.length ∧
      (u.msg.ty = 2 → (t.tnode node.key).late = some (u.msg.move, peer.key))) ∧
    (∀ u p, s.nodeDown node.key = false → un.filter mine = [u] → 8 ≤ u.resends → s.partOfMsg u.msg = some p →
      ∃ t, exec (.tempoResend node peer q g) s = .next t ∧
      (t.part p).haltPend.map (·.1) = some .abort ∧ (t.tnode node.key).unacked = un.filter (fun u => !mine u) ∧ t.cores = s.cores ∧
      t.mem = s.mem))

/-- Tempo slots of a system-link port (R40 to R42, R287). A slot on a link that failed or stopped is ignored; one that fails its
correction or its CRC only counts. A type that disagrees with the count is noted, and a second one in a row retrains the port. A
tempo slot whose type is right is repeated on the other port of a pass-through record, and where its port serves its tree's path to a
parent or child panel it acts as the command of its message does at the panel hub, on the state in which it is counted.
Calibration (R43, R46, R65). ECHO_REQ answers the parent's time count unchanged. ECHO_RSP gives the port delay: half of what the
round trip leaves after the turnaround, in ps from steps of 1/64 of a 625 ps period; a first or recalibrated one is taken at once,
a small change at the next release, and one beyond the limit marks the port and is reported. CAL gives a child its port delay and
its path delays. A re-measurement sends the time count. RECAL calibrates the trees of the partitions that run nothing, leaves those that
run to their next launch, and the bit reads 1 while anything waits. A message of another type, or one that fails its check, changes nothing. -/
def Obligations.TempoPortsCarryAndMeasure : Prop :=
  (
  ∀ (s : State) (port : Fin 32) (slot : BitVec 288) (rx : SlotRx),
    let l := s.link (.sys port)
    let isT := l.rxSlot % 64 = 63
    let counted := s.modLink (.sys port) (fun k => { k with rxSlot := k.rxSlot + 1 })
    let run := exec (.tempoSlot port slot rx) s
    (l.failed = true ∨ l.stopped = true → run = .next s) ∧
    (l.failed = false → l.stopped = false →
      (rx.fecOk = false ∨ flitOk slot = false → run = .next counted) ∧
      (rx.fecOk = true → flitOk slot = true → ¬ (flitByte slot 33 % 8 = 5 ↔ isT) → ∃ t, run = .next t ∧
        t = { s with links := t.links, regs := t.regs } ∧ (t.link (.sys port)).rxSlot = l.rxSlot + 1 ∧
        (l.wrong = 0 → t.regs = s.regs ∧ (t.link (.sys port)).wrong = 1) ∧
        (1 ≤ l.wrong → t.regF (Reg.sylPort port) 28 4 = 1 ∧ (t.link (.sys port)).stopped = true)) ∧
      (rx.fecOk = true → flitOk slot = true → flitByte slot 33 % 8 = 5 → isT →
        let m := slotMsg slot true
        ∃ u, u = { s with links := u.links } ∧ u.link (.sys port) = { l with rxSlot := l.rxSlot + 1, wrong := 0 } ∧
          (s.repeatPorts m port = [] →
            (s.partOfMsg m = none → run = .next u) ∧
            (∀ p, s.partOfMsg m = some p → s.pathPeer p port = none → run = .next u) ∧
            (∀ p q, s.partOfMsg m = some p → s.pathPeer p port = some q →
              let peer : TNode := .remote (Fin.ofNat _ q)
              let up := (s.part p).parent = some q
              (m.ty = 4 → run = exec (.tempoAck .panel peer m) u) ∧
              (¬ up → (m.ty = 1 → run = exec (.arrive .panel peer m) u) ∧ (m.ty = 6 → run = exec (.echoRsp .panel peer m rx.now) u) ∧
                (m.ty ∈ [2, 5, 7, 9] → run = .next u)) ∧
              (up → (m.ty = 2 → run = exec (.release .panel m) u) ∧ (m.ty = 5 → run = exec (.echoReq .panel peer m) u) ∧
                (m.ty = 9 → run = exec (.cal .panel m) u) ∧ (m.ty ∈ [1, 6, 8] → run = .next u)) ∧
              (m.ty = 3 → m.value = 1 → s.hasActed keyPanel (keyRemote q) m = false → ∃ t, run = .next t ∧
                (t.part p).haltPend.map (·.1) = some .abort ∧ t.cores = s.cores ∧ t.mem = s.mem))) ∧
          (∀ o : Fin 32, s.repeatPorts m port = [o.val] → o ≠ port → s.partOfMsg m = none → ∃ t, run = .next t ∧ t = { s with links := t.links } ∧
            (t.link (.sys o)).lane = (s.link (.sys o)).lane ++ [m])) ∧
      (rx.fecOk = true → flitOk slot = true → flitByte slot 33 % 8 ≠ 5 → ¬ isT → ∃ t, run = .next t ∧ t = { s with links := t.links } ∧
        t.link (.sys port) = { l with rxSlot := l.rxSlot + 1, wrong := 0 }))) ∧
  (
  ∀ (s : State) (node other : TNode) (m : TempoMsg) (now : W64),
    let n := node.key
    let t0 := s.tnode n
    let port := bitN m.port
    let down := s.nodeDown n = true
    (m.ok = false ∨ m.ty ≠ 5 ∨ node = other ∨ down → exec (.echoReq node other m) s = .next s) ∧
    (m.ok = true → m.ty = 5 → node ≠ other → ¬ down → ∃ t, exec (.echoReq node other m) s = .next t ∧
      t = { s with answer := leBytes 8 m.value.toNat, links := t.links } ∧ (other.key < 40000 → t.links = s.links)) ∧
    (∀ p, node = other ∨ down → exec (.reMeasurement node other p now) s = .next s) ∧
    (∀ p, node ≠ other → ¬ down → ∃ t, exec (.reMeasurement node other p now) s = .next t ∧
      t = { s with answer := leBytes 8 now.toNat ++ [if p then 1 else 0], links := t.links } ∧ (other.key < 40000 → t.links = s.links)) ∧
    (m.ok = false ∨ m.ty ≠ 6 ∨ down → exec (.echoRsp node other m now) s = .next s) ∧
    (m.ok = true → m.ty = 6 → ¬ down →
      let key := other.key * 2 + port
      let d := ((now - m.value).toNat * 625 / 64 - 20000) / 2
      let old := sget 0 t0.ports key
      let far := s.regF Reg.calCtl 0 16 < (max old d - min old d)
      ∃ t, exec (.echoRsp node other m now) s = .next t ∧ t.mem = s.mem ∧ t.cores = s.cores ∧ (∀ j, j ≠ n → t.tnode j = s.tnode j) ∧
        (old = 0 ∨ key ∈ t0.recal → sget 0 (t.tnode n).ports key = d ∧ (t.tnode n).recal = t0.recal.erase key ∧ t.events = s.events) ∧
        (old ≠ 0 → key ∉ t0.recal → far → key ∈ (t.tnode n).recal ∧ (t.tnode n).ports = t0.ports) ∧
        (old ≠ 0 → key ∉ t0.recal → ¬ far → sget 0 (t.tnode n).fresh key = d ∧ (t.tnode n).ports = t0.ports ∧
          t = { s with tnodes := t.tnodes })) ∧
    (m.ok = false ∨ m.ty ≠ 9 ∨ down → exec (.cal node m) s = .next s) ∧
    (m.ok = true → m.ty = 9 → ¬ down → ∃ t, exec (.cal node m) s = .next t ∧
      t = { s with tnodes := t.tnodes, regs := t.regs, links := t.links } ∧
      (m.group = 0 → sget 0 (t.tnode n).path (2 * (nodeLevel n + 1) + port) = m.delay.toNat ∧
        sget 0 (t.tnode n).ports (131072 + port) = m.delay.toNat) ∧
      (1 ≤ m.group.toNat → m.group.toNat ≤ 6 →
        sget 0 (t.tnode n).path (2 * m.group.toNat + port) = m.delay.toNat + sget 0 t0.ports (131072 + port))) ∧
    (let runs (q : Part) : Prop := q.st = 1 ∨ q.st = 5
     ∃ t, exec .recal s = .next t ∧ t = { s with tnodes := t.tnodes, regs := t.regs, parts := t.parts, links := t.links, freeCtr := t.freeCtr } ∧
      (∀ j, t.part j = { s.part j with recal := (s.part j).height != 0 && ((s.part j).st == 1 || (s.part j).st == 5) }) ∧
      ((∀ e ∈ s.parts, e.2.height = 0 ∨ runs e.2) → t.tnodes = s.tnodes ∧ t.links = s.links ∧ t.freeCtr = s.freeCtr) ∧
      ((∃ e ∈ s.parts, e.2.height ≠ 0 ∧ ¬ runs e.2) → t.regF Reg.calStatus 31 1 = 1) ∧
      ((∃ e ∈ t.tnodes, e.2.recal ≠ []) ∨ (∃ e ∈ t.parts, e.2.recal = true) → t.regF Reg.calCtl 31 1 = 1) ∧
      ((∀ e ∈ t.tnodes, e.2.recal = []) → (∀ e ∈ t.parts, e.2.recal = false) → t.regF Reg.calCtl 31 1 = 0)))

/-- Stalemate, census and halts (R53 to R56, Table 2-5). At the larger of the timeouts of the register and the program the detector of the
root halts a partition that runs by abort and begins its census; a halt already on its way leaves it alone, and a member panel's detector
does nothing. A die hub with supply and clock answers with the cores that have not arrived. An answer, or an
absence, of a die or of a child panel joins the census, and at the root the census block is written at its address; the last answer
posts STALEMATE. The host's halts are raised where the partition exists, an abort over a waiting stop and not the other way round.
A halt that has travelled the tree (R53, R54, R95, R96, R406 to R412). Nothing happens in a partition that is idle or halted but that
the halt is forgotten; at a member panel the halt goes up first. A stop halt asks every running core to halt at its next release and
changes no register. An abort halt
discards what its cores have in flight; the host's ends with every core halted, the launch complete with HALTED, and the
partition abort-halted with the source in its status. -/
def Obligations.StalematesAndHaltsReachTheTree : Prop :=
  (
  ∀ (s : State) (part : Fin 16) (ms : Nat),
    let p := part.val
    let q := s.part p
    let limit := max (s.regF (Reg.pstale p) 0 24) ((q.prog.map (·.stale)).getD 0)
    ((q.st ≠ 1 ∧ q.st ≠ 5) ∨ q.haltPend ≠ none ∨ q.parent ≠ none ∨ ms < limit → exec (.stalemateDetector ⟨part, ms⟩) s = .next s) ∧
    (q.st = 1 ∨ q.st = 5 → q.haltPend = none → q.parent = none → limit ≤ ms → ∃ t, exec (.stalemateDetector ⟨part, ms⟩) s = .next t ∧
      t = { s with parts := t.parts, links := t.links } ∧ (q.children = [] → t.links = s.links) ∧
      (t.part p).haltPend = some (.abort, .stalemate) ∧ (t.part p).st = 4 ∧
      (∃ c, (t.part p).census = some c ∧ c.addr = censusBase p ∧ c.entries = [] ∧ c.move = q.move ∧ c.silent = 0 ∧
        c.panels = q.children.map (·.1) ∧ (∀ d, d ∈ c.waiting ↔ d ∈ q.dies ∧ s.groupCores p 0 d ≠ [])) ∧ (t.part p).move = q.move ∧
      ∀ j, j ≠ p → t.part j = s.part j) ∧
    (∀ d : Fin 144, ((s.die d).dark = true ∨ (s.die d).stopped = true → exec (.censusReq d part) s = .next s) ∧
      ((s.die d).dark = false → (s.die d).stopped = false → ∃ gs, exec (.censusReq d part) s =
        .next { s with answer := leBytes 8 gs ++ leBytes 32 (s.missing p 0 d).toNat } ∧
        ∀ g < 64, gs.testBit g = true ↔ s.missing p g d ≠ 0)) ∧
    (∀ (d : DieRef) (g : BitVec 6) (heat : Bool) (bits : BitVec 256),
      (q.census = none → exec (.censusRsp part d g heat bits) s = .next s ∧ exec (.censusAbsent part d) s = .next s) ∧
      (∀ c, q.census = some c →
        let own := d.panel.val = s.ownId
        let records (i : Instr) (c' : Census) : Prop :=
          ∃ t, exec i s = .next t ∧ (t.part p).census = some c' ∧ t.cores = s.cores ∧ (t.part p).haltPend = q.haltPend ∧
            (q.parent ≠ none → t.mem = s.mem ∧ t.events = s.events) ∧
            (q.parent = none → t.mem = wrN s.mem c.addr (s.censusBytes p c') ∧
              (c'.waiting = [] → c'.panels = [] → c.waiting ≠ [] ∨ c.panels ≠ [] →
                t.events.map (·.type) = s.events.map (·.type) ++ [0x0002] ∨ t.host.evLost = s.host.evLost + 1) ∧
              (c'.waiting ≠ [] ∨ c'.panels ≠ [] → t.events = s.events))
        let entry : CensusEntry := ⟨d.panel.val, d.die.val, g.toNat, if heat then 2 else 0, bits⟩
        (own → records (.censusRsp part d g heat bits) { c with waiting := c.waiting.erase d.die.val, entries := c.entries ++ [entry] }) ∧
        (¬ own → records (.censusRsp part d g heat bits) { c with panels := c.panels.erase d.panel.val, entries := c.entries ++ [entry] }) ∧
        (own → d.die.val ∈ c.waiting → records (.censusAbsent part d) { c with
          waiting := c.waiting.erase d.die.val, entries := c.entries ++ [⟨s.ownId, d.die.val, 0, 1, s.missing p 0 d.die⟩] }) ∧
        (¬ own → d.panel.val ∈ c.panels → records (.censusAbsent part d) { c with panels := c.panels.erase d.panel.val, silent := c.silent + 1 }) ∧
        ((own ∧ d.die.val ∉ c.waiting) ∨ (¬ own ∧ d.panel.val ∉ c.panels) → exec (.censusAbsent part d) s = .next s))) ∧
    (q.height = 0 → exec (.tpoPhaltAbort part) s = .next s ∧ exec (.tpoPhaltStop part) s = .next s) ∧
    (q.height ≠ 0 → ∃ t u, exec (.tpoPhaltAbort part) s = .next t ∧ exec (.tpoPhaltStop part) s = .next u ∧
      t = { s with parts := t.parts } ∧ u = { s with parts := u.parts } ∧
      (t.part p).haltPend = (match q.haltPend with | some (.abort, x) => some (.abort, x) | _ => some (.abort, .host)) ∧
      (u.part p).haltPend = (match q.haltPend with | none => some (.stop, .host) | some x => some x) ∧
      ∀ j, j ≠ p → t.part j = s.part j ∧ u.part j = s.part j)) ∧
  (
  ∀ (s : State) (part : Fin 16) (kind : HaltKind) (src : HaltSrc) (tests : TestReport),
    let p := part.val
    let q := s.part p
    let run := exec (.tempoHalt part kind src tests) s
    let ordered := q.parent = none ∨ q.haltRoot = true
    (q.height = 0 → run = .next s) ∧
    (q.height ≠ 0 → q.st ≠ 1 → q.st ≠ 4 → q.st ≠ 5 → ∃ t, run = .next t ∧ t = { s with parts := t.parts } ∧
      (t.part p).haltPend = none ∧ (t.part p).st = q.st ∧ (t.part p).move = q.move ∧ ∀ j, j ≠ p → t.part j = s.part j) ∧
    (q.height ≠ 0 → q.st = 1 ∨ q.st = 4 ∨ q.st = 5 → ¬ ordered → ∃ t, run = .next t ∧
      t = { s with parts := t.parts, tnodes := t.tnodes, links := t.links } ∧ (t.part p).st = q.st ∧ (t.part p).haltPend ≠ none) ∧
    (q.height ≠ 0 → q.st = 1 ∨ q.st = 5 → ordered → (q.haltPend = none ∧ kind = .stop) ∨ q.haltPend.map (·.1) = some .stop →
      ∃ t, run = .next t ∧ t = { s with cores := t.cores, parts := t.parts, tnodes := t.tnodes, links := t.links } ∧ (t.part p).move = q.move ∧
        (q.children = [] → t.tnodes = s.tnodes ∧ t.links = s.links) ∧
        ∀ k, let c := s.core k
          let arrived := c.st = 4 ∧ ∀ a ∈ c.arrHeld, a.group ≠ 0
          (k ∈ q.sites → arrived → t.core k = { c with st := 6, fflagsReg := c.flagsNow }) ∧
          (k ∈ q.sites → ¬ arrived → c.st = 3 ∨ c.st = 4 → t.core k = { c with stopReq := true }) ∧
          (k ∉ q.sites ∨ (c.st ≠ 3 ∧ c.st ≠ 4) → t.core k = c)) ∧
    (q.height ≠ 0 → q.st = 1 ∨ q.st = 4 ∨ q.st = 5 → ordered → s.releasePending p = none →
      (q.haltPend = none ∧ kind = .abort ∧ src = .host) ∨ q.haltPend = some (.abort, .host) →
      q.positions = [] → s.coolForReplay p = true → ∃ t, run = .next t ∧ t.mem = s.mem ∧
        (t.part p).st = 2 ∧ (t.part p).haltPend = none ∧ (t.part p).haltSrc = 1 ∧ (t.part p).move = q.move ∧ (t.part p).recov = none ∧
        (∀ l, q.launch = some l → ∃ l', (t.part p).launch = some l' ∧ l'.status = 8 ∧ l'.closing = true) ∧
        (∀ k ∈ q.sites, (t.core k).copies = [] ∧ (t.core k).queue = [] ∧ (t.core k).arrHeld = [] ∧ (t.core k).setRun = none ∧
          (t.core k).st = (if (s.core k).st = 3 ∨ (s.core k).st = 4 ∨ (s.core k).st = 2 then 6 else (s.core k).st) ∧
          ∀ i, (t.core k).getX i = (s.core k).getX i) ∧
        (∀ k, k ∉ q.sites → t.core k = s.core k)))

/-! ### The host interface -/

/-- Rings (R312 to R318, R322). A doorbell word that a ring's host has raised within its bounds is taken: the submission tail moves
to it and the descriptors up to it are fetched in order from their slots; a word that is out of bounds halts the ring and is
reported (ring 0 is not halted, and a word is reported once); one that has not changed brings nothing. HIF_WAKE reads one ring's word at
once, a poll reads every ring's after the
host's stores have reached its memory, and doubles its interval, up to 64 µs, while nothing happens. Events are posted in
order, 32 bytes with their phase and the number that counts lost events too; one that finds its ring full is counted as lost. -/
def Obligations.RingsFetchAndPostInOrder : Prop :=
  let sub (a b : Nat) : Nat := (a + 2 ^ 32 - b) % 2 ^ 32
  let word (s : State) (r : Nat) : Nat := rdLe s.hostMem (s.doorbellAddr r) 8
  let valid (s : State) (r : Nat) : Prop :=
    let g := s.ring r
    let a := word s r % 2 ^ 32
    let b := word s r / 2 ^ 32
    sub a g.posted ≤ 2 ^ g.log2 ∧ sub b g.cqh ≤ sub g.posted g.cqh
  let ahead (s : State) (r : Nat) : Prop := sub (s.ring r).sqt (s.ring r).posted ≤ sub (word s r % 2 ^ 32) (s.ring r).posted
  let changed (s : State) (r : Nat) : Prop := word s r ≠ (s.ring r).sqt + 2 ^ 32 * (s.ring r).cqh
  let fetched (s : State) (r : Nat) (t : State) : Prop :=
    let g := s.ring r
    let h := t.ring r
    let n := sub (word s r % 2 ^ 32) g.sqt
    h.sqt = word s r % 2 ^ 32 ∧ h.cqh = word s r / 2 ^ 32 ∧ h.fetched = h.sqt ∧ h.cmds.length = g.cmds.length + n ∧
      (∀ i < g.cmds.length, h.cmds[i]? = g.cmds[i]?) ∧
      (∀ i < n, let seq := (g.sqt + i) % 2 ^ 32
        h.cmds[g.cmds.length + i]? = some ⟨seq, rdN s.hostMem (g.sq + seq % 2 ^ g.log2 * 64) 64, false, false, 0, [], none⟩) ∧
      h.halted = false ∧ h.posted = g.posted
  (∀ (s : State) (v : W32),
    let r := v.toNat
    let g := s.ring r
    (s.hifOn = false ∨ s.host.down = true ∨ 1024 ≤ r → exec (.hifWake v) s = .next s) ∧
    (s.hifOn = true → s.host.down = false → r < 1024 → g.live = true → word s r < 2 ^ 64 → g.sqt < 2 ^ 32 → g.cqh < 2 ^ 32 →
      g.posted < 2 ^ 32 → g.log2 ≤ 16 →
      (¬ changed s r → exec (.hifWake v) s = .next { s with host := { s.host with poll := 1 } }) ∧
      (changed s r → valid s r → ¬ ahead s r → sub g.sqt g.posted ≤ 2 ^ g.log2 → g.halted = false → g.fetched = g.sqt →
        ∃ t, exec (.hifWake v) s = .next t ∧ (t.ring r).sqt = word s r % 2 ^ 32 ∧ (t.ring r).cqh = word s r / 2 ^ 32 ∧
          (t.ring r).cmds = g.cmds ∧ (t.ring r).halted = false ∧ t.hostMem = s.hostMem) ∧
      (changed s r → valid s r → ahead s r → g.halted = false → g.fetched = g.sqt → ∃ t, exec (.hifWake v) s = .next t ∧ fetched s r t ∧
        t = { s with rings := t.rings, host := { s.host with poll := 1 } } ∧ ∀ j, j ≠ r → t.ring j = s.ring j) ∧
      (changed s r → ¬ valid s r → r ≠ 0 → g.halted = false → ∃ t, exec (.hifWake v) s = .next t ∧ (t.ring r).halted = true ∧
        (t.ring r).cmds = g.cmds ∧ (t.ring r).sqt = g.sqt ∧ t.hostMem = s.hostMem ∧
        (t.events.map (·.type) = s.events.map (·.type) ++ [0x00F0] ∨ t.host.evLost = s.host.evLost + 1)) ∧
      (changed s r → ¬ valid s r → r = 0 →
        (BitVec.ofNat 64 (word s 0) ∈ g.badWords → exec (.hifWake v) s = .next { s with host := { s.host with poll := 1 } }) ∧
        (BitVec.ofNat 64 (word s 0) ∉ g.badWords → ∃ t, exec (.hifWake v) s = .next t ∧
          t.ring 0 = { g with badWords := g.badWords ++ [BitVec.ofNat 64 (word s 0)] } ∧ t.hostMem = s.hostMem ∧
          (t.events.map (·.type) = s.events.map (·.type) ++ [0x00F3] ∨ t.host.evLost = s.host.evLost + 1))))) ∧
  (∀ (s : State) (stores : List HostStore),
    let s0 : State := { s with hostMem := stores.foldl (fun m w => wrN m w.addr.toNat w.bytes) s.hostMem }
    (s.hifOn = false ∨ s.host.down = true → exec (.doorbellPoll stores) s = .next s0) ∧
    (s.hifOn = true → s.host.down = false → (∀ e ∈ s.rings, (s.ring e.1).live = true ∧ ¬ changed s0 e.1 ∧ e.2.cmds = []) →
      (∀ e ∈ s.rings, (s.ring e.1).sqt < 2 ^ 32) → s.host.evh = rdLe s0.hostMem (s.pair Reg.evhdLo) 8 →
      exec (.doorbellPoll stores) s = .next { s0 with host := { s.host with poll := min 64 (2 * s.host.poll) } }) ∧
    (∀ r g, s.hifOn = true → s.host.down = false → s.rings = [(r, g)] → g.live = true → changed s0 r → valid s0 r → ahead s0 r → g.halted = false →
      g.fetched = g.sqt → g.sqt < 2 ^ 32 → g.cqh < 2 ^ 32 → g.posted < 2 ^ 32 → g.log2 ≤ 16 → g ≠ Ring.reset →
      ∃ t, exec (.doorbellPoll stores) s = .next t ∧ fetched s0 r t ∧ t.host.poll = 1 ∧ t.hostMem = s0.hostMem ∧ t.mem = s.mem)) ∧
  (∀ s : State,
    let lg := max 4 (min (s.regF Reg.evcfg 0 5) 16)
    let n := s.host.evPosted % 2 ^ 32
    let full := 2 ^ lg ≤ sub n s.host.evh
    let bytes (e : EventRec) : List Byte := leBytes 2 e.type.toNat ++ [BitVec.ofNat 8 (1 - n / 2 ^ lg % 2), 0] ++ leBytes 4 (s.host.evSeq % 2 ^ 32) ++
      leBytes 2 (e.part * 4096 + s.ownId) ++ leBytes 6 e.move.toNat ++ bytesAt e.detail 0 16
    let posts (e : EventRec) (rest : List EventRec) (lost : Nat) : Prop := ∃ t, exec .postEvent s = .next t ∧
      t.hostMem = wrN s.hostMem (s.pair Reg.evqLo + n % 2 ^ lg * 32) (bytes e) ∧ t.events = rest ∧
      t.host.evPosted = s.host.evPosted + 1 ∧ t.host.evSeq = s.host.evSeq + 1 ∧ t.host.evLost = lost ∧ t.mem = s.mem ∧ t.rings = s.rings
    (s.host.down = true → exec .postEvent s = .next s) ∧
    (∀ e es, s.events = e :: es → s.host.down = false → s.hifOn = false →
      exec .postEvent s = .next (if s.host.started = true then { s with events := es } else s)) ∧
    (s.host.down = false → s.hifOn = true →
      (s.host.evLost = 0 ∨ full → s.events = [] → exec .postEvent s = .next s) ∧
      (¬ full → 0 < s.host.evLost → posts ⟨0x00F1, 0, 0, leBytes 4 s.host.evLost⟩ s.events 0) ∧
      (∀ e es, s.events = e :: es → ¬ full → s.host.evLost = 0 → posts e es 0) ∧
      (∀ e es, s.events = e :: es → full → exec .postEvent s =
        .next { s with events := es, host := { s.host with evLost := s.host.evLost + 1, evSeq := s.host.evSeq + 1 } })))

/-- Completions (R318, Table 12-6). Only the oldest command of a ring is posted, once it has finished and while the completion ring
has room: one entry of 32 bytes at its slot, TAG, SEQ, STATUS, FLAGS with PHASE 1 − ((SEQ >> n) & 1), EP and HALTED, the ring, the
target, DETAIL and SUMMARY, and the ring's vector where the command asks for one; no other ring, no memory of the panel and no core
changes. -/
def Obligations.CompletionsArePostedAsTheirTableGives : Prop :=
  ∀ (s : State) (r : Fin 1024),
    let sub (a b : Nat) : Nat := (a + 2 ^ 32 - b) % 2 ^ 32
    let g := s.ring r
    let run := exec (.postCompletion r) s
    (g.cmds = [] → run = .next s) ∧
    (∀ c cs, g.cmds = c :: cs →
      let room := g.live = true ∧ s.host.down = false ∧ sub c.seq g.cqh < 2 ^ g.log2
      (c.fin = none ∨ ¬ room → run = .next s) ∧
      (∀ st d su, c.fin = some (st, d, su) → room → ∃ t, run = .next t ∧
        let flags := (1 - c.seq / 2 ^ g.log2 % 2) + (if enPassant r c then 2 else 0) + (if c.stop = true ∧ st ≠ 0 ∧ r.val ≠ 0 then 4 else 0)
        t.hostMem = wrN s.hostMem (g.cq + c.seq % 2 ^ g.log2 * 32) (leBytes 4 (leAt c.desc 4 4) ++ leBytes 4 c.seq ++
          [BitVec.ofNat 8 st, BitVec.ofNat 8 flags] ++ leBytes 2 r ++ leBytes 2 (leAt c.desc 2 2) ++ leBytes 2 d ++ bytesAt su 0 16) ∧
        (t.ring r).cmds = cs ∧ (t.ring r).posted = (c.seq + 1) % 2 ^ 32 ∧ t.mem = s.mem ∧ t.cores = s.cores ∧
        (c.intr = true → g.vector < 2048 → (s.reg (Reg.msix + g.vector * 16 + 12)).getLsbD 0 = false → t.host.msix = s.host.msix ++ [g.vector]) ∧
        (c.intr = false → t.host.msix = s.host.msix) ∧
        ∀ j, j ≠ r.val → t.ring j = s.ring j))

/-- Every command of the rings (R307, R311, R321, R324). One that is not fetched, is of another opcode or subfunction, has started,
or may not start yet changes nothing. One that its ring does not take, whose reserved bits are set, or whose panel is no listed
member finishes as INVALID; for another panel that no port reaches it finishes with UNREACHABLE, else it is relayed and runs. A
command that finishes keeps its status, detail and summary until it is posted, and with STOP and an error it halts its ring, which
drops what it has fetched after it and not started; fetching goes on behind the failing command. On ring 0 STOP does nothing. A command
whose ring has been deleted finishes unseen (R335). -/
def Obligations.CommandsStartAndFinishByTheRules : Prop :=
  (∀ (s : State) (r : Ref), ∀ e ∈ ringCommands r,
    let op := e.1
    let i := e.2.2
    (s.cmd r = none → exec i s = .next s) ∧
    (∀ c, s.cmd r = some c →
      (c.op ≠ op ∨ e.2.1 c = false ∨ c.started = true ∨ s.mayStart r.ring.val c = false → exec i s = .next s) ∧
      (c.op = op → e.2.1 c = true → c.started = false → s.mayStart r.ring.val c = true →
        let bad := ringAccepts r.ring.val op = false ∨ leAt c.desc 1 1 / 16 ≠ 0 ∨ s.listed c.panel = false
        (bad → exec i s = .next (s.finish r.ring.val c.seq 1 0 [])) ∧
        (¬ bad → c.panel ≠ s.ownId → s.routable c.panel = false → exec i s = .next (s.finish r.ring.val c.seq 9 0 [])) ∧
        (¬ bad → c.panel ≠ s.ownId → s.routable c.panel = true → ∃ t, exec i s = .next t ∧ FabricOnly { s with rings := t.rings } t ∧
          t.ring r.ring.val = (s.modCmd r.ring.val c.seq (fun c => { c with started := true })).ring r.ring.val)))) ∧
  (∀ (s : State) (ring seq st d : Nat) (su : List Byte), (s.ring ring).cmds.find? (fun c => c.seq == seq) = none →
    s.finish ring seq st d su = s) ∧
  (∀ (s : State) (ring seq st d : Nat) (su : List Byte) (c : Cmd), 1024 ≤ ring → (s.ring ring).cmds.filter (fun c => c.seq == seq) = [c] →
    let t := s.finish ring seq st d su
    (t.ring ring).cmds = (s.ring ring).cmds.filter (fun c => c.seq != seq) ∧ t.hostMem = s.hostMem ∧ t.host = s.host ∧
    ∀ j, j ≠ ring → t.ring j = s.ring j) ∧
  (∀ (s : State) (ring seq st d : Nat) (su : List Byte) (c : Cmd), ring < 1024 → (s.ring ring).cmds.filter (fun c => c.seq == seq) = [c] →
    let t := s.finish ring seq st d su
    let done : Cmd := { c with started := true, fin := some (st, d, bytesAt su 0 16) }
    (t.ring ring).cmds.filter (fun c => c.seq == seq) = [done] ∧ t.mem = s.mem ∧ t.hostMem = s.hostMem ∧ t.cores = s.cores ∧
    (∀ j, j ≠ ring → t.ring j = s.ring j) ∧
    (c.stop = false ∨ st = 0 ∨ ring = 0 → (t.ring ring).cmds.length = (s.ring ring).cmds.length ∧ (t.ring ring).halted = (s.ring ring).halted) ∧
    (c.stop = true → st ≠ 0 → ring ≠ 0 → (t.ring ring).halted = true ∧ (t.ring ring).fetched = (seq + 1) % 2 ^ 32 ∧
      ∀ old new : List Cmd, (s.ring ring).cmds = old ++ c :: new →
        (t.ring ring).cmds = old ++ done :: new.filter (fun x => x.started)))

/-- Transfers of the host (R168, R320, Table 12-8). Bad operands are INVALID, a partition that does not admit the command is
STATE_CONFLICT, host memory beyond 2^57 and a refused range end with their status, all without an effect. A good COPY_IN into the
placed view of memory stores exactly the host's bytes, a good COPY_OUT exactly the panel's, and SUMMARY counts them; where the host
stops answering the bytes before are moved, and SUMMARY counts a prefix that was. SIGNAL stores its eight bytes at an address of the
host or of this panel's memory; to another panel it runs until that panel answers. NOP ends at once, QUERY answers the partition's and the panel's status. -/
def Obligations.HostCommandsMoveBytes : Prop :=
  ∀ (s : State) (r : Ref) (c : Cmd),
    let p := c.part
    let h := c.u64 8
    let a := c.u64 0x10
    let n := c.u32 0x18
    let same (u : State) : Prop := u = s
    let operands := a % 8 = 0 ∧ h % 8 = 0 ∧ a < 2 ^ 44 ∧ n % 8 = 0 ∧ 8 ≤ n ∧ (c.desc.drop 0x1C).all (· == 0) = true
    (∀ e ∈ [((1 : Nat), HostAns.ok, Instr.copyIn r .ok), (2, .ok, .copyOut r .ok)], Starts s e.1 r c →
      (¬ operands → Ends e.2.2 s r c 1 0 [] same) ∧
      (operands → s.admitted p e.1 c.target = false → Ends e.2.2 s r c 2 (s.stateDetail p) [] same) ∧
      (operands → s.admitted p e.1 c.target = true →
        (2 ^ 57 < h + n → Ends e.2.2 s r c 4 0 [] same) ∧
        (∀ st d, h + n ≤ 2 ^ 57 → s.rangeBad p a n (e.1 == 1) = some (st, d) → Ends e.2.2 s r c st d [] same))) ∧
    (operands → h + n ≤ 2 ^ 57 → s.rangeBad p a n true = none → 0x40000000000 ≤ a → a + n ≤ 0x70000000000 →
      (∀ i < n, s.stackLost (stackOf (a + i)) = false ∧ stackOf (a + i) ∉ s.rails.stacksOff ∧ s.writeHeld (a + i) = false) →
      (∀ x ∈ unitsOf a n, s.hbm.missAt x = false) →
      (Starts s 1 r c → s.admitted p 1 c.target = true → Ends (.copyIn r .ok) s r c 0 0 (leBytes 8 n) (fun u =>
        (∀ i < n, rd u.mem (a + i) = rd s.hostMem (h + i)) ∧ (∀ x, x < a ∨ a + n ≤ x → rd u.mem x = rd s.mem x) ∧
        u.hostMem = s.hostMem ∧ u.cores = s.cores)) ∧
      (∀ k, k < n → Starts s 1 r c → s.admitted p 1 c.target = true → ∃ m, k / 8 ≤ m ∧ 8 * m ≤ n ∧
        Ends (.copyIn r (.addrAt k)) s r c 4 0 (leBytes 8 (8 * m)) (fun u =>
          (∀ i < 8 * m, rd u.mem (a + i) = rd s.hostMem (h + i)) ∧ (∀ x, x < a ∨ a + n ≤ x → rd u.mem x = rd s.mem x) ∧
          u.hostMem = s.hostMem)) ∧
      (Starts s 2 r c → s.admitted p 2 c.target = true → (∀ x ∈ unitsOf a n, s.hbm.ueAt x = false ∧ x ∉ s.hbm.poison) →
        Ends (.copyOut r .ok) s r c 0 0 (leBytes 8 n) (fun u =>
          (∀ i < n, rd u.hostMem (h + i) = rd s.mem (a + i)) ∧ (∀ x, x < h ∨ h + n ≤ x → rd u.hostMem x = rd s.hostMem x) ∧
          u.mem = s.mem ∧ u.cores = s.cores))) ∧
    (Starts s 0x0B r c →
      let bytes := leBytes 8 (c.u64 0x10)
      (h % 8 ≠ 0 ∨ (c.desc.drop 0x18).all (· == 0) = false ∨ 3 ≤ h / 2 ^ 60 → Ends (.signal r) s r c 1 0 [] same) ∧
      (h % 8 = 0 → (c.desc.drop 0x18).all (· == 0) = true →
        (h / 2 ^ 60 = 1 → h / 2 ^ 57 % 8 = 0 → Ends (.signal r) s r c 0 0 [] (fun u => u = { s with hostMem := wrN s.hostMem (h % 2 ^ 57) bytes })) ∧
        (h / 2 ^ 60 = 1 → h / 2 ^ 57 % 8 ≠ 0 → Ends (.signal r) s r c 4 0 [] same) ∧
        (∀ pa, h / 2 ^ 60 < 3 → s.place (some p) h = .hbm pa → s.granted (some p) (sliceOf pa) true = true → s.stackLost (stackOf pa) = false →
          stackOf pa ∉ s.rails.stacksOff → s.writeHeld pa = false → s.hbm.missAt (unitOf pa) = false →
          s.localPlace (some p) pa = .hbm pa → Ends (.signal r) s r c 0 0 [] (fun u => u.mem = wrN s.mem pa bytes ∧ u.hostMem = s.hostMem)) ∧
        (∀ q x, h / 2 ^ 60 < 3 → s.place (some p) h = .remote q x →
          (s.routable q = false → Ends (.signal r) s r c 9 0 [] same) ∧
          (s.routable q = true → Goes (.signal r) s r c (fun u => u.mem = s.mem ∧ u.hostMem = s.hostMem ∧ u.cores = s.cores))) ∧
        (h / 2 ^ 60 ≠ 1 → h / 2 ^ 60 < 3 → s.place (some p) h = .bad → Ends (.signal r) s r c 4 1 [] same))) ∧
    (Starts s 0 r c →
      ((c.desc.drop 8).all (· == 0) = true → Ends (.commandNop r) s r c 0 0 [] same) ∧
      ((c.desc.drop 8).all (· == 0) = false → Ends (.commandNop r) s r c 1 0 [] same)) ∧
    (Starts s 0xA r c →
      (leAt c.desc 8 1 = 0 → (c.desc.drop 9).all (· == 0) = true → Ends (.queryPartition r) s r c 0 0
        (leBytes 4 (s.pstatus p) ++ leBytes 6 (s.part p).move.toNat ++ leBytes 4 (s.reg (Reg.pctx p)).toNat) same) ∧
      (2 ≤ leAt c.desc 8 1 → Ends (.queryPartition r) s r c 1 0 [] same) ∧
      (leAt c.desc 8 1 = 1 → (c.desc.drop 9).all (· == 0) = true → ∃ ranks, (∀ i < 16, ranks.testBit i = true ↔ s.dieHole i ≠ 15) ∧
        Ends (.queryPanel r) s r c 0 0 (leBytes 4 s.hifStatus ++ leBytes 2 ranks) same) ∧
      (leAt c.desc 8 1 = 1 → (c.desc.drop 9).all (· == 0) = false → Ends (.queryPanel r) s r c 1 0 [] same))

/-- Programs and launches (R32, R105, R106, R326, R327, Tables 3-21 and 12-8a). LOAD_PROGRAM of an image that a step refuses ends
with that step and stores nothing; for a good image every member core loses its program and reads STATE 1, and the command runs while the
program is broadcast. It ends with the partition's program and every logical place's class: its store, its
entry, STATE 2; or, where the band is broken meanwhile, at step 6 with no program (when a write fails is free, log entry 109). LAUNCH of a
partition that is idle or halted and holds a program runs; its first release, of the move as it stands, is issued as soon as every member
is ready, at once or at a later COMMAND_FINISHES;
where its dies have a fault that no recovery has taken, it begins with the halt for it; without a program, or while the partition runs, it is STATE_CONFLICT. WAIT_MOVE runs and notes whether the move is reached;
its timeout ends it while it is not. It finishes with the move, as a partition that no longer runs ends it with HALTED; a LAUNCH
finishes with HALTED or JOB_LOST at once, or with its result block stored and its summary once its last position is complete. -/
def Obligations.LaunchesRunPrograms : Prop :=
  ∀ (s : State) (r : Ref) (c : Cmd),
    let p := c.part
    let q := s.part p
    let same (u : State) : Prop := u = s
    (Starts s 3 r c →
      let b := rdN s.hostMem (c.u64 8 % 2 ^ 57) (c.u32 0x10)
      let good := (c.desc.drop 0x14).all (· == 0) = true ∧ c.u64 8 / 2 ^ 60 = 1 ∧ c.u64 8 / 2 ^ 57 % 8 = 0 ∧ s.admitted p 3 c.target = true
      ((c.desc.drop 0x14).all (· == 0) = false ∨ 2 ≤ c.u64 8 / 2 ^ 60 → Ends (.loadProgram r) s r c 1 0 [] same) ∧
      ((c.desc.drop 0x14).all (· == 0) = true → c.u64 8 / 2 ^ 60 < 2 → s.admitted p 3 c.target = false →
        Ends (.loadProgram r) s r c 2 (s.stateDetail p) [] same) ∧
      (∀ step, good → s.checkImage p (c.u32 0x10) b = .error step → Ends (.loadProgram r) s r c 6 step [] (fun u => u = s.freshen)) ∧
      ((c.desc.drop 0x14).all (· == 0) = true → c.u64 8 / 2 ^ 60 = 1 → c.u64 8 / 2 ^ 57 % 8 ≠ 0 → s.admitted p 3 c.target = true →
        Ends (.loadProgram r) s r c 4 0 [] same) ∧
      (∀ g, good → s.checkImage p (c.u32 0x10) b = .ok g → Goes (.loadProgram r) s r c (fun u =>
          (u.part p).prog = none ∧ (u.part p).loading = some ⟨g, c.u64 8, q.dies.filter (fun d => (s.die d).fenced)⟩ ∧ (u.part p).st = q.st ∧
          u.hostMem = s.hostMem ∧ ∀ k ∈ s.membersOf p, (u.core k).istore = [] ∧
            (u.core k).st = (if (s.core k).st = 7 ∨ (s.core k).st = 0 then (s.core k).st else 1)))) ∧
    (∀ l, s.cmd r = some c → c.op = 3 → c.panel = s.ownId → c.started = true → c.fin = none → q.loading = some l →
      let fails : Prop := Ends (.commandFinishes r) s r c 6 6 [] (fun u => (u.part p).loading = none ∧ (u.part p).prog = q.prog ∧
        ∀ k ∈ s.membersOf p, (u.core k).istore = [])
      (s.bandLost p l = true → fails) ∧
      (s.bandLost p l = false → if Config.writeFails s.freeCtr = true then fails else
        Ends (.commandFinishes r) s r c 0 0 (leBytes 2 l.prog.classes.length) (fun u =>
          (u.part p).prog = some l.prog ∧ (u.part p).loading = none ∧ (u.part p).st = q.st ∧ u.hostMem = s.hostMem ∧
          ∀ i cls cr k, i < q.height * 2048 → l.prog.cmap[i]? = some cls → l.prog.classes[cls]? = some cr →
            s.physOf ((q.first - 1) * 2048 + i) = some k →
            (u.core k).st = (if (s.core k).st = 7 then 7 else 2) ∧ (u.core k).cls = BitVec.ofNat 12 cls ∧ (u.core k).pc = cr.entry ∧
            (u.core k).istore = storeOf cr.bundles ∧ (u.core k).ended = false ∧ (u.core k).fault = Exc.none ∧
            (u.core k).active = Tile.empty ∧ (u.core k).shadow = Tile.empty))) ∧
    (Starts s 4 r c →
      (q.height ≠ 0 → s.launchOperands c = false → Ends (.launch r) s r c 1 0 [] same) ∧
      (s.launchOperands c = true → s.admitted p 4 c.target = false ∨ q.prog = none ∨ q.parent ≠ none →
        Ends (.launch r) s r c 2 (s.stateDetail p) [] same) ∧
      (s.launchOperands c = true → s.admitted p 4 c.target = true → q.prog ≠ none → q.parent = none → c.u64 0x20 < 2 ^ 57 →
        (∀ f, s.latent p = some f → Goes (.launch r) s r c (fun u => (u.part p).haltPend = some (.abort, f) ∧ (u.part p).move = q.move ∧
          (u.part p).st = 1)) ∧
        (s.latent p = none → q.castling = none → s.releasePending p = none → Goes (.launch r) s r c (fun u =>
          (u.part p).move = q.move ∧ (u.part p).st = 1 ∧ (u.part p).prog = q.prog ∧
          (∃ l, (u.part p).launch = some l ∧ l.ring = r.ring.val ∧ l.seq = c.seq ∧ l.begun = false ∧ l.closing = false ∧ l.first = q.move ∧
            l.seed = BitVec.ofNat 64 (c.u64 8)) ∧
          (s.launchReady p = false → u.releasePending p = none) ∧
          (s.launchReady p = true → q.move ≠ 0xFFFFFFFFFFFF → ∃ x, u.releasePending p = some x ∧ x.move = q.move ∧ x.stop = false ∧
            x.final = false))) ∧
        (s.latent p = none → q.castling = none → s.releasePending p = none → s.launchReady p = true → q.move = 0xFFFFFFFFFFFF →
          Goes (.launch r) s r c (fun u => (u.part p).haltPend = some (.abort, .exhausted) ∧ (u.part p).move = q.move)))) ∧
    (Starts s 5 r c → 2 ^ 48 ≤ c.u64 8 ∨ 2 ≤ c.u32 0x14 ∨ (c.desc.drop 0x18).all (· == 0) = false → Ends (.waitMove r) s r c 1 0 [] same) ∧
    (Starts s 5 r c → c.u64 8 < 2 ^ 48 → c.u32 0x14 < 2 → (c.desc.drop 0x18).all (· == 0) = true →
      (s.admitted p 5 c.target = false ∨ q.parent ≠ none → Ends (.waitMove r) s r c 2 (s.stateDetail p) [] same) ∧
      (s.admitted p 5 c.target = true → q.parent = none → Goes (.waitMove r) s r c (fun u => u = s.modCmd r.ring.val c.seq
        (fun d => { d with hit := decide (c.u64 8 ≤ q.move.toNat) })))) ∧
    (s.cmd r = some c → c.op = 5 → c.panel = s.ownId → c.started = true → c.fin = none →
      (0 < c.u32 0x10 → s.waitDone c = false → Ends (.waitMoveTimeout r) s r c 0x0C 0 [] same) ∧
      (c.u32 0x10 = 0 ∨ s.waitDone c = true → exec (.waitMoveTimeout r) s = .next s) ∧
      (s.waitDone c = true → Ends (.commandFinishes r) s r c 0 0 (leBytes 6 q.move.toNat) same) ∧
      (s.waitDone c = false → q.st = 1 → exec (.commandFinishes r) s = .next s) ∧
      (s.waitDone c = false → q.st ≠ 1 → Ends (.commandFinishes r) s r c 0x0F (s.stateDetail p) [] same)) ∧
    (∀ l, s.cmd r = some c → c.op = 4 → c.panel = s.ownId → c.started = true → c.fin = none → q.launch = some l → l.ring = r.ring.val →
      l.seq = c.seq →
      (l.closing = false → l.begun = true ∨ s.launchReady p = false → exec (.commandFinishes r) s = .next s.freshen) ∧
      (l.closing = false → l.begun = false → s.launchReady p = true → s.releasePending p = none → s.haltIs p .abort = false →
        q.castling = none → q.move ≠ 0xFFFFFFFFFFFF → ∃ t, exec (.commandFinishes r) s = .next t ∧ (t.part p).move = q.move ∧
          ∃ x, t.releasePending p = some x ∧ x.move = q.move ∧ x.late = false) ∧
      (l.closing = true → l.status = 8 ∨ l.status = 0xE → Ends (.commandFinishes r) s r c l.status 0 [] same) ∧
      (l.closing = true → l.status ≠ 8 → l.status ≠ 0xE → (∃ x ∈ q.positions, l.endMove.toNat ≤ x.move.toNat) →
        Ends (.commandFinishes r) s r c l.status 0 (leBytes 8 l.value.toNat ++ leBytes 6 l.endMove.toNat ++
          [BitVec.ofNat 8 ((if q.late then 1 else 0) + (if l.endOvf then 2 else 0) + (if l.recovered then 4 else 0)),
            BitVec.ofNat 8 (min 255 (l.resLen / 8))])
          (fun u => u = if l.resAddr = 0 then s else { s with hostMem := wrN s.hostMem l.resAddr l.block })))

/-- Positions, castling, fences and the rings' own commands (R311, R324, R370, R427, Table 12-8). Each is INVALID on bad operands
and STATE_CONFLICT where the partition or the ring does not admit it. POSITION asks a running partition for a capture at its next
release, and ends once a generation from then on is complete. RESTORE brings the partition to its newest or older generation, every
node's move number with it; a partition that holds none asks its buddy, and goes on with what that answers.
FENCE waits for exactly the commands that had started on its partition. CASTLE asks for its pair. RING_CREATE makes an empty ring,
RING_DELETE removes one that has nothing in flight, RESUME lets a halted ring fetch again, or cancels what it fetches. -/
def Obligations.PositionsFencesAndRingsFollowTheirCommands : Prop :=
  ∀ (s : State) (r : Ref) (c : Cmd),
    let p := c.part
    let q := s.part p
    let same (u : State) : Prop := u = s
    let conflicts (i : Instr) : Prop := Ends i s r c 2 (s.stateDetail p) [] same
    let started' := s.cmd r = some c ∧ c.panel = s.ownId ∧ c.started = true ∧ c.fin = none
    (Starts s 6 r c →
      ((c.desc.drop 8).all (· == 0) = false → Ends (.position r) s r c 1 0 [] same) ∧
      ((c.desc.drop 8).all (· == 0) = true →
        (s.admitted p 6 c.target = false ∨ q.parent ≠ none → conflicts (.position r)) ∧
        (s.admitted p 6 c.target = true → q.parent = none → q.st = 1 → Goes (.position r) s r c (fun u =>
          u = (s.modCmd r.ring.val c.seq (fun d => { d with aux := q.nextGen })).modPart p (fun q => { q with captureAsk := true }))) ∧
        (s.admitted p 6 c.target = true → q.parent = none → q.st ≠ 1 → q.st ≠ 4 → q.st ≠ 5 → q.capturing = none →
          s.storeRoom (s.positionBytes { s.snapshot p with pages := if q.full then 512 * (s.ownedSlices p).length else (s.snapshot p).pages }) = true →
          Goes (.position r) s r c (fun u =>
          u.mem = s.mem ∧ (u.part p).capturing.map (fun x => (x.gen, x.move)) = some (q.nextGen, q.move) ∧
          (u.part p).nextGen = q.nextGen + 1)))) ∧
    (started' → c.op = 6 →
      (∀ x, q.positions.find? (fun x => decide (c.aux ≤ x.gen)) = some x →
        Ends (.commandFinishes r) s r c 0 0 (leBytes 6 x.move.toNat ++ leBytes 1 x.gen) same) ∧
      (q.positions.find? (fun x => decide (c.aux ≤ x.gen)) = none → q.capturing.isSome = true → exec (.commandFinishes r) s = .next s)) ∧
    (Starts s 7 r c →
      let g := leAt c.desc 8 1
      (2 ≤ g ∨ (c.desc.drop 9).all (· == 0) = false → Ends (.restore r) s r c 1 0 [] same) ∧
      (g < 2 → (c.desc.drop 9).all (· == 0) = true →
        (s.admitted p 7 c.target = false ∨ q.parent ≠ none ∨
            (q.positions[g]? = none ∧ (s.remoteBuddy = none ∨ q.positions ≠ [] ∨ ∃ b, s.remoteBuddy = some b ∧ s.routable b = false)) ∨
            (∃ x, q.positions[g]? = some x ∧ x.mine = false ∧ (x.buddy = false ∨ ∃ b, s.remoteBuddy = some b ∧ s.routable b = false)) →
          conflicts (.restore r)) ∧
        (∀ b, s.admitted p 7 c.target = true → q.parent = none → q.positions = [] → s.remoteBuddy = some b → s.routable b = true →
          Goes (.restore r) s r c (fun u => FabricOnly s u)) ∧
        (∀ x, s.admitted p 7 c.target = true → q.parent = none → q.positions[g]? = some x →
          x.mine = true ∨ (x.buddy = true ∧ ∀ b, s.remoteBuddy = some b → s.routable b = true) →
          Ends (.restore r) s r c 0 0 (leBytes 6 x.move.toNat) (fun u => (u.part p).move = x.move ∧ (u.part p).results = x.results ∧
            (u.part p).prog = x.prog ∧ (u.part p).st = q.st ∧ (u.part p).capturing = none ∧ (∀ j, j ≠ p → u.part j = s.part j) ∧
            (∀ n ∈ q.hubs, sget 0 (u.tnode n).moves p = x.move) ∧
            ∀ i < q.height * 2048, ∀ k, s.physOf ((q.first - 1) * 2048 + i) = some k →
              let y := sget Core.reset x.cores ((q.first - 1) * 2048 + i)
              (u.core k).move = x.move ∧ (u.core k).x = y.x ∧ (u.core k).v = y.v ∧ (u.core k).acc = y.acc ∧ (u.core k).pc = y.pc ∧
              (u.core k).st = y.st)))) ∧
    (started' → c.op = 7 →
      (c.waits = [] → (∀ b, s.remoteBuddy = some b → b ∈ s.homes.unreach) → conflicts (.commandFinishes r)) ∧
      (∀ b, c.waits = [] → s.remoteBuddy = some b → b ∉ s.homes.unreach → exec (.commandFinishes r) s = .next s) ∧
      (c.waits ≠ [] → c.hit = false ∨ q.positions[leAt c.desc 8 1]? = none → conflicts (.commandFinishes r)) ∧
      (∀ x, c.waits ≠ [] → c.hit = true → q.positions[leAt c.desc 8 1]? = some x →
        Ends (.commandFinishes r) s r c 0 0 (leBytes 6 x.move.toNat) (fun u => (u.part p).move = x.move ∧ (u.part p).results = x.results))) ∧
    (Starts s 8 r c →
      ((c.desc.drop 8).all (· == 0) = false → Ends (.fence r) s r c 1 0 [] same) ∧
      ((c.desc.drop 8).all (· == 0) = true → ∃ w : List (Nat × Nat),
        (∀ e, e ∈ w ↔ ∃ g, (e.1, g) ∈ s.rings ∧ ∃ d ∈ g.cmds, d.seq = e.2 ∧ d.started = true ∧ d.fin = none ∧ d.target = c.target) ∧
        Goes (.fence r) s r c (fun u => u = s.modCmd r.ring.val c.seq (fun d => { d with waits := w })))) ∧
    (started' → c.op = 8 →
      ((∃ e ∈ c.waits, s.runs e = true) → exec (.commandFinishes r) s = .next s) ∧
      ((∀ e ∈ c.waits, s.runs e = false) → Ends (.commandFinishes r) s r c 0 0 [] same)) ∧
    (Starts s 9 r c →
      let a := c.u16 8
      let b := c.u16 0xA
      let k := leAt c.desc 0xC 1
      let good := k < 2 ∧ (c.desc.drop 0xD).all (· == 0) = true ∧ max a b < (if k = 1 then 1152 else 144)
      (¬ good → Ends (.castle r) s r c 1 0 [] same) ∧
      (good → s.admitted p 9 c.target = false ∨ q.parent ≠ none ∨ s.castleOk p k a b = false ∨ q.castling ≠ none → conflicts (.castle r)) ∧
      (good → s.admitted p 9 c.target = true → q.parent = none → s.castleOk p k a b = true → q.castling = none →
        Goes (.castle r) s r c (fun u => u = s.modPart p (fun q => { q with castling := some ⟨r.ring.val, c.seq, a, b, k⟩ })))) ∧
    (started' → c.op = 9 →
      (c.hit = true → Ends (.commandFinishes r) s r c 0 0 (leBytes 6 c.aux) same) ∧
      (c.hit = false → q.castling = none → conflicts (.commandFinishes r))) ∧
    (Starts s 0x80 r c →
      let n := c.u16 8
      let lg := leAt c.desc 0xA 1
      let v := c.u16 0xC
      let sq := c.u64 0x10
      let cq := c.u64 0x18
      let good := 1 ≤ n ∧ n < 1024 ∧ 1 ≤ lg ∧ lg ≤ 16 ∧ (v < 2048 ∨ v = 0xFFFF) ∧ sq % 4096 = 0 ∧ cq % 4096 = 0 ∧ sq < 2 ^ 57 ∧ cq < 2 ^ 57 ∧
        leAt c.desc 0xB 1 = 0 ∧ c.u16 0xE = 0 ∧ (c.desc.drop 0x20).all (· == 0) = true
      (¬ good → Ends (.ringCreate r) s r c 1 0 [] same) ∧ (good → (s.ring n).live = true → conflicts (.ringCreate r)) ∧
      (good → (s.ring n).live = false → rdLe s.hostMem (s.doorbellAddr n) 8 ≠ 0 → Ends (.ringCreate r) s r c 1 0 [] same) ∧
      (good → (s.ring n).live = false → rdLe s.hostMem (s.doorbellAddr n) 8 = 0 → Ends (.ringCreate r) s r c 0 0 [] (fun u => (∀ j, j ≠ n → u.ring j = s.ring j) ∧
        u.ring n = { Ring.reset with live := true, log2 := lg, vector := v, sq := sq, cq := cq }))) ∧
    (Starts s 0x81 r c →
      let n := c.u16 8
      let good := 1 ≤ n ∧ n < 1024 ∧ (c.desc.drop 0xA).all (· == 0) = true ∧ (s.ring n).live = true
      (¬ good → Ends (.ringDelete r) s r c 1 0 [] same) ∧ (good → (s.ring n).cmds ≠ [] → conflicts (.ringDelete r)) ∧
      (good → (s.ring n).cmds = [] → Ends (.ringDelete r) s r c 0 0 [] (fun u => u.ring n = Ring.reset ∧ ∀ j, j ≠ n → u.ring j = s.ring j))) ∧
    (Starts s 0x88 r c →
      let n := c.u16 8
      let g := s.ring n
      let good := 1 ≤ n ∧ n < 1024 ∧ leAt c.desc 0xA 1 < 2 ∧ (c.desc.drop 0xB).all (· == 0) = true
      ∀ i, (i = Instr.resumeContinue r ∧ leAt c.desc 0xA 1 ≠ 1) ∨ (i = .resumeFlush r ∧ leAt c.desc 0xA 1 = 1) →
        (¬ good → Ends i s r c 1 0 [] same) ∧ (good → g.halted = false → conflicts i) ∧
        (good → g.halted = true → Ends i s r c 0 0 [] (fun u => (u.ring n).halted = false ∧ (∀ j, j ≠ n → u.ring j = s.ring j) ∧
          (g.fetched = g.sqt → (u.ring n).cmds.map (·.seq) = g.cmds.map (·.seq)) ∧
          (leAt c.desc 0xA 1 = 1 → g.sqt < 2 ^ 32 → g.fetched < 2 ^ 32 →
            (∀ d ∈ g.cmds, ∀ i < (g.sqt + 2 ^ 32 - g.fetched) % 2 ^ 32, d.seq ≠ (g.fetched + i) % 2 ^ 32) →
            ∀ d ∈ (u.ring n).cmds, d ∈ g.cmds ∨ (d.started = true ∧ d.fin = some (0x0D, 0, []))))))

/-! ### Partitions, licences, firmware, defects, gambits and trust -/

/-- PARTITION_SET (R167, R253, R256, R328, R420, Table 12-11). Bad operands, a partition that is not quiet, host memory beyond
2^57, a length that is not the record's and a record that breaks a rule end it without an effect. A good record applies whole: the
partition takes its band, tenant, tree and links, idle, with the positions that still fit; every grant word is rewritten, and so
is the context window; a slice that comes from another tenant reads zero and no other byte of memory changes; ranks that come from
another tenant, or with RESET, have their scratchpads and stores cleared, and their sites that are fenced or dark are noted, to be zeroed
before they hold a logical place again; no other partition changes. A record of height 0
deletes the partition and gives its slices back. -/
def Obligations.PartitionsFollowTheirRecord : Prop :=
  ∀ (s : State) (r : Ref) (c : Cmd), Starts s 0x82 r c →
    let p := c.part
    let q := s.part p
    let a := c.u64 8
    let n := c.u32 0x10
    let b := rdN s.hostMem a n
    let same (u : State) : Prop := u = s
    let others (u : State) : Prop := (∀ j, j ≠ p → u.part j = s.part j) ∧ u.hostMem = s.hostMem ∧ u.rings = s.rings
    let deleted (i : Nat) : W32 := newGrant p (s.grantOf i) false false false
    let given (i : Nat) : W32 := newGrant p (s.grantOf i) (recBit b 0x60 i) (recBit b 0x1E0 i) (recBit b 0x360 i)
    let tenant : W32 := BitVec.ofNat 32 (leAt b 4 4)
    let first := leAt b 0 1
    let height := leAt b 1 1
    let sized := (c.desc.drop 0x14).all (· == 0) = true ∧ s.admitted p 0x82 c.target = true ∧ a + n ≤ 2 ^ 57 ∧ 0x4E0 ≤ n ∧ n = 0x4E0 + 4 * leAt b 3 1
    let stops (st d : Nat) : Prop := Ends (.partitionSet r) s r c st d [] same
    ((c.desc.drop 0x14).all (· == 0) = false → stops 1 7) ∧
    ((c.desc.drop 0x14).all (· == 0) = true →
      (s.admitted p 0x82 c.target = false → stops 2 (s.stateDetail p)) ∧
      (s.admitted p 0x82 c.target = true → 2 ^ 57 < a + n → stops 4 0) ∧
      (s.admitted p 0x82 c.target = true → a < 2 ^ 57 → a + n ≤ 2 ^ 57 → n < 0x4E0 ∨ n ≠ 0x4E0 + 4 * leAt b 3 1 → stops 1 7)) ∧
    (∀ st d, sized → s.recordBad p b = some (st, d) → stops st d) ∧
    (sized → height ≠ 0 → s.limPartitions ≤ p → stops 3 19) ∧
    (sized → height ≠ 0 → p < s.limPartitions → recReserved b = false → s.bandBad p b = true → stops 1 1) ∧
    (sized → height = 0 → leAt b 2 1 ≤ 1 →
      (s.grantConflict p deleted = true → stops 2 (s.stateDetail p)) ∧
      (s.grantConflict p deleted = false → Ends (.partitionSet r) s r c 0 0 [] (fun u => others u ∧ u.part p = Part.reset ∧ u.mem = s.mem ∧
        s.cores = u.cores ∧ (∀ i < 3072, u.grantOf i = deleted i) ∧ u.reg (Reg.pctx p) = 0))) ∧
    (sized → height ≠ 0 → s.recordBad p b = none →
      (s.grantConflict p given = true → stops 2 (s.stateDetail p)) ∧
      (s.grantConflict p given = false → Ends (.partitionSet r) s r c 0 0 [] (fun u =>
        others u ∧ (u.part p).first = first ∧ (u.part p).height = height ∧ (u.part p).tenant = tenant ∧ (u.part p).tree = leAt b 0xC 2 ∧
        (u.part p).member = leAt b 0xE 2 ∧ (u.part p).st = 0 ∧ (u.part p).move = 0 ∧
        (u.part p).parent = (if leAt b 0x10 2 = 0xFFFF then none else some (leAt b 0x10 2)) ∧ (u.part p).children.length = leAt b 3 1 ∧
        (u.part p).prog = (if q.first = first ∧ q.height = height ∧ q.tenant = tenant ∧ (leAt b 2 1) % 2 = 0 then q.prog else none) ∧
        (∀ x, x ∈ (u.part p).positions ↔ x ∈ q.positions ∧ x.first = first ∧ x.height = height ∧ x.tree = leAt b 0xC 2 ∧
          x.member = leAt b 0xE 2 ∧ x.tenant = tenant) ∧
        (∀ i < 3072, u.grantOf i = given i) ∧ u.reg (Reg.pctx p) = BitVec.ofNat 32 (leAt b 8 2 + leAt b 0xA 2 * 2 ^ 16) ∧
        (∀ x, 0x40000000000 ≤ x → x < 0x70000000000 → rd u.mem x =
          (if (given (sliceOf x)).getLsbD 31 = true ∧ grantOwner (given (sliceOf x)) = p ∧ (s.slice (sliceOf x)).tenant ≠ some tenant then 0
            else rd s.mem x)) ∧
        (∀ i < height, leAt b 2 1 % 2 = 1 ∨ sget 0 s.rankTenants (first - 1 + i) ≠ tenant →
          (∀ k ∈ s.poweredSites (first - 1 + i), (u.core k).istore = [] ∧ ∀ o < 2 ^ 21, rd u.mem (spadAddr k o) = 0) ∧
          ∀ f < 9, ∀ t < 272, let d := (first - 1 + i) * 9 + f
            (t ∈ (u.die d).stale ↔ d * 272 + t ∉ s.poweredSites (first - 1 + i))))))

/-- Commands that write a list to host memory (R396, R400, R402, R429, Tables 12-10 and 15-12): the licences, the defect map, the
gambits, the certificate chain, the measurements, a quote and the counters. Operand bits that the subfunction does not use make
them INVALID; where OLEN is too short nothing is written and SUMMARY gives the length that is needed; else exactly the list's
bytes reach OADDR. The row of subfunction 0 answers a reserved one with INVALID.
Entries of the defect map and gambits (R395, R396, R429, R430, Table 16-9). A malformed entry or gambit is INVALID. An operator's
entry joins the map with the next SEQ, which the defect register and its counter take; a gambit is armed once, listed until
its ID is armed again, and cancelled only while it has not fired; the extended level waits for the next start. The unit that a
gambit held down returns when its duration is over. -/
def Obligations.AdminListsDefectsAndGambitsAreKept : Prop :=
  (
  ∀ (s : State) (r : Ref) (c : Cmd),
    let same (u : State) : Prop := u = s
    let free : Bool := s.gambitsOn && decide (s.armed.length < 16)
    let quote : List Byte := s.measurements ++ Config.identitySign (Config.sha384 (s.input c ++ s.measurements))
    let blank := c.fieldsOk false true
    (∀ e ∈ ([(0x83, 1, .licenseList r, blank, (s.licences.flatMap (fun e => bytesAt e.2 0 32), leBytes 4 s.licences.length)),
        (0x86, 0, .defectQuery r, blank, (s.defectBytes, leBytes 4 s.defects.length ++ leBytes 4 s.topSeq)),
        (0x87, 1, .gambitList r, blank && free, (s.gambits.flatMap (·.bytes), [])),
        (0x89, 0, .trustQueryChain r, blank, (Config.chain0, leBytes 4 Config.chain0.length)),
        (0x89, 1, .trustQueryMeasurements r, blank, (s.measurements, leBytes 4 s.measurements.length)),
        (0x89, 2, .trustQueryQuote r, c.fieldsOk true true && c.ilen == 32, (quote, leBytes 4 quote.length)),
        (0x89, 3, .trustQueryCounters r, blank, (s.counterBytes, leBytes 4 44))] : List (Nat × Nat × Instr × Bool × List Byte × List Byte)),
      Starts s e.1 r c → c.sub = e.2.1 →
        (e.2.2.2.1 = false → Ends e.2.2.1 s r c 1 0 [] same) ∧
        (e.2.2.2.1 = true → (e.1 = 0x89 → e.2.1 = 2 → c.iaddr + 32 ≤ 2 ^ 57) →
          let bs := e.2.2.2.2.1
          (c.olen < bs.length → Ends e.2.2.1 s r c 1 0 (leBytes 4 bs.length) same) ∧
          (bs.length ≤ c.olen → 2 ^ 57 < c.oaddr + bs.length → Ends e.2.2.1 s r c 4 0 [] same) ∧
          (bs.length ≤ c.olen → c.oaddr + bs.length ≤ 2 ^ 57 → c.oaddr < 2 ^ 57 →
            Ends e.2.2.1 s r c 0 0 e.2.2.2.2.2 (fun u => u = { s with hostMem := wrN s.hostMem c.oaddr bs })))) ∧
    (Starts s 0x89 r c → c.sub = 2 → c.fieldsOk true true = true → c.ilen = 32 → 2 ^ 57 < c.iaddr + 32 →
      Ends (.trustQueryQuote r) s r c 4 0 [] same) ∧
    (∀ e ∈ [((0x83 : Nat), (2 : Nat), Instr.licenseInstall r), (0x86, 2, .defectQuery r), (0x87, 2, .gambitArm r), (0x89, 3, .trustQueryChain r)],
      Starts s e.1 r c → e.2.1 < c.sub → Ends e.2.2 s r c 1 0 [] same) ∧
    s.counterBytes.length = 44 ∧ (∀ i < 11, leAt s.counterBytes (4 * i) 4 = s.counter i)) ∧
  (
  (∀ (s : State) (r : Ref) (c : Cmd),
    let b := s.input c
    let same (u : State) : Prop := u = s
    (Starts s 0x86 r c → c.sub = 1 →
      (c.fieldsOk true false = false ∨ c.ilen ≠ 32 → Ends (.defectQueryAdd r) s r c 1 0 [] same) ∧
      (c.fieldsOk true false = true → c.ilen = 32 → c.iaddr + 32 ≤ 2 ^ 57 →
        let kind := leAt b 4 1
        let site := leAt b 9 2
        let good := leAt b 6 1 = 3 ∧ leAt b 7 1 = 0 ∧ leAt b 8 1 < 144 ∧
          ((kind = 1 ∧ site < 272 ∧ leAt b 11 5 = 0) ∨ (kind = 2 ∧ leAt b 9 1 < 8 ∧ leAt b 10 6 = 0) ∨ (kind = 3 ∧ leAt b 9 7 = 0))
        (¬ good → Ends (.defectQueryAdd r) s r c 1 0 [] same) ∧
        (good → Ends (.defectQueryAdd r) s r c 0 0 (leBytes 4 (s.topSeq + 1)) (fun u =>
          u.defects = s.defects ++ [⟨s.topSeq + 1, BitVec.ofNat 8 kind, b.getD 5 0, 3, BitVec.ofNat 64 (leAt b 8 8), s.life, BitVec.ofNat 64 (leAt b 0x18 8)⟩] ∧
          u.reg Reg.defect = BitVec.ofNat 32 (s.topSeq + 1) ∧ u.reg (Reg.svn 10) = BitVec.ofNat 32 (max (s.counter 10) (s.topSeq + 1)) ∧
          u.dies = s.dies ∧ u.cores = s.cores ∧ u.mem = s.mem)))) ∧
    (Starts s 0x86 r c → c.sub = 2 →
      (c.fieldsOk false false = false → Ends (.defectQueryExtended r) s r c 1 0 [] same) ∧
      (c.fieldsOk false false = true → Ends (.defectQueryExtended r) s r c 0 0 [] (fun u => u = { s with mgmt := { s.mgmt with extended := true } }))) ∧
    (
      let free := s.gambitsOn = true ∧ s.armed.length < 16
      (Starts s 0x87 r c → c.sub = 0 →
        (c.fieldsOk true false = false ∨ c.ilen ≠ 32 ∨ ¬ free → Ends (.gambitArm r) s r c 1 0 [] same) ∧
        (c.fieldsOk true false = true → c.ilen = 32 → free → c.iaddr + 32 ≤ 2 ^ 57 →
          let g : Gambit := ⟨b, false⟩
          (gambitOk g = false ∨ (∃ x ∈ s.armed, x.id = g.id) → Ends (.gambitArm r) s r c 1 0 [] same) ∧
          (gambitOk g = true → (∀ x ∈ s.armed, x.id ≠ g.id) → Ends (.gambitArm r) s r c 0 0 [] (fun u =>
            u = { s with gambits := u.gambits } ∧ g ∈ u.gambits ∧ (∀ x, x.id ≠ g.id → (x ∈ u.gambits ↔ x ∈ s.gambits)) ∧
            ∀ x ∈ u.gambits, x.id = g.id → x = g)))) ∧
      (Starts s 0x87 r c → c.sub = 2 →
        (c.fieldsOk true false = false ∨ c.ilen ≠ 4 ∨ ¬ free → Ends (.gambitCancel r) s r c 1 0 [] same) ∧
        (c.fieldsOk true false = true → c.ilen = 4 → free → c.iaddr + 4 ≤ 2 ^ 57 →
          ((∀ x ∈ s.armed, x.id ≠ leNat b) → Ends (.gambitCancel r) s r c 1 0 [] same) ∧
          ((∃ x ∈ s.armed, x.id = leNat b) → Ends (.gambitCancel r) s r c 0 0 [] (fun u =>
            u = { s with gambits := u.gambits } ∧ ∀ x, x ∈ u.gambits ↔ x ∈ s.gambits ∧ (x.fired = true ∨ x.id ≠ leNat b))))))) ∧
  (∀ (s : State) (id : W32) (g : Gambit), g ∈ s.gambits → g.fired = true → g.id = id.toNat →
    (∀ x ∈ s.gambits, x.fired = true → x.id = id.toNat → x = g) →
    (g.kind = 4 → ∃ t, exec (.gambitDuration id) s = .next t ∧ (t.die g.unit).stopped = false ∧ (t.die g.unit).fenced = (s.die g.unit).fenced ∧
      t = { s with dies := t.dies } ∧ ∀ d, d ≠ g.unit → t.die d = s.die d) ∧
    (g.kind = 5 → ∃ t, exec (.gambitDuration id) s = .next t ∧ (∀ i : Fin 32, let st := s.regF (Reg.sylPort i.val) 28 4
        t.regF (Reg.sylPort i.val) 28 4 = (if st = 4 then 1 else st) ∧ (st = 4 → (t.link (.sys i)).failed = false) ∧
        (st ≠ 4 → t.link (.sys i) = s.link (.sys i))) ∧ t.homes = s.homes ∧ t.cores = s.cores) ∧
    (∀ i : Fin 32, g.kind = 2 → gambitPort g = true → g.unit = i.val → s.regF (Reg.sylPort i.val) 28 4 = 4 →
      ∃ t, exec (.gambitDuration id) s = .next t ∧ t.regF (Reg.sylPort i.val) 28 4 = 1 ∧ (t.link (.sys i)).failed = false ∧ t.homes = s.homes) ∧
    (∀ a b : Fin 12, g.kind = 2 → gambitPort g = false → g.unit = a.val * 12 + b.val → a ≠ b →
      (s.plinkState a b ≠ 3 → exec (.gambitDuration id) s = .next s) ∧
      (s.plinkState a b = 3 → ∃ t, exec (.gambitDuration id) s = .next t ∧ t.plinkState a b = 0 ∧ t.plinkState b a = 0 ∧
        (t.link (.photon a b)).failed = false ∧ (t.link (.photon b a)).failed = false)) ∧
    (g.kind = 1 ∨ g.kind = 3 → exec (.gambitDuration id) s = .next s)))

/-- Licences and firmware (R380, R389, R400, R401, Table 15-11). An object that is refused ends the command with the reason, and
changes nothing but the report of a rollback. A valid licence is stored and widens the grant: features and ports are OR'ed, each
limit is the larger; its removal waits for the next warm reset. A valid image goes into the inactive slot of its kind; MODE 0 takes
that slot at the next warm reset, MODE 1 now for the units that Table 15-11 allows, MODE 2 raises the kind's counter to the active
image's SVN, MODE 3 goes back as MODE 0 goes on. -/
def Obligations.LicencesAndFirmwareFollowTheirObjects : Prop :=
  ∀ (s : State) (r : Ref) (c : Cmd),
    let b := s.input c
    let same (u : State) : Prop := u = s
    let inRange := c.iaddr + c.ilen ≤ 2 ^ 57 ∧ c.iaddr < 2 ^ 57
    let only (u : State) : Prop := u.mem = s.mem ∧ u.hostMem = s.hostMem ∧ u.cores = s.cores ∧ u.parts = s.parts ∧ u.rings = s.rings
    let held (u : State) (ty slot : Nat) : Prop := (s.flashFail false = false → (u.flashObj false ty slot).bytes = b) ∧
      (s.flashFail true = false → (u.flashObj true ty slot).bytes = b)
    (Starts s 0x83 r c → c.sub = 0 →
      (c.fieldsOk true false = false → Ends (.licenseInstall r) s r c 1 0 [] same) ∧
      (c.fieldsOk true false = true → 2 ^ 57 < c.iaddr + c.ilen → Ends (.licenseInstall r) s r c 4 0 [] same) ∧
      (∀ d, c.fieldsOk true false = true → inRange → s.objBad [0x20] b = some d →
        Ends (.licenseInstall r) s r c 0xA d [] (fun u => only u ∧ u.regs = s.regs ∧ u.mgmt.flashA = s.mgmt.flashA ∧ u.mgmt.flashB = s.mgmt.flashB)) ∧
      (∀ i, c.fieldsOk true false = true → inRange → s.objBad [0x20] b = none → licenceOk (objBody b) = true →
        s.licenceSlot (leAt (objBody b) 0 8) = some i →
        let g := licenceGrant (objBody b)
        ∃ g', Ends (.licenseInstall r) s r c 0 0 (leBytes 4 (s.reg Reg.lfeat ||| g.features).toNat ++ leBytes 4 (s.reg Reg.lports ||| g.ports).toNat ++ g')
          (fun u => only u ∧ held u 0x20 i ∧ u.reg Reg.lfeat = s.reg Reg.lfeat ||| g.features ∧ u.reg Reg.lports = s.reg Reg.lports ||| g.ports ∧
            (u.limPanels = max s.limPanels g.panels ∨ max s.limContexts g.contexts = 0 ∨ max s.limPanels g.panels = 0) ∧
            u.limContexts = max s.limContexts g.contexts ∧ u.limPartitions = max s.limPartitions g.partitions))) ∧
    (Starts s 0x83 r c → c.sub = 2 →
      (c.fieldsOk true false = false ∨ c.ilen ≠ 8 → Ends (.licenseRemove r) s r c 1 0 [] same) ∧
      (c.fieldsOk true false = true → c.ilen = 8 → c.iaddr + 8 ≤ 2 ^ 57 →
        ((∀ e ∈ s.licences, leAt e.2 0 8 ≠ leNat b) → Ends (.licenseRemove r) s r c 1 0 [] same) ∧
        ((∃ e ∈ s.licences, leAt e.2 0 8 = leNat b) → ∃ su, Ends (.licenseRemove r) s r c 0 0 su (fun u =>
          u = { s with mgmt := { s.mgmt with removing := u.mgmt.removing } } ∧ (BitVec.ofNat 64 (leNat b) : W64) ∈ u.mgmt.removing)))) ∧
    (Starts s 0x84 r c →
      (c.fieldsOk true false = false ∨ c.sub ≠ 0 → Ends (.fwStage r) s r c 1 0 [] same) ∧
      (c.fieldsOk true false = true → c.sub = 0 →
        (s.mgmt.update = true → Ends (.fwStage r) s r c 2 (s.stateDetail c.part) [] same) ∧
        (s.mgmt.update = false → 2 ^ 57 < c.iaddr + c.ilen → Ends (.fwStage r) s r c 4 0 [] same) ∧
        (∀ d, s.mgmt.update = false → inRange → s.firmwareBad b = some d →
          Ends (.fwStage r) s r c 0xA d [] (fun u => only u ∧ u.regs = s.regs ∧ u.mgmt.flashA = s.mgmt.flashA ∧ u.mgmt.flashB = s.mgmt.flashB)) ∧
        (s.mgmt.update = false → inRange → s.firmwareBad b = none → ∃ gen,
          Ends (.fwStage r) s r c 0 0 (leBytes 2 (objType b) ++ leBytes 4 (objSvn b) ++ leBytes 4 gen) (fun u => only u ∧ u.regs = s.regs ∧
            held u (objType b) (1 - s.activeSlot (objType b)) ∧ u.mgmt.active = s.mgmt.active ∧
            (s.activeSlot (objType b) < 2 → s.flashFail false = false →
              u.flashObj false (objType b) (s.activeSlot (objType b)) = s.flashObj false (objType b) (s.activeSlot (objType b))))))) ∧
    (Starts s 0x85 r c →
      let ty := c.fwType
      let x := 1 - s.activeSlot ty
      let good := c.sub / 16 % 4096 = 0 ∧ c.u32 0x14 = 0 ∧ (c.desc.drop 0x28).all (· == 0) = true ∧ c.ilen = 0 ∧ c.oaddr = 0 ∧ c.olen = 0 ∧
        c.iaddr < 2 ^ 16 ∧ ty ∈ [1, 2, 3, 4, 5, 6, 0x10, 0x11] ∧ c.fwMode ≤ 3
      let row : Instr := if c.fwMode = 1 then .fwActivateLive r else if c.fwMode = 2 then .fwActivateCommit r else
        if c.fwMode = 3 then .fwActivateRevert r else .fwActivateWarm r
      (¬ good → Ends row s r c 1 0 [] same) ∧
      (good → s.mgmt.update = true → Ends row s r c 2 (s.stateDetail c.part) [] same) ∧
      (good → s.mgmt.update = false →
        (∀ o, c.fwMode = 0 ∨ c.fwMode = 3 → s.slotObj ty x = some o → s.firmwareBad o.bytes ≠ some 7 → ∃ su, Ends row s r c 0 0 su (fun u =>
          u = { s with mgmt := { s.mgmt with atWarm := u.mgmt.atWarm } } ∧
          sget 0 u.mgmt.atWarm ty = 2 - s.activeSlot ty + (if c.fwMode = 3 then 2 else 0))) ∧
        (c.fwMode = 0 ∨ c.fwMode = 3 → s.slotObj ty x = none → ∃ d, d ≠ 0 ∧ Ends row s r c 0xA d [] (fun u => only u ∧ u.mgmt.atWarm = s.mgmt.atWarm)) ∧
        (c.fwMode = 1 → s.liveUnits ty c.iaddr = [] → Ends row s r c 2 (s.stateDetail c.part) [] same) ∧
        (∀ o, c.fwMode = 1 → s.liveUnits ty c.iaddr ≠ [] → s.slotObj ty x = some o → (∀ p, s.slotObj ty (s.activeSlot ty) = some p → p.gen < o.gen) →
          ∃ su, Ends row s r c 0 0 (leBytes 2 (s.liveUnits ty c.iaddr).length ++ su) (fun u =>
            only u ∧ u.activeSlot ty = x ∧ (∀ t, t ≠ ty → u.activeSlot t = s.activeSlot t) ∧
            (∀ n ∈ s.liveUnits ty c.iaddr, sget 0 u.mgmt.image (ty * 65536 + n) = 0) ∧
            (∀ n < partCount ty, n ∉ s.liveUnits ty c.iaddr → sget 0 u.mgmt.image (ty * 65536 + n) ≠ 0))) ∧
        (∀ o i, c.fwMode = 2 → s.activeObj ty = some o → counterOf ty = some i →
          Ends row s r c 0 0 (leBytes 2 0 ++ leBytes 4 (max (s.counter i) (objSvn o.bytes))) (fun u =>
            only u ∧ u.counter i = max (s.counter i) (objSvn o.bytes) ∧ (∀ j < 11, j ≠ i → u.counter j = s.counter j)))))

/-! ### Registers, ports and windows -/

/-- Register writes (R303, R336, R369, R399, R405 and the register tables). A write changes only the register at its offset (an MSI-X
write perhaps its pending bit; a port's ENABLE what holds the port down), and never memory, a core or a partition. Unaligned offsets, read-only
registers and offsets without a register keep what they hold; a register takes the bits of its read-write fields, clamped where its
table clamps; a set-up register of the host interface is locked while ENABLE is 1; a write-one-to-clear flag clears by a one; the
castling table is written only while its partition is idle or halted. SYL_ROUTE is discarded beyond the licensed panels or with
CAND0 disabled, and its reserved bits 30 and 29 stay zero. MGT_BUDDY makes the next capture of every partition a full one; buddy copies at a
panel that is the buddy no more cannot be read (the model's reading: log entry 116). -/
def Obligations.RegistersTakeTheirWritableBits : Prop :=
  (∀ (s : State) (off : BitVec 26) (v : W32),
    let o := off.toNat
    let w (t : State) : Prop := exec (.registerWrite off v) s = .next t
    let pba (x : Nat) : Prop := Reg.msixPba ≤ x ∧ x < Reg.msixPba + 0x100
    let port := 0x0400100 ≤ o ∧ o < 0x0400300
    (¬ port → ∃ t, w t ∧ t = { s with regs := t.regs, host := { s.host with msix := t.host.msix } } ∧ ∀ x, x ≠ o → ¬ pba x → t.reg x = s.reg x) ∧
    (o % 4 ≠ 0 → w s) ∧
    (o ∈ [Reg.hifId, Reg.hifStatus, Reg.rhalt 0, Reg.msixPba, Reg.calStatus, Reg.alignLost, Reg.pmoveLo 0, Reg.pstatus 0, Reg.phalt 3, Reg.mshQuar,
      Reg.sylResend, Reg.sylPort 0, Reg.sstat 0, Reg.sce 1, Reg.grant 5, Reg.pwrStatus, Reg.pin, Reg.thmFluid, Reg.thmStatus, Reg.mgtState, Reg.mgtLife,
      Reg.rcnt, Reg.pstat 0, Reg.secStatus, Reg.svn 0, Reg.lfeat, Reg.llim, Reg.capsLo, Reg.defect, Reg.dhole 0, Reg.pctx 0, Reg.dbgIdcode,
      Reg.dieId 0, Reg.pwrReg 0, Reg.core 0 0] → w s) ∧
    (∀ e ∈ [(Reg.asqLo, (0xFFFFF000 : W32)), (Reg.asqLo + 4, 0xFFFFFFFF), (Reg.acqLo, 0xFFFFF000), (Reg.acqLo + 4, 0xFFFFFFFF), (Reg.acfg, 0xFFFF001F),
      (Reg.dbp0Lo, 0xFFFFF000), (Reg.dbp1Lo, 0xFFFFF000), (Reg.evqLo, 0xFFFFF000), (Reg.evcfg, 0xFFFF001F), (Reg.evhdLo, 0xFFFFFFF8),
      (Reg.evhdHi, 0xFFFFFFFF)], o = e.1 → w (if s.hifOn then s else s.setReg o (v &&& e.2))) ∧
    (∀ e ∈ [(Reg.apctl, (0x800F3FFF : W32)), (Reg.pkfCong, 0xC0FFFFFF), (Reg.sylLead, 0x80001FFF), (Reg.thmCfg, 0xC0000000), (Reg.gcfg, 0x80000000)],
      o = e.1 → w (s.setReg o (v &&& e.2))) ∧
    (∀ e ∈ [(Reg.calCtl, (0x00FFFFFF : W32)), (Reg.memCfg, 0x00FFFFFF)], o = e.1 → w (s.setReg o ((s.reg o &&& ~~~e.2) ||| (v &&& e.2)))) ∧
    (∀ e ∈ [(Reg.aperr, 31), (Reg.pkfErr, 31), (Reg.nmerr, 31), (Reg.dbgStatus, 29)], o = e.1 →
      (v.getLsbD e.2 = false → w s) ∧ (v.getLsbD e.2 = true → w (s.setReg o (s.reg o &&& ~~~(BitVec.ofNat 32 (2 ^ e.2)))))) ∧
    (o = Reg.plim → w (s.setReg o (BitVec.ofNat 32 (max 5000 (min 21000 (v.toNat % 2 ^ 16)))))) ∧
    (∀ p < 16, o = Reg.pstale p → w (s.setReg o (BitVec.ofNat 32 (max 1 (min 10000 (v.toNat % 2 ^ 24)))))) ∧
    (∀ p < 16, o = Reg.pcfg p → w (s.setReg o (BitVec.ofNat 32 (v.toNat / 2 ^ 31 * 2 ^ 31 + max 100 (min 600000 (v.toNat % 2 ^ 24)))))) ∧
    (∀ p < 16, ∀ e < 16, o = Reg.cpair p e → w (if (s.part p).st = 0 ∨ (s.part p).st = 2 ∨ (s.part p).st = 3 then s.setReg o (v &&& 0xE7FF07FF) else s)) ∧
    (∀ n < 2048, o = Reg.msix + n * 16 + 12 → ∃ t, w t ∧ t.reg o = v &&& 1 ∧
      (v.getLsbD 0 = false → (s.reg (Reg.msixPba + n / 32 * 4)).getLsbD (n % 32) = true →
        (t.reg (Reg.msixPba + n / 32 * 4)).getLsbD (n % 32) = false ∧ t.host.msix = s.host.msix ++ [n]) ∧
      (v.getLsbD 0 = true → t.host.msix = s.host.msix))) ∧
  (∀ (s : State) (q : Fin 4096) (v : W32),
    let a := Reg.sylRoute q.val
    let others := (s.regs.filter (fun e =>
      decide (Reg.sylRoute 0 ≤ e.1) && decide (e.1 < Reg.sylRoute 4096) && e.1 != a && e.2.getLsbD 31)).length
    (v.getLsbD 31 = true → s.limPanels - 1 < others + 1 ∨ v.getLsbD 5 = false → exec (.sylRoute q v) s = .next s) ∧
    (v.getLsbD 31 = false ∨ ((s.reg a).getLsbD 31 = true ∧ others + 2 ≤ s.limPanels ∧ v.getLsbD 5 = true) → exec (.sylRoute q v) s = .next (s.setReg a (v &&& 0x9FFFFFFF))) ∧
    (v.getLsbD 31 = true → v.getLsbD 5 = true → others + 2 ≤ s.limPanels → ∃ t, exec (.sylRoute q v) s = .next t ∧ t.reg a = v &&& 0x9FFFFFFF ∧ t.mem = s.mem ∧
      t.cores = s.cores ∧ ((s.reg a).getLsbD 31 = false → q.val ≠ s.ownId → (s.stream q.val 0).opened = false → (t.stream q.val 0).opening = true))) ∧
  (∀ (s : State) (v : W32), ∃ t, exec (.mgtBuddy v) s = .next t ∧ t = { s with regs := t.regs, parts := t.parts } ∧
    t.reg Reg.buddy = v &&& 0x80001FFF ∧ (∀ o, o ≠ Reg.buddy → (∀ p, o ≠ Reg.pstat p) → t.reg o = s.reg o) ∧
    ∀ p, s.part p ≠ Part.reset → t.part p = { s.part p with full := true, positions :=
      if t.remoteBuddy = s.remoteBuddy then (s.part p).positions else (s.part p).positions.map (fun c => { c with buddy := false }) })

/-- Setting up the host interface, and its ports (R304, R305, R334, R335, R390, Table 12-3). ENABLE 1 makes the admin ring from its
registers, alone and empty; it is discarded while no valid entry lists the panel's own ID. ENABLE 0, FLR and PERST# of the active port delete every
ring; memory, cores and partitions go on, and a command that had started runs to its end unseen. PERST# of the standby port takes only its link. While the active link is down nothing is posted; failover
exchanges the ports and writes the completions again that were posted since the last head read.
The device's windows into itself (R309, R310, R331, R333, Tables 12-14 and 12-16). An aperture access is refused while APCTL
disables it: a read completes with Completer Abort, a write is discarded, and HIF_APERR keeps the first refusal. A granted access
to memory reads or stores exactly its bytes; poisoned data poison the completion. Dword 0 of an en passant window shows READY or PASSED
once; the window is then TAKEN.
Registers whose low word latches the high one when it is read (Tables 2-10, 3-14 and 16-11, R96): the low word is read, the
high word's register holds the rest of the same value, and nothing else changes; a dark die's word reads as ones and latches nothing (R26). -/
def Obligations.PortsWindowsAndLatchesOfTheHost : Prop :=
  (
  (∀ s : State,
    let away (r : Nat) : Nat := if r < 1024 then r + 1024 else r
    let ended (l : Launch) : Prop := ∃ e ∈ s.rings, e.1 = l.ring ∧ ∃ c ∈ e.2.cmds, c.fin.isSome = true ∧ c.seq = l.seq
    let keeps (t : State) : Prop := t.mem = s.mem ∧ t.cores = s.cores ∧ t.hostMem = s.hostMem ∧
      (∀ p, { t.part p with launch := (s.part p).launch, castling := (s.part p).castling } = s.part p ∧
        (t.part p).castling = (s.part p).castling.map (fun c => { c with ring := away c.ring }) ∧
        ((s.part p).launch = none → (t.part p).launch = none) ∧
        ∀ l, (s.part p).launch = some l → ¬ ended l → (t.part p).launch = some { l with ring := away l.ring }) ∧
      ∀ r g, s.rings = [(r, g)] → t.ring (away r) = { Ring.reset with cmds := g.cmds.filter (fun c => c.started && c.fin.isNone) }
    let gone (t : State) : Prop := keeps t ∧ (∀ j < 1024, t.ring j = Ring.reset) ∧ t.hifOn = false
    let stage := s.regF Reg.mgtState 28 4
    (s.hifOn = true ∨ s.listed s.ownId = false ∨ stage = 0xD ∨ stage = 0xE → exec .hifCtlEnable s = .next s) ∧
    (s.hifOn = false → s.listed s.ownId = true → stage ≠ 0xD → stage ≠ 0xE → ∃ t, exec .hifCtlEnable s = .next t ∧ keeps t ∧ t.hifOn = true ∧
      t.host.started = true ∧ (s.host.started = false → t.events = s.events) ∧ (s.host.started = true → t.events = []) ∧
      (∀ j < 1024, j ≠ 0 → t.ring j = Ring.reset) ∧ t.ring 0 = { Ring.reset with
        live := true, log2 := max 1 (min 16 (s.regF Reg.acfg 0 5)), vector := s.regF Reg.acfg 16 16, sq := s.pair Reg.asqLo, cq := s.pair Reg.acqLo }) ∧
    (s.hifOn = true → ∃ t, exec .hifCtlDisable s = .next t ∧ gone t) ∧ (s.hifOn = false → exec .hifCtlDisable s = .next s) ∧
    (∃ t, exec .flr s = .next t ∧ gone t) ∧
    (∃ t, exec (.hcxPerst s.host.active) s = .next t ∧ gone t ∧ (if s.host.active then t.host.up1 else t.host.up0) = false ∧ t.host.active = s.host.active) ∧
    exec (.hcxPerst (!s.host.active)) s = .next { s with host := if s.host.active then { s.host with up0 := false } else { s.host with up1 := false } } ∧
    exec .linkDown s = .next { s with host := if s.host.active then { s.host with down := true, up1 := false } else { s.host with down := true, up0 := false } } ∧
    (∀ b : Bool, s.portLost b = true → exec (.hostLinkUp b) s = .next s) ∧
    (∀ b : Bool, s.portLost b = false → exec (.hostLinkUp b) s = .next { s with host := { s.host with
      up0 := (if b then s.host.up0 else true), up1 := (if b then true else s.host.up1), down := (if b = s.host.active then false else s.host.down) } }) ∧
    (let standby := if s.host.active then s.host.up0 else s.host.up1
     (s.host.down = false ∨ standby = false → exec .failover s = .next s) ∧
     (s.host.down = true → standby = true → ∃ t, exec .failover s = .next t ∧ t.host.active = !s.host.active ∧ t.host.down = false ∧ t.host.poll = 1 ∧
        t.mem = s.mem ∧ t.cores = s.cores ∧ t.parts = s.parts ∧ t.rings = s.rings ∧
        (t.events.map (·.type) = s.events.map (·.type) ++ [0x00F2] ∨ t.host.evLost = s.host.evLost + 1) ∧
        (s.rings.all (fun e => e.2.log.isEmpty) = true → t.hostMem = s.hostMem) ∧
        (∀ k g n bs, s.rings = [(k, g)] → g.log = [(n, bs)] → t.hostMem = wrN s.hostMem (g.cq + n % 2 ^ g.log2 * 32) bs))))) ∧
  (
  (∀ (s : State) (off : Nat),
    let p := s.regF Reg.apctl 16 4
    let a := s.regF Reg.apctl 0 14 * 2 ^ 30 + off
    let on := (s.reg Reg.apctl).getLsbD 31
    let refused (t : State) (write : Nat) (reason : Nat) : Prop := t = { s with regs := t.regs, answer := t.answer } ∧
      ((s.reg Reg.aperr).getLsbD 31 = true → t.regs = s.regs) ∧
      ((s.reg Reg.aperr).getLsbD 31 = false → t.reg Reg.aperr = BitVec.ofNat 32 (2 ^ 31 + write * 2 ^ 30 + reason * 2 ^ 28 + off / 256 % 2 ^ 28) ∧
        ∀ o, o ≠ Reg.aperr → t.reg o = s.reg o)
    let open' (n : Nat) (write : Bool) : Prop := on = true ∧ 0x40000000000 ≤ a ∧ a + n ≤ 0x70000000000 ∧
      ∀ i < n, s.granted (some p) (sliceOf (a + i)) write = true ∧ s.stackLost (stackOf (a + i)) = false ∧ stackOf (a + i) ∉ s.rails.stacksOff
    (∀ n, 0 < n → on = false → ∃ t, exec (.bar2Read off n) s = .next t ∧ refused t 0 0 ∧ t.answer = [0x04]) ∧
    (∀ n, 0 < n → on = true → 0xF0000000000 ≤ a → ∃ t, exec (.bar2Read off n) s = .next t ∧ refused t 0 3 ∧ t.answer = [0x04]) ∧
    (∀ n, open' n false → (∀ x ∈ unitsOf a n, s.hbm.ueAt x = false ∧ s.hbm.missAt x = false ∧ x ∉ s.hbm.poison) → ∃ t, exec (.bar2Read off n) s = .next t ∧
      t.answer = 0x00 :: rdN s.mem a n ∧ t.mem = s.mem ∧ t.hostMem = s.hostMem ∧ t.cores = s.cores) ∧
    (∀ n, open' n false → (∀ x ∈ unitsOf a n, s.hbm.missAt x = false) → (∃ x ∈ unitsOf a n, x ∈ s.hbm.poison) → ∃ t, exec (.bar2Read off n) s = .next t ∧ t.answer = [0x80] ∧ t.mem = s.mem) ∧
    (∀ bs : List Byte, bs ≠ [] → on = false → ∃ t, exec (.bar2Write off bs) s = .next t ∧ refused t 1 0 ∧ t.answer = s.answer) ∧
    (∀ bs : List Byte, open' bs.length true → (∀ i < bs.length, s.writeHeld (a + i) = false) → (∀ x ∈ unitsOf a bs.length, s.hbm.missAt x = false) → ∃ t, exec (.bar2Write off bs) s = .next t ∧
      t.mem = wrN s.mem a bs ∧ t.hostMem = s.hostMem ∧ t.cores = s.cores)) ∧
  (∀ (s : State) (ring : Fin 64),
    let w := (s.ring ring.val).window
    ∃ t, exec (.enPassantHeaderRead ring) s = .next t ∧ t = { s with rings := t.rings, rdata := t.rdata } ∧
      t.rdata = BitVec.ofNat 32 (w.state + w.len % 256 * 2 ^ 8 + w.status % 256 * 2 ^ 16 + w.count % 256 * 2 ^ 24) ∧
      (w.state = 2 ∨ w.state = 4 → (t.ring ring.val).window = { w with state := 3 } ∧ (∀ j, j ≠ ring.val → t.ring j = s.ring j)) ∧
      (w.state ≠ 2 → w.state ≠ 4 → t.rings = s.rings))) ∧
  (
  (∀ (s : State) (part : Fin 16),
    let p := part.val
    let latch (i : Instr) (v : Nat) (hi : Nat) : Prop :=
      ∃ t, exec i s = .next t ∧ t = { s with regs := t.regs, rdata := t.rdata } ∧ t.rdata = BitVec.ofNat 32 v ∧
        t.reg hi = BitVec.ofNat 32 (v / 2 ^ 32) ∧ ∀ o, o ≠ hi → t.reg o = s.reg o
    latch (.tpoPmoveLo part) (s.part p).move.toNat (Reg.pmoveHi p) ∧
    latch (.tpoPresultLo part) (s.part p).result.toNat (Reg.presultHi p) ∧
    (∀ c cs, (s.part p).positions = c :: cs → latch (.mgtPmoveLo part) c.move.toNat (Reg.mgtPmoveHi p)) ∧
    ((s.part p).positions = [] → latch (.mgtPmoveLo part) 0 (Reg.mgtPmoveHi p))) ∧
  (∀ (s : State) (k : Fin 39168), (s.die (dieOf k.val)).dark = true → exec (.coreFmoveLo k) s = .next { s with rdata := 0xFFFFFFFF }) ∧
  (∀ (s : State) (k : Fin 39168), (s.die (dieOf k.val)).dark = false → ∃ t, exec (.coreFmoveLo k) s = .next t ∧ t = { s with cores := t.cores, rdata := t.rdata } ∧
    t.rdata = (s.core k).fmove.setWidth 32 ∧ t.core k = { s.core k with fmoveHi := (s.core k).fmove.extractLsb' 32 16 } ∧
    ∀ j, j ≠ k.val → t.core j = s.core j))

/-! ### Power -/

/-- Losses of supply (R338 to R342, R436, Tables 13-1 and 13-2). A lost feed is shown and reported; with the last feed of the mode the
panel goes dark: every die dark, every core unpowered, memory and host memory as they were. A failed converter leaves its plane, whose limit is that of
the modules left; with four or fewer the tile's dies lose their region rails and its partitions are halted. A breaker or a spine regulator makes its die dark
and halts its partition. VMID beyond its bounds opens every breaker, or trips the panel, in direct mode alone. -/
def Obligations.LostSuppliesDarkenTheirUnits : Prop :=
  let halted (t : State) (p : Nat) : Prop := ∃ x, (t.part p).haltPend = some (.abort, x)
  let allDark (t : State) : Prop := t.rails.dark = true ∧ (∀ d < 144, (t.die d).dark = true) ∧ ∀ k < 39168, (t.core k).st = 0
  let keeps (s t : State) : Prop := t.mem = s.mem ∧ t.hostMem = s.hostMem ∧ t.rings = s.rings
  let told (s t : State) (n : BitVec 16) : Prop := t.events.map (·.type) = s.events.map (·.type) ++ [n] ∨ t.host.evLost = s.host.evLost + 1
  (∀ (s : State) (feed : Bool) (cause : Byte),
    let mode := s.regF Reg.pwrStatus 30 2
    let mine := s.regF Reg.pwrStatus (if feed then 28 else 29) 1
    let other := s.regF Reg.pwrStatus (if feed then 29 else 28) 1
    let counts := mode = 0 ∨ (mode = 1 ∧ feed = false)
    (¬ counts ∨ mine = 0 → exec (.feedLost feed cause) s = .next s) ∧
    (counts → mine = 1 → ∃ t, exec (.feedLost feed cause) s = .next t ∧ keeps s t ∧ t.regF Reg.pwrStatus (if feed then 28 else 29) 1 = 0 ∧
      told s t 0x30 ∧ (mode = 0 → other = 1 → t.cores = s.cores ∧ t.dies = s.dies ∧ t.rails = s.rails ∧ t.parts = s.parts) ∧
      (mode = 1 ∨ other = 0 → allDark t)) ∧
    (¬ counts ∨ mine = 1 → exec (.feedRestored feed) s = .next s) ∧
    (counts → mine = 0 → ∃ t, exec (.feedRestored feed) s = .next t ∧ keeps s t ∧ t.regF Reg.pwrStatus (if feed then 28 else 29) 1 = 1 ∧
      told s t 0x31 ∧ t.cores = s.cores ∧ t.rails = s.rails)) ∧
  (∀ (s : State) (m : Fin 96),
    let e := m.val / 8
    let n := s.regF (Reg.pwrTile e) 28 4 - 1
    (s.regF (Reg.pwrCm m.val) 28 4 ≠ 1 → exec (.converterFailed m) s = .next s) ∧
    (s.regF (Reg.pwrCm m.val) 28 4 = 1 → ∃ t, exec (.converterFailed m) s = .next t ∧ keeps s t ∧ told s t 0x32 ∧
      t.regF (Reg.pwrCm m.val) 28 4 = 2 ∧ t.regF (Reg.pwrTile e) 28 4 = n ∧ t.regF (Reg.pwrTile e) 0 16 = n * 1615 / 10 ∧
      (5 ≤ n → t.cores = s.cores ∧ t.parts = s.parts) ∧
      (n ≤ 4 → (∀ d ∈ diesOfTile e, (∀ k ∈ coresOfDie d, (t.core k).st = 0) ∧ ∀ p, s.partOfRank (rankOfDie d) = some p → halted t p) ∧
        ∀ d < 144, d ∉ diesOfTile e → ∀ k ∈ coresOfDie d, t.core k = s.core k))) ∧
  (∀ (s : State) (d : Fin 144),
    let off (t : State) : Prop := keeps s t ∧ (t.die d.val).dark = true ∧ (∀ k ∈ coresOfDie d.val, (t.core k).st = 0) ∧
      (∀ k, dieOf k ≠ d.val → t.core k = s.core k) ∧ (∀ j, j ≠ d.val → t.die j = s.die j) ∧ ∀ p, s.partOfRank (rankOfDie d.val) = some p → halted t p
    (s.regF (Reg.pwrDie d.val) 31 1 = 1 → exec (.dieBreaker d) s = .next s) ∧
    (s.regF (Reg.pwrDie d.val) 31 1 = 0 → ∃ t, exec (.dieBreaker d) s = .next t ∧ off t ∧ t.regF (Reg.pwrDie d.val) 31 1 = 1 ∧ told s t 0x34) ∧
    (∃ t, exec (.spineRegulatorTrip d) s = .next t ∧ off t ∧ t.events = s.events)) ∧
  (∀ s : State,
    let mode := s.regF Reg.pwrStatus 30 2
    (mode ≠ 2 → exec .vmidOvervoltage s = .next s ∧ exec .vmidUndervoltage s = .next s) ∧
    (mode = 2 → (∃ t, exec .vmidOvervoltage s = .next t ∧ keeps s t ∧ allDark t ∧ ∀ d < 144, t.regF (Reg.pwrDie d) 31 1 = 1) ∧
      ∃ t, exec .vmidUndervoltage s = .next t ∧ keeps s t ∧ t.regF Reg.pwrStatus 26 1 = 1 ∧ told s t 0x37 ∧
        ∀ e ∈ s.parts, 0 < e.2.height → e.2.st = 1 → halted t e.1))

/-- Region regulators (R344, R345, R349, R353, Table 13-3). A check within balance clears the phase's count; out of balance it counts,
and the tenth in a row shuts the phase off. A suspect bond is shown once. A region that six phases no longer serve, or that is
short, is fenced: rail off for good, cores unpowered, its partition halted. A power trip stops the region's clocks and halts its partition; a third within the
same hour is a suspect bond. -/
def Obligations.FailingRegulatorsFenceTheirRegion : Prop :=
  ∀ (s : State) (r : Fin 1152),
    let live := s.regF (Reg.pwrReg r.val) 24 4
    let suspect := s.regF (Reg.pwrReg r.val) 23 1
    let halted (t : State) : Prop := ∀ p, s.partOfRank (rankOfDie (r.val / 8)) = some p → ∃ x, (t.part p).haltPend = some (.abort, x)
    let keeps (t : State) : Prop := t.mem = s.mem ∧ t.hostMem = s.hostMem ∧ t.rings = s.rings ∧ (∀ k, k ∉ coresOfRegion r.val → t.core k = s.core k) ∧
      ∀ q, q ≠ r.val → t.region q = s.region q
    let fenced (t : State) : Prop := keeps t ∧ t.railState r.val = 4 ∧ (∀ k ∈ coresOfRegion r.val, (t.core k).st = 0) ∧ halted t
    let tell (t : State) (ty : BitVec 16) : Prop := ty ∈ t.events.map (·.type) ∨ t.host.evLost ≠ s.host.evLost
    (∀ (ph : Fin 8) (amps : List Nat),
      let i := ph.val
      let on := (List.range 8).filter (fun j => !(s.region r.val).lost.contains j)
      let sum := (on.map (fun j => amps.getD j 0)).sum
      let a := 4 * amps.getD i 0 * on.length
      let n := sget 0 (s.region r.val).out i
      let balanced := sum ≤ a ∧ a ≤ 7 * sum
      (i ∈ (s.region r.val).lost → exec (.phaseCheck r ph amps) s = .next s) ∧
      (i ∉ (s.region r.val).lost → balanced ∨ n + 1 < 10 → ∃ t, exec (.phaseCheck r ph amps) s = .next t ∧ t = { s with rails := t.rails } ∧ keeps t ∧
        t.region r.val = { s.region r.val with out := sput 0 (s.region r.val).out i (if sum ≤ a ∧ a ≤ 7 * sum then 0 else n + 1) }) ∧
      (i ∉ (s.region r.val).lost → ¬ balanced → 9 ≤ n → 0 < live → ∃ t, exec (.phaseCheck r ph amps) s = .next t ∧ keeps t ∧
        t.regF (Reg.pwrReg r.val) 24 4 = live - 1 ∧ i ∈ (t.region r.val).lost ∧
        (6 ≤ live - 1 → tell t 0x35) ∧ (6 ≤ live - 1 - suspect → t.cores = s.cores ∧ t.parts = s.parts) ∧
        (live - 1 - suspect < 6 → s.railState r.val ≠ 4 → fenced t))) ∧
    (∀ mv : BitVec 16,
      (suspect = 1 → exec (.suspectBond r mv) s = .next s) ∧
      (suspect = 0 → ∃ t, exec (.suspectBond r mv) s = .next t ∧ keeps t ∧ tell t 0x36 ∧ t.regF (Reg.pwrReg r.val) 23 1 = 1 ∧
        (6 ≤ live - 1 → t.cores = s.cores ∧ t.parts = s.parts ∧ t.rails = s.rails) ∧ (live - 1 < 6 → s.railState r.val ≠ 4 → fenced t))) ∧
    (∃ t, exec (.regionShort r) s = .next t ∧ fenced t ∧ t.regF (Reg.pwrReg r.val) 22 1 = 1 ∧ tell t 0x33) ∧
    (∃ t, exec (.powerTrip r) s = .next t ∧ keeps t ∧ tell t 0x37 ∧ halted t ∧ s.life ∈ (t.region r.val).trips ∧
      (∀ k ∈ coresOfRegion r.val, (s.core k).st = 0 → (t.core k).st = 0) ∧ (∀ k ∈ coresOfRegion r.val, (t.core k).mhz = 0 ∨ (t.core k).st = 0) ∧
      (((s.region r.val).trips.filter (fun h => h == s.life)).length = 0 ∧ (∀ h ∈ (s.region r.val).trips, h + 1 ≠ s.life) →
        t.regs = s.regs ∧ ∀ k ∈ coresOfRegion r.val, (s.core k).st ≠ 0 → (t.core k).st = 6) ∧
      (2 ≤ ((s.region r.val).trips.filter (fun h => h == s.life)).length → t.regF (Reg.pwrReg r.val) 23 1 = 1))

/-- Hints, droop and switching on (R346, R348, R350, R351, R354, R355, Tables 13-4 and 13-5). A hint that raises the announced current makes the
regulator ready for it, and its level follows when its time comes. A region's stretching is counted once per start. A power-on waits while the
admission check or the brake refuses it, then starts softly, at the latest without the check; once it is done the region's clocks wait for the next
release. Input power above its limits sets the brake and moves the lever; above 26 kW it trips the panel. -/
def Obligations.RegionsSwitchOnWithinTheLimits : Prop :=
  (∀ (s : State) (k : Fin 39168),
    let q := regionOf k.val
    let marked := markHint (s.core k.val).hints
    let s1 := s.modCore k.val (fun c => { c with hints := marked })
    (∃ t, exec (.hintArrival k) s = .next t ∧ t = { s with cores := t.cores, rails := t.rails } ∧ t.cores = s1.cores ∧
      (t.region q).ready = (if s.announced q < s1.announced q then s1.announced q else (s.region q).ready) ∧ ∀ j, j ≠ q → t.region j = s.region j) ∧
    ((s.core k.val).hints = [] → exec (.levelChange k) s = .next s) ∧
    (∀ h l, (s.core k.val).hints = h :: l → ∃ t, exec (.levelChange k) s = .next t ∧ t = { s with cores := t.cores, rails := t.rails } ∧
      t.core k.val = { s.core k.val with level := h.1, hints := l } ∧ (∀ j, j ≠ k.val → t.core j = s.core j) ∧
      (t.region q).ready = t.announced q)) ∧
  (∀ (s : State) (r : Fin 1152) (d : Fin 144),
    let st := s.railState r.val
    let g := s.region r.val
    let brake := (s.reg Reg.pwrStatus).getLsbD 27
    let only (t : State) : Prop := t = { s with regs := t.regs, rails := t.rails } ∧ (∀ o, o ≠ Reg.pwrReg r.val → t.reg o = s.reg o) ∧
      ∀ j, j ≠ r.val → t.region j = s.region j
    (g.droop = true ∨ (st ≠ 1 ∧ st ≠ 2) → exec (.droopStretching (some r) d) s = .next s) ∧
    (g.droop = false → st = 1 ∨ st = 2 → ∃ t, exec (.droopStretching (some r) d) s = .next t ∧ t = { s with regs := t.regs, rails := t.rails } ∧
      t.regF (Reg.pwrRstat r.val) 16 16 = min 0xFFFF (s.regF (Reg.pwrRstat r.val) 16 16 + 1) ∧
      t.regF (Reg.pwrRstat r.val) 0 16 = s.regF (Reg.pwrRstat r.val) 0 16 ∧ t.region r.val = { g with droop := true }) ∧
    (∃ t, exec (.stretchEnd (some r) d) s = .next t ∧ t = { s with rails := t.rails } ∧ t.region r.val = { g with droop := false } ∧
      (∀ j, j ≠ r.val → t.region j = s.region j)) ∧
    exec (.droopStretching none d) s = .next { s with rails := { s.rails with spine := addNew d.val s.rails.spine } } ∧
    exec (.stretchEnd none d) s = .next { s with rails := { s.rails with spine := s.rails.spine.erase d.val } } ∧
    (st = 1 ∨ st = 2 ∨ st = 4 → exec (.regionPowerOn r) s = .next s) ∧
    (st = 0 ∨ st = 3 ∨ st = 5 → 6 ≤ s.phases r.val → (s.die (r.val / 8)).dark = false → (s.die (r.val / 8)).fenced = false →
      ∃ t, exec (.regionPowerOn r) s = .next t ∧ only t ∧ t.railState r.val = (if s.admits r.val = true ∧ brake = false then 1 else 3)) ∧
    (st ≠ 3 → exec (.admissionCheck r) s = .next s ∧ exec (.deferredPowerOn r) s = .next s) ∧
    (st = 3 → (s.admits r.val = false ∨ brake = true → exec (.admissionCheck r) s = .next s) ∧
      (s.admits r.val = true → brake = false → ∃ t, exec (.admissionCheck r) s = .next t ∧ only t ∧ t.railState r.val = 1 ∧
        (t.region r.val).extended = false) ∧
      ∃ t, exec (.deferredPowerOn r) s = .next t ∧ only t ∧ t.railState r.val = 1 ∧ (t.region r.val).extended = true) ∧
    (st ≠ 1 → exec (.softStartDone r) s = .next s) ∧
    (st = 1 → ∃ t, exec (.softStartDone r) s = .next t ∧ t.railState r.val = 2 ∧ (t.region r.val).waiting = true ∧
      t.mem = s.mem ∧ t.parts = s.parts ∧ (∀ k, k ∉ coresOfRegion r.val → t.core k = s.core k) ∧
      ∀ k ∈ coresOfRegion r.val, (t.core k).st ≠ (s.core k).st → (s.core k).st = 0 ∧ ((t.core k).st = 1 ∨ (t.core k).st = 2))) ∧
  (∀ (s : State) (now avg : BitVec 16) (a b e : Bool),
    let w := s.contW
    let on := (s.reg Reg.pwrStatus).getLsbD 27
    let above := (a = true ∧ w < now.toNat) ∨ 24000 < now.toNat
    ∃ t, exec (.inputPowerSample now avg a b e) s = .next t ∧ t.reg Reg.pin = avg ++ now ∧ t.mem = s.mem ∧ t.hostMem = s.hostMem ∧ t.rings = s.rings ∧
      t.rails.lever = (if w - 500 < avg.toNat then 1 else if e = true ∧ avg.toNat < w - 1500 then 2 else 0) ∧
      (t.reg Reg.pwrStatus).getLsbD 27 = (if above then true else if now.toNat ≤ w then false else on) ∧
      (b = false ∨ now.toNat ≤ 26000 → t.cores = s.cores ∧ t.parts = s.parts) ∧
      (b = true → 26000 < now.toNat → (t.reg Reg.pwrStatus).getLsbD 26 = true ∧
        ∀ x ∈ s.parts, 0 < x.2.height → x.2.st = 1 → ∃ y, (t.part x.1).haltPend = some (.abort, y)))

/-! ### Heat -/

/-- Sensors and levels (R361 to R364, R367, Table 14-3). A sample outside its range or rate counts for nothing; a plausible one ends its
pair's blindness, is shown, and moves its unit up to the highest level that the hottest plausible reading of the unit reaches, never down. A region that
reaches 115 °C trips: rail off, clocks stopped, its partition halted. A router that does stops: its clock, its two links, its partition. A pair whose readings differ by more than 6 °C is flagged once; a pair
without a plausible reading goes blind, with the cap, the router clock or the refresh band of R363. A unit leaves a level 5 °C below its
threshold, for the next lower one. -/
def Obligations.SensorsMoveTheLevels : Prop :=
  (∀ x : Int, let at' (k : Nat) : Nat := levelFor k (some x)
    at' 1 = (if 115 ≤ x then 4 else if 105 ≤ x then 3 else if 100 ≤ x then 2 else if 95 ≤ x then 1 else 0) ∧
    at' 2 = (if 115 ≤ x then 4 else if 100 ≤ x then 2 else if 95 ≤ x then 1 else 0) ∧ at' 3 = (if 105 ≤ x then 4 else if 95 ≤ x then 1 else 0) ∧
    at' 4 = (if 110 ≤ x then 4 else if 90 ≤ x then 1 else 0) ∧ at' 5 = (if 125 ≤ x then 4 else if 110 ≤ x then 1 else 0)) ∧
  (∀ (s : State) (kind : BitVec 4) (i : Nat) (x : Int) (flow dt : Nat),
    let k := kind.toNat
    let good := plausible k (s.sensor k i).last x dt
    let p := pairOf k i
    let u := actionUnit k p
    let run := exec (.sensorSample kind i x flow dt) s
    (sensorCount k ≤ i → run = .next s) ∧
    (i < sensorCount k → good = false → ∃ t, run = .next t ∧ t.sensor k i = { s.sensor k i with fresh := false } ∧
      t = { s with regs := t.regs, rails := { s.rails with sensors := t.rails.sensors }, freeCtr := t.freeCtr }) ∧
    (i < sensorCount k → good = true → ∃ t, run = .next t ∧ t.sensor k i = ⟨some x, true⟩ ∧ t.isBlind k p = (s.rails.blind.erase (kindKey k p)).contains (kindKey k p) ∧
      t.mem = s.mem ∧ t.hostMem = s.hostMem ∧ (∀ j, j ≠ i → t.sensor k j = s.sensor k j) ∧
      (k ≠ 6 → t.levelOf k u = max (s.levelOf k u) (levelFor k (t.unitTemp k u)) ∧ ∀ j, j ≠ u → t.levelOf k j = s.levelOf k j) ∧
      (k = 1 → 115 ≤ x → s.levelOf 1 u < 4 → s.railState u ≠ 4 → t.railState u = 5 ∧ (0x003C ∈ t.events.map (·.type) ∨ t.host.evLost ≠ s.host.evLost) ∧
        (∀ c ∈ coresOfRegion u, (t.core c).st = (if (s.core c).st = 0 then 0 else 6)) ∧ (∀ c, c ∉ coresOfRegion u → t.core c = s.core c) ∧
        ∀ q, s.partOfRank (rankOfDie (u / 8)) = some q → ∃ y, (t.part q).haltPend = some (.abort, y)) ∧
      (k = 2 → 115 ≤ x → s.levelOf 2 u < 4 → u ∈ t.rails.stopped ∧ t.regF (Reg.er (u / 4) (u % 4)) 0 12 = 0 ∧
        (∀ l ∈ routerLinks u, (t.link l).stopped = true) ∧ ∀ q, s.partOfRank (rankOfDie (u / 4)) = some q → ∃ y, (t.part q).haltPend = some (.abort, y)) ∧
      (k ≠ 6 → levelFor k (t.unitTemp k u) ≤ s.levelOf k u → t.events = s.events ∧ t.parts = s.parts ∨ (k = 1 ∧ s.levelOf 1 u = 2) ∨ k = 4))) ∧
  (∀ (s : State) (a : UnitId) (x y : Int),
    let k := a.kind.toNat
    (s.readings k a.idx = [x, y] → s.isFlagged k a.idx = true ∨ (x - y ≤ 6 ∧ y - x ≤ 6) → exec (.sensorFlagged a) s = .next s) ∧
    (s.readings k a.idx = [x, y] → s.isFlagged k a.idx = false → 6 < x - y ∨ 6 < y - x → ∃ t, exec (.sensorFlagged a) s = .next t ∧
      t.isFlagged k a.idx = true ∧ t.cores = s.cores ∧ t.parts = s.parts ∧ t.mem = s.mem ∧ t.rails.levels = s.rails.levels ∧
      (0x003D ∈ t.events.map (·.type) ∨ t.host.evLost ≠ s.host.evLost))) ∧
  (∀ (s : State) (a : UnitId),
    let k := a.kind.toNat
    let known := (sensorsOf k a.idx).headD 0 < sensorCount k
    (¬ known ∨ s.isBlind k a.idx = true ∨ s.readings k a.idx ≠ [] → exec (.sensorLost a) s = .next s) ∧
    (known → s.isBlind k a.idx = false → s.readings k a.idx = [] → ∃ t, exec (.sensorLost a) s = .next t ∧ t.isBlind k a.idx = true ∧
      t.cores = s.cores ∧ t.parts = s.parts ∧ t.mem = s.mem ∧ (0x003E ∈ t.events.map (·.type) ∨ t.host.evLost ≠ s.host.evLost) ∧
      (k = 1 → (t.region a.idx).thermal = 2300) ∧ (k = 2 → t.regF (Reg.er (a.idx / 4) (a.idx % 4)) 0 12 = if a.idx ∈ s.rails.stopped then s.regF (Reg.er (a.idx / 4) (a.idx % 4)) 0 12 else 1400) ∧
      (k = 3 → t.regF (Reg.sstat (a.idx / 9)) 26 2 = 2))) ∧
  (∀ (s : State) (a : UnitId),
    let k := a.kind.toNat
    let u := actionUnit k a.idx
    let l := s.levelOf k u
    (∀ x y, s.unitTemp k u = some x → threshold k l = some y → (y - 5 < x → exec (.levelExit a) s = .next s) ∧
      (x ≤ y - 5 → ∃ t, exec (.levelExit a) s = .next t ∧ t = { s with rails := { s.rails with levels := t.rails.levels } } ∧
        (∀ j, j ≠ u → t.levelOf k j = s.levelOf k j) ∧ t.levelOf k u < l ∧ (t.levelOf k u = 0 ∨ (threshold k (t.levelOf k u)).isSome = true) ∧
        ∀ m, m < l → 0 < m → (threshold k m).isSome = true → m ≤ t.levelOf k u)) ∧
    (s.unitTemp k u = none → exec (.levelExit a) s = .next s))

/-- What heat caps and what restarts (R363, R365, R366, R368, R373, R374). A region at Cap loses 100 MHz at its next release, one out of Cap gains
as much; ten milliseconds at the floor are Rest. A router at Cap loses 100 MHz down to 1.4 GHz, one out of Cap gains up to 2 GHz. A rest region
comes on again below 85 °C, a tripped module below 100 °C. Fluid beyond the trip bounds trips the panel; the fluid limit ends once both fluid readings
are inside the warn bounds and known. -/
def Obligations.HeatCapsAndRestartsUnits : Prop :=
  (∀ (s : State) (r : Fin 1152),
    let g := s.region r.val
    let l := s.levelOf 1 r.val
    let forced := s.routerForces r.val
    (s.isBlind 1 r.val = true → exec (.thermalCap r) s = .next s) ∧
    (s.isBlind 1 r.val = false →
      (∀ x, s.regionTemp r.val = some x → 100 ≤ x → 2 ≤ l → g.thermal ≠ 800 ∨ g.floorMs < 9 ∨ 3 ≤ l → ∃ t, exec (.thermalCap r) s = .next t ∧
        t = { s with rails := t.rails } ∧ t.region r.val = { g with change := g.change - 1, floorMs := if g.thermal = 800 then g.floorMs + 1 else 0 }) ∧
      (∀ x, s.regionTemp r.val = some x → 100 ≤ x → l = 2 → g.thermal = 800 → 9 ≤ g.floorMs → ∃ t, exec (.thermalCap r) s = .next t ∧
        t.levelOf 1 r.val = 3 ∧ (t.region r.val).change = g.change - 1 ∧ t.mem = s.mem ∧ (0x0038 ∈ t.events.map (·.type) ∨ t.host.evLost ≠ s.host.evLost) ∧
        (∀ p, s.partOfRank (rankOfDie (r.val / 8)) = some p → r.val ∈ s.restRegions p → s.railState r.val ≠ 4 → t.railState r.val = 5)) ∧
      (forced = false → l < 2 → ∃ t, exec (.thermalCap r) s = .next t ∧ t = { s with rails := t.rails } ∧
        t.region r.val = { g with change := (if g.thermal < 3300 then g.change + 1 else g.change), floorMs := 0 }) ∧
      (forced = true → (s.regionTemp r.val = none ∨ l < 2) → ∃ t, exec (.thermalCap r) s = .next t ∧ t = { s with rails := t.rails } ∧
        t.region r.val = { g with change := g.change - 1, floorMs := 0 }))) ∧
  (∀ (s : State) (d : Fin 144) (dir : Dir),
    let u := d.val * 4 + dir.idx
    let f (t : State) : Nat := t.regF (Reg.er d.val dir.idx) 0 12
    let ok := u ∉ s.rails.stopped ∧ s.isBlind 2 u = false
    let only (t : State) : Prop := t.mem = s.mem ∧ t.cores = s.cores ∧ t.parts = s.parts ∧ ∀ o, o ≠ Reg.er d.val dir.idx → t.reg o = s.reg o
    (¬ ok → exec (.routerCap d dir) s = .next s) ∧
    (ok → 2 ≤ s.levelOf 2 u → ∃ t, exec (.routerCap d dir) s = .next t ∧ only t ∧ f t = (if 1400 < f s then max 1400 (f s - 100) else f s) ∧
      (f s ≤ 1400 → sget 0 t.rails.floor u = sget 0 s.rails.floor u + 1)) ∧
    (ok → s.levelOf 2 u < 2 → ∃ t, exec (.routerCap d dir) s = .next t ∧ only t ∧ f t = (if f s < 2000 then min 2000 (f s + 100) else f s) ∧
      sget 0 t.rails.floor u = 0)) ∧
  (∀ (s : State) (r : Fin 1152) (p : Nat), s.partOfRank (rankOfDie (r.val / 8)) = some p →
    let good := s.railState r.val = 5 ∧ r.val ∈ s.restRegions p ∧ (s.reg Reg.thmCfg).getLsbD 30 = false ∧ ∃ x, s.regionTemp r.val = some x ∧ x < 85
    (¬ good → exec (.restPowerOn r) s = .next s) ∧
    (good → 6 ≤ s.phases r.val → (s.die (r.val / 8)).dark = false → (s.die (r.val / 8)).fenced = false → ∃ t, exec (.restPowerOn r) s = .next t ∧
      (t.railState r.val = 1 ∨ t.railState r.val = 3) ∧ t.cores = s.cores ∧ t.parts = s.parts ∧ t.mem = s.mem ∧
      (0x003A ∈ t.events.map (·.type) ∨ t.host.evLost ≠ s.host.evLost))) ∧
  (∀ (s : State) (m : Fin 96),
    let good := m.val ∈ s.rails.modulesOff ∧ ∃ x, s.unitTemp 5 m.val = some x ∧ x < 100
    let n := s.regF (Reg.pwrTile (m.val / 8)) 28 4
    (¬ good → exec (.converterRestart m) s = .next s) ∧
    (good → ∃ t, exec (.converterRestart m) s = .next t ∧ t = { s with regs := t.regs, rails := { s.rails with modulesOff := s.rails.modulesOff.erase m.val } } ∧
      t.regF (Reg.pwrCm m.val) 28 4 = 1 ∧ (n < 15 → t.regF (Reg.pwrTile (m.val / 8)) 28 4 = n + 1 ∧
        t.regF (Reg.pwrTile (m.val / 8)) 0 16 = (n + 1) * 1615 / 10))) ∧
  (∀ s : State,
    let flow := s.regF Reg.thmFluid 0 16
    let inlet := s.pairTemp 6 0
    (300 ≤ flow → (∀ x, inlet = some x → x ≤ 50) → exec .fluidTrip s = .next s) ∧
    (flow < 300 ∨ (∃ x, inlet = some x ∧ 50 < x) → ∃ t, exec .fluidTrip s = .next t ∧ t.mem = s.mem ∧ t.regF Reg.pwrStatus 26 1 = 1 ∧
      ∀ e ∈ s.parts, 0 < e.2.height → e.2.st = 1 → ∃ y, (t.part e.1).haltPend = some (.abort, y)) ∧
    (let fine := 900 ≤ flow ∧ (∃ x, inlet = some x ∧ x ≤ 40) ∧ s.fluidBlind = false
     (fine → exec .fluidLimitEnd s = .next { s with rails := { s.rails with limited := false } }) ∧ (¬ fine → exec .fluidLimitEnd s = .next s)))

/-! ### Starting, training, the TAP -/

/-- Starts and resets (R379, R380, R386, R388, R389, R420, R440, R445, Tables 15-5, 15-7 and 15-9). A cold start keeps what the flashes, the counters and the
host hold and loses memory, partitions and rings; it ends operational, waiting for fluid, management-only or in ROM recovery, and only as the straps,
flashes, identity and fluid let it. A panel warm reset keeps memory and positions and clears partitions, rings and grants; it zeroes the scratchpads of sites that come back
into service with a former tenant's bytes (R167); it is ignored without an identity, in ROM recovery, during a start and while dark. MRST leaves the panel dark. A takeover exchanges the controllers and nothing else. -/
def Obligations.StartsKeepWhatTheyShould : Prop :=
  (∀ (s : State) (rep : StartReport), ∃ t, exec (.coldStart rep) s = .next t ∧
    let stage := t.regF Reg.mgtState 28 4
    t.hostMem = s.hostMem ∧ t.pending = s.pending ∧ t.mem = [] ∧ t.parts = [] ∧ t.rings = [] ∧ t.stores = [] ∧ t.rails.dark = false ∧
      (∀ i < 10, t.counter i = s.counter i) ∧ stage ∈ [4, 0xD, 0xE, 0xF] ∧ t.regF Reg.pwrStatus 30 2 = rep.pm.toNat ∧ t.host.active = !rep.hpsel ∧
      (rep.flashA = false → rep.flashB = false → stage = 0xD) ∧ (stage ≠ 0xD → rep.pufA = false → rep.pufB = false → stage = 0xE) ∧
      (stage = 0xF → 600 ≤ rep.flow ∧ rep.inlet ≤ 45 ∧ rep.pm ≠ 3 ∧ (rep.pufA = true ∨ rep.pufB = true) ∧ (rep.flashA = true ∨ rep.flashB = true)) ∧
      (stage = 4 → rep.flow < 600 ∨ 45 < rep.inlet)) ∧
  (∀ (s : State) (rep : StartReport),
    let able := (s.reg Reg.secStatus).getLsbD 31 = true ∧ s.regF Reg.pwrStatus 30 2 ≠ 3 ∧ s.regF Reg.mgtState 28 4 ≠ 0xD ∧
      s.regF Reg.mgtState 28 4 ≠ 0 ∧ s.rails.dark = false
    let warm (i : Instr) : Prop := ∃ t, exec i s = .next t ∧
      ((∀ d, (s.die d).stale = []) → (∀ u, rowKey u ∈ s.hbm.repair → s.hbm.missAt u = false) → t.mem = s.mem) ∧
      (t.regF Reg.mgtState 28 4 = 0xF → ∀ d < 144, ∀ n ∈ (s.die d).stale, n < 272 → t.siteFenced (d * 272 + n) = false → (t.die d).dark = false →
        n ∉ (t.die d).stale ∧ ∀ i < 2 ^ 21, rd t.mem (spadAddr (d * 272 + n) i) = 0) ∧
      t.hostMem = s.hostMem ∧ t.pending = s.pending ∧ t.rings = [] ∧ t.stores = s.stores ∧ t.gambits = [] ∧
        t.regF Reg.mgtState 28 4 ∈ [4, 0xE, 0xF] ∧ (∀ i < 10, t.counter i = s.counter i) ∧ t.reg Reg.rcnt = s.reg Reg.rcnt ∧
        (∀ p, (t.part p).height = 0 ∧ (t.part p).st = 0 ∧ (t.part p).positions = (s.part p).positions) ∧
        (∀ i < 3072, (t.grantOf i).getLsbD 31 = false) ∧
        (t.regF Reg.mgtState 28 4 = 4 ↔ rep.flow < 600 ∨ 45 < rep.inlet)
    (∀ v : W32, v ≠ 0x5A000001 → exec (.mgtRst v rep) s = .next s) ∧
    (¬ able → exec (.mgtRst 0x5A000001 rep) s = .next s) ∧ (able → warm (.mgtRst 0x5A000001 rep)) ∧
    (∀ (c : SpdmCtx),
      let secured := c.path ≠ 0 ∧ ∃ x ∈ s.mgmt.sessions, x.live = true ∧ x.path = c.path ∧ c.session = some x.id
      (¬ secured ∨ ¬ able → exec (.vendorWarmResetRequest c rep) s = .next s) ∧ (secured → able → warm (.vendorWarmResetRequest c rep)))) ∧
  (∀ s : State,
    (∃ t, exec .mrst s = .next t ∧ t.rails.dark = true ∧ t.mem = [] ∧ t.parts = [] ∧ t.rings = [] ∧ t.hostMem = s.hostMem ∧ t.defects = s.defects ∧
      (∀ d < 144, (t.die d).dark = true) ∧ (∀ i < 11, t.counter i = s.counter i)) ∧
    (s.regF Reg.mgtState 26 1 = 0 → exec .takeover s = .next s) ∧
    (s.regF Reg.mgtState 26 1 = 1 → ∃ t, exec .takeover s = .next t ∧ t = { s with regs := t.regs } ∧ (∀ o, o ≠ Reg.mgtState → t.reg o = s.reg o) ∧
      t.regF Reg.mgtState 27 1 = 1 - s.regF Reg.mgtState 27 1 ∧ t.regF Reg.mgtState 26 1 = 0 ∧
      t.regF Reg.mgtState 28 4 = s.regF Reg.mgtState 28 4))

/-- Training results and the TAP (R286, R391, R441, R450, Table 15-9). A port that trains learns its peer and comes up, or up at half width; one that
fails, faces its own panel or has too few lanes is failed. A stack that does not train is fenced in the map. A mesh lane that trains starts
its counts again; one that does not takes its die outside every partition, and is a second fault of the partition that was to use it (R19, R189); in a
partition, a lane that was not training stays as it is. A photonic pair shows its lanes. A port's path that came back asks for a new calibration (R43). The TAP takes BYPASS, IDCODE and SAMPLE always, any other instruction only in the stages that admit it; elsewhere it is
BYPASS and recorded. -/
def Obligations.TrainingAndTapFollowTheStage : Prop :=
  (∀ (s : State) (p : Fin 32) (ok : Bool) (peer : BitVec 13) (lanes : Nat),
    let run := exec (.trainingComplete (.link (.sys p)) ok peer lanes) s
    let good := ok = true ∧ 8 ≤ lanes ∧ peer.toNat ≠ s.ownId ∧ peer.toNat < 4096
    (s.regF (Reg.sylPort p.val) 28 4 ≠ 1 → run = .next s) ∧
    (s.regF (Reg.sylPort p.val) 28 4 = 1 → good → ∃ t, run = .next t ∧ t = { s with regs := t.regs, links := t.links, parts := t.parts } ∧
      (∀ q, { t.part q with recal := (s.part q).recal } = s.part q ∧ ((s.part q).recal = true → (t.part q).recal = true)) ∧
      (∀ q, (∃ c ∈ (s.part q).children, c.2.1 = p.val ∨ c.2.2 = p.val) → (t.part q).recal = true) ∧
      t.regF (Reg.sylPort p.val) 0 13 = peer.toNat ∧ t.regF (Reg.sylPort p.val) 16 5 = min lanes 16 ∧
      t.regF (Reg.sylPort p.val) 28 4 = (if lanes < 16 then 3 else 2) ∧ t.link (.sys p) = Link.reset ∧
      ∀ o, o ≠ Reg.sylPort p.val → t.reg o = s.reg o) ∧
    (s.regF (Reg.sylPort p.val) 28 4 = 1 → ¬ good → ∃ t, run = .next t ∧ t.regF (Reg.sylPort p.val) 28 4 = 4 ∧ t.mem = s.mem ∧ t.cores = s.cores)) ∧
  (∀ (s : State) (k : Fin 48) (peer : BitVec 13) (lanes : Nat),
    let st := s.stackState k.val
    (st = 4 ∨ st = 3 → exec (.trainingComplete (.stack k) true peer lanes) s = .next s) ∧
    (st ≠ 4 → st ≠ 3 → ∃ t, exec (.trainingComplete (.stack k) true peer lanes) s = .next t ∧ t.stackState k.val = 2 ∧
      t = { s with regs := t.regs } ∧ ∀ o, o ≠ Reg.sstat k.val → t.reg o = s.reg o) ∧
    (∃ t, exec (.trainingComplete (.stack k) false peer lanes) s = .next t ∧ t.stackState k.val = 3 ∧ t.mem = s.mem ∧
      ∃ d ∈ t.defects, d.kind = 6 ∧ d.loc = BitVec.ofNat 64 k.val)) ∧
  (∀ (s : State) (d : Fin 144) (dir : Dir) (lane : Fin 16) (seg : Fin 3) (peer : BitVec 13) (n : Nat),
    let run (ok : Bool) := exec (.trainingComplete (.link (.mesh d dir lane seg)) ok peer n) s
    let lanes (t : State) : Nat := t.regF (Reg.dlink d.val dir.idx) (2 * lane.val) 2
    let again (t : State) : Prop := ∀ g : Fin 3, t.link (.mesh d dir lane g) = Link.reset
    let member := s.partOfRank (rankOfDie d.val)
    (member = none → (∃ t, run true = .next t ∧ t = { s with regs := t.regs, links := t.links } ∧ lanes t = 0 ∧ again t) ∧
      (∃ t, run false = .next t ∧ (t.die d.val).fenced = true ∧ lanes t = 2 ∧ t.mem = s.mem ∧ ∃ x ∈ t.defects, x.kind = 3 ∧ x.loc = BitVec.ofNat 64 d.val)) ∧
    (∀ q, member = some q →
      (lanes s ≠ 3 → run true = .next s ∧ run false = .next s) ∧
      (lanes s = 3 →
        ((s.part q).retrain = none → ∃ t, run true = .next t ∧ t = { s with regs := t.regs, links := t.links } ∧ lanes t = 0 ∧ again t) ∧
        (∀ lost c cs, (s.part q).retrain = some lost → (s.part q).positions = c :: cs → ∃ u, run true = .next (u.replayWhenTrained q c lost) ∧
          u = { s with regs := u.regs, links := u.links } ∧ lanes u = 0 ∧ again u) ∧
        ∃ t, run false = .next t ∧ lanes t = 2 ∧ (∃ y, (t.part q).haltPend = some (.abort, y)) ∧
          t = { s with regs := t.regs, links := t.links, parts := t.parts } ∧ ∀ j, j ≠ q → t.part j = s.part j))) ∧
  (∀ (s : State) (a b : Fin 12) (peer : BitVec 13) (n : Nat), a ≠ b → 0 < n → ∃ t,
    exec (.trainingComplete (.link (.photon a b)) true peer n) s = .next t ∧ t.regF (Reg.plink a.val b.val) 0 8 = min n 128 ∧
      t.regF (Reg.plink a.val b.val) 30 2 = (if n < 128 then 1 else 0) ∧ t.mem = s.mem ∧ t.cores = s.cores) ∧
  (∀ (s : State) (ir : Nat),
    let stage := s.regF Reg.mgtState 28 4
    let full := stage = 1 ∨ stage = 2 ∨ stage = 3 ∨ stage = 0xD ∨ stage = 0xE
    let only (t : State) : Prop := t = { s with regs := t.regs, mgmt := { s.mgmt with tap := t.mgmt.tap }, answer := t.answer } ∧
      (∀ o, o ≠ Reg.dbgStatus → t.reg o = s.reg o) ∧ (t.reg Reg.dbgStatus).getLsbD 30 = true
    (ir ≤ 2 ∨ full → ∃ t, exec (.tapInstruction ir) s = .next t ∧ only t ∧ t.mgmt.tap = ir ∧
      (t.reg Reg.dbgStatus).getLsbD 29 = (s.reg Reg.dbgStatus).getLsbD 29 ∧ (ir = 1 → t.answer = leBytes 4 tapIdcode.toNat) ∧ (ir ≠ 1 → t.answer = s.answer)) ∧
    (2 < ir → ¬ full → ∃ t, exec (.tapInstruction ir) s = .next t ∧ only t ∧ t.mgmt.tap = 0 ∧ (t.reg Reg.dbgStatus).getLsbD 29 = true ∧ t.answer = s.answer) ∧
    (∃ t, exec .tapActiveTimeout s = .next t ∧ t = { s with regs := t.regs } ∧ (∀ o, o ≠ Reg.dbgStatus → t.reg o = s.reg o) ∧
      (t.reg Reg.dbgStatus).getLsbD 30 = false ∧ (t.reg Reg.dbgStatus).getLsbD 29 = (s.reg Reg.dbgStatus).getLsbD 29) ∧
    (tapIdcode.toNat % 2 = 1 ∧ tapIdcode.toNat / 2 ^ 12 % 2 ^ 16 = 0x0128))

/-! ### Attestation and management messages -/

/-- SPDM (R383 to R385, R446; the encoding of a response is uninterpreted, log entry 6). Without an identity, in ROM recovery, or in
a session that is not its path's, a request stays unanswered. A connection agrees version, capabilities and algorithms in that order; any
other request before that is refused without an effect. Digests, certificates and measurements are those of the chains and indices that exist. At
most four sessions are open at a time; a session is established by a good MAC and ends by a bad one or by END_SESSION; key updates,
heartbeats, certificates of slot 1 and IDE keys need it. -/
def Obligations.SpdmSessionsFollowTheirOrder : Prop :=
  ∀ (s : State) (c : SpdmCtx),
    let on := s.spdmOn = true ∧ s.inContext c = true
    let k := s.conn c.path
    let ready := k.version = true ∧ k.caps = true ∧ k.algs = true
    let secured := c.session.isSome = true
    let tells (i : Instr) (code : Nat) (vals : List (List Byte)) (m : State → Prop) : Prop :=
      ∃ t, exec i s = .next t ∧ t.answer = Config.spdmBody code vals ∧ t.mem = s.mem ∧ t.cores = s.cores ∧ t.parts = s.parts ∧ m t
    let refuses (i : Instr) (why : Nat) : Prop := exec i s = .next { s with answer := Config.spdmBody 0x7F [leBytes 1 why] }
    let agrees (i : Instr) (code : Nat) (vals : List (List Byte)) (k' : Conn) : Prop := tells i code vals (fun t =>
      t.conn c.path = k' ∧ (∀ p, p ≠ c.path → t.conn p = s.conn p) ∧ t = { s with mgmt := { s.mgmt with conns := t.mgmt.conns }, answer := t.answer })
    let plain (i : Instr) (code : Nat) (vals : List (List Byte)) : Prop := exec i s = .next { s with answer := Config.spdmBody code vals }
    (¬ on → ∀ i ∈ [Instr.getVersion c, .getCapabilities c, .negotiateAlgorithms c [1], .getDigests c, .getCertificate c 0 0 64, .challenge c 0 [],
      .getMeasurements c 0, .keyExchange c 0, .keyUpdate c, .heartbeat c, .endSession c, .setCertificate c 1 [], .ideKeySetUp c 0 0],
      exec i s = .next { s with answer := [] }) ∧
    (on →
      agrees (.getVersion c) 0x84 [leBytes 1 0x12] ⟨true, false, false⟩ ∧
      (k.version = false → refuses (.getCapabilities c) 1) ∧ (k.version = true → agrees (.getCapabilities c) 0xE1 [] { k with caps := true }) ∧
      (∀ l, (k.version = false ∨ k.caps = false → refuses (.negotiateAlgorithms c l) 1) ∧
        (k.version = true → k.caps = true → (1 ∈ l → agrees (.negotiateAlgorithms c l) 0xE3 [leBytes 2 1] { k with algs := true }) ∧
          (1 ∉ l → refuses (.negotiateAlgorithms c l) 4))) ∧
      (¬ ready → ∀ i ∈ [Instr.getDigests c, .getCertificate c 0 0 64, .challenge c 0 [], .getMeasurements c 0, .keyExchange c 0], refuses i 1) ∧
      (ready →
        plain (.getDigests c) 0x81 (digestBytes (Config.sha384 Config.chain0) ::
          (if s.mgmt.chain1 = [] then [] else [digestBytes (Config.sha384 s.mgmt.chain1)])) ∧
        (∀ slot off len, let b := if slot = 0 then Config.chain0 else s.mgmt.chain1
          (2 ≤ slot ∨ (slot = 1 ∧ s.mgmt.chain1 = []) ∨ b.length ≤ off → refuses (.getCertificate c slot off len) 2) ∧
          (slot = 0 ∨ (slot = 1 ∧ s.mgmt.chain1 ≠ []) → off < b.length →
            plain (.getCertificate c slot off len) 0x82 [leBytes 1 slot, (b.drop off).take len, leBytes 4 (b.length - off - len)])) ∧
        (∀ nonce, let t := [leBytes 1 0, digestBytes (Config.sha384 Config.chain0), nonce, s.measurements]
          plain (.challenge c 0 nonce) 0x83 (t ++ [Config.identitySign (Config.sha384 (Config.spdmBody 0x183 t))])) ∧
        plain (.getMeasurements c 0) 0x60 [leBytes 1 13] ∧ plain (.getMeasurements c 0xFF) 0x60 [s.measurements] ∧
        (∀ i, 1 ≤ i → i ≤ 13 → plain (.getMeasurements c i) 0x60 [Config.measureBlock i (s.measurement i)]) ∧
        (∀ i, 13 < i → i ≠ 0xFF → refuses (.getMeasurements c i) 2) ∧
        (∀ id, (4 ≤ s.mgmt.sessions.length → refuses (.keyExchange c id) 3) ∧
          (s.mgmt.sessions.length < 4 → (∃ x ∈ s.mgmt.sessions, x.id = id) → refuses (.keyExchange c id) 2) ∧
          (s.mgmt.sessions.length < 4 → (∀ x ∈ s.mgmt.sessions, x.id ≠ id) → tells (.keyExchange c id) 0x64 [leBytes 4 id] (fun t =>
            t.mgmt.sessions = s.mgmt.sessions ++ [⟨id, c.path, false, 0⟩])))) ∧
      (¬ secured → ∀ i ∈ [Instr.keyUpdate c, .heartbeat c, .endSession c, .setCertificate c 1 [], .ideKeySetUp c 0 0], refuses i 1) ∧
      (secured →
        tells (.keyUpdate c) 0x69 [] (fun t => t.mgmt.sessions = s.mgmt.sessions.map (fun x =>
          if c.session = some x.id then { x with updates := x.updates + 1 } else x)) ∧
        plain (.heartbeat c) 0x68 [] ∧
        tells (.endSession c) 0x6C [] (fun t => (∀ x, x ∈ t.mgmt.sessions ↔ x ∈ s.mgmt.sessions ∧ c.session ≠ some x.id) ∧
          ((t.reg Reg.secStatus).getLsbD 29 = true ↔ ∃ x ∈ t.mgmt.sessions, x.live = true)) ∧
        (∀ slot chain, (slot ≠ 1 ∨ Config.chainKey chain ≠ Config.identityKey → refuses (.setCertificate c slot chain) 2) ∧
          (slot = 1 → Config.chainKey chain = Config.identityKey → tells (.setCertificate c slot chain) 0x6E [leBytes 1 1] (fun t => t.mgmt.chain1 = chain))) ∧
        (∀ (n : Fin 5) (key : BitVec 256), tells (.ideKeySetUp c n key) 0x01 [leBytes 1 n] (fun t => sget 0 t.mgmt.ide n.val = key ∧
          ∀ j, j ≠ n.val → sget 0 t.mgmt.ide j = sget 0 s.mgmt.ide j)))) ∧
    (let mine (x : Session) : Bool := !x.live && x.path == c.path && c.session == some x.id
     (s.spdmOn = false → ∀ b, exec (.finish c b) s = .next { s with answer := [] }) ∧
     (s.spdmOn = true → (∀ x ∈ s.mgmt.sessions, mine x = false) → ∀ b, refuses (.finish c b) 1) ∧
     (s.spdmOn = true → (∃ x ∈ s.mgmt.sessions, mine x = true) →
        tells (.finish c true) 0x65 [] (fun t => t.mgmt.sessions = s.mgmt.sessions.map (fun x => if mine x then { x with live := true } else x) ∧
          (t.reg Reg.secStatus).getLsbD 29 = true) ∧
        tells (.finish c false) 0x7F [leBytes 1 2] (fun t => ∀ x, x ∈ t.mgmt.sessions ↔ x ∈ s.mgmt.sessions ∧ mine x = false)))

/-- PLDM, MCTP and I3C (R446 to R448, Table 15-7). An update begins unless a ring's firmware command runs or one is open; a component of an
open update is written as FW_STAGE writes it, or refused; in ROM recovery only a valid management-controller image is taken. Activation marks every
newer staged image for the next warm reset and closes the update. An event receiver, a bus address and an endpoint ID are noted. -/
def Obligations.UpdatesAndAddressesAreNoted : Prop :=
  ∀ s : State,
    let replies (i : Instr) (n : Nat) (m : State → Prop) : Prop := ∃ t, exec i s = .next t ∧ t.answer = Config.pldmBody n ∧ t.mem = s.mem ∧
      t.hostMem = s.hostMem ∧ t.cores = s.cores ∧ t.parts = s.parts ∧ t.rings = s.rings ∧ m t
    let noted (i : Instr) (m : Mgmt → Prop) : Prop := ∃ t, exec i s = .next t ∧ t = { s with mgmt := t.mgmt } ∧ m t.mgmt
    let busy := ∃ e ∈ s.rings, ∃ c ∈ e.2.cmds, c.started = true ∧ c.fin = none ∧ (c.op = 0x84 ∨ c.op = 0x85)
    (busy → replies .requestUpdate 1 (fun t => t.mgmt = s.mgmt)) ∧
    (¬ busy → s.mgmt.update = true → replies .requestUpdate 2 (fun t => t.mgmt = s.mgmt)) ∧
    (¬ busy → s.mgmt.update = false → replies .requestUpdate 0 (fun t => t.mgmt = { s.mgmt with update := true })) ∧
    (∀ b : List Byte,
      let rom := s.regF Reg.mgtState 28 4 = 0xD
      let held (t : State) : Prop := (s.flashFail false = false → (t.flashObj false (objType b) (1 - s.activeSlot (objType b))).bytes = b) ∧
        (s.flashFail true = false → (t.flashObj true (objType b) (1 - s.activeSlot (objType b))).bytes = b)
      (s.mgmt.update = false → replies (.pldmComponentTransfer b) 2 (fun t => t.mgmt = s.mgmt)) ∧
      (s.mgmt.update = true → ¬ rom → s.firmwareBad b = none → replies (.pldmComponentTransfer b) 0 held) ∧
      (∀ d, s.mgmt.update = true → ¬ rom → s.firmwareBad b = some d → replies (.pldmComponentTransfer b) 2 (fun t =>
        t.mgmt.flashA = s.mgmt.flashA ∧ t.mgmt.flashB = s.mgmt.flashB)) ∧
      (s.mgmt.update = true → rom → objType b = 1 ∧ s.objBad [1] b = none → replies (.pldmComponentTransfer b) 0 (fun t => t.mgmt.ram = b ∧ held t)) ∧
      (s.mgmt.update = true → rom → objType b ≠ 1 ∨ s.objBad [1] b ≠ none → replies (.pldmComponentTransfer b) 2 (fun t => t.mgmt = s.mgmt))) ∧
    (s.mgmt.update = false → replies .activateFirmware 2 (fun t => t.mgmt = s.mgmt)) ∧
    (s.mgmt.update = true → replies .activateFirmware 0 (fun t => t.mgmt = { s.mgmt with update := false, atWarm := t.mgmt.atWarm } ∧
      ∀ ty, let x := s.activeSlot ty
        (ty ∈ [1, 2, 3, 4, 5, 6, 0x10, 0x11] → ∀ n o, s.slotObj ty (1 - x) = some n → s.slotObj ty x = some o →
          (o.gen < n.gen → sget 0 t.mgmt.atWarm ty = 2 - x) ∧ (n.gen ≤ o.gen → sget 0 t.mgmt.atWarm ty = sget 0 s.mgmt.atWarm ty)) ∧
        (ty ∉ [1, 2, 3, 4, 5, 6, 0x10, 0x11] ∨ s.slotObj ty (1 - x) = none → sget 0 t.mgmt.atWarm ty = sget 0 s.mgmt.atWarm ty))) ∧
    noted .eventReceiverRegistration (fun m => m = { s.mgmt with receiver := true }) ∧
    (∀ (b : Fin 3) (a : BitVec 7), noted (.entdaa b a) (fun m => m = { s.mgmt with i3c := m.i3c } ∧ sget 0 m.i3c b.val = a ∧
      ∀ j, j ≠ b.val → sget 0 m.i3c j = sget 0 s.mgmt.i3c j)) ∧
    (∀ (b : Fin 4) (a : Byte), noted (.endpointIdAssignment b a) (fun m => m = { s.mgmt with eids := m.eids } ∧ sget 0 m.eids b.val = a ∧
      ∀ j, j ≠ b.val → sget 0 m.eids j = sget 0 s.mgmt.eids j))

/-! ### The machine as a whole -/

/-- Every command of the queue leaves both memories in canonical form: addresses rise strictly and no listed byte is zero. -/
def Obligations.EveryStepKeepsMemoryCanonical : Prop :=
  ∀ s t : State, MemOk s → step s = .next t → MemOk t

/-- State.reset (Tables 2-10, 3-14, 10-7, 11-11, 12-15, 13-6, 15-15 and 16-11): no command waits, no partition, ring, stream or capture exists, no
register differs from its reset column, every core is fenced or unpowered in STATE 0, and both memories are canonical and empty. -/
def Obligations.ResetIsEmptyAndCanonical : Prop :=
  let s := State.reset
  MemOk s ∧ s.mem = [] ∧ s.hostMem = [] ∧ s.pending = [] ∧ s.parts = [] ∧ s.rings = [] ∧ s.regs = [] ∧ s.net = [] ∧ s.events = [] ∧ s.gambits = [] ∧
    (∀ k, s.core k = Core.reset) ∧ Core.reset.st = 0 ∧ (∀ p, s.part p = Part.reset) ∧ Part.reset.st = 0 ∧ (∀ o, s.reg o = regReset o) ∧
    s.reg Reg.hifId = 0x01280001 ∧ s.reg Reg.hifCtl = 0 ∧ s.reg Reg.calCtl = 0x000A00C8 ∧ s.reg (Reg.pstale 3) = 0x64 ∧ s.reg (Reg.pstatus 3) = 0x03000000 ∧
    s.reg Reg.mshCfg = 0x00100014 ∧ s.reg Reg.plim = 0x5208 ∧ s.reg (Reg.pcfg 2) = 0x80000FA0 ∧ s.reg (Reg.er 7 2) = 0x7D0 ∧ s.reg (Reg.grant 9) = 0 ∧
    s.regF (Reg.dhole 0) 4 4 = 8 ∧ s.regF (Reg.chole 3 1) 8 5 = 16
end

