-- ==== Sys2Proof/Laws/Maps.lean ====
section
/-! SUPPORT. Sparse maps and byte memories: reading what was stored, and that every operation keeps the canonical form. -/
namespace Sys2Proof.Machine

section maps
variable {α : Type}

theorem sget_sdel_self (d : α) (m : SMap α) (k : Nat) : sget d (sdel m k) k = d := by
  induction m with
  | nil => rfl
  | cons e t ih =>
    obtain ⟨j, v⟩ := e
    by_cases h : j = k
    · simpa [sdel, h] using ih
    · simpa [sdel, sget, h] using ih

theorem sget_sdel_ne (d : α) (m : SMap α) {k j : Nat} (h : j ≠ k) : sget d (sdel m k) j = sget d m j := by
  induction m with
  | nil => rfl
  | cons e t ih =>
    obtain ⟨i, v⟩ := e
    by_cases hk : i = k
    · subst hk
      simpa [sdel, sget, Ne.symm h] using ih
    · by_cases hj : i = j
      · simp [sdel, sget, hj, h]
      · simpa [sdel, sget, hk, hj] using ih

theorem sget_sins_self (d : α) (k : Nat) (v : α) (m : SMap α) (h : ∀ e ∈ m, e.1 ≠ k) : sget d (sins k v m) k = v := by
  induction m with
  | nil => simp [sins, sget]
  | cons e t ih =>
    obtain ⟨j, w⟩ := e
    have hj : j ≠ k := h (j, w) (List.mem_cons_self ..)
    by_cases hlt : k < j
    · simp [sins, sget, hlt]
    · simpa [sins, sget, hlt, hj] using ih (fun e he => h e (List.mem_cons_of_mem _ he))

theorem sget_sins_ne (d : α) {k j : Nat} (v : α) (m : SMap α) (h : j ≠ k) : sget d (sins k v m) j = sget d m j := by
  induction m with
  | nil => simp [sins, sget, Ne.symm h]
  | cons e t ih =>
    obtain ⟨i, w⟩ := e
    by_cases hlt : k < i
    · simp [sins, sget, hlt, Ne.symm h]
    · by_cases hi : i = j
      · subst hi
        simp [sins, sget, hlt]
      · simpa [sins, sget, hlt, hi] using ih

theorem sdel_keys (m : SMap α) (k : Nat) : ∀ e ∈ sdel m k, e.1 ≠ k := by
  intro e he
  have := (List.mem_filter.mp he).2
  simpa using this

theorem sdel_sins (k : Nat) (v : α) (m : SMap α) : sdel (sins k v m) k = sdel m k := by
  induction m with
  | nil => simp [sins, sdel]
  | cons e t ih =>
    obtain ⟨i, w⟩ := e
    by_cases hlt : k < i
    · simp [sins, sdel, hlt]
    · by_cases hi : i = k
      · subst hi
        simpa [sins, sdel] using ih
      · simp only [sdel] at ih
        simp [sins, sdel, hlt, hi, ih]

theorem sdel_sdel (m : SMap α) (k : Nat) : sdel (sdel m k) k = sdel m k := by
  simp [sdel]

variable [DecidableEq α]

/-- A stored value reads back. -/
@[simp] theorem sget_sput_self (d : α) (m : SMap α) (k : Nat) (v : α) : sget d (sput d m k v) k = v := by
  by_cases h : v = d
  · simp [sput, h, sget_sdel_self]
  · simp [sput, h, sget_sins_self d k v _ (sdel_keys m k)]

/-- Storing at one key leaves every other key alone. -/
theorem sget_sput_ne (d : α) (m : SMap α) {k j : Nat} (v : α) (h : j ≠ k) : sget d (sput d m k v) j = sget d m j := by
  by_cases hv : v = d
  · simp [sput, hv, sget_sdel_ne d m h]
  · simp [sput, hv, sget_sins_ne d v _ h, sget_sdel_ne d m h]

theorem sget_sput (d : α) (m : SMap α) (k j : Nat) (v : α) : sget d (sput d m k v) j = if j = k then v else sget d m j := by
  by_cases h : j = k
  · subst h; simp
  · simp [h, sget_sput_ne d m v h]

/-- The last store at a key counts. -/
@[simp] theorem sput_sput (d : α) (m : SMap α) (k : Nat) (v w : α) : sput d (sput d m k v) k w = sput d m k w := by
  have hd : sdel (sput d m k v) k = sdel m k := by
    by_cases h : v = d
    · simp [sput, h, sdel_sdel]
    · simp [sput, h, sdel_sins, sdel_sdel]
  by_cases hw : w = d
  · simp [sput, hw] at hd ⊢
    by_cases h : v = d
    · simp [h, sdel_sdel]
    · simpa [h] using hd
  · unfold sput at hd ⊢
    simp [hw, hd]

@[simp] theorem smod_smod (d : α) (m : SMap α) (k : Nat) (f g : α → α) :
    smod d (smod d m k f) k g = smod d m k (fun x => g (f x)) := by simp [smod]

/-- Keys strictly rise and no entry is the value of an unlisted key. -/
theorem smapWf_iff (d : α) (m : SMap α) : smapWf d m = true ↔ m.Pairwise (fun a b => a.1 < b.1) ∧ ∀ e ∈ m, e.2 ≠ d := by
  induction m with
  | nil => simp [smapWf]
  | cons e t ih =>
    obtain ⟨k, v⟩ := e
    cases t with
    | nil => simp [smapWf]
    | cons e' t' =>
      obtain ⟨k', v'⟩ := e'
      simp only [smapWf, Bool.and_eq_true, decide_eq_true_eq, ih]
      constructor
      · rintro ⟨⟨hk, hv⟩, hp, hd⟩
        refine ⟨List.pairwise_cons.mpr ⟨?_, hp⟩, ?_⟩
        · intro a ha
          rcases List.mem_cons.mp ha with rfl | ha
          · exact hk
          · exact Nat.lt_trans hk ((List.pairwise_cons.mp hp).1 a ha)
        · intro a ha
          rcases List.mem_cons.mp ha with rfl | ha
          · exact hv
          · exact hd a ha
      · rintro ⟨hp, hd⟩
        have hp' := List.pairwise_cons.mp hp
        exact ⟨⟨hp'.1 _ (List.mem_cons_self ..), hd _ (List.mem_cons_self ..)⟩, hp'.2,
          fun a ha => hd a (List.mem_cons_of_mem _ ha)⟩

theorem smapWf_filter (d : α) (m : SMap α) (p : Nat × α → Bool) (h : smapWf d m = true) : smapWf d (m.filter p) = true := by
  rw [smapWf_iff] at h ⊢
  exact ⟨h.1.filter p, fun e he => h.2 e (List.mem_filter.mp he).1⟩

theorem mem_sins (k : Nat) (v : α) (m : SMap α) (e : Nat × α) : e ∈ sins k v m ↔ e = (k, v) ∨ e ∈ m := by
  induction m with
  | nil => simp [sins]
  | cons a t ih =>
    obtain ⟨i, w⟩ := a
    by_cases hlt : k < i
    · simp [sins, hlt]
    · simp only [sins, hlt, if_false, List.mem_cons, ih]
      tauto

theorem smapWf_sins (d : α) (k : Nat) (v : α) (m : SMap α) (hk : ∀ e ∈ m, e.1 ≠ k) (hv : v ≠ d) (h : smapWf d m = true) :
    smapWf d (sins k v m) = true := by
  rw [smapWf_iff] at h ⊢
  obtain ⟨hp, hd⟩ := h
  refine ⟨?_, ?_⟩
  · clear hd
    induction m with
    | nil => simp [sins]
    | cons a t ih =>
      obtain ⟨i, w⟩ := a
      have hp' := List.pairwise_cons.mp hp
      by_cases hlt : k < i
      · simp only [sins, hlt, if_true, List.pairwise_cons]
        refine ⟨?_, hp'.1, hp'.2⟩
        intro b hb
        rcases List.mem_cons.mp hb with rfl | hb
        · exact hlt
        · exact Nat.lt_trans hlt (hp'.1 b hb)
      · simp only [sins, hlt, if_false, List.pairwise_cons]
        refine ⟨?_, ih (fun e he => hk e (List.mem_cons_of_mem _ he)) hp'.2⟩
        intro b hb
        rcases (mem_sins k v t b).mp hb with rfl | hb
        · have : i ≠ k := hk (i, w) (List.mem_cons_self ..)
          show i < k
          omega
        · exact hp'.1 b hb
  · intro e he
    rcases (mem_sins k v m e).mp he with rfl | he
    · exact hv
    · exact hd e he

/-- A store keeps the canonical form. -/
theorem smapWf_sput (d : α) (m : SMap α) (k : Nat) (v : α) (h : smapWf d m = true) : smapWf d (sput d m k v) = true := by
  have hdel : smapWf d (sdel m k) = true := smapWf_filter d m _ h
  by_cases hv : v = d
  · simpa [sput, hv] using hdel
  · simpa [sput, hv] using smapWf_sins d k v _ (sdel_keys m k) hv hdel

theorem smapWf_smod (d : α) (m : SMap α) (k : Nat) (f : α → α) (h : smapWf d m = true) : smapWf d (smod d m k f) = true :=
  smapWf_sput d m k _ h

end maps

/-! ### Byte memories -/

@[simp] theorem rd_wr_self (m : Mem) (a : Nat) (b : Byte) : rd (wr m a b) a = b := by simp [rd, wr]

theorem rd_wr_ne (m : Mem) {a c : Nat} (b : Byte) (h : c ≠ a) : rd (wr m a b) c = rd m c := sget_sput_ne 0 m b h

theorem wr_wf (m : Mem) (a : Nat) (b : Byte) (h : Memory.wf m = true) : Memory.wf (wr m a b) = true := smapWf_sput 0 m a b h

/-- A run of stores keeps the canonical form. -/
theorem wrN_wf (m : Mem) (a : Nat) (bs : List Byte) (h : Memory.wf m = true) : Memory.wf (wrN m a bs) = true := by
  induction bs generalizing m a with
  | nil => exact h
  | cons b bs ih => exact ih _ _ (wr_wf m a b h)

/-- Filling with zeros keeps the canonical form. -/
theorem zeroN_wf (m : Mem) (a n : Nat) (h : Memory.wf m = true) : Memory.wf (zeroN m a n) = true := smapWf_filter 0 m _ h

/-- A run of stores leaves every byte outside it alone. -/
theorem rd_wrN_ne (m : Mem) (a c : Nat) (bs : List Byte) (h : c < a ∨ a + bs.length ≤ c) : rd (wrN m a bs) c = rd m c := by
  induction bs generalizing m a with
  | nil => rfl
  | cons b bs ih =>
    simp only [List.length_cons] at h
    have hne : c ≠ a := by omega
    rw [wrN, ih _ _ (by omega), rd_wr_ne m b hne]

/-- A run of stores reads back byte by byte. -/
theorem rd_wrN (m : Mem) (a i : Nat) (bs : List Byte) (h : i < bs.length) : rd (wrN m a bs) (a + i) = bs[i] := by
  induction bs generalizing m a i with
  | nil => simp at h
  | cons b bs ih =>
    cases i with
    | zero =>
      have h0 : rd (wrN (wr m a b) (a + 1) bs) a = rd (wr m a b) a := rd_wrN_ne _ _ _ _ (Or.inl (Nat.lt_succ_self a))
      simpa [wrN] using h0
    | succ i =>
      have hi : i < bs.length := by simpa using h
      rw [wrN, show a + (i + 1) = a + 1 + i by omega, ih _ _ _ hi]
      simp

/-- The bytes read, one by one. -/
theorem rdN_getElem? (m : Mem) (a n i : Nat) (h : i < n) : (rdN m a n)[i]? = some (rd m (a + i)) := by
  induction n generalizing a i with
  | zero => omega
  | succ n ih =>
    cases i with
    | zero => simp [rdN]
    | succ i => simpa [rdN, show a + 1 + i = a + (i + 1) by omega] using ih (a + 1) i (by omega)

theorem rdN_length (m : Mem) (a n : Nat) : (rdN m a n).length = n := by
  induction n generalizing a with
  | zero => rfl
  | succ n ih => simp [rdN, ih]

/-- What was stored reads back. -/
theorem rdN_wrN (m : Mem) (a : Nat) (bs : List Byte) : rdN (wrN m a bs) a bs.length = bs := by
  apply List.ext_getElem?
  intro i
  by_cases h : i < bs.length
  · rw [rdN_getElem? _ _ _ _ h, rd_wrN _ _ _ _ h, List.getElem?_eq_getElem h]
  · rw [List.getElem?_eq_none (by rw [rdN_length]; omega), List.getElem?_eq_none (by omega)]

/-- A filled range reads as zero; every other byte stays. -/
theorem rd_zeroN (m : Mem) (a n c : Nat) : rd (zeroN m a n) c = if a ≤ c ∧ c < a + n then 0 else rd m c := by
  unfold rd zeroN
  induction m with
  | nil => simp [sget]
  | cons e t ih =>
    obtain ⟨i, v⟩ := e
    by_cases hi : i < a ∨ a + n ≤ i
    · have hk : (decide (i < a) || decide (a + n ≤ i)) = true := by simpa using hi
      rw [List.filter_cons_of_pos (by simpa using hk)]
      by_cases hc : i = c
      · subst hc
        have : ¬ (a ≤ i ∧ i < a + n) := by omega
        simp [sget, this]
      · simpa [sget, hc] using ih
    · have hk : ¬ ((decide (i < a) || decide (a + n ≤ i)) = true) := by simpa using hi
      rw [List.filter_cons_of_neg (by simpa using hk)]
      by_cases hc : i = c
      · subst hc
        have : a ≤ i ∧ i < a + n := by omega
        simpa [this] using ih
      · simpa [sget, hc] using ih

end Sys2Proof.Machine
end

