-- ==== Sys2Proof/Laws/State.lean ====
section
/-! SUPPORT. Reading a field of the state after an update of another: one lemma for each update and field, so that no later
proof unfolds a record update; and reading a unit after an update of the same unit. -/
namespace Sys2Proof.Machine

variable (s : State)

/-! ### setCore -/

@[simp] theorem State.setCore_pending (k : Nat) (c : Core) : (s.setCore k c).pending = s.pending := rfl
@[simp] theorem State.setCore_freeCtr (k : Nat) (c : Core) : (s.setCore k c).freeCtr = s.freeCtr := rfl
@[simp] theorem State.setCore_rdata (k : Nat) (c : Core) : (s.setCore k c).rdata = s.rdata := rfl
@[simp] theorem State.setCore_answer (k : Nat) (c : Core) : (s.setCore k c).answer = s.answer := rfl
@[simp] theorem State.setCore_mem (k : Nat) (c : Core) : (s.setCore k c).mem = s.mem := rfl
@[simp] theorem State.setCore_hostMem (k : Nat) (c : Core) : (s.setCore k c).hostMem = s.hostMem := rfl
@[simp] theorem State.setCore_regs (k : Nat) (c : Core) : (s.setCore k c).regs = s.regs := rfl
@[simp] theorem State.setCore_dies (k : Nat) (c : Core) : (s.setCore k c).dies = s.dies := rfl
@[simp] theorem State.setCore_parts (k : Nat) (c : Core) : (s.setCore k c).parts = s.parts := rfl
@[simp] theorem State.setCore_links (k : Nat) (c : Core) : (s.setCore k c).links = s.links := rfl
@[simp] theorem State.setCore_tnodes (k : Nat) (c : Core) : (s.setCore k c).tnodes = s.tnodes := rfl
@[simp] theorem State.setCore_homes (k : Nat) (c : Core) : (s.setCore k c).homes = s.homes := rfl
@[simp] theorem State.setCore_hbm (k : Nat) (c : Core) : (s.setCore k c).hbm = s.hbm := rfl
@[simp] theorem State.setCore_net (k : Nat) (c : Core) : (s.setCore k c).net = s.net := rfl
@[simp] theorem State.setCore_events (k : Nat) (c : Core) : (s.setCore k c).events = s.events := rfl
@[simp] theorem State.setCore_rings (k : Nat) (c : Core) : (s.setCore k c).rings = s.rings := rfl
@[simp] theorem State.setCore_host (k : Nat) (c : Core) : (s.setCore k c).host = s.host := rfl
@[simp] theorem State.setCore_stores (k : Nat) (c : Core) : (s.setCore k c).stores = s.stores := rfl
@[simp] theorem State.setCore_gambits (k : Nat) (c : Core) : (s.setCore k c).gambits = s.gambits := rfl
@[simp] theorem State.setCore_defects (k : Nat) (c : Core) : (s.setCore k c).defects = s.defects := rfl
@[simp] theorem State.setCore_rails (k : Nat) (c : Core) : (s.setCore k c).rails = s.rails := rfl
@[simp] theorem State.setCore_mgmt (k : Nat) (c : Core) : (s.setCore k c).mgmt = s.mgmt := rfl
@[simp] theorem State.setCore_rankTenants (k : Nat) (c : Core) : (s.setCore k c).rankTenants = s.rankTenants := rfl

/-! ### modCore -/

@[simp] theorem State.modCore_pending (k : Nat) (f : Core → Core) : (s.modCore k f).pending = s.pending := rfl
@[simp] theorem State.modCore_freeCtr (k : Nat) (f : Core → Core) : (s.modCore k f).freeCtr = s.freeCtr := rfl
@[simp] theorem State.modCore_rdata (k : Nat) (f : Core → Core) : (s.modCore k f).rdata = s.rdata := rfl
@[simp] theorem State.modCore_answer (k : Nat) (f : Core → Core) : (s.modCore k f).answer = s.answer := rfl
@[simp] theorem State.modCore_mem (k : Nat) (f : Core → Core) : (s.modCore k f).mem = s.mem := rfl
@[simp] theorem State.modCore_hostMem (k : Nat) (f : Core → Core) : (s.modCore k f).hostMem = s.hostMem := rfl
@[simp] theorem State.modCore_regs (k : Nat) (f : Core → Core) : (s.modCore k f).regs = s.regs := rfl
@[simp] theorem State.modCore_dies (k : Nat) (f : Core → Core) : (s.modCore k f).dies = s.dies := rfl
@[simp] theorem State.modCore_parts (k : Nat) (f : Core → Core) : (s.modCore k f).parts = s.parts := rfl
@[simp] theorem State.modCore_links (k : Nat) (f : Core → Core) : (s.modCore k f).links = s.links := rfl
@[simp] theorem State.modCore_tnodes (k : Nat) (f : Core → Core) : (s.modCore k f).tnodes = s.tnodes := rfl
@[simp] theorem State.modCore_homes (k : Nat) (f : Core → Core) : (s.modCore k f).homes = s.homes := rfl
@[simp] theorem State.modCore_hbm (k : Nat) (f : Core → Core) : (s.modCore k f).hbm = s.hbm := rfl
@[simp] theorem State.modCore_net (k : Nat) (f : Core → Core) : (s.modCore k f).net = s.net := rfl
@[simp] theorem State.modCore_events (k : Nat) (f : Core → Core) : (s.modCore k f).events = s.events := rfl
@[simp] theorem State.modCore_rings (k : Nat) (f : Core → Core) : (s.modCore k f).rings = s.rings := rfl
@[simp] theorem State.modCore_host (k : Nat) (f : Core → Core) : (s.modCore k f).host = s.host := rfl
@[simp] theorem State.modCore_stores (k : Nat) (f : Core → Core) : (s.modCore k f).stores = s.stores := rfl
@[simp] theorem State.modCore_gambits (k : Nat) (f : Core → Core) : (s.modCore k f).gambits = s.gambits := rfl
@[simp] theorem State.modCore_defects (k : Nat) (f : Core → Core) : (s.modCore k f).defects = s.defects := rfl
@[simp] theorem State.modCore_rails (k : Nat) (f : Core → Core) : (s.modCore k f).rails = s.rails := rfl
@[simp] theorem State.modCore_mgmt (k : Nat) (f : Core → Core) : (s.modCore k f).mgmt = s.mgmt := rfl
@[simp] theorem State.modCore_rankTenants (k : Nat) (f : Core → Core) : (s.modCore k f).rankTenants = s.rankTenants := rfl

/-! ### modDie -/

@[simp] theorem State.modDie_pending (d : Nat) (f : Die → Die) : (s.modDie d f).pending = s.pending := rfl
@[simp] theorem State.modDie_freeCtr (d : Nat) (f : Die → Die) : (s.modDie d f).freeCtr = s.freeCtr := rfl
@[simp] theorem State.modDie_rdata (d : Nat) (f : Die → Die) : (s.modDie d f).rdata = s.rdata := rfl
@[simp] theorem State.modDie_answer (d : Nat) (f : Die → Die) : (s.modDie d f).answer = s.answer := rfl
@[simp] theorem State.modDie_mem (d : Nat) (f : Die → Die) : (s.modDie d f).mem = s.mem := rfl
@[simp] theorem State.modDie_hostMem (d : Nat) (f : Die → Die) : (s.modDie d f).hostMem = s.hostMem := rfl
@[simp] theorem State.modDie_regs (d : Nat) (f : Die → Die) : (s.modDie d f).regs = s.regs := rfl
@[simp] theorem State.modDie_cores (d : Nat) (f : Die → Die) : (s.modDie d f).cores = s.cores := rfl
@[simp] theorem State.modDie_parts (d : Nat) (f : Die → Die) : (s.modDie d f).parts = s.parts := rfl
@[simp] theorem State.modDie_links (d : Nat) (f : Die → Die) : (s.modDie d f).links = s.links := rfl
@[simp] theorem State.modDie_tnodes (d : Nat) (f : Die → Die) : (s.modDie d f).tnodes = s.tnodes := rfl
@[simp] theorem State.modDie_homes (d : Nat) (f : Die → Die) : (s.modDie d f).homes = s.homes := rfl
@[simp] theorem State.modDie_hbm (d : Nat) (f : Die → Die) : (s.modDie d f).hbm = s.hbm := rfl
@[simp] theorem State.modDie_net (d : Nat) (f : Die → Die) : (s.modDie d f).net = s.net := rfl
@[simp] theorem State.modDie_events (d : Nat) (f : Die → Die) : (s.modDie d f).events = s.events := rfl
@[simp] theorem State.modDie_rings (d : Nat) (f : Die → Die) : (s.modDie d f).rings = s.rings := rfl
@[simp] theorem State.modDie_host (d : Nat) (f : Die → Die) : (s.modDie d f).host = s.host := rfl
@[simp] theorem State.modDie_stores (d : Nat) (f : Die → Die) : (s.modDie d f).stores = s.stores := rfl
@[simp] theorem State.modDie_gambits (d : Nat) (f : Die → Die) : (s.modDie d f).gambits = s.gambits := rfl
@[simp] theorem State.modDie_defects (d : Nat) (f : Die → Die) : (s.modDie d f).defects = s.defects := rfl
@[simp] theorem State.modDie_rails (d : Nat) (f : Die → Die) : (s.modDie d f).rails = s.rails := rfl
@[simp] theorem State.modDie_mgmt (d : Nat) (f : Die → Die) : (s.modDie d f).mgmt = s.mgmt := rfl
@[simp] theorem State.modDie_rankTenants (d : Nat) (f : Die → Die) : (s.modDie d f).rankTenants = s.rankTenants := rfl

/-! ### modPart -/

@[simp] theorem State.modPart_pending (p : Nat) (f : Part → Part) : (s.modPart p f).pending = s.pending := rfl
@[simp] theorem State.modPart_freeCtr (p : Nat) (f : Part → Part) : (s.modPart p f).freeCtr = s.freeCtr := rfl
@[simp] theorem State.modPart_rdata (p : Nat) (f : Part → Part) : (s.modPart p f).rdata = s.rdata := rfl
@[simp] theorem State.modPart_answer (p : Nat) (f : Part → Part) : (s.modPart p f).answer = s.answer := rfl
@[simp] theorem State.modPart_mem (p : Nat) (f : Part → Part) : (s.modPart p f).mem = s.mem := rfl
@[simp] theorem State.modPart_hostMem (p : Nat) (f : Part → Part) : (s.modPart p f).hostMem = s.hostMem := rfl
@[simp] theorem State.modPart_regs (p : Nat) (f : Part → Part) : (s.modPart p f).regs = s.regs := rfl
@[simp] theorem State.modPart_cores (p : Nat) (f : Part → Part) : (s.modPart p f).cores = s.cores := rfl
@[simp] theorem State.modPart_dies (p : Nat) (f : Part → Part) : (s.modPart p f).dies = s.dies := rfl
@[simp] theorem State.modPart_links (p : Nat) (f : Part → Part) : (s.modPart p f).links = s.links := rfl
@[simp] theorem State.modPart_tnodes (p : Nat) (f : Part → Part) : (s.modPart p f).tnodes = s.tnodes := rfl
@[simp] theorem State.modPart_homes (p : Nat) (f : Part → Part) : (s.modPart p f).homes = s.homes := rfl
@[simp] theorem State.modPart_hbm (p : Nat) (f : Part → Part) : (s.modPart p f).hbm = s.hbm := rfl
@[simp] theorem State.modPart_net (p : Nat) (f : Part → Part) : (s.modPart p f).net = s.net := rfl
@[simp] theorem State.modPart_events (p : Nat) (f : Part → Part) : (s.modPart p f).events = s.events := rfl
@[simp] theorem State.modPart_rings (p : Nat) (f : Part → Part) : (s.modPart p f).rings = s.rings := rfl
@[simp] theorem State.modPart_host (p : Nat) (f : Part → Part) : (s.modPart p f).host = s.host := rfl
@[simp] theorem State.modPart_stores (p : Nat) (f : Part → Part) : (s.modPart p f).stores = s.stores := rfl
@[simp] theorem State.modPart_gambits (p : Nat) (f : Part → Part) : (s.modPart p f).gambits = s.gambits := rfl
@[simp] theorem State.modPart_defects (p : Nat) (f : Part → Part) : (s.modPart p f).defects = s.defects := rfl
@[simp] theorem State.modPart_rails (p : Nat) (f : Part → Part) : (s.modPart p f).rails = s.rails := rfl
@[simp] theorem State.modPart_mgmt (p : Nat) (f : Part → Part) : (s.modPart p f).mgmt = s.mgmt := rfl
@[simp] theorem State.modPart_rankTenants (p : Nat) (f : Part → Part) : (s.modPart p f).rankTenants = s.rankTenants := rfl

/-! ### setReg -/

@[simp] theorem State.setReg_pending (o : Nat) (v : W32) : (s.setReg o v).pending = s.pending := rfl
@[simp] theorem State.setReg_freeCtr (o : Nat) (v : W32) : (s.setReg o v).freeCtr = s.freeCtr := rfl
@[simp] theorem State.setReg_rdata (o : Nat) (v : W32) : (s.setReg o v).rdata = s.rdata := rfl
@[simp] theorem State.setReg_answer (o : Nat) (v : W32) : (s.setReg o v).answer = s.answer := rfl
@[simp] theorem State.setReg_mem (o : Nat) (v : W32) : (s.setReg o v).mem = s.mem := rfl
@[simp] theorem State.setReg_hostMem (o : Nat) (v : W32) : (s.setReg o v).hostMem = s.hostMem := rfl
@[simp] theorem State.setReg_cores (o : Nat) (v : W32) : (s.setReg o v).cores = s.cores := rfl
@[simp] theorem State.setReg_dies (o : Nat) (v : W32) : (s.setReg o v).dies = s.dies := rfl
@[simp] theorem State.setReg_parts (o : Nat) (v : W32) : (s.setReg o v).parts = s.parts := rfl
@[simp] theorem State.setReg_links (o : Nat) (v : W32) : (s.setReg o v).links = s.links := rfl
@[simp] theorem State.setReg_tnodes (o : Nat) (v : W32) : (s.setReg o v).tnodes = s.tnodes := rfl
@[simp] theorem State.setReg_homes (o : Nat) (v : W32) : (s.setReg o v).homes = s.homes := rfl
@[simp] theorem State.setReg_hbm (o : Nat) (v : W32) : (s.setReg o v).hbm = s.hbm := rfl
@[simp] theorem State.setReg_net (o : Nat) (v : W32) : (s.setReg o v).net = s.net := rfl
@[simp] theorem State.setReg_events (o : Nat) (v : W32) : (s.setReg o v).events = s.events := rfl
@[simp] theorem State.setReg_rings (o : Nat) (v : W32) : (s.setReg o v).rings = s.rings := rfl
@[simp] theorem State.setReg_host (o : Nat) (v : W32) : (s.setReg o v).host = s.host := rfl
@[simp] theorem State.setReg_stores (o : Nat) (v : W32) : (s.setReg o v).stores = s.stores := rfl
@[simp] theorem State.setReg_gambits (o : Nat) (v : W32) : (s.setReg o v).gambits = s.gambits := rfl
@[simp] theorem State.setReg_defects (o : Nat) (v : W32) : (s.setReg o v).defects = s.defects := rfl
@[simp] theorem State.setReg_rails (o : Nat) (v : W32) : (s.setReg o v).rails = s.rails := rfl
@[simp] theorem State.setReg_mgmt (o : Nat) (v : W32) : (s.setReg o v).mgmt = s.mgmt := rfl
@[simp] theorem State.setReg_rankTenants (o : Nat) (v : W32) : (s.setReg o v).rankTenants = s.rankTenants := rfl

/-! ### setRegF -/

@[simp] theorem State.setRegF_pending (o lo len v : Nat) : (s.setRegF o lo len v).pending = s.pending := rfl
@[simp] theorem State.setRegF_freeCtr (o lo len v : Nat) : (s.setRegF o lo len v).freeCtr = s.freeCtr := rfl
@[simp] theorem State.setRegF_rdata (o lo len v : Nat) : (s.setRegF o lo len v).rdata = s.rdata := rfl
@[simp] theorem State.setRegF_answer (o lo len v : Nat) : (s.setRegF o lo len v).answer = s.answer := rfl
@[simp] theorem State.setRegF_mem (o lo len v : Nat) : (s.setRegF o lo len v).mem = s.mem := rfl
@[simp] theorem State.setRegF_hostMem (o lo len v : Nat) : (s.setRegF o lo len v).hostMem = s.hostMem := rfl
@[simp] theorem State.setRegF_cores (o lo len v : Nat) : (s.setRegF o lo len v).cores = s.cores := rfl
@[simp] theorem State.setRegF_dies (o lo len v : Nat) : (s.setRegF o lo len v).dies = s.dies := rfl
@[simp] theorem State.setRegF_parts (o lo len v : Nat) : (s.setRegF o lo len v).parts = s.parts := rfl
@[simp] theorem State.setRegF_links (o lo len v : Nat) : (s.setRegF o lo len v).links = s.links := rfl
@[simp] theorem State.setRegF_tnodes (o lo len v : Nat) : (s.setRegF o lo len v).tnodes = s.tnodes := rfl
@[simp] theorem State.setRegF_homes (o lo len v : Nat) : (s.setRegF o lo len v).homes = s.homes := rfl
@[simp] theorem State.setRegF_hbm (o lo len v : Nat) : (s.setRegF o lo len v).hbm = s.hbm := rfl
@[simp] theorem State.setRegF_net (o lo len v : Nat) : (s.setRegF o lo len v).net = s.net := rfl
@[simp] theorem State.setRegF_events (o lo len v : Nat) : (s.setRegF o lo len v).events = s.events := rfl
@[simp] theorem State.setRegF_rings (o lo len v : Nat) : (s.setRegF o lo len v).rings = s.rings := rfl
@[simp] theorem State.setRegF_host (o lo len v : Nat) : (s.setRegF o lo len v).host = s.host := rfl
@[simp] theorem State.setRegF_stores (o lo len v : Nat) : (s.setRegF o lo len v).stores = s.stores := rfl
@[simp] theorem State.setRegF_gambits (o lo len v : Nat) : (s.setRegF o lo len v).gambits = s.gambits := rfl
@[simp] theorem State.setRegF_defects (o lo len v : Nat) : (s.setRegF o lo len v).defects = s.defects := rfl
@[simp] theorem State.setRegF_rails (o lo len v : Nat) : (s.setRegF o lo len v).rails = s.rails := rfl
@[simp] theorem State.setRegF_mgmt (o lo len v : Nat) : (s.setRegF o lo len v).mgmt = s.mgmt := rfl
@[simp] theorem State.setRegF_rankTenants (o lo len v : Nat) : (s.setRegF o lo len v).rankTenants = s.rankTenants := rfl

/-! ### countReg -/

@[simp] theorem State.countReg_pending (o n : Nat) : (s.countReg o n).pending = s.pending := rfl
@[simp] theorem State.countReg_freeCtr (o n : Nat) : (s.countReg o n).freeCtr = s.freeCtr := rfl
@[simp] theorem State.countReg_rdata (o n : Nat) : (s.countReg o n).rdata = s.rdata := rfl
@[simp] theorem State.countReg_answer (o n : Nat) : (s.countReg o n).answer = s.answer := rfl
@[simp] theorem State.countReg_mem (o n : Nat) : (s.countReg o n).mem = s.mem := rfl
@[simp] theorem State.countReg_hostMem (o n : Nat) : (s.countReg o n).hostMem = s.hostMem := rfl
@[simp] theorem State.countReg_cores (o n : Nat) : (s.countReg o n).cores = s.cores := rfl
@[simp] theorem State.countReg_dies (o n : Nat) : (s.countReg o n).dies = s.dies := rfl
@[simp] theorem State.countReg_parts (o n : Nat) : (s.countReg o n).parts = s.parts := rfl
@[simp] theorem State.countReg_links (o n : Nat) : (s.countReg o n).links = s.links := rfl
@[simp] theorem State.countReg_tnodes (o n : Nat) : (s.countReg o n).tnodes = s.tnodes := rfl
@[simp] theorem State.countReg_homes (o n : Nat) : (s.countReg o n).homes = s.homes := rfl
@[simp] theorem State.countReg_hbm (o n : Nat) : (s.countReg o n).hbm = s.hbm := rfl
@[simp] theorem State.countReg_net (o n : Nat) : (s.countReg o n).net = s.net := rfl
@[simp] theorem State.countReg_events (o n : Nat) : (s.countReg o n).events = s.events := rfl
@[simp] theorem State.countReg_rings (o n : Nat) : (s.countReg o n).rings = s.rings := rfl
@[simp] theorem State.countReg_host (o n : Nat) : (s.countReg o n).host = s.host := rfl
@[simp] theorem State.countReg_stores (o n : Nat) : (s.countReg o n).stores = s.stores := rfl
@[simp] theorem State.countReg_gambits (o n : Nat) : (s.countReg o n).gambits = s.gambits := rfl
@[simp] theorem State.countReg_defects (o n : Nat) : (s.countReg o n).defects = s.defects := rfl
@[simp] theorem State.countReg_rails (o n : Nat) : (s.countReg o n).rails = s.rails := rfl
@[simp] theorem State.countReg_mgmt (o n : Nat) : (s.countReg o n).mgmt = s.mgmt := rfl
@[simp] theorem State.countReg_rankTenants (o n : Nat) : (s.countReg o n).rankTenants = s.rankTenants := rfl

/-! ### clearRegs -/

@[simp] theorem State.clearRegs_pending (p : Nat → Bool) : (s.clearRegs p).pending = s.pending := rfl
@[simp] theorem State.clearRegs_freeCtr (p : Nat → Bool) : (s.clearRegs p).freeCtr = s.freeCtr := rfl
@[simp] theorem State.clearRegs_rdata (p : Nat → Bool) : (s.clearRegs p).rdata = s.rdata := rfl
@[simp] theorem State.clearRegs_answer (p : Nat → Bool) : (s.clearRegs p).answer = s.answer := rfl
@[simp] theorem State.clearRegs_mem (p : Nat → Bool) : (s.clearRegs p).mem = s.mem := rfl
@[simp] theorem State.clearRegs_hostMem (p : Nat → Bool) : (s.clearRegs p).hostMem = s.hostMem := rfl
@[simp] theorem State.clearRegs_cores (p : Nat → Bool) : (s.clearRegs p).cores = s.cores := rfl
@[simp] theorem State.clearRegs_dies (p : Nat → Bool) : (s.clearRegs p).dies = s.dies := rfl
@[simp] theorem State.clearRegs_parts (p : Nat → Bool) : (s.clearRegs p).parts = s.parts := rfl
@[simp] theorem State.clearRegs_links (p : Nat → Bool) : (s.clearRegs p).links = s.links := rfl
@[simp] theorem State.clearRegs_tnodes (p : Nat → Bool) : (s.clearRegs p).tnodes = s.tnodes := rfl
@[simp] theorem State.clearRegs_homes (p : Nat → Bool) : (s.clearRegs p).homes = s.homes := rfl
@[simp] theorem State.clearRegs_hbm (p : Nat → Bool) : (s.clearRegs p).hbm = s.hbm := rfl
@[simp] theorem State.clearRegs_net (p : Nat → Bool) : (s.clearRegs p).net = s.net := rfl
@[simp] theorem State.clearRegs_events (p : Nat → Bool) : (s.clearRegs p).events = s.events := rfl
@[simp] theorem State.clearRegs_rings (p : Nat → Bool) : (s.clearRegs p).rings = s.rings := rfl
@[simp] theorem State.clearRegs_host (p : Nat → Bool) : (s.clearRegs p).host = s.host := rfl
@[simp] theorem State.clearRegs_stores (p : Nat → Bool) : (s.clearRegs p).stores = s.stores := rfl
@[simp] theorem State.clearRegs_gambits (p : Nat → Bool) : (s.clearRegs p).gambits = s.gambits := rfl
@[simp] theorem State.clearRegs_defects (p : Nat → Bool) : (s.clearRegs p).defects = s.defects := rfl
@[simp] theorem State.clearRegs_rails (p : Nat → Bool) : (s.clearRegs p).rails = s.rails := rfl
@[simp] theorem State.clearRegs_mgmt (p : Nat → Bool) : (s.clearRegs p).mgmt = s.mgmt := rfl
@[simp] theorem State.clearRegs_rankTenants (p : Nat → Bool) : (s.clearRegs p).rankTenants = s.rankTenants := rfl

/-! ### freshen -/

@[simp] theorem State.freshen_pending : (s.freshen).pending = s.pending := rfl
@[simp] theorem State.freshen_rdata : (s.freshen).rdata = s.rdata := rfl
@[simp] theorem State.freshen_answer : (s.freshen).answer = s.answer := rfl
@[simp] theorem State.freshen_mem : (s.freshen).mem = s.mem := rfl
@[simp] theorem State.freshen_hostMem : (s.freshen).hostMem = s.hostMem := rfl
@[simp] theorem State.freshen_regs : (s.freshen).regs = s.regs := rfl
@[simp] theorem State.freshen_cores : (s.freshen).cores = s.cores := rfl
@[simp] theorem State.freshen_dies : (s.freshen).dies = s.dies := rfl
@[simp] theorem State.freshen_parts : (s.freshen).parts = s.parts := rfl
@[simp] theorem State.freshen_links : (s.freshen).links = s.links := rfl
@[simp] theorem State.freshen_tnodes : (s.freshen).tnodes = s.tnodes := rfl
@[simp] theorem State.freshen_homes : (s.freshen).homes = s.homes := rfl
@[simp] theorem State.freshen_hbm : (s.freshen).hbm = s.hbm := rfl
@[simp] theorem State.freshen_net : (s.freshen).net = s.net := rfl
@[simp] theorem State.freshen_events : (s.freshen).events = s.events := rfl
@[simp] theorem State.freshen_rings : (s.freshen).rings = s.rings := rfl
@[simp] theorem State.freshen_host : (s.freshen).host = s.host := rfl
@[simp] theorem State.freshen_stores : (s.freshen).stores = s.stores := rfl
@[simp] theorem State.freshen_gambits : (s.freshen).gambits = s.gambits := rfl
@[simp] theorem State.freshen_defects : (s.freshen).defects = s.defects := rfl
@[simp] theorem State.freshen_rails : (s.freshen).rails = s.rails := rfl
@[simp] theorem State.freshen_mgmt : (s.freshen).mgmt = s.mgmt := rfl
@[simp] theorem State.freshen_rankTenants : (s.freshen).rankTenants = s.rankTenants := rfl

/-! ### modLink -/

@[simp] theorem State.modLink_pending (l : LinkEnd) (f : Link → Link) : (s.modLink l f).pending = s.pending := rfl
@[simp] theorem State.modLink_freeCtr (l : LinkEnd) (f : Link → Link) : (s.modLink l f).freeCtr = s.freeCtr := rfl
@[simp] theorem State.modLink_rdata (l : LinkEnd) (f : Link → Link) : (s.modLink l f).rdata = s.rdata := rfl
@[simp] theorem State.modLink_answer (l : LinkEnd) (f : Link → Link) : (s.modLink l f).answer = s.answer := rfl
@[simp] theorem State.modLink_mem (l : LinkEnd) (f : Link → Link) : (s.modLink l f).mem = s.mem := rfl
@[simp] theorem State.modLink_hostMem (l : LinkEnd) (f : Link → Link) : (s.modLink l f).hostMem = s.hostMem := rfl
@[simp] theorem State.modLink_regs (l : LinkEnd) (f : Link → Link) : (s.modLink l f).regs = s.regs := rfl
@[simp] theorem State.modLink_cores (l : LinkEnd) (f : Link → Link) : (s.modLink l f).cores = s.cores := rfl
@[simp] theorem State.modLink_dies (l : LinkEnd) (f : Link → Link) : (s.modLink l f).dies = s.dies := rfl
@[simp] theorem State.modLink_parts (l : LinkEnd) (f : Link → Link) : (s.modLink l f).parts = s.parts := rfl
@[simp] theorem State.modLink_tnodes (l : LinkEnd) (f : Link → Link) : (s.modLink l f).tnodes = s.tnodes := rfl
@[simp] theorem State.modLink_homes (l : LinkEnd) (f : Link → Link) : (s.modLink l f).homes = s.homes := rfl
@[simp] theorem State.modLink_hbm (l : LinkEnd) (f : Link → Link) : (s.modLink l f).hbm = s.hbm := rfl
@[simp] theorem State.modLink_net (l : LinkEnd) (f : Link → Link) : (s.modLink l f).net = s.net := rfl
@[simp] theorem State.modLink_events (l : LinkEnd) (f : Link → Link) : (s.modLink l f).events = s.events := rfl
@[simp] theorem State.modLink_rings (l : LinkEnd) (f : Link → Link) : (s.modLink l f).rings = s.rings := rfl
@[simp] theorem State.modLink_host (l : LinkEnd) (f : Link → Link) : (s.modLink l f).host = s.host := rfl
@[simp] theorem State.modLink_stores (l : LinkEnd) (f : Link → Link) : (s.modLink l f).stores = s.stores := rfl
@[simp] theorem State.modLink_gambits (l : LinkEnd) (f : Link → Link) : (s.modLink l f).gambits = s.gambits := rfl
@[simp] theorem State.modLink_defects (l : LinkEnd) (f : Link → Link) : (s.modLink l f).defects = s.defects := rfl
@[simp] theorem State.modLink_rails (l : LinkEnd) (f : Link → Link) : (s.modLink l f).rails = s.rails := rfl
@[simp] theorem State.modLink_mgmt (l : LinkEnd) (f : Link → Link) : (s.modLink l f).mgmt = s.mgmt := rfl
@[simp] theorem State.modLink_rankTenants (l : LinkEnd) (f : Link → Link) : (s.modLink l f).rankTenants = s.rankTenants := rfl

/-! ### modHbm -/

@[simp] theorem State.modHbm_pending (f : Hbm → Hbm) : (s.modHbm f).pending = s.pending := rfl
@[simp] theorem State.modHbm_freeCtr (f : Hbm → Hbm) : (s.modHbm f).freeCtr = s.freeCtr := rfl
@[simp] theorem State.modHbm_rdata (f : Hbm → Hbm) : (s.modHbm f).rdata = s.rdata := rfl
@[simp] theorem State.modHbm_answer (f : Hbm → Hbm) : (s.modHbm f).answer = s.answer := rfl
@[simp] theorem State.modHbm_mem (f : Hbm → Hbm) : (s.modHbm f).mem = s.mem := rfl
@[simp] theorem State.modHbm_hostMem (f : Hbm → Hbm) : (s.modHbm f).hostMem = s.hostMem := rfl
@[simp] theorem State.modHbm_regs (f : Hbm → Hbm) : (s.modHbm f).regs = s.regs := rfl
@[simp] theorem State.modHbm_cores (f : Hbm → Hbm) : (s.modHbm f).cores = s.cores := rfl
@[simp] theorem State.modHbm_dies (f : Hbm → Hbm) : (s.modHbm f).dies = s.dies := rfl
@[simp] theorem State.modHbm_parts (f : Hbm → Hbm) : (s.modHbm f).parts = s.parts := rfl
@[simp] theorem State.modHbm_links (f : Hbm → Hbm) : (s.modHbm f).links = s.links := rfl
@[simp] theorem State.modHbm_tnodes (f : Hbm → Hbm) : (s.modHbm f).tnodes = s.tnodes := rfl
@[simp] theorem State.modHbm_homes (f : Hbm → Hbm) : (s.modHbm f).homes = s.homes := rfl
@[simp] theorem State.modHbm_net (f : Hbm → Hbm) : (s.modHbm f).net = s.net := rfl
@[simp] theorem State.modHbm_events (f : Hbm → Hbm) : (s.modHbm f).events = s.events := rfl
@[simp] theorem State.modHbm_rings (f : Hbm → Hbm) : (s.modHbm f).rings = s.rings := rfl
@[simp] theorem State.modHbm_host (f : Hbm → Hbm) : (s.modHbm f).host = s.host := rfl
@[simp] theorem State.modHbm_stores (f : Hbm → Hbm) : (s.modHbm f).stores = s.stores := rfl
@[simp] theorem State.modHbm_gambits (f : Hbm → Hbm) : (s.modHbm f).gambits = s.gambits := rfl
@[simp] theorem State.modHbm_defects (f : Hbm → Hbm) : (s.modHbm f).defects = s.defects := rfl
@[simp] theorem State.modHbm_rails (f : Hbm → Hbm) : (s.modHbm f).rails = s.rails := rfl
@[simp] theorem State.modHbm_mgmt (f : Hbm → Hbm) : (s.modHbm f).mgmt = s.mgmt := rfl
@[simp] theorem State.modHbm_rankTenants (f : Hbm → Hbm) : (s.modHbm f).rankTenants = s.rankTenants := rfl

/-! ### modStack -/

@[simp] theorem State.modStack_pending (t : Nat) (f : Stack → Stack) : (s.modStack t f).pending = s.pending := rfl
@[simp] theorem State.modStack_freeCtr (t : Nat) (f : Stack → Stack) : (s.modStack t f).freeCtr = s.freeCtr := rfl
@[simp] theorem State.modStack_rdata (t : Nat) (f : Stack → Stack) : (s.modStack t f).rdata = s.rdata := rfl
@[simp] theorem State.modStack_answer (t : Nat) (f : Stack → Stack) : (s.modStack t f).answer = s.answer := rfl
@[simp] theorem State.modStack_mem (t : Nat) (f : Stack → Stack) : (s.modStack t f).mem = s.mem := rfl
@[simp] theorem State.modStack_hostMem (t : Nat) (f : Stack → Stack) : (s.modStack t f).hostMem = s.hostMem := rfl
@[simp] theorem State.modStack_regs (t : Nat) (f : Stack → Stack) : (s.modStack t f).regs = s.regs := rfl
@[simp] theorem State.modStack_cores (t : Nat) (f : Stack → Stack) : (s.modStack t f).cores = s.cores := rfl
@[simp] theorem State.modStack_dies (t : Nat) (f : Stack → Stack) : (s.modStack t f).dies = s.dies := rfl
@[simp] theorem State.modStack_parts (t : Nat) (f : Stack → Stack) : (s.modStack t f).parts = s.parts := rfl
@[simp] theorem State.modStack_links (t : Nat) (f : Stack → Stack) : (s.modStack t f).links = s.links := rfl
@[simp] theorem State.modStack_tnodes (t : Nat) (f : Stack → Stack) : (s.modStack t f).tnodes = s.tnodes := rfl
@[simp] theorem State.modStack_homes (t : Nat) (f : Stack → Stack) : (s.modStack t f).homes = s.homes := rfl
@[simp] theorem State.modStack_net (t : Nat) (f : Stack → Stack) : (s.modStack t f).net = s.net := rfl
@[simp] theorem State.modStack_events (t : Nat) (f : Stack → Stack) : (s.modStack t f).events = s.events := rfl
@[simp] theorem State.modStack_rings (t : Nat) (f : Stack → Stack) : (s.modStack t f).rings = s.rings := rfl
@[simp] theorem State.modStack_host (t : Nat) (f : Stack → Stack) : (s.modStack t f).host = s.host := rfl
@[simp] theorem State.modStack_stores (t : Nat) (f : Stack → Stack) : (s.modStack t f).stores = s.stores := rfl
@[simp] theorem State.modStack_gambits (t : Nat) (f : Stack → Stack) : (s.modStack t f).gambits = s.gambits := rfl
@[simp] theorem State.modStack_defects (t : Nat) (f : Stack → Stack) : (s.modStack t f).defects = s.defects := rfl
@[simp] theorem State.modStack_rails (t : Nat) (f : Stack → Stack) : (s.modStack t f).rails = s.rails := rfl
@[simp] theorem State.modStack_mgmt (t : Nat) (f : Stack → Stack) : (s.modStack t f).mgmt = s.mgmt := rfl
@[simp] theorem State.modStack_rankTenants (t : Nat) (f : Stack → Stack) : (s.modStack t f).rankTenants = s.rankTenants := rfl

/-! ### modSlice -/

@[simp] theorem State.modSlice_pending (t : Nat) (f : Slice → Slice) : (s.modSlice t f).pending = s.pending := rfl
@[simp] theorem State.modSlice_freeCtr (t : Nat) (f : Slice → Slice) : (s.modSlice t f).freeCtr = s.freeCtr := rfl
@[simp] theorem State.modSlice_rdata (t : Nat) (f : Slice → Slice) : (s.modSlice t f).rdata = s.rdata := rfl
@[simp] theorem State.modSlice_answer (t : Nat) (f : Slice → Slice) : (s.modSlice t f).answer = s.answer := rfl
@[simp] theorem State.modSlice_mem (t : Nat) (f : Slice → Slice) : (s.modSlice t f).mem = s.mem := rfl
@[simp] theorem State.modSlice_hostMem (t : Nat) (f : Slice → Slice) : (s.modSlice t f).hostMem = s.hostMem := rfl
@[simp] theorem State.modSlice_regs (t : Nat) (f : Slice → Slice) : (s.modSlice t f).regs = s.regs := rfl
@[simp] theorem State.modSlice_cores (t : Nat) (f : Slice → Slice) : (s.modSlice t f).cores = s.cores := rfl
@[simp] theorem State.modSlice_dies (t : Nat) (f : Slice → Slice) : (s.modSlice t f).dies = s.dies := rfl
@[simp] theorem State.modSlice_parts (t : Nat) (f : Slice → Slice) : (s.modSlice t f).parts = s.parts := rfl
@[simp] theorem State.modSlice_links (t : Nat) (f : Slice → Slice) : (s.modSlice t f).links = s.links := rfl
@[simp] theorem State.modSlice_tnodes (t : Nat) (f : Slice → Slice) : (s.modSlice t f).tnodes = s.tnodes := rfl
@[simp] theorem State.modSlice_homes (t : Nat) (f : Slice → Slice) : (s.modSlice t f).homes = s.homes := rfl
@[simp] theorem State.modSlice_net (t : Nat) (f : Slice → Slice) : (s.modSlice t f).net = s.net := rfl
@[simp] theorem State.modSlice_events (t : Nat) (f : Slice → Slice) : (s.modSlice t f).events = s.events := rfl
@[simp] theorem State.modSlice_rings (t : Nat) (f : Slice → Slice) : (s.modSlice t f).rings = s.rings := rfl
@[simp] theorem State.modSlice_host (t : Nat) (f : Slice → Slice) : (s.modSlice t f).host = s.host := rfl
@[simp] theorem State.modSlice_stores (t : Nat) (f : Slice → Slice) : (s.modSlice t f).stores = s.stores := rfl
@[simp] theorem State.modSlice_gambits (t : Nat) (f : Slice → Slice) : (s.modSlice t f).gambits = s.gambits := rfl
@[simp] theorem State.modSlice_defects (t : Nat) (f : Slice → Slice) : (s.modSlice t f).defects = s.defects := rfl
@[simp] theorem State.modSlice_rails (t : Nat) (f : Slice → Slice) : (s.modSlice t f).rails = s.rails := rfl
@[simp] theorem State.modSlice_mgmt (t : Nat) (f : Slice → Slice) : (s.modSlice t f).mgmt = s.mgmt := rfl
@[simp] theorem State.modSlice_rankTenants (t : Nat) (f : Slice → Slice) : (s.modSlice t f).rankTenants = s.rankTenants := rfl

/-! ### modRing -/

@[simp] theorem State.modRing_pending (r : Nat) (f : Ring → Ring) : (s.modRing r f).pending = s.pending := rfl
@[simp] theorem State.modRing_freeCtr (r : Nat) (f : Ring → Ring) : (s.modRing r f).freeCtr = s.freeCtr := rfl
@[simp] theorem State.modRing_rdata (r : Nat) (f : Ring → Ring) : (s.modRing r f).rdata = s.rdata := rfl
@[simp] theorem State.modRing_answer (r : Nat) (f : Ring → Ring) : (s.modRing r f).answer = s.answer := rfl
@[simp] theorem State.modRing_mem (r : Nat) (f : Ring → Ring) : (s.modRing r f).mem = s.mem := rfl
@[simp] theorem State.modRing_hostMem (r : Nat) (f : Ring → Ring) : (s.modRing r f).hostMem = s.hostMem := rfl
@[simp] theorem State.modRing_regs (r : Nat) (f : Ring → Ring) : (s.modRing r f).regs = s.regs := rfl
@[simp] theorem State.modRing_cores (r : Nat) (f : Ring → Ring) : (s.modRing r f).cores = s.cores := rfl
@[simp] theorem State.modRing_dies (r : Nat) (f : Ring → Ring) : (s.modRing r f).dies = s.dies := rfl
@[simp] theorem State.modRing_parts (r : Nat) (f : Ring → Ring) : (s.modRing r f).parts = s.parts := rfl
@[simp] theorem State.modRing_links (r : Nat) (f : Ring → Ring) : (s.modRing r f).links = s.links := rfl
@[simp] theorem State.modRing_tnodes (r : Nat) (f : Ring → Ring) : (s.modRing r f).tnodes = s.tnodes := rfl
@[simp] theorem State.modRing_homes (r : Nat) (f : Ring → Ring) : (s.modRing r f).homes = s.homes := rfl
@[simp] theorem State.modRing_hbm (r : Nat) (f : Ring → Ring) : (s.modRing r f).hbm = s.hbm := rfl
@[simp] theorem State.modRing_net (r : Nat) (f : Ring → Ring) : (s.modRing r f).net = s.net := rfl
@[simp] theorem State.modRing_events (r : Nat) (f : Ring → Ring) : (s.modRing r f).events = s.events := rfl
@[simp] theorem State.modRing_host (r : Nat) (f : Ring → Ring) : (s.modRing r f).host = s.host := rfl
@[simp] theorem State.modRing_stores (r : Nat) (f : Ring → Ring) : (s.modRing r f).stores = s.stores := rfl
@[simp] theorem State.modRing_gambits (r : Nat) (f : Ring → Ring) : (s.modRing r f).gambits = s.gambits := rfl
@[simp] theorem State.modRing_defects (r : Nat) (f : Ring → Ring) : (s.modRing r f).defects = s.defects := rfl
@[simp] theorem State.modRing_rails (r : Nat) (f : Ring → Ring) : (s.modRing r f).rails = s.rails := rfl
@[simp] theorem State.modRing_mgmt (r : Nat) (f : Ring → Ring) : (s.modRing r f).mgmt = s.mgmt := rfl
@[simp] theorem State.modRing_rankTenants (r : Nat) (f : Ring → Ring) : (s.modRing r f).rankTenants = s.rankTenants := rfl

/-! ### modHost -/

@[simp] theorem State.modHost_pending (f : HostPorts → HostPorts) : (s.modHost f).pending = s.pending := rfl
@[simp] theorem State.modHost_freeCtr (f : HostPorts → HostPorts) : (s.modHost f).freeCtr = s.freeCtr := rfl
@[simp] theorem State.modHost_rdata (f : HostPorts → HostPorts) : (s.modHost f).rdata = s.rdata := rfl
@[simp] theorem State.modHost_answer (f : HostPorts → HostPorts) : (s.modHost f).answer = s.answer := rfl
@[simp] theorem State.modHost_mem (f : HostPorts → HostPorts) : (s.modHost f).mem = s.mem := rfl
@[simp] theorem State.modHost_hostMem (f : HostPorts → HostPorts) : (s.modHost f).hostMem = s.hostMem := rfl
@[simp] theorem State.modHost_regs (f : HostPorts → HostPorts) : (s.modHost f).regs = s.regs := rfl
@[simp] theorem State.modHost_cores (f : HostPorts → HostPorts) : (s.modHost f).cores = s.cores := rfl
@[simp] theorem State.modHost_dies (f : HostPorts → HostPorts) : (s.modHost f).dies = s.dies := rfl
@[simp] theorem State.modHost_parts (f : HostPorts → HostPorts) : (s.modHost f).parts = s.parts := rfl
@[simp] theorem State.modHost_links (f : HostPorts → HostPorts) : (s.modHost f).links = s.links := rfl
@[simp] theorem State.modHost_tnodes (f : HostPorts → HostPorts) : (s.modHost f).tnodes = s.tnodes := rfl
@[simp] theorem State.modHost_homes (f : HostPorts → HostPorts) : (s.modHost f).homes = s.homes := rfl
@[simp] theorem State.modHost_hbm (f : HostPorts → HostPorts) : (s.modHost f).hbm = s.hbm := rfl
@[simp] theorem State.modHost_net (f : HostPorts → HostPorts) : (s.modHost f).net = s.net := rfl
@[simp] theorem State.modHost_events (f : HostPorts → HostPorts) : (s.modHost f).events = s.events := rfl
@[simp] theorem State.modHost_rings (f : HostPorts → HostPorts) : (s.modHost f).rings = s.rings := rfl
@[simp] theorem State.modHost_stores (f : HostPorts → HostPorts) : (s.modHost f).stores = s.stores := rfl
@[simp] theorem State.modHost_gambits (f : HostPorts → HostPorts) : (s.modHost f).gambits = s.gambits := rfl
@[simp] theorem State.modHost_defects (f : HostPorts → HostPorts) : (s.modHost f).defects = s.defects := rfl
@[simp] theorem State.modHost_rails (f : HostPorts → HostPorts) : (s.modHost f).rails = s.rails := rfl
@[simp] theorem State.modHost_mgmt (f : HostPorts → HostPorts) : (s.modHost f).mgmt = s.mgmt := rfl
@[simp] theorem State.modHost_rankTenants (f : HostPorts → HostPorts) : (s.modHost f).rankTenants = s.rankTenants := rfl

/-! ### modMgmt -/

@[simp] theorem State.modMgmt_pending (f : Mgmt → Mgmt) : (s.modMgmt f).pending = s.pending := rfl
@[simp] theorem State.modMgmt_freeCtr (f : Mgmt → Mgmt) : (s.modMgmt f).freeCtr = s.freeCtr := rfl
@[simp] theorem State.modMgmt_rdata (f : Mgmt → Mgmt) : (s.modMgmt f).rdata = s.rdata := rfl
@[simp] theorem State.modMgmt_answer (f : Mgmt → Mgmt) : (s.modMgmt f).answer = s.answer := rfl
@[simp] theorem State.modMgmt_mem (f : Mgmt → Mgmt) : (s.modMgmt f).mem = s.mem := rfl
@[simp] theorem State.modMgmt_hostMem (f : Mgmt → Mgmt) : (s.modMgmt f).hostMem = s.hostMem := rfl
@[simp] theorem State.modMgmt_regs (f : Mgmt → Mgmt) : (s.modMgmt f).regs = s.regs := rfl
@[simp] theorem State.modMgmt_cores (f : Mgmt → Mgmt) : (s.modMgmt f).cores = s.cores := rfl
@[simp] theorem State.modMgmt_dies (f : Mgmt → Mgmt) : (s.modMgmt f).dies = s.dies := rfl
@[simp] theorem State.modMgmt_parts (f : Mgmt → Mgmt) : (s.modMgmt f).parts = s.parts := rfl
@[simp] theorem State.modMgmt_links (f : Mgmt → Mgmt) : (s.modMgmt f).links = s.links := rfl
@[simp] theorem State.modMgmt_tnodes (f : Mgmt → Mgmt) : (s.modMgmt f).tnodes = s.tnodes := rfl
@[simp] theorem State.modMgmt_homes (f : Mgmt → Mgmt) : (s.modMgmt f).homes = s.homes := rfl
@[simp] theorem State.modMgmt_hbm (f : Mgmt → Mgmt) : (s.modMgmt f).hbm = s.hbm := rfl
@[simp] theorem State.modMgmt_net (f : Mgmt → Mgmt) : (s.modMgmt f).net = s.net := rfl
@[simp] theorem State.modMgmt_events (f : Mgmt → Mgmt) : (s.modMgmt f).events = s.events := rfl
@[simp] theorem State.modMgmt_rings (f : Mgmt → Mgmt) : (s.modMgmt f).rings = s.rings := rfl
@[simp] theorem State.modMgmt_host (f : Mgmt → Mgmt) : (s.modMgmt f).host = s.host := rfl
@[simp] theorem State.modMgmt_stores (f : Mgmt → Mgmt) : (s.modMgmt f).stores = s.stores := rfl
@[simp] theorem State.modMgmt_gambits (f : Mgmt → Mgmt) : (s.modMgmt f).gambits = s.gambits := rfl
@[simp] theorem State.modMgmt_defects (f : Mgmt → Mgmt) : (s.modMgmt f).defects = s.defects := rfl
@[simp] theorem State.modMgmt_rails (f : Mgmt → Mgmt) : (s.modMgmt f).rails = s.rails := rfl
@[simp] theorem State.modMgmt_rankTenants (f : Mgmt → Mgmt) : (s.modMgmt f).rankTenants = s.rankTenants := rfl

/-! ### modConn -/

@[simp] theorem State.modConn_pending (p : Nat) (f : Conn → Conn) : (s.modConn p f).pending = s.pending := rfl
@[simp] theorem State.modConn_freeCtr (p : Nat) (f : Conn → Conn) : (s.modConn p f).freeCtr = s.freeCtr := rfl
@[simp] theorem State.modConn_rdata (p : Nat) (f : Conn → Conn) : (s.modConn p f).rdata = s.rdata := rfl
@[simp] theorem State.modConn_answer (p : Nat) (f : Conn → Conn) : (s.modConn p f).answer = s.answer := rfl
@[simp] theorem State.modConn_mem (p : Nat) (f : Conn → Conn) : (s.modConn p f).mem = s.mem := rfl
@[simp] theorem State.modConn_hostMem (p : Nat) (f : Conn → Conn) : (s.modConn p f).hostMem = s.hostMem := rfl
@[simp] theorem State.modConn_regs (p : Nat) (f : Conn → Conn) : (s.modConn p f).regs = s.regs := rfl
@[simp] theorem State.modConn_cores (p : Nat) (f : Conn → Conn) : (s.modConn p f).cores = s.cores := rfl
@[simp] theorem State.modConn_dies (p : Nat) (f : Conn → Conn) : (s.modConn p f).dies = s.dies := rfl
@[simp] theorem State.modConn_parts (p : Nat) (f : Conn → Conn) : (s.modConn p f).parts = s.parts := rfl
@[simp] theorem State.modConn_links (p : Nat) (f : Conn → Conn) : (s.modConn p f).links = s.links := rfl
@[simp] theorem State.modConn_tnodes (p : Nat) (f : Conn → Conn) : (s.modConn p f).tnodes = s.tnodes := rfl
@[simp] theorem State.modConn_homes (p : Nat) (f : Conn → Conn) : (s.modConn p f).homes = s.homes := rfl
@[simp] theorem State.modConn_hbm (p : Nat) (f : Conn → Conn) : (s.modConn p f).hbm = s.hbm := rfl
@[simp] theorem State.modConn_net (p : Nat) (f : Conn → Conn) : (s.modConn p f).net = s.net := rfl
@[simp] theorem State.modConn_events (p : Nat) (f : Conn → Conn) : (s.modConn p f).events = s.events := rfl
@[simp] theorem State.modConn_rings (p : Nat) (f : Conn → Conn) : (s.modConn p f).rings = s.rings := rfl
@[simp] theorem State.modConn_host (p : Nat) (f : Conn → Conn) : (s.modConn p f).host = s.host := rfl
@[simp] theorem State.modConn_stores (p : Nat) (f : Conn → Conn) : (s.modConn p f).stores = s.stores := rfl
@[simp] theorem State.modConn_gambits (p : Nat) (f : Conn → Conn) : (s.modConn p f).gambits = s.gambits := rfl
@[simp] theorem State.modConn_defects (p : Nat) (f : Conn → Conn) : (s.modConn p f).defects = s.defects := rfl
@[simp] theorem State.modConn_rails (p : Nat) (f : Conn → Conn) : (s.modConn p f).rails = s.rails := rfl
@[simp] theorem State.modConn_rankTenants (p : Nat) (f : Conn → Conn) : (s.modConn p f).rankTenants = s.rankTenants := rfl

/-! ### modRails -/

@[simp] theorem State.modRails_pending (f : Rails → Rails) : (s.modRails f).pending = s.pending := rfl
@[simp] theorem State.modRails_freeCtr (f : Rails → Rails) : (s.modRails f).freeCtr = s.freeCtr := rfl
@[simp] theorem State.modRails_rdata (f : Rails → Rails) : (s.modRails f).rdata = s.rdata := rfl
@[simp] theorem State.modRails_answer (f : Rails → Rails) : (s.modRails f).answer = s.answer := rfl
@[simp] theorem State.modRails_mem (f : Rails → Rails) : (s.modRails f).mem = s.mem := rfl
@[simp] theorem State.modRails_hostMem (f : Rails → Rails) : (s.modRails f).hostMem = s.hostMem := rfl
@[simp] theorem State.modRails_regs (f : Rails → Rails) : (s.modRails f).regs = s.regs := rfl
@[simp] theorem State.modRails_cores (f : Rails → Rails) : (s.modRails f).cores = s.cores := rfl
@[simp] theorem State.modRails_dies (f : Rails → Rails) : (s.modRails f).dies = s.dies := rfl
@[simp] theorem State.modRails_parts (f : Rails → Rails) : (s.modRails f).parts = s.parts := rfl
@[simp] theorem State.modRails_links (f : Rails → Rails) : (s.modRails f).links = s.links := rfl
@[simp] theorem State.modRails_tnodes (f : Rails → Rails) : (s.modRails f).tnodes = s.tnodes := rfl
@[simp] theorem State.modRails_homes (f : Rails → Rails) : (s.modRails f).homes = s.homes := rfl
@[simp] theorem State.modRails_hbm (f : Rails → Rails) : (s.modRails f).hbm = s.hbm := rfl
@[simp] theorem State.modRails_net (f : Rails → Rails) : (s.modRails f).net = s.net := rfl
@[simp] theorem State.modRails_events (f : Rails → Rails) : (s.modRails f).events = s.events := rfl
@[simp] theorem State.modRails_rings (f : Rails → Rails) : (s.modRails f).rings = s.rings := rfl
@[simp] theorem State.modRails_host (f : Rails → Rails) : (s.modRails f).host = s.host := rfl
@[simp] theorem State.modRails_stores (f : Rails → Rails) : (s.modRails f).stores = s.stores := rfl
@[simp] theorem State.modRails_gambits (f : Rails → Rails) : (s.modRails f).gambits = s.gambits := rfl
@[simp] theorem State.modRails_defects (f : Rails → Rails) : (s.modRails f).defects = s.defects := rfl
@[simp] theorem State.modRails_mgmt (f : Rails → Rails) : (s.modRails f).mgmt = s.mgmt := rfl
@[simp] theorem State.modRails_rankTenants (f : Rails → Rails) : (s.modRails f).rankTenants = s.rankTenants := rfl

/-! ### modRegion -/

@[simp] theorem State.modRegion_pending (r : Nat) (f : Region → Region) : (s.modRegion r f).pending = s.pending := rfl
@[simp] theorem State.modRegion_freeCtr (r : Nat) (f : Region → Region) : (s.modRegion r f).freeCtr = s.freeCtr := rfl
@[simp] theorem State.modRegion_rdata (r : Nat) (f : Region → Region) : (s.modRegion r f).rdata = s.rdata := rfl
@[simp] theorem State.modRegion_answer (r : Nat) (f : Region → Region) : (s.modRegion r f).answer = s.answer := rfl
@[simp] theorem State.modRegion_mem (r : Nat) (f : Region → Region) : (s.modRegion r f).mem = s.mem := rfl
@[simp] theorem State.modRegion_hostMem (r : Nat) (f : Region → Region) : (s.modRegion r f).hostMem = s.hostMem := rfl
@[simp] theorem State.modRegion_regs (r : Nat) (f : Region → Region) : (s.modRegion r f).regs = s.regs := rfl
@[simp] theorem State.modRegion_cores (r : Nat) (f : Region → Region) : (s.modRegion r f).cores = s.cores := rfl
@[simp] theorem State.modRegion_dies (r : Nat) (f : Region → Region) : (s.modRegion r f).dies = s.dies := rfl
@[simp] theorem State.modRegion_parts (r : Nat) (f : Region → Region) : (s.modRegion r f).parts = s.parts := rfl
@[simp] theorem State.modRegion_links (r : Nat) (f : Region → Region) : (s.modRegion r f).links = s.links := rfl
@[simp] theorem State.modRegion_tnodes (r : Nat) (f : Region → Region) : (s.modRegion r f).tnodes = s.tnodes := rfl
@[simp] theorem State.modRegion_homes (r : Nat) (f : Region → Region) : (s.modRegion r f).homes = s.homes := rfl
@[simp] theorem State.modRegion_hbm (r : Nat) (f : Region → Region) : (s.modRegion r f).hbm = s.hbm := rfl
@[simp] theorem State.modRegion_net (r : Nat) (f : Region → Region) : (s.modRegion r f).net = s.net := rfl
@[simp] theorem State.modRegion_events (r : Nat) (f : Region → Region) : (s.modRegion r f).events = s.events := rfl
@[simp] theorem State.modRegion_rings (r : Nat) (f : Region → Region) : (s.modRegion r f).rings = s.rings := rfl
@[simp] theorem State.modRegion_host (r : Nat) (f : Region → Region) : (s.modRegion r f).host = s.host := rfl
@[simp] theorem State.modRegion_stores (r : Nat) (f : Region → Region) : (s.modRegion r f).stores = s.stores := rfl
@[simp] theorem State.modRegion_gambits (r : Nat) (f : Region → Region) : (s.modRegion r f).gambits = s.gambits := rfl
@[simp] theorem State.modRegion_defects (r : Nat) (f : Region → Region) : (s.modRegion r f).defects = s.defects := rfl
@[simp] theorem State.modRegion_mgmt (r : Nat) (f : Region → Region) : (s.modRegion r f).mgmt = s.mgmt := rfl
@[simp] theorem State.modRegion_rankTenants (r : Nat) (f : Region → Region) : (s.modRegion r f).rankTenants = s.rankTenants := rfl

/-! ### modNode -/

@[simp] theorem State.modNode_pending (n : Nat) (f : TempoNode → TempoNode) : (s.modNode n f).pending = s.pending := rfl
@[simp] theorem State.modNode_freeCtr (n : Nat) (f : TempoNode → TempoNode) : (s.modNode n f).freeCtr = s.freeCtr := rfl
@[simp] theorem State.modNode_rdata (n : Nat) (f : TempoNode → TempoNode) : (s.modNode n f).rdata = s.rdata := rfl
@[simp] theorem State.modNode_answer (n : Nat) (f : TempoNode → TempoNode) : (s.modNode n f).answer = s.answer := rfl
@[simp] theorem State.modNode_mem (n : Nat) (f : TempoNode → TempoNode) : (s.modNode n f).mem = s.mem := rfl
@[simp] theorem State.modNode_hostMem (n : Nat) (f : TempoNode → TempoNode) : (s.modNode n f).hostMem = s.hostMem := rfl
@[simp] theorem State.modNode_regs (n : Nat) (f : TempoNode → TempoNode) : (s.modNode n f).regs = s.regs := rfl
@[simp] theorem State.modNode_cores (n : Nat) (f : TempoNode → TempoNode) : (s.modNode n f).cores = s.cores := rfl
@[simp] theorem State.modNode_dies (n : Nat) (f : TempoNode → TempoNode) : (s.modNode n f).dies = s.dies := rfl
@[simp] theorem State.modNode_parts (n : Nat) (f : TempoNode → TempoNode) : (s.modNode n f).parts = s.parts := rfl
@[simp] theorem State.modNode_links (n : Nat) (f : TempoNode → TempoNode) : (s.modNode n f).links = s.links := rfl
@[simp] theorem State.modNode_homes (n : Nat) (f : TempoNode → TempoNode) : (s.modNode n f).homes = s.homes := rfl
@[simp] theorem State.modNode_hbm (n : Nat) (f : TempoNode → TempoNode) : (s.modNode n f).hbm = s.hbm := rfl
@[simp] theorem State.modNode_net (n : Nat) (f : TempoNode → TempoNode) : (s.modNode n f).net = s.net := rfl
@[simp] theorem State.modNode_events (n : Nat) (f : TempoNode → TempoNode) : (s.modNode n f).events = s.events := rfl
@[simp] theorem State.modNode_rings (n : Nat) (f : TempoNode → TempoNode) : (s.modNode n f).rings = s.rings := rfl
@[simp] theorem State.modNode_host (n : Nat) (f : TempoNode → TempoNode) : (s.modNode n f).host = s.host := rfl
@[simp] theorem State.modNode_stores (n : Nat) (f : TempoNode → TempoNode) : (s.modNode n f).stores = s.stores := rfl
@[simp] theorem State.modNode_gambits (n : Nat) (f : TempoNode → TempoNode) : (s.modNode n f).gambits = s.gambits := rfl
@[simp] theorem State.modNode_defects (n : Nat) (f : TempoNode → TempoNode) : (s.modNode n f).defects = s.defects := rfl
@[simp] theorem State.modNode_rails (n : Nat) (f : TempoNode → TempoNode) : (s.modNode n f).rails = s.rails := rfl
@[simp] theorem State.modNode_mgmt (n : Nat) (f : TempoNode → TempoNode) : (s.modNode n f).mgmt = s.mgmt := rfl
@[simp] theorem State.modNode_rankTenants (n : Nat) (f : TempoNode → TempoNode) : (s.modNode n f).rankTenants = s.rankTenants := rfl

/-! ### modStore -/

@[simp] theorem State.modStore_pending (k : Nat) (f : Store → Store) : (s.modStore k f).pending = s.pending := rfl
@[simp] theorem State.modStore_freeCtr (k : Nat) (f : Store → Store) : (s.modStore k f).freeCtr = s.freeCtr := rfl
@[simp] theorem State.modStore_rdata (k : Nat) (f : Store → Store) : (s.modStore k f).rdata = s.rdata := rfl
@[simp] theorem State.modStore_answer (k : Nat) (f : Store → Store) : (s.modStore k f).answer = s.answer := rfl
@[simp] theorem State.modStore_mem (k : Nat) (f : Store → Store) : (s.modStore k f).mem = s.mem := rfl
@[simp] theorem State.modStore_hostMem (k : Nat) (f : Store → Store) : (s.modStore k f).hostMem = s.hostMem := rfl
@[simp] theorem State.modStore_regs (k : Nat) (f : Store → Store) : (s.modStore k f).regs = s.regs := rfl
@[simp] theorem State.modStore_cores (k : Nat) (f : Store → Store) : (s.modStore k f).cores = s.cores := rfl
@[simp] theorem State.modStore_dies (k : Nat) (f : Store → Store) : (s.modStore k f).dies = s.dies := rfl
@[simp] theorem State.modStore_parts (k : Nat) (f : Store → Store) : (s.modStore k f).parts = s.parts := rfl
@[simp] theorem State.modStore_links (k : Nat) (f : Store → Store) : (s.modStore k f).links = s.links := rfl
@[simp] theorem State.modStore_tnodes (k : Nat) (f : Store → Store) : (s.modStore k f).tnodes = s.tnodes := rfl
@[simp] theorem State.modStore_homes (k : Nat) (f : Store → Store) : (s.modStore k f).homes = s.homes := rfl
@[simp] theorem State.modStore_hbm (k : Nat) (f : Store → Store) : (s.modStore k f).hbm = s.hbm := rfl
@[simp] theorem State.modStore_net (k : Nat) (f : Store → Store) : (s.modStore k f).net = s.net := rfl
@[simp] theorem State.modStore_events (k : Nat) (f : Store → Store) : (s.modStore k f).events = s.events := rfl
@[simp] theorem State.modStore_rings (k : Nat) (f : Store → Store) : (s.modStore k f).rings = s.rings := rfl
@[simp] theorem State.modStore_host (k : Nat) (f : Store → Store) : (s.modStore k f).host = s.host := rfl
@[simp] theorem State.modStore_gambits (k : Nat) (f : Store → Store) : (s.modStore k f).gambits = s.gambits := rfl
@[simp] theorem State.modStore_defects (k : Nat) (f : Store → Store) : (s.modStore k f).defects = s.defects := rfl
@[simp] theorem State.modStore_rails (k : Nat) (f : Store → Store) : (s.modStore k f).rails = s.rails := rfl
@[simp] theorem State.modStore_mgmt (k : Nat) (f : Store → Store) : (s.modStore k f).mgmt = s.mgmt := rfl
@[simp] theorem State.modStore_rankTenants (k : Nat) (f : Store → Store) : (s.modStore k f).rankTenants = s.rankTenants := rfl

/-! ### modStream -/

@[simp] theorem State.modStream_pending (q c : Nat) (f : Stream → Stream) : (s.modStream q c f).pending = s.pending := rfl
@[simp] theorem State.modStream_freeCtr (q c : Nat) (f : Stream → Stream) : (s.modStream q c f).freeCtr = s.freeCtr := rfl
@[simp] theorem State.modStream_rdata (q c : Nat) (f : Stream → Stream) : (s.modStream q c f).rdata = s.rdata := rfl
@[simp] theorem State.modStream_answer (q c : Nat) (f : Stream → Stream) : (s.modStream q c f).answer = s.answer := rfl
@[simp] theorem State.modStream_mem (q c : Nat) (f : Stream → Stream) : (s.modStream q c f).mem = s.mem := rfl
@[simp] theorem State.modStream_hostMem (q c : Nat) (f : Stream → Stream) : (s.modStream q c f).hostMem = s.hostMem := rfl
@[simp] theorem State.modStream_regs (q c : Nat) (f : Stream → Stream) : (s.modStream q c f).regs = s.regs := rfl
@[simp] theorem State.modStream_cores (q c : Nat) (f : Stream → Stream) : (s.modStream q c f).cores = s.cores := rfl
@[simp] theorem State.modStream_dies (q c : Nat) (f : Stream → Stream) : (s.modStream q c f).dies = s.dies := rfl
@[simp] theorem State.modStream_parts (q c : Nat) (f : Stream → Stream) : (s.modStream q c f).parts = s.parts := rfl
@[simp] theorem State.modStream_links (q c : Nat) (f : Stream → Stream) : (s.modStream q c f).links = s.links := rfl
@[simp] theorem State.modStream_tnodes (q c : Nat) (f : Stream → Stream) : (s.modStream q c f).tnodes = s.tnodes := rfl
@[simp] theorem State.modStream_hbm (q c : Nat) (f : Stream → Stream) : (s.modStream q c f).hbm = s.hbm := rfl
@[simp] theorem State.modStream_net (q c : Nat) (f : Stream → Stream) : (s.modStream q c f).net = s.net := rfl
@[simp] theorem State.modStream_events (q c : Nat) (f : Stream → Stream) : (s.modStream q c f).events = s.events := rfl
@[simp] theorem State.modStream_rings (q c : Nat) (f : Stream → Stream) : (s.modStream q c f).rings = s.rings := rfl
@[simp] theorem State.modStream_host (q c : Nat) (f : Stream → Stream) : (s.modStream q c f).host = s.host := rfl
@[simp] theorem State.modStream_stores (q c : Nat) (f : Stream → Stream) : (s.modStream q c f).stores = s.stores := rfl
@[simp] theorem State.modStream_gambits (q c : Nat) (f : Stream → Stream) : (s.modStream q c f).gambits = s.gambits := rfl
@[simp] theorem State.modStream_defects (q c : Nat) (f : Stream → Stream) : (s.modStream q c f).defects = s.defects := rfl
@[simp] theorem State.modStream_rails (q c : Nat) (f : Stream → Stream) : (s.modStream q c f).rails = s.rails := rfl
@[simp] theorem State.modStream_mgmt (q c : Nat) (f : Stream → Stream) : (s.modStream q c f).mgmt = s.mgmt := rfl
@[simp] theorem State.modStream_rankTenants (q c : Nat) (f : Stream → Stream) : (s.modStream q c f).rankTenants = s.rankTenants := rfl

/-! ### Reading a unit of one kind after an update of another -/

@[simp] theorem State.setCore_die_at (k : Nat) (c : Core) (i : Nat) : (s.setCore k c).die i = s.die i := rfl
@[simp] theorem State.setCore_part_at (k : Nat) (c : Core) (i : Nat) : (s.setCore k c).part i = s.part i := rfl
@[simp] theorem State.setCore_reg_at (k : Nat) (c : Core) (i : Nat) : (s.setCore k c).reg i = s.reg i := rfl
@[simp] theorem State.setCore_ring_at (k : Nat) (c : Core) (i : Nat) : (s.setCore k c).ring i = s.ring i := rfl
@[simp] theorem State.setCore_tnode_at (k : Nat) (c : Core) (i : Nat) : (s.setCore k c).tnode i = s.tnode i := rfl
@[simp] theorem State.setCore_region_at (k : Nat) (c : Core) (i : Nat) : (s.setCore k c).region i = s.region i := rfl
@[simp] theorem State.modCore_die_at (k : Nat) (f : Core → Core) (i : Nat) : (s.modCore k f).die i = s.die i := rfl
@[simp] theorem State.modCore_part_at (k : Nat) (f : Core → Core) (i : Nat) : (s.modCore k f).part i = s.part i := rfl
@[simp] theorem State.modCore_reg_at (k : Nat) (f : Core → Core) (i : Nat) : (s.modCore k f).reg i = s.reg i := rfl
@[simp] theorem State.modCore_ring_at (k : Nat) (f : Core → Core) (i : Nat) : (s.modCore k f).ring i = s.ring i := rfl
@[simp] theorem State.modCore_tnode_at (k : Nat) (f : Core → Core) (i : Nat) : (s.modCore k f).tnode i = s.tnode i := rfl
@[simp] theorem State.modCore_region_at (k : Nat) (f : Core → Core) (i : Nat) : (s.modCore k f).region i = s.region i := rfl
@[simp] theorem State.modDie_core_at (d : Nat) (f : Die → Die) (i : Nat) : (s.modDie d f).core i = s.core i := rfl
@[simp] theorem State.modDie_part_at (d : Nat) (f : Die → Die) (i : Nat) : (s.modDie d f).part i = s.part i := rfl
@[simp] theorem State.modDie_reg_at (d : Nat) (f : Die → Die) (i : Nat) : (s.modDie d f).reg i = s.reg i := rfl
@[simp] theorem State.modDie_ring_at (d : Nat) (f : Die → Die) (i : Nat) : (s.modDie d f).ring i = s.ring i := rfl
@[simp] theorem State.modDie_tnode_at (d : Nat) (f : Die → Die) (i : Nat) : (s.modDie d f).tnode i = s.tnode i := rfl
@[simp] theorem State.modDie_region_at (d : Nat) (f : Die → Die) (i : Nat) : (s.modDie d f).region i = s.region i := rfl
@[simp] theorem State.modPart_core_at (p : Nat) (f : Part → Part) (i : Nat) : (s.modPart p f).core i = s.core i := rfl
@[simp] theorem State.modPart_die_at (p : Nat) (f : Part → Part) (i : Nat) : (s.modPart p f).die i = s.die i := rfl
@[simp] theorem State.modPart_reg_at (p : Nat) (f : Part → Part) (i : Nat) : (s.modPart p f).reg i = s.reg i := rfl
@[simp] theorem State.modPart_ring_at (p : Nat) (f : Part → Part) (i : Nat) : (s.modPart p f).ring i = s.ring i := rfl
@[simp] theorem State.modPart_tnode_at (p : Nat) (f : Part → Part) (i : Nat) : (s.modPart p f).tnode i = s.tnode i := rfl
@[simp] theorem State.modPart_region_at (p : Nat) (f : Part → Part) (i : Nat) : (s.modPart p f).region i = s.region i := rfl
@[simp] theorem State.setReg_core_at (o : Nat) (v : W32) (i : Nat) : (s.setReg o v).core i = s.core i := rfl
@[simp] theorem State.setReg_die_at (o : Nat) (v : W32) (i : Nat) : (s.setReg o v).die i = s.die i := rfl
@[simp] theorem State.setReg_part_at (o : Nat) (v : W32) (i : Nat) : (s.setReg o v).part i = s.part i := rfl
@[simp] theorem State.setReg_ring_at (o : Nat) (v : W32) (i : Nat) : (s.setReg o v).ring i = s.ring i := rfl
@[simp] theorem State.setReg_tnode_at (o : Nat) (v : W32) (i : Nat) : (s.setReg o v).tnode i = s.tnode i := rfl
@[simp] theorem State.setReg_region_at (o : Nat) (v : W32) (i : Nat) : (s.setReg o v).region i = s.region i := rfl
@[simp] theorem State.setRegF_core_at (o lo len v : Nat) (i : Nat) : (s.setRegF o lo len v).core i = s.core i := rfl
@[simp] theorem State.setRegF_die_at (o lo len v : Nat) (i : Nat) : (s.setRegF o lo len v).die i = s.die i := rfl
@[simp] theorem State.setRegF_part_at (o lo len v : Nat) (i : Nat) : (s.setRegF o lo len v).part i = s.part i := rfl
@[simp] theorem State.setRegF_ring_at (o lo len v : Nat) (i : Nat) : (s.setRegF o lo len v).ring i = s.ring i := rfl
@[simp] theorem State.setRegF_tnode_at (o lo len v : Nat) (i : Nat) : (s.setRegF o lo len v).tnode i = s.tnode i := rfl
@[simp] theorem State.setRegF_region_at (o lo len v : Nat) (i : Nat) : (s.setRegF o lo len v).region i = s.region i := rfl
@[simp] theorem State.countReg_core_at (o n : Nat) (i : Nat) : (s.countReg o n).core i = s.core i := rfl
@[simp] theorem State.countReg_die_at (o n : Nat) (i : Nat) : (s.countReg o n).die i = s.die i := rfl
@[simp] theorem State.countReg_part_at (o n : Nat) (i : Nat) : (s.countReg o n).part i = s.part i := rfl
@[simp] theorem State.countReg_ring_at (o n : Nat) (i : Nat) : (s.countReg o n).ring i = s.ring i := rfl
@[simp] theorem State.countReg_tnode_at (o n : Nat) (i : Nat) : (s.countReg o n).tnode i = s.tnode i := rfl
@[simp] theorem State.countReg_region_at (o n : Nat) (i : Nat) : (s.countReg o n).region i = s.region i := rfl
@[simp] theorem State.clearRegs_core_at (p : Nat → Bool) (i : Nat) : (s.clearRegs p).core i = s.core i := rfl
@[simp] theorem State.clearRegs_die_at (p : Nat → Bool) (i : Nat) : (s.clearRegs p).die i = s.die i := rfl
@[simp] theorem State.clearRegs_part_at (p : Nat → Bool) (i : Nat) : (s.clearRegs p).part i = s.part i := rfl
@[simp] theorem State.clearRegs_ring_at (p : Nat → Bool) (i : Nat) : (s.clearRegs p).ring i = s.ring i := rfl
@[simp] theorem State.clearRegs_tnode_at (p : Nat → Bool) (i : Nat) : (s.clearRegs p).tnode i = s.tnode i := rfl
@[simp] theorem State.clearRegs_region_at (p : Nat → Bool) (i : Nat) : (s.clearRegs p).region i = s.region i := rfl
@[simp] theorem State.freshen_core_at (i : Nat) : (s.freshen).core i = s.core i := rfl
@[simp] theorem State.freshen_die_at (i : Nat) : (s.freshen).die i = s.die i := rfl
@[simp] theorem State.freshen_part_at (i : Nat) : (s.freshen).part i = s.part i := rfl
@[simp] theorem State.freshen_reg_at (i : Nat) : (s.freshen).reg i = s.reg i := rfl
@[simp] theorem State.freshen_ring_at (i : Nat) : (s.freshen).ring i = s.ring i := rfl
@[simp] theorem State.freshen_tnode_at (i : Nat) : (s.freshen).tnode i = s.tnode i := rfl
@[simp] theorem State.freshen_region_at (i : Nat) : (s.freshen).region i = s.region i := rfl
@[simp] theorem State.modLink_core_at (l : LinkEnd) (f : Link → Link) (i : Nat) : (s.modLink l f).core i = s.core i := rfl
@[simp] theorem State.modLink_die_at (l : LinkEnd) (f : Link → Link) (i : Nat) : (s.modLink l f).die i = s.die i := rfl
@[simp] theorem State.modLink_part_at (l : LinkEnd) (f : Link → Link) (i : Nat) : (s.modLink l f).part i = s.part i := rfl
@[simp] theorem State.modLink_reg_at (l : LinkEnd) (f : Link → Link) (i : Nat) : (s.modLink l f).reg i = s.reg i := rfl
@[simp] theorem State.modLink_ring_at (l : LinkEnd) (f : Link → Link) (i : Nat) : (s.modLink l f).ring i = s.ring i := rfl
@[simp] theorem State.modLink_tnode_at (l : LinkEnd) (f : Link → Link) (i : Nat) : (s.modLink l f).tnode i = s.tnode i := rfl
@[simp] theorem State.modLink_region_at (l : LinkEnd) (f : Link → Link) (i : Nat) : (s.modLink l f).region i = s.region i := rfl
@[simp] theorem State.modHbm_core_at (f : Hbm → Hbm) (i : Nat) : (s.modHbm f).core i = s.core i := rfl
@[simp] theorem State.modHbm_die_at (f : Hbm → Hbm) (i : Nat) : (s.modHbm f).die i = s.die i := rfl
@[simp] theorem State.modHbm_part_at (f : Hbm → Hbm) (i : Nat) : (s.modHbm f).part i = s.part i := rfl
@[simp] theorem State.modHbm_reg_at (f : Hbm → Hbm) (i : Nat) : (s.modHbm f).reg i = s.reg i := rfl
@[simp] theorem State.modHbm_ring_at (f : Hbm → Hbm) (i : Nat) : (s.modHbm f).ring i = s.ring i := rfl
@[simp] theorem State.modHbm_tnode_at (f : Hbm → Hbm) (i : Nat) : (s.modHbm f).tnode i = s.tnode i := rfl
@[simp] theorem State.modHbm_region_at (f : Hbm → Hbm) (i : Nat) : (s.modHbm f).region i = s.region i := rfl
@[simp] theorem State.modStack_core_at (t : Nat) (f : Stack → Stack) (i : Nat) : (s.modStack t f).core i = s.core i := rfl
@[simp] theorem State.modStack_die_at (t : Nat) (f : Stack → Stack) (i : Nat) : (s.modStack t f).die i = s.die i := rfl
@[simp] theorem State.modStack_part_at (t : Nat) (f : Stack → Stack) (i : Nat) : (s.modStack t f).part i = s.part i := rfl
@[simp] theorem State.modStack_reg_at (t : Nat) (f : Stack → Stack) (i : Nat) : (s.modStack t f).reg i = s.reg i := rfl
@[simp] theorem State.modStack_ring_at (t : Nat) (f : Stack → Stack) (i : Nat) : (s.modStack t f).ring i = s.ring i := rfl
@[simp] theorem State.modStack_tnode_at (t : Nat) (f : Stack → Stack) (i : Nat) : (s.modStack t f).tnode i = s.tnode i := rfl
@[simp] theorem State.modStack_region_at (t : Nat) (f : Stack → Stack) (i : Nat) : (s.modStack t f).region i = s.region i := rfl
@[simp] theorem State.modSlice_core_at (t : Nat) (f : Slice → Slice) (i : Nat) : (s.modSlice t f).core i = s.core i := rfl
@[simp] theorem State.modSlice_die_at (t : Nat) (f : Slice → Slice) (i : Nat) : (s.modSlice t f).die i = s.die i := rfl
@[simp] theorem State.modSlice_part_at (t : Nat) (f : Slice → Slice) (i : Nat) : (s.modSlice t f).part i = s.part i := rfl
@[simp] theorem State.modSlice_reg_at (t : Nat) (f : Slice → Slice) (i : Nat) : (s.modSlice t f).reg i = s.reg i := rfl
@[simp] theorem State.modSlice_ring_at (t : Nat) (f : Slice → Slice) (i : Nat) : (s.modSlice t f).ring i = s.ring i := rfl
@[simp] theorem State.modSlice_tnode_at (t : Nat) (f : Slice → Slice) (i : Nat) : (s.modSlice t f).tnode i = s.tnode i := rfl
@[simp] theorem State.modSlice_region_at (t : Nat) (f : Slice → Slice) (i : Nat) : (s.modSlice t f).region i = s.region i := rfl
@[simp] theorem State.modRing_core_at (r : Nat) (f : Ring → Ring) (i : Nat) : (s.modRing r f).core i = s.core i := rfl
@[simp] theorem State.modRing_die_at (r : Nat) (f : Ring → Ring) (i : Nat) : (s.modRing r f).die i = s.die i := rfl
@[simp] theorem State.modRing_part_at (r : Nat) (f : Ring → Ring) (i : Nat) : (s.modRing r f).part i = s.part i := rfl
@[simp] theorem State.modRing_reg_at (r : Nat) (f : Ring → Ring) (i : Nat) : (s.modRing r f).reg i = s.reg i := rfl
@[simp] theorem State.modRing_tnode_at (r : Nat) (f : Ring → Ring) (i : Nat) : (s.modRing r f).tnode i = s.tnode i := rfl
@[simp] theorem State.modRing_region_at (r : Nat) (f : Ring → Ring) (i : Nat) : (s.modRing r f).region i = s.region i := rfl
@[simp] theorem State.modHost_core_at (f : HostPorts → HostPorts) (i : Nat) : (s.modHost f).core i = s.core i := rfl
@[simp] theorem State.modHost_die_at (f : HostPorts → HostPorts) (i : Nat) : (s.modHost f).die i = s.die i := rfl
@[simp] theorem State.modHost_part_at (f : HostPorts → HostPorts) (i : Nat) : (s.modHost f).part i = s.part i := rfl
@[simp] theorem State.modHost_reg_at (f : HostPorts → HostPorts) (i : Nat) : (s.modHost f).reg i = s.reg i := rfl
@[simp] theorem State.modHost_ring_at (f : HostPorts → HostPorts) (i : Nat) : (s.modHost f).ring i = s.ring i := rfl
@[simp] theorem State.modHost_tnode_at (f : HostPorts → HostPorts) (i : Nat) : (s.modHost f).tnode i = s.tnode i := rfl
@[simp] theorem State.modHost_region_at (f : HostPorts → HostPorts) (i : Nat) : (s.modHost f).region i = s.region i := rfl
@[simp] theorem State.modMgmt_core_at (f : Mgmt → Mgmt) (i : Nat) : (s.modMgmt f).core i = s.core i := rfl
@[simp] theorem State.modMgmt_die_at (f : Mgmt → Mgmt) (i : Nat) : (s.modMgmt f).die i = s.die i := rfl
@[simp] theorem State.modMgmt_part_at (f : Mgmt → Mgmt) (i : Nat) : (s.modMgmt f).part i = s.part i := rfl
@[simp] theorem State.modMgmt_reg_at (f : Mgmt → Mgmt) (i : Nat) : (s.modMgmt f).reg i = s.reg i := rfl
@[simp] theorem State.modMgmt_ring_at (f : Mgmt → Mgmt) (i : Nat) : (s.modMgmt f).ring i = s.ring i := rfl
@[simp] theorem State.modMgmt_tnode_at (f : Mgmt → Mgmt) (i : Nat) : (s.modMgmt f).tnode i = s.tnode i := rfl
@[simp] theorem State.modMgmt_region_at (f : Mgmt → Mgmt) (i : Nat) : (s.modMgmt f).region i = s.region i := rfl
@[simp] theorem State.modConn_core_at (p : Nat) (f : Conn → Conn) (i : Nat) : (s.modConn p f).core i = s.core i := rfl
@[simp] theorem State.modConn_die_at (p : Nat) (f : Conn → Conn) (i : Nat) : (s.modConn p f).die i = s.die i := rfl
@[simp] theorem State.modConn_part_at (p : Nat) (f : Conn → Conn) (i : Nat) : (s.modConn p f).part i = s.part i := rfl
@[simp] theorem State.modConn_reg_at (p : Nat) (f : Conn → Conn) (i : Nat) : (s.modConn p f).reg i = s.reg i := rfl
@[simp] theorem State.modConn_ring_at (p : Nat) (f : Conn → Conn) (i : Nat) : (s.modConn p f).ring i = s.ring i := rfl
@[simp] theorem State.modConn_tnode_at (p : Nat) (f : Conn → Conn) (i : Nat) : (s.modConn p f).tnode i = s.tnode i := rfl
@[simp] theorem State.modConn_region_at (p : Nat) (f : Conn → Conn) (i : Nat) : (s.modConn p f).region i = s.region i := rfl
@[simp] theorem State.modRails_core_at (f : Rails → Rails) (i : Nat) : (s.modRails f).core i = s.core i := rfl
@[simp] theorem State.modRails_die_at (f : Rails → Rails) (i : Nat) : (s.modRails f).die i = s.die i := rfl
@[simp] theorem State.modRails_part_at (f : Rails → Rails) (i : Nat) : (s.modRails f).part i = s.part i := rfl
@[simp] theorem State.modRails_reg_at (f : Rails → Rails) (i : Nat) : (s.modRails f).reg i = s.reg i := rfl
@[simp] theorem State.modRails_ring_at (f : Rails → Rails) (i : Nat) : (s.modRails f).ring i = s.ring i := rfl
@[simp] theorem State.modRails_tnode_at (f : Rails → Rails) (i : Nat) : (s.modRails f).tnode i = s.tnode i := rfl
@[simp] theorem State.modRegion_core_at (r : Nat) (f : Region → Region) (i : Nat) : (s.modRegion r f).core i = s.core i := rfl
@[simp] theorem State.modRegion_die_at (r : Nat) (f : Region → Region) (i : Nat) : (s.modRegion r f).die i = s.die i := rfl
@[simp] theorem State.modRegion_part_at (r : Nat) (f : Region → Region) (i : Nat) : (s.modRegion r f).part i = s.part i := rfl
@[simp] theorem State.modRegion_reg_at (r : Nat) (f : Region → Region) (i : Nat) : (s.modRegion r f).reg i = s.reg i := rfl
@[simp] theorem State.modRegion_ring_at (r : Nat) (f : Region → Region) (i : Nat) : (s.modRegion r f).ring i = s.ring i := rfl
@[simp] theorem State.modRegion_tnode_at (r : Nat) (f : Region → Region) (i : Nat) : (s.modRegion r f).tnode i = s.tnode i := rfl
@[simp] theorem State.modNode_core_at (n : Nat) (f : TempoNode → TempoNode) (i : Nat) : (s.modNode n f).core i = s.core i := rfl
@[simp] theorem State.modNode_die_at (n : Nat) (f : TempoNode → TempoNode) (i : Nat) : (s.modNode n f).die i = s.die i := rfl
@[simp] theorem State.modNode_part_at (n : Nat) (f : TempoNode → TempoNode) (i : Nat) : (s.modNode n f).part i = s.part i := rfl
@[simp] theorem State.modNode_reg_at (n : Nat) (f : TempoNode → TempoNode) (i : Nat) : (s.modNode n f).reg i = s.reg i := rfl
@[simp] theorem State.modNode_ring_at (n : Nat) (f : TempoNode → TempoNode) (i : Nat) : (s.modNode n f).ring i = s.ring i := rfl
@[simp] theorem State.modNode_region_at (n : Nat) (f : TempoNode → TempoNode) (i : Nat) : (s.modNode n f).region i = s.region i := rfl
@[simp] theorem State.modStore_core_at (k : Nat) (f : Store → Store) (i : Nat) : (s.modStore k f).core i = s.core i := rfl
@[simp] theorem State.modStore_die_at (k : Nat) (f : Store → Store) (i : Nat) : (s.modStore k f).die i = s.die i := rfl
@[simp] theorem State.modStore_part_at (k : Nat) (f : Store → Store) (i : Nat) : (s.modStore k f).part i = s.part i := rfl
@[simp] theorem State.modStore_reg_at (k : Nat) (f : Store → Store) (i : Nat) : (s.modStore k f).reg i = s.reg i := rfl
@[simp] theorem State.modStore_ring_at (k : Nat) (f : Store → Store) (i : Nat) : (s.modStore k f).ring i = s.ring i := rfl
@[simp] theorem State.modStore_tnode_at (k : Nat) (f : Store → Store) (i : Nat) : (s.modStore k f).tnode i = s.tnode i := rfl
@[simp] theorem State.modStore_region_at (k : Nat) (f : Store → Store) (i : Nat) : (s.modStore k f).region i = s.region i := rfl
@[simp] theorem State.modStream_core_at (q c : Nat) (f : Stream → Stream) (i : Nat) : (s.modStream q c f).core i = s.core i := rfl
@[simp] theorem State.modStream_die_at (q c : Nat) (f : Stream → Stream) (i : Nat) : (s.modStream q c f).die i = s.die i := rfl
@[simp] theorem State.modStream_part_at (q c : Nat) (f : Stream → Stream) (i : Nat) : (s.modStream q c f).part i = s.part i := rfl
@[simp] theorem State.modStream_reg_at (q c : Nat) (f : Stream → Stream) (i : Nat) : (s.modStream q c f).reg i = s.reg i := rfl
@[simp] theorem State.modStream_ring_at (q c : Nat) (f : Stream → Stream) (i : Nat) : (s.modStream q c f).ring i = s.ring i := rfl
@[simp] theorem State.modStream_tnode_at (q c : Nat) (f : Stream → Stream) (i : Nat) : (s.modStream q c f).tnode i = s.tnode i := rfl
@[simp] theorem State.modStream_region_at (q c : Nat) (f : Stream → Stream) (i : Nat) : (s.modStream q c f).region i = s.region i := rfl

/-! ### Reading a unit after its own update -/

@[simp] theorem State.core_setCore (k : Nat) (c : Core) : (s.setCore k c).core k = c := sget_sput_self ..
theorem State.core_setCore_ne {k j : Nat} (c : Core) (h : j ≠ k) : (s.setCore k c).core j = s.core j := sget_sput_ne _ _ _ h
@[simp] theorem State.core_modCore (k : Nat) (f : Core → Core) : (s.modCore k f).core k = f (s.core k) := sget_sput_self ..
theorem State.core_modCore_ne {k j : Nat} (f : Core → Core) (h : j ≠ k) : (s.modCore k f).core j = s.core j := sget_sput_ne _ _ _ h
@[simp] theorem State.modCore_modCore (k : Nat) (f g : Core → Core) : (s.modCore k f).modCore k g = s.modCore k (fun c => g (f c)) := by
  simp [State.modCore, State.setCore, State.core]
@[simp] theorem State.part_modPart (p : Nat) (f : Part → Part) : (s.modPart p f).part p = f (s.part p) := sget_sput_self ..
theorem State.part_modPart_ne {p q : Nat} (f : Part → Part) (h : q ≠ p) : (s.modPart p f).part q = s.part q := sget_sput_ne _ _ _ h
@[simp] theorem State.modPart_modPart (p : Nat) (f g : Part → Part) : (s.modPart p f).modPart p g = s.modPart p (fun c => g (f c)) := by
  simp [State.modPart]
@[simp] theorem State.die_modDie (d : Nat) (f : Die → Die) : (s.modDie d f).die d = f (s.die d) := sget_sput_self ..
theorem State.die_modDie_ne {d j : Nat} (f : Die → Die) (h : j ≠ d) : (s.modDie d f).die j = s.die j := sget_sput_ne _ _ _ h
@[simp] theorem State.reg_setReg (o : Nat) (v : W32) : (s.setReg o v).reg o = v := sget_sput_self ..
theorem State.reg_setReg_ne {o j : Nat} (v : W32) (h : j ≠ o) : (s.setReg o v).reg j = s.reg j := by
  unfold State.reg State.setReg
  have hd : ∀ d' : W32, sget d' (sput (regReset o) s.regs o v) j = sget d' s.regs j := by
    intro d'
    by_cases hv : v = regReset o
    · simp [sput, hv, sget_sdel_ne _ _ h]
    · simp [sput, hv, sget_sins_ne _ _ _ h, sget_sdel_ne _ _ h]
  exact hd _
@[simp] theorem State.ring_modRing (r : Nat) (f : Ring → Ring) : (s.modRing r f).ring r = f (s.ring r) := sget_sput_self ..
theorem State.ring_modRing_ne {r j : Nat} (f : Ring → Ring) (h : j ≠ r) : (s.modRing r f).ring j = s.ring j := sget_sput_ne _ _ _ h
@[simp] theorem State.tnode_modNode (n : Nat) (f : TempoNode → TempoNode) : (s.modNode n f).tnode n = f (s.tnode n) := sget_sput_self ..
theorem State.tnode_modNode_ne {n j : Nat} (f : TempoNode → TempoNode) (h : j ≠ n) : (s.modNode n f).tnode j = s.tnode j :=
  sget_sput_ne _ _ _ h
@[simp] theorem State.region_modRegion (r : Nat) (f : Region → Region) : (s.modRegion r f).region r = f (s.region r) := sget_sput_self ..
theorem State.region_modRegion_ne {r j : Nat} (f : Region → Region) (h : j ≠ r) : (s.modRegion r f).region j = s.region j :=
  sget_sput_ne _ _ _ h
@[simp] theorem State.stack_modStack (t : Nat) (f : Stack → Stack) : (s.modStack t f).stack t = f (s.stack t) := sget_sput_self ..
@[simp] theorem State.slice_modSlice (t : Nat) (f : Slice → Slice) : (s.modSlice t f).slice t = f (s.slice t) := sget_sput_self ..
@[simp] theorem State.link_modLink (l : LinkEnd) (f : Link → Link) : (s.modLink l f).link l = f (s.link l) := sget_sput_self ..
@[simp] theorem State.store_modStore (k : Nat) (f : Store → Store) : (s.modStore k f).store k = f (s.store k) := sget_sput_self ..
@[simp] theorem State.conn_modConn (p : Nat) (f : Conn → Conn) : (s.modConn p f).conn p = f (s.conn p) := sget_sput_self ..
@[simp] theorem State.stream_modStream (q c : Nat) (f : Stream → Stream) : (s.modStream q c f).stream q c = f (s.stream q c) :=
  sget_sput_self ..

/-! ### Reports -/

@[simp] theorem State.raise_pending (t p : Nat) (d : List Byte) : (s.raise t p d).pending = s.pending := by
  simp only [State.raise]; split <;> split <;> rfl
@[simp] theorem State.raise_freeCtr (t p : Nat) (d : List Byte) : (s.raise t p d).freeCtr = s.freeCtr := by
  simp only [State.raise]; split <;> split <;> rfl
@[simp] theorem State.raise_rdata (t p : Nat) (d : List Byte) : (s.raise t p d).rdata = s.rdata := by
  simp only [State.raise]; split <;> split <;> rfl
@[simp] theorem State.raise_answer (t p : Nat) (d : List Byte) : (s.raise t p d).answer = s.answer := by
  simp only [State.raise]; split <;> split <;> rfl
@[simp] theorem State.raise_mem (t p : Nat) (d : List Byte) : (s.raise t p d).mem = s.mem := by
  simp only [State.raise]; split <;> split <;> rfl
@[simp] theorem State.raise_hostMem (t p : Nat) (d : List Byte) : (s.raise t p d).hostMem = s.hostMem := by
  simp only [State.raise]; split <;> split <;> rfl
@[simp] theorem State.raise_regs (t p : Nat) (d : List Byte) : (s.raise t p d).regs = s.regs := by
  simp only [State.raise]; split <;> split <;> rfl
@[simp] theorem State.raise_cores (t p : Nat) (d : List Byte) : (s.raise t p d).cores = s.cores := by
  simp only [State.raise]; split <;> split <;> rfl
@[simp] theorem State.raise_dies (t p : Nat) (d : List Byte) : (s.raise t p d).dies = s.dies := by
  simp only [State.raise]; split <;> split <;> rfl
@[simp] theorem State.raise_parts (t p : Nat) (d : List Byte) : (s.raise t p d).parts = s.parts := by
  simp only [State.raise]; split <;> split <;> rfl
@[simp] theorem State.raise_links (t p : Nat) (d : List Byte) : (s.raise t p d).links = s.links := by
  simp only [State.raise]; split <;> split <;> rfl
@[simp] theorem State.raise_tnodes (t p : Nat) (d : List Byte) : (s.raise t p d).tnodes = s.tnodes := by
  simp only [State.raise]; split <;> split <;> rfl
@[simp] theorem State.raise_homes (t p : Nat) (d : List Byte) : (s.raise t p d).homes = s.homes := by
  simp only [State.raise]; split <;> split <;> rfl
@[simp] theorem State.raise_hbm (t p : Nat) (d : List Byte) : (s.raise t p d).hbm = s.hbm := by
  simp only [State.raise]; split <;> split <;> rfl
@[simp] theorem State.raise_net (t p : Nat) (d : List Byte) : (s.raise t p d).net = s.net := by
  simp only [State.raise]; split <;> split <;> rfl
@[simp] theorem State.raise_rings (t p : Nat) (d : List Byte) : (s.raise t p d).rings = s.rings := by
  simp only [State.raise]; split <;> split <;> rfl
@[simp] theorem State.raise_stores (t p : Nat) (d : List Byte) : (s.raise t p d).stores = s.stores := by
  simp only [State.raise]; split <;> split <;> rfl
@[simp] theorem State.raise_gambits (t p : Nat) (d : List Byte) : (s.raise t p d).gambits = s.gambits := by
  simp only [State.raise]; split <;> split <;> rfl
@[simp] theorem State.raise_defects (t p : Nat) (d : List Byte) : (s.raise t p d).defects = s.defects := by
  simp only [State.raise]; split <;> split <;> rfl
@[simp] theorem State.raise_rails (t p : Nat) (d : List Byte) : (s.raise t p d).rails = s.rails := by
  simp only [State.raise]; split <;> split <;> rfl
@[simp] theorem State.raise_rankTenants (t p : Nat) (d : List Byte) : (s.raise t p d).rankTenants = s.rankTenants := by
  simp only [State.raise]; split <;> split <;> rfl
@[simp] theorem State.raiseHalt_pending (p : Nat) (k : HaltKind) (c : HaltSrc) : (s.raiseHalt p k c).pending = s.pending := rfl
@[simp] theorem State.raiseHalt_freeCtr (p : Nat) (k : HaltKind) (c : HaltSrc) : (s.raiseHalt p k c).freeCtr = s.freeCtr := rfl
@[simp] theorem State.raiseHalt_rdata (p : Nat) (k : HaltKind) (c : HaltSrc) : (s.raiseHalt p k c).rdata = s.rdata := rfl
@[simp] theorem State.raiseHalt_answer (p : Nat) (k : HaltKind) (c : HaltSrc) : (s.raiseHalt p k c).answer = s.answer := rfl
@[simp] theorem State.raiseHalt_mem (p : Nat) (k : HaltKind) (c : HaltSrc) : (s.raiseHalt p k c).mem = s.mem := rfl
@[simp] theorem State.raiseHalt_hostMem (p : Nat) (k : HaltKind) (c : HaltSrc) : (s.raiseHalt p k c).hostMem = s.hostMem := rfl
@[simp] theorem State.raiseHalt_regs (p : Nat) (k : HaltKind) (c : HaltSrc) : (s.raiseHalt p k c).regs = s.regs := rfl
@[simp] theorem State.raiseHalt_cores (p : Nat) (k : HaltKind) (c : HaltSrc) : (s.raiseHalt p k c).cores = s.cores := rfl
@[simp] theorem State.raiseHalt_dies (p : Nat) (k : HaltKind) (c : HaltSrc) : (s.raiseHalt p k c).dies = s.dies := rfl
@[simp] theorem State.raiseHalt_links (p : Nat) (k : HaltKind) (c : HaltSrc) : (s.raiseHalt p k c).links = s.links := rfl
@[simp] theorem State.raiseHalt_tnodes (p : Nat) (k : HaltKind) (c : HaltSrc) : (s.raiseHalt p k c).tnodes = s.tnodes := rfl
@[simp] theorem State.raiseHalt_homes (p : Nat) (k : HaltKind) (c : HaltSrc) : (s.raiseHalt p k c).homes = s.homes := rfl
@[simp] theorem State.raiseHalt_hbm (p : Nat) (k : HaltKind) (c : HaltSrc) : (s.raiseHalt p k c).hbm = s.hbm := rfl
@[simp] theorem State.raiseHalt_net (p : Nat) (k : HaltKind) (c : HaltSrc) : (s.raiseHalt p k c).net = s.net := rfl
@[simp] theorem State.raiseHalt_events (p : Nat) (k : HaltKind) (c : HaltSrc) : (s.raiseHalt p k c).events = s.events := rfl
@[simp] theorem State.raiseHalt_rings (p : Nat) (k : HaltKind) (c : HaltSrc) : (s.raiseHalt p k c).rings = s.rings := rfl
@[simp] theorem State.raiseHalt_host (p : Nat) (k : HaltKind) (c : HaltSrc) : (s.raiseHalt p k c).host = s.host := rfl
@[simp] theorem State.raiseHalt_stores (p : Nat) (k : HaltKind) (c : HaltSrc) : (s.raiseHalt p k c).stores = s.stores := rfl
@[simp] theorem State.raiseHalt_gambits (p : Nat) (k : HaltKind) (c : HaltSrc) : (s.raiseHalt p k c).gambits = s.gambits := rfl
@[simp] theorem State.raiseHalt_defects (p : Nat) (k : HaltKind) (c : HaltSrc) : (s.raiseHalt p k c).defects = s.defects := rfl
@[simp] theorem State.raiseHalt_rails (p : Nat) (k : HaltKind) (c : HaltSrc) : (s.raiseHalt p k c).rails = s.rails := rfl
@[simp] theorem State.raiseHalt_mgmt (p : Nat) (k : HaltKind) (c : HaltSrc) : (s.raiseHalt p k c).mgmt = s.mgmt := rfl
@[simp] theorem State.raiseHalt_rankTenants (p : Nat) (k : HaltKind) (c : HaltSrc) : (s.raiseHalt p k c).rankTenants = s.rankTenants := rfl

/-! ### Registers of a core -/

@[simp] theorem Core.getX_zero (c : Core) : c.getX 0 = 0 := rfl
@[simp] theorem Core.getP_zero (c : Core) : c.getP 0 = -1 := rfl
@[simp] theorem Core.setX_zero (c : Core) (v : W64) : c.setX 0 v = c := rfl
@[simp] theorem Core.setP_zero (c : Core) (v : W64) : c.setP 0 v = c := rfl
theorem Core.getX_setX (c : Core) (i j : BitVec 5) (v : W64) :
    (c.setX i v).getX j = if j = 0 then 0 else if j = i then v else c.getX j := by
  unfold Core.getX Core.setX
  by_cases hj : j = 0
  · rw [if_pos hj, if_pos hj]
  · rw [if_neg hj, if_neg hj]
    by_cases h : j = i
    · subst h
      rw [if_neg hj, if_pos rfl]
      exact sget_sput_self ..
    · rw [if_neg h, if_neg hj]
      by_cases hi : i = 0
      · rw [if_pos hi]
      · rw [if_neg hi]
        exact sget_sput_ne _ _ _ (fun e => h (BitVec.eq_of_toNat_eq e))
theorem Core.getP_setP (c : Core) (i j : BitVec 3) (v : W64) :
    (c.setP i v).getP j = if j = 0 then -1 else if j = i then v else c.getP j := by
  unfold Core.getP Core.setP
  by_cases hj : j = 0
  · rw [if_pos hj, if_pos hj]
  · rw [if_neg hj, if_neg hj]
    by_cases h : j = i
    · subst h
      rw [if_neg hj, if_pos rfl]
      exact sget_sput_self ..
    · rw [if_neg h, if_neg hj]
      by_cases hi : i = 0
      · rw [if_pos hi]
      · rw [if_neg hi]
        exact sget_sput_ne _ _ _ (fun e => h (BitVec.eq_of_toNat_eq e))
theorem Core.getV_setV (c : Core) (i j : BitVec 5) (v : W512) : (c.setV i v).getV j = if j = i then v else c.getV j := by
  by_cases h : j = i
  · subst h; simp [Core.getV, Core.setV]
  · have : j.toNat ≠ i.toNat := fun e => h (BitVec.eq_of_toNat_eq e)
    simp [Core.getV, Core.setV, h, sget_sput_ne _ _ _ this]
theorem Core.getA_setA (c : Core) (i j : BitVec 4) (v : AGReg) : (c.setA i v).getA j = if j = i then v else c.getA j := by
  by_cases h : j = i
  · subst h; simp [Core.getA, Core.setA]
  · have : j.toNat ≠ i.toNat := fun e => h (BitVec.eq_of_toNat_eq e)
    simp [Core.getA, Core.setA, h, sget_sput_ne _ _ _ this]
theorem Core.getC_setC (c : Core) (i j : BitVec 4) (v : W32) : (c.setC i v).getC j = if j = i then v else c.getC j := by
  by_cases h : j = i
  · subst h; simp [Core.getC, Core.setC]
  · have : j.toNat ≠ i.toNat := fun e => h (BitVec.eq_of_toNat_eq e)
    simp [Core.getC, Core.setC, h, sget_sput_ne _ _ _ this]

end Sys2Proof.Machine
end

