-- ==== Sys2Proof/Laws/Issue.lean ====
section
/-! SUPPORT. Issue said once: what the command of an instruction alone in its bundle does, slot by slot, so that claims cite
these and unfold neither the holds nor the encoding checks. -/
namespace Sys2Proof.Machine

open Sys2Proof.Claims

theorem slotsClash_nop_left (o : SlotOp) : slotsClash .nop o = false := by simp [slotsClash, SlotOp.dests, SlotOp.ags]
theorem slotsClash_nop_right (o : SlotOp) : slotsClash o .nop = false := by simp [slotsClash, SlotOp.dests, SlotOp.ags]

theorem effC_nop (s : State) (k : Nat) (i : SlotInst) (h : i.op = .nop) : effC s k i = .ok id := by
  unfold effC; rw [h]; split <;> rfl
theorem effV_nop (s : State) (k : Nat) (i : SlotInst) (h : i.op = .nop) : effV s k i = .ok id := by
  unfold effV; rw [h]; rfl
theorem effM_nop (s : State) (k : Nat) (i : SlotInst) (n : W64) (l : List Nat) (h : i.op = .nop) : effM s k i n l = .ok id := by
  unfold effM; rw [h]; split <;> rfl
theorem effX_nop (s : State) (k : Nat) (i : SlotInst) (h : i.op = .nop) : effX s k i = .ok id := by
  unfold effX; rw [h]; split <;> rfl
theorem slotBanks_nop (s : State) (k : Nat) : slotBanks s k .nop = [] := rfl
theorem slotAsks_nop (s : State) (k : Nat) (i : SlotInst) (h : i.op = .nop) : slotAsks s k i = [] := by
  unfold slotAsks; rw [h]; simp [slotBanks_nop]
theorem slotDenied_nop (s : State) (k : Nat) (l : List (Nat × Nat)) (i : SlotInst) (n : Nat) (h : i.op = .nop) :
    slotDenied s k l i n = false := by simp [slotDenied, slotAsks_nop s k i h]
theorem encodingBad_nop (i : SlotInst) (h : i.op = .nop) : encodingBad i = none := by unfold encodingBad; rw [h]

/-- A ready core with nothing to hold, refuse or reject runs the effects of the four slots. -/
theorem issueBundle_ready {s : State} {k : Nat} {b : Bundle} {l : List Rival} (h : Ready s k) (hh : holdReason s k b = none)
    (he : bundleEncodingBad b = none) (hm : illegalMask b = 0) : issueBundle s k b l = issueEffects s k b l := by
  obtain ⟨h1, h2, h3⟩ := h
  have hu : (halves (s.core k).pc).any (s.core k).istoreUe.contains = false := by
    rw [List.any_eq_false]; intro x hx; simpa using (h3 x hx).1
  have hc : (halves (s.core k).pc).filter (s.core k).istoreCe.contains = [] := by
    rw [List.filter_eq_nil_iff]; intro x hx; simpa using (h3 x hx).2
  unfold issueBundle
  simp only [h1, h2, firstExc, hu, hc, he, hm]
  simp [hh]

/-- The C slot alone: its effect on the state that issuing leaves, or its exception. -/
theorem issue_c {s : State} {w : Issue} {op : SlotOp} (h : Issues s w .c op) (hu : op.slot = some .c ∨ op = .nop ∨ op = .trap) :
    issue w .c op s = .next (match effC s w.core ⟨op, w.pn, w.pred⟩ with
      | .ok e => e (issued s w .c op)
      | .error e => slotException s w.core op e) := by
  obtain ⟨⟨hr, ha, hh, he⟩, hg⟩ := h
  simp [Granted, asks, engineOf, bundleOf, Bundle.put] at hg
  have hv : (decodeBundle w.rest).v.op = .nop := ha .v (by decide)
  have hm : (decodeBundle w.rest).m.op = .nop := ha .m (by decide)
  have hx : (decodeBundle w.rest).x.op = .nop := ha .x (by decide)
  have hp : illegalMask (bundleOf w .c op) = 0 := by
    cases op <;> simp_all [illegalMask, bundleOf, Bundle.put, slotsClash_nop_right, SlotOp.slot, SlotOp.vPort, SlotOp.cPort, SlotOp.isSet]
  have hb : bundleEncodingBad (bundleOf w .c op) = none := by
    unfold bundleEncodingBad
    simp only [bundleOf, Bundle.put, he, encodingBad_nop _ hv, encodingBad_nop _ hm, encodingBad_nop _ hx]
  have hn : ctrUsed (s.core w.core) (bundleOf w .c op) = (0, 0) := by
    cases op <;> simp_all [ctrUsed, bundleOf, Bundle.put, usesCtrV, bitN, SlotOp.slot]
  have ht : takesCtr (s.core w.core) w op = false := by cases op <;> simp_all [takesCtr, usesCtrV, SlotOp.slot]
  change Host.Outcome.next (issueBundle s w.core (bundleOf w .c op) w.rivals) = _
  rw [issueBundle_ready hr hh hb hp]
  unfold issueEffects
  simp only [hn, show (s.core w.core).srctr + BitVec.ofNat 64 0 = (s.core w.core).srctr by simp]
  simp only [bundleOf, Bundle.put, effV_nop _ _ _ hv, effM_nop _ _ _ _ _ hm, effX_nop _ _ _ hx]
  cases effC s w.core ⟨op, w.pn, w.pred⟩ with
  | error e => rfl
  | ok e => simp [bundleOf, Bundle.put, hg, slotDenied_nop, hv, hm, issued, contended, asks, ht, bitN]

/-- The V slot alone: its effect on the state that issuing leaves, or its exception. -/
theorem issue_v {s : State} {w : Issue} {op : SlotOp} (h : Issues s w .v op) (hu : op.slot = some .v ∨ op = .nop ∨ op = .trap) :
    issue w .v op s = .next (match effV s w.core ⟨op, w.pn, w.pred⟩ with
      | .ok e => e (issued s w .v op)
      | .error e => slotException s w.core op e) := by
  obtain ⟨⟨hr, ha, hh, he⟩, hg⟩ := h
  simp [Granted, asks, engineOf, bundleOf, Bundle.put] at hg
  have hc : (decodeBundle w.rest).c.op = .nop := ha .c (by decide)
  have hm : (decodeBundle w.rest).m.op = .nop := ha .m (by decide)
  have hx : (decodeBundle w.rest).x.op = .nop := ha .x (by decide)
  have hp : illegalMask (bundleOf w .v op) = 0 := by
    cases op <;> simp_all [illegalMask, bundleOf, Bundle.put, slotsClash_nop_right, slotsClash_nop_left, SlotOp.slot, SlotOp.vPort, SlotOp.cPort, SlotOp.isSet]
  have hb : bundleEncodingBad (bundleOf w .v op) = none := by
    unfold bundleEncodingBad
    simp only [bundleOf, Bundle.put, he, encodingBad_nop _ hc, encodingBad_nop _ hm, encodingBad_nop _ hx]
  have hn : ctrUsed (s.core w.core) (bundleOf w .v op) = (bitN (takesCtr (s.core w.core) w op), 0) := by
    cases op <;> simp_all [ctrUsed, bundleOf, Bundle.put, usesCtrV, takesCtr, bitN, SlotOp.slot]
  change Host.Outcome.next (issueBundle s w.core (bundleOf w .v op) w.rivals) = _
  rw [issueBundle_ready hr hh hb hp]
  unfold issueEffects
  simp only [hn]
  simp only [bundleOf, Bundle.put, effC_nop _ _ _ hc, effM_nop _ _ _ _ _ hm, effX_nop _ _ _ hx]
  cases effV s w.core ⟨op, w.pn, w.pred⟩ with
  | error e => rfl
  | ok e => simp [bundleOf, Bundle.put, hg, slotDenied_nop, hc, hm, issued, contended, asks, bitN]

/-- The M slot alone: its effect on the state that issuing leaves, or its exception. -/
theorem issue_m {s : State} {w : Issue} {op : SlotOp} (h : Issues s w .m op) (hu : op.slot = some .m ∨ op = .nop ∨ op = .trap) :
    issue w .m op s = .next (match effM s w.core ⟨op, w.pn, w.pred⟩ (s.core w.core).srctr (s.lostBanks w.core (asks s w .m op) 1) with
      | .ok e => e (issued s w .m op)
      | .error e => s.coreException w.core e) := by
  obtain ⟨⟨hr, ha, hh, he⟩, hg⟩ := h
  simp [Granted, asks, engineOf, bundleOf, Bundle.put] at hg
  have hc : (decodeBundle w.rest).c.op = .nop := ha .c (by decide)
  have hv : (decodeBundle w.rest).v.op = .nop := ha .v (by decide)
  have hx : (decodeBundle w.rest).x.op = .nop := ha .x (by decide)
  have hp : illegalMask (bundleOf w .m op) = 0 := by
    cases op <;> simp_all [illegalMask, bundleOf, Bundle.put, slotsClash_nop_right, slotsClash_nop_left, SlotOp.slot, SlotOp.vPort, SlotOp.cPort, SlotOp.isSet]
  have hb : bundleEncodingBad (bundleOf w .m op) = none := by
    unfold bundleEncodingBad
    simp only [bundleOf, Bundle.put, he, encodingBad_nop _ hc, encodingBad_nop _ hv, encodingBad_nop _ hx]
  have hn : ctrUsed (s.core w.core) (bundleOf w .m op) = (0, bitN (takesCtr (s.core w.core) w op)) := by
    cases op <;> simp_all [ctrUsed, bundleOf, Bundle.put, usesCtrV, takesCtr, bitN, SlotOp.slot]
  change Host.Outcome.next (issueBundle s w.core (bundleOf w .m op) w.rivals) = _
  rw [issueBundle_ready hr hh hb hp]
  unfold issueEffects
  simp only [hn, show (s.core w.core).srctr + BitVec.ofNat 64 0 = (s.core w.core).srctr by simp]
  simp only [asks, bundleOf, Bundle.put, effC_nop _ _ _ hc, effV_nop _ _ _ hv, effX_nop _ _ _ hx]
  cases effM s w.core ⟨op, w.pn, w.pred⟩ (s.core w.core).srctr (s.lostBanks w.core (bundleAsks s w.core
    ⟨(decodeBundle w.rest).c, (decodeBundle w.rest).v, ⟨op, w.pn, w.pred⟩, (decodeBundle w.rest).x⟩ w.rivals) 1) with
  | error e => rfl
  | ok e => simp [bundleOf, Bundle.put, hg, slotDenied_nop, hc, hv, issued, contended, asks, bitN]

/-- The X slot alone: its effect on the state that issuing leaves, or its exception. -/
theorem issue_x {s : State} {w : Issue} {op : SlotOp} (h : Issues s w .x op) (hu : op.slot = some .x ∨ op = .nop ∨ op = .trap) :
    issue w .x op s = .next (match effX s w.core ⟨op, w.pn, w.pred⟩ with
      | .ok e => e (issued s w .x op)
      | .error e => (if e.code = 0x09 then s.modCore w.core (fun d => { d with copyCause := 0x01 }) else s).coreException w.core e) := by
  obtain ⟨⟨hr, ha, hh, he⟩, hg⟩ := h
  simp [Granted, asks, engineOf, bundleOf, Bundle.put] at hg
  have hc : (decodeBundle w.rest).c.op = .nop := ha .c (by decide)
  have hv : (decodeBundle w.rest).v.op = .nop := ha .v (by decide)
  have hm : (decodeBundle w.rest).m.op = .nop := ha .m (by decide)
  have hp : illegalMask (bundleOf w .x op) = 0 := by
    cases op <;> simp_all [illegalMask, bundleOf, Bundle.put, slotsClash_nop_right, slotsClash_nop_left, SlotOp.slot, SlotOp.vPort, SlotOp.cPort, SlotOp.isSet]
  have hb : bundleEncodingBad (bundleOf w .x op) = none := by
    unfold bundleEncodingBad
    simp only [bundleOf, Bundle.put, he, encodingBad_nop _ hc, encodingBad_nop _ hv, encodingBad_nop _ hm]
  have hn : ctrUsed (s.core w.core) (bundleOf w .x op) = (0, 0) := by
    cases op <;> simp_all [ctrUsed, bundleOf, Bundle.put, usesCtrV, bitN, SlotOp.slot]
  have ht : takesCtr (s.core w.core) w op = false := by cases op <;> simp_all [takesCtr, usesCtrV, SlotOp.slot]
  change Host.Outcome.next (issueBundle s w.core (bundleOf w .x op) w.rivals) = _
  rw [issueBundle_ready hr hh hb hp]
  unfold issueEffects
  simp only [hn, show (s.core w.core).srctr + BitVec.ofNat 64 0 = (s.core w.core).srctr by simp]
  simp only [bundleOf, Bundle.put, effC_nop _ _ _ hc, effV_nop _ _ _ hv, effM_nop _ _ _ _ _ hm]
  cases effX s w.core ⟨op, w.pn, w.pred⟩ with
  | error e => rfl
  | ok e => simp [bundleOf, Bundle.put, slotDenied_nop, hc, hv, hm, issued, contended, asks, ht, bitN]

end Sys2Proof.Machine
end

