-- ==== Sys2Proof/Tests/WitnessBase.lean ====
section
/-! SUPPORT. Small states on which the hypotheses of the statements are met: one running core, alone in its partition, and the
test that an instruction fires there. -/
namespace Sys2Proof.Tests

set_option Elab.async false

open Sys2Proof.Machine Sys2Proof.Claims

/-- A bundle of four NOPs. -/
def nops : W128 :=
  wordOf ⟨.nop, false, 0⟩ ++ wordOf ⟨.nop, false, 0⟩ ++ wordOf ⟨.nop, false, 0⟩ ++ wordOf ⟨.nop, false, 0⟩

/-- The core at logical place 0 of a panel whose holes are all at the last file. -/
def k0 : Fin 39168 := 0

/-- A bundle presented to that core. -/
def w0 : Issue := { core := k0, pn := false, pred := 0, rest := nops, rivals := [] }

/-- A program of one class that is in every group and has one claim set and two exchange sets. -/
def prog1 : Program :=
  { strict := false
    features := 0
    classes := [⟨[], 0, some ⟨none, [⟨0x0001, [[⟨false, 1, 32, 0x40⟩], [], [], []], [[], [], [], []]⟩, ⟨0, [], []⟩]⟩, [5], [], [], -1⟩]
    cmap := []
    stale := 100
    ops := []
    overlap := 2
    digest := 0
    size := 0 }

/-- A licensed panel with one partition of one die rank that runs that program, and its first core running. -/
def busy : State :=
  (((State.reset.setReg Reg.lfeat 0xFF).modPart 0 (fun q =>
    { q with first := 1, height := 1, tenant := 7, st := 1, prog := some prog1 })).modCore k0 (fun c => { c with st := 3 }))

/-- `busy` with its core changed. -/
def busyC (f : Core → Core) : State := busy.modCore k0 f

/-- The conditions of Passes as one test. -/
def passesB (s : State) (w : Issue) (sl : Slot) (op : SlotOp) : Bool :=
  (s.core w.core).st == 3 && (s.core w.core).excPend.isEmpty &&
    (halves (s.core w.core).pc).all (fun h => !(s.core w.core).istoreUe.contains h && !(s.core w.core).istoreCe.contains h) &&
    [Slot.c, .v, .m, .x].all (fun t => t == sl || (slotOf (decodeBundle w.rest) t).op == .nop) &&
    (holdReason s w.core (bundleOf w sl op)).isNone && (encodingBad ⟨op, w.pn, w.pred⟩).isNone

/-- And no bank lost in strict mode. -/
def issuesB (s : State) (w : Issue) (sl : Slot) (op : SlotOp) : Bool :=
  passesB s w sl op && !slotDenied s w.core (asks s w sl op) ⟨op, w.pn, w.pred⟩ (engineOf sl)

/-- And bit 0 of its predicate. -/
def firesB (s : State) (w : Issue) (sl : Slot) (op : SlotOp) : Bool := issuesB s w sl op && (s.core w.core).predBit w.pn w.pred 0

theorem passes_of {s : State} {w : Issue} {sl : Slot} {op : SlotOp} (h : passesB s w sl op = true) : Passes s w sl op := by
  simp only [passesB, Bool.and_eq_true, beq_iff_eq, List.isEmpty_iff, Bool.not_eq_true', List.contains_eq_mem,
    decide_eq_false_iff_not, Option.isNone_iff_eq_none, List.all_eq_true, Bool.or_eq_true] at h
  obtain ⟨⟨⟨⟨⟨h1, h2⟩, h3⟩, h4⟩, h5⟩, h6⟩ := h
  refine ⟨⟨h1, h2, h3⟩, ?_, h5, h6⟩
  intro t ht
  cases t <;> simp_all

theorem issues_if {s : State} {w : Issue} {sl : Slot} {op : SlotOp} (h : issuesB s w sl op = true) : Issues s w sl op := by
  simp only [issuesB, Bool.and_eq_true, Bool.not_eq_true'] at h
  exact ⟨passes_of h.1, h.2⟩

theorem fires_of {s : State} {w : Issue} {sl : Slot} {op : SlotOp} (h : firesB s w sl op = true) : Fires s w sl op := by
  simp only [firesB, Bool.and_eq_true] at h
  exact ⟨issues_if h.1, h.2⟩

/-- A list of instructions that all fire. -/
theorem fires_all {s : State} {w : Issue} {sl : Slot} {l : List SlotOp} (h : l.all (firesB s w sl) = true) :
    ∀ op ∈ l, Fires s w sl op := fun op ho => fires_of (List.all_eq_true.mp h op ho)

theorem issues_of {s : State} {w : Issue} {sl : Slot} {op : SlotOp} (h : firesB s w sl op = true) : Issues s w sl op :=
  (fires_of h).1

/-- A check that passes. -/
def okB {α : Type} : Except Exc α → Bool
  | .ok _ => true
  | .error _ => false

theorem ok_of {α : Type} {e : Except Exc α} (h : okB e = true) : ∃ a, e = .ok a := by
  cases e with
  | ok a => exact ⟨a, rfl⟩
  | error _ => simp [okB] at h

end Sys2Proof.Tests
end

