-- ==== Sys2Proof/Tests/WitnessFabric.lean ====
section
/-! SUPPORT. For each statement about copies, links, packets, streams, the store and near memory that has hypotheses, states and
operands that meet them, clause by clause. -/
namespace Sys2Proof.Tests

set_option Elab.async false

open Sys2Proof.Machine Sys2Proof.Claims

/-- `busy`, as panel 0, with slice 0 granted to its partition and one mesh channel up. -/
def fab : State := ((busy.setReg Reg.sylPanelId 0).setReg (Reg.grant 0) 0x80000000).setDlink 0 .e 0 0

/-- A class that Table 11-4 gives an opcode. -/
def clsOf (opc : Nat) : BitVec 2 :=
  if opc ≤ 4 then 0 else if opc ≤ 7 then 1 else if opc = 0xD ∨ opc = 0xE then 2 else 3

/-- A sealed packet of the panel's own core. -/
def pk (opc words addr : Nat) (pay : List Byte) : Packet :=
  sealed { Packet.blank with
    opc := BitVec.ofNat 4 opc, cls := clsOf opc, len := BitVec.ofNat 4 (pay.length / 64), attr := BitVec.ofNat 16 words, addr := BitVec.ofNat 64 addr, payload := pay }

/-- The same packet with one field changed, sealed again. -/
def pkWith (p : Packet) (f : Packet → Packet) : Packet := sealed (f p)

/-- Is a packet good for an opcode? -/
def goodB (o : BitVec 4) (p : Packet) : Bool := p.opc == o && BitVec.ofNat 32 (ecrcOf p) == p.ecrc && packetOk p

theorem good_of {o : BitVec 4} {p : Packet} (h : goodB o p = true) : Good o p := by
  simpa [goodB, Good, and_assoc] using h

/-! ### Copies -/

/-- A linear copy (Table 6-4) with SLOC or DLOC. -/
def copyDesc (loc src dst len : Nat) : W512 := BitVec.ofNat 512 (loc * 2 ^ 26 + len * 2 ^ 32 + src * 2 ^ 64 + dst * 2 ^ 128)

/-- A core with one copy waiting whose descriptor, at offset 0, is d. -/
def copying (d : W512) : State :=
  (fab.spadWr k0 0 (leBytes 64 d.toNat)).modCore k0 (fun c => { c with copies := [⟨3, 0, false, false, false, 0, 0, [], 0, 0⟩] })

theorem wit_copy :
    let good := copyDesc 3 0x100 0x1FFFC0 64
    let none' := copyDesc 3 0x100 0x1FFFC8 64
    let far := copyDesc 1 (2 ^ 61 + 0x40000000000) 0x100 512
    let s := copying good
    BitVec.ofNat 512 (leNat (s.spadRd k0 0 64)) = good ∧ s.copyCheck good = none ∧ (s.copyCheck none').isSome = true ∧ s.copyCheck far = none ∧
    (s.core k0).copies.find? (fun q => !q.started) = some ⟨3, 0, false, false, false, 0, 0, [], 0, 0⟩ ∧
    ((s.core k0).copies.filter (fun y => y.id == 0)).length = 1 ∧ CopyDesc.mode good = 0 ∧ CopyDesc.sloc good = true ∧ CopyDesc.dloc good = true ∧
    CopyDesc.sloc far = false ∧ CopyDesc.dloc far = true ∧ CopyDesc.len far = 512 ∧ (s.core k0).spadUe = [] ∧ (s.core k0).poison = [] := by
  decide +kernel

theorem wit_copy_waits :
    let s := (copying (copyDesc 3 0x100 0x1FFFC0 64)).modCore k0 (fun c => { c with copies := c.copies.map (fun q => { q with drains := 1 }) })
    ((s.core k0).copies.find? (fun q => !q.started)).map (fun q => q.drains) = some 1 := by decide +kernel

theorem wit_copy_far : ∃ p, fab.requestPanel k0 (2 ^ 61 + 0x40000000000) (.read 512) = .ok p := by
  exact ⟨0, by decide +kernel⟩

/-- A core with one copy that has started and waits for the request of tag 5. -/
def asking : State :=
  fab.modCore k0 (fun c => { c with copies := [⟨3, 0, true, false, false, 0, 0, [⟨5, 1, 0, .spad 0x100, 64⟩], 64, 0⟩] })

theorem wit_requests :
    asking.findReq k0 5 = some (⟨3, 0, true, false, false, 0, 0, [⟨5, 1, 0, .spad 0x100, 64⟩], 64, 0⟩, ⟨5, 1, 0, .spad 0x100, 64⟩) ∧
    ((asking.core k0).copies.filter (fun y => y.id == 0)).length = 1 ∧ asking.findReq k0 6 = none ∧
    (∀ q ∈ (asking.core k0).copies, ¬ (q.started = true ∧ q.failed = false ∧ q.reqs = [])) ∧ (∀ q ∈ (fab.core k0).copies, q.started = true) ∧
    ((fab.modCore k0 (fun c => { c with copies := [⟨3, 0, true, false, false, 0, 0, [], 64, 0⟩] })).core k0).copies.find?
      (fun q => q.started && !q.failed && q.reqs.isEmpty) = some ⟨3, 0, true, false, false, 0, 0, [], 64, 0⟩ := by decide +kernel

/-! ### Links -/

/-- A die edge channel, a system link. -/
def eMesh : LinkEnd := .mesh 0 .e 0 0
def eMid : LinkEnd := .mesh 0 .e 0 1
def eSys : LinkEnd := .sys 0

theorem wit_flits :
    let bad : BitVec 288 := 0
    flitOk bad = false ∧ flitOk (mkFlit 7 0 0x10) = true ∧ flitType eMesh (mkFlit 7 0 0x10) = 1 ∧ flitByte (mkFlit 7 0 0x10) 32 = 0 ∧
    flitByte (mkFlit 7 0 0x10) 33 % 16 = 0 ∧ flitType eMesh (mkFlit 7 127 0x10) = 1 ∧ flitByte (mkFlit 7 127 0x10) 32 = 127 ∧
    flitType eSys (mkFlit 7 0 9) = 1 ∧ (fab.link eMesh).expSeq = 0 ∧ (fab.link eSys).expSeq = 0 ∧
    flitType eMesh (mkFlit 0 0 0x20) = 2 ∧ flitType eMesh (mkFlit 0 0 0x30) = 3 ∧ flitType eMesh (mkFlit 0 0 0x40) = 4 ∧
    flitType eSys (mkFlit 0 0 2) = 2 ∧ flitType eSys (mkFlit 0 0 3) = 3 ∧ flitType eSys (mkFlit 0 0 4) = 4 := by decide +kernel

theorem wit_hears : Hears fab eMesh ∧ Hears fab eMid ∧ Hears fab eSys := by
  refine ⟨⟨by decide +kernel, ?_⟩, ⟨by decide +kernel, ?_⟩, ⟨by decide +kernel, ?_⟩⟩
  · change fab.meshUp 0 .e 0 0 = true; decide +kernel
  · change fab.meshUp 0 .e 0 1 = true; decide +kernel
  · change (fab.link eSys).failed = false ∧ (fab.link eSys).stopped = false; decide +kernel

theorem wit_relay_waits :
    let o := relayEnd 0 .e 0 1
    (fab.link o).wait = [] ∧ (fab.link o).replay.length < 64 ∧
    ((fab.modLink o (fun l => { l with wait := [7] })).link o).wait ≠ [] ∧
    64 ≤ ((fab.modLink o (fun l => { l with replay := List.replicate 64 0 })).link o).replay.length := by decide +kernel

theorem wit_edge_input : (fab.core (fab.edgeSite 0 .e 0)).sw.active = false ∧ (fab.core (fab.edgeSite 0 .e 0)).sw.standing = false ∧
    (sget [] (fab.core (fab.edgeSite 0 .e 0)).sw.fifo 1).length < fab.fifoMax (fab.edgeSite 0 .e 0) .e := by decide +kernel

theorem wit_quarantine : fab.meshUp 0 .e 0 0 = true ∧ fab.meshUp 0 .n 0 0 = false ∧ (fab.link eMesh).failed = false ∧
    ((fab.modLink eMesh (fun l => { l with failed := true })).link eMesh).failed = true ∧
    ((fab.modLink eMesh (fun l => { l with awaited := 1 })).link eMesh).awaited = 1 ∧ LinkEnd.isMesh eSys = false := by decide +kernel

/-- `busy` with the switch of its core changed. -/
def swC (f : Switch → Switch) : State := busyC (fun c => { c with sw := f c.sw })

theorem wit_transfer_send :
    let s := busyC (fun c => { c with sw := { c.sw with active := true, xc := 0x2000, set := 0 } })
    listAt (s.outList k0 .n) 0 = some (⟨false, 1, 32, 0x40⟩, 0) ∧ listAt (s.outList k0 .n) 1 = none ∧
    xcOut (s.core k0).sw.xc .n = 1 ∧ s.outReady k0 .n = true ∧ (s.core k0).badRow (wordsOf 0x40 32) = none ∧ (busy.core k0).sw.active = false ∧
    s.meshOn (dieOf k0) = true ∧ (s.core k0).sw.drains = 0 ∧ (s.core k0).sw.setWait = false ∧ s.hop k0 .n = .core 17 ∧
    ((s.modCore k0 (fun c => { c with poison := [(1, some 0)] })).core k0).badRow (wordsOf 0x40 32) = some 1 ∧
    (s.modDie 0 (fun d => { d with dark := true })).meshOn (dieOf k0) = false := by decide +kernel

theorem wit_transfer_send_edge :
    let p : Program := { prog1 with classes := [⟨[], 0, some ⟨none, [⟨0x0400, [[], [⟨true, 1, 0, 0⟩], [], []], [[], [], [], []]⟩]⟩, [], [], [], -1⟩] }
    let k := 15
    let s := ((busy.modPart 0 (fun q => { q with prog := some p })).modCore k (fun c =>
      { c with st := 3, cls := 0, sw := { c.sw with active := true, xc := 0x0400, set := 0 } })).setDlink 0 .e 0 0
    listAt (s.outList k .e) 0 = some (⟨true, 1, 0, 0⟩, 0) ∧ s.hop k .e = .edge 0 .e 0 ∧ xcOut (s.core k).sw.xc .e = 1 ∧
    s.outReady k .e = true ∧ s.meshOn (dieOf k) = true := by decide +kernel

theorem wit_transfer_receive :
    let s := swC (fun w => { w with wire := [(1, [5, 6])] })
    busy.hop k0 .e = .core 1 ∧ sget [] (busy.core k0).sw.wire 1 = [] ∧ (sget [] (s.core k0).sw.wire 1).head? = some 5 ∧
    (∀ q < 4, (0 : BitVec 4).getLsbD q = (((List.range 64).filter (fun i => (5 : BitVec 256).getLsbD (64 * q + i))).length % 2 == 1)) ∧
    ¬ (∀ q < 4, (1 : BitVec 4).getLsbD q = (((List.range 64).filter (fun i => (5 : BitVec 256).getLsbD (64 * q + i))).length % 2 == 1)) ∧
    s.meshOn (dieOf k0) = true ∧ (s.core k0).sw.active = false ∧ (s.core k0).sw.standing = false ∧
    (sget [] (s.core k0).sw.fifo 1).length < 8 ∧ (s.core k0).st = 3 ∧
    ((s.modCore k0 (fun c => { c with st := 7 })).core k0).st = 7 := by decide +kernel

/-- A switch whose east input feeds the local engine, with an input list of one transfer. -/
def hearing : State :=
  (busy.modPart 0 (fun q => { q with prog := some { prog1 with
    classes := [⟨[], 0, some ⟨none, [⟨0x0004, [[], [], [], []], [[], [⟨false, 1, 32, 0x40⟩], [], []]⟩]⟩, [], [], [], -1⟩] } })).modCore k0
    (fun c => { c with sw := { c.sw with active := true, xc := 0x0004, set := 0, wire := [(1, [5])] } })

theorem wit_transfer_delivered : (sget [] (hearing.core k0).sw.wire 1).head? = some 5 ∧ Dir.e ∉ (hearing.core k0).sw.dead ∧
    xcLocal (hearing.core k0).sw.xc .e = true ∧ xcBranches (hearing.core k0).sw.xc .e = [] ∧ hearing.inDone k0 .e = false ∧
    listAt (hearing.inList k0 .e) (sget 0 (hearing.core k0).sw.inTaken 1) = some (⟨false, 1, 32, 0x40⟩, 0) ∧
    entryAddr ⟨false, 1, 32, 0x40⟩ 0 + 32 ≤ 2 ^ 21 ∧ hearing.hop k0 .e = .core 1 ∧ hearing.cores.all (fun e => e.2.sw.fifo == []) = true := by
  decide +kernel

theorem wit_delivery_acknowledgement :
    let s := swC (fun w => { w with ackWire := [(0, 1)], xc := 0x2000 })
    let r : Route := ⟨.e, [.n]⟩
    let t := swC (fun w => { w with ackWire := [(0, 1)], routes := [r] })
    let u := swC (fun w => { w with ackWire := [(0, 1)], routes := [{ r with wait := [.n, .s] }] })
    sget 0 (busy.core k0).sw.ackWire 0 = 0 ∧ 0 < sget 0 (s.core k0).sw.ackWire 0 ∧ xcOut (s.core k0).sw.xc .n = 1 ∧
    xcOut (t.core k0).sw.xc .n ≠ 1 ∧ (t.core k0).sw.routes = [r] ∧ r.wait = [.n] ∧ t.hop k0 r.inp = .core 1 ∧
    (u.core k0).sw.routes = [{ r with wait := [.n, .s] }] ∧ [Dir.n, .s].erase .n ≠ [] := by decide +kernel

theorem wit_beat :
    let b : Beat := { fmask := 1, diebc := false, row := 0, wen := 0xFF, last := true, kind := 1, rmask := 0, data := 7, attr := 0, fromE := true, both := false }
    b.ok = true ∧ b.fmask = BitVec.ofNat 16 (2 ^ 0) ∧ ({ b with kind := 7 } : Beat).ok = false ∧ ({ b with kind := 2, wen := 0 } : Beat).ok = true ∧
    busy.siteFenced 0 = false ∧ (busy.core 0).st ≠ 7 ∧ (busy.core 0).rx = [] ∧ busy.meshOn 0 = true ∧ (busy.die 0).turnOf 0 b = true ∧
    (busy.die 0).turnOf 0 { b with both := true } = false ∧ (busy.die 0).turnOf 0 { b with both := true, fromE := false } = true ∧
    (0 ∈ ((busy.modDie 0 (fun d => { d with turnE := [0] })).die 0).turnE ∧ b.fromE = true) ∧
    ({ b with kind := 3 } : Beat).ok = true ∧ (busy.core 0).poison = [] ∧ (busy.core 0).spadUe = [] ∧ field b.attr.toNat 8 4 < 4 ∧
    ((busy.modCore 0 (fun c => { c with st := 7 })).core 0).st = 7 ∧ 0 + 0 * 17 + physFile (busy.coreHole 0 0) 0 = 0 := by
  decide +kernel

/-! ### Requests -/

/-- Placed-view address of slice 0, in the own panel's hall range. -/
def hbm0 : Nat := 2 ^ 61 + 0x40000000000
def spad0 : Nat := 2 ^ 61 + 0x80000000000

theorem wit_request_hbm : goodB 1 (pk 1 8 hbm0 []) = true ∧ goodB 2 (pk 2 8 hbm0 (List.replicate 64 1)) = true ∧
    goodB 3 (pk 3 8 hbm0 (List.replicate 64 1)) = true ∧ fab.packetPlace (pk 1 8 hbm0 []) = .hbm 0x40000000000 ∧
    fab.askerOf (pk 1 8 hbm0 []) = .core ∧ fab.mayUse .core (fab.requester (pk 1 8 hbm0 [])) 0 true = true ∧
    fab.granted (fab.requester (pk 1 8 hbm0 [])) 0 true = true ∧ fab.stackLost 0 = false ∧ 0 ∉ fab.rails.stacksOff ∧
    fab.writeHeld 0x40000000000 = false ∧ busy.granted (some 0) 0 false = false ∧
    ((fab.setReg (Reg.sstat 0) 0x40000000).stackLost 0) = true ∧
    ((fab.modSlice 0 (fun l => { l with cap := 1 })).writeHeld 0x40000000000) = true := by decide +kernel

theorem wit_request_bad : BitVec.ofNat 32 (ecrcOf { pk 1 8 hbm0 [] with ecrc := 0 }) ≠ ({ pk 1 8 hbm0 [] with ecrc := 0 } : Packet).ecrc ∧
    packetOk (pk 1 65 hbm0 []) = false ∧ packetOk (pk 1 8 (hbm0 + 4) []) = false ∧ packetOk (pk 1 64 (hbm0 + 0xE00) []) = true ∧
    packetOk (pk 1 64 (hbm0 + 0xE08) []) = false ∧ (fab.reg Reg.pkfErr).getLsbD 31 = false := by decide +kernel

theorem wit_request_order :
    let p := pk 1 8 hbm0 []
    let s : State := { fab with net := [pk 2 8 hbm0 (List.replicate 64 1), p] }
    s.overtakes p = true ∧ fab.overtakes p = false ∧ ({ fab with net := [p] } : State).overtakes p = false ∧
    packetOk (pk 0 0 0 []) = false ∧ BitVec.ofNat 32 (ecrcOf (pk 0 0 0 [])) = (pk 0 0 0 []).ecrc ∧ (pk 0 0 0 []).spanel.toNat < 4096 ∧
    4096 ≤ (pkWith (pk 1 65 hbm0 []) (fun p => { p with spanel := 4096 })).spanel.toNat := by decide +kernel

/-- Packets of the management controller and of an I/O die. -/
def mgmtPk (opc words addr : Nat) (pay : List Byte) : Packet := pkWith (pk opc words addr pay) (fun p => { p with sep := 0xD0 })
def ioPk (opc words addr : Nat) (pay : List Byte) : Packet := pkWith (pk opc words addr pay) (fun p => { p with sep := 0xC0 })

theorem wit_request_askers :
    let reg0 := 2 ^ 61 + 0xF0000000000
    let job0 := reg0 + Reg.nmjob 0
    let one := List.replicate 64 (0 : Byte)
    goodB 1 (mgmtPk 1 1 reg0 []) = true ∧ goodB 2 (mgmtPk 2 1 reg0 one) = true ∧ wordsField (mgmtPk 2 1 reg0 one) = 1 ∧
    fab.packetPlace (mgmtPk 1 1 reg0 []) = .reg 0 ∧ fab.askerOf (mgmtPk 1 1 reg0 []) = .mgmt ∧
    (mgmtPk 1 1 reg0 []).spanel.toNat = fab.ownId ∧ fab.packetPlace (mgmtPk 2 8 job0 one) = .job 0 0 ∧ goodB 2 (mgmtPk 2 8 job0 one) = true ∧
    fab.askerOf (ioPk 1 8 hbm0 []) = .other ∧ goodB 1 (ioPk 1 8 hbm0 []) = true ∧
    goodB 2 (pk 2 8 job0 one) = true ∧ fab.packetPlace (pk 2 8 (job0 + 8) one) = .job 0 8 ∧ goodB 2 (pk 2 8 (job0 + 8) one) = true ∧
    wordsField (pk 2 8 job0 one) = 8 ∧ (pk 2 8 job0 one).sep.toNat < 0x90 := by decide +kernel

theorem wit_request_places : fab.packetPlace (pk 1 8 spad0 []) = .spad 0 0 ∧ fab.packetPlace (pk 1 8 (spad0 + 272 * 2 ^ 21) []) = .bad ∧
    fab.packetPlace (pk 1 8 (2 ^ 61) []) = .beyond ∧ fab.packetPlace (pk 1 8 (2 ^ 61 + 0xE0000000000) []) = .ctx 0 ∧
    fab.packetPlace (pk 1 8 (2 ^ 61 + 0xE0000100000) []) = .census 0 0 ∧ fab.packetPlace (pk 1 8 (2 ^ 61 + 0xF0000000000) []) = .reg 0 ∧
    fab.packetPlace (pk 2 8 (2 ^ 61 + 0xF0000000000 + Reg.nmjob 0) (List.replicate 64 0)) = .job 0 0 ∧
    fab.spadRefused .core (some 0) k0 (.read 64) = none ∧ (fab.core k0).badRow (wordsOf 0 64) = none ∧ fab.siteFenced k0 = false ∧ fab.retained k0 = false ∧
    (fab.setRegF (Reg.pwrReg 0) 28 4 5).retained k0 = true ∧ (fab.fenceSite 0 0).siteFenced k0 = true ∧
    (fab.core k0).rx = [] ∧ ((fab.modCore k0 (fun c => { c with poison := [(0, some 0)] })).core k0).badRow (wordsOf 0 64) ≠ none := by
  decide +kernel

theorem wit_request_context :
    let s := fab.setReg (Reg.pctx 0) 0x00010000
    s.ctxAllowed (some 0) 0 64 = true ∧ s.ctxAllowed (some 0) 64 8 = false ∧ goodB 1 (pk 1 8 (2 ^ 61 + 0xE0000000000) []) = true := by
  decide +kernel

theorem wit_request_poison :
    let s : State := { fab with hbm := { fab.hbm with poison := [2 ^ 36] } }
    (∃ x ∈ unitsOf 0x40000000000 64, x ∈ s.hbm.poison) ∧ ∀ x ∈ unitsOf 0x40000000000 64, fab.hbm.ueAt x = false ∧ fab.hbm.missAt x = false ∧ x ∉ fab.hbm.poison := by
  refine ⟨⟨2 ^ 36, ?_, ?_⟩, ?_⟩ <;> decide +kernel

theorem wit_broadcast :
    let p := pkWith (pk 2 8 (2 ^ 40 + 2 ^ 24) (List.replicate 64 1)) (fun p => { p with bcast := true, cls := 3, sep := 0xD0 })
    goodB 2 p = true ∧ bcastOk p = true ∧ bcastOk (pkWith p (fun p => { p with cls := 0 })) = false ∧ p.addr.toNat.testBit 40 = true ∧
    p.addr.toNat.testBit 24 = true ∧ ((fab.modCore 0 (fun c => { c with st := 7 })).core 0).st = 7 ∧ (fab.core 0).st ≠ 7 ∧
    fab.siteFenced 0 = false ∧ fab.retained 0 = false ∧ (fab.modCore 0 (fun c => { c with st := 7 })).retained 0 = true := by decide +kernel

/-! ### Answers and streams -/

theorem wit_answers : goodB 5 (pkWith (pk 5 8 0 (List.replicate 64 9)) (fun p => { p with tag := 5 })) = true ∧
    goodB 6 (pkWith (pk 6 0 0 []) (fun p => { p with tag := 5 })) = true ∧ goodB 7 (pkWith (pk 7 8 0 []) (fun p => { p with tag := 5 })) = true ∧
    goodB 0xC (pk 0xC 8 0 (List.replicate 64 9)) = true ∧ goodB 5 (pkWith (pk 5 8 0 (List.replicate 64 9)) (fun p => { p with sep := 0xD0 })) = true ∧
    (asking.core k0).st = 3 := by decide +kernel

/-- `fab` with port 0 up as the one route to panel 1, and its streams open. -/
def hall : State :=
  (((fab.setReg (Reg.sylPort 0) 0x20000000).setReg (Reg.sylPortCfg 0) 0x80000000).setReg (Reg.sylRoute 1) 0x80000020).modStream 1 0
    (fun x => { x with opened := true, expect := 3 })

theorem wit_one_port : OnePort hall 1 0 := by
  unfold OnePort
  decide +kernel

/-- First flits of acknowledgements of panel 1: for this panel, at ESEQ 0 and 3, for panel 2, and an OPEN. -/
def ack0 : BitVec 288 := 395515511598557736468360819057936508129658980088232428124824640929585576295406160052320#288
def ack3 : BitVec 288 := 307731161024053693552732098771409788082964804577961410581321859534938242988830911103072#288
def ackOn : BitVec 288 := 402739811509303764845460677421181263133060877686615147898807506694154484241356472582240#288
def open1 : BitVec 288 := 272732766779406269890405085746531969311902397428400663233849502149567243268997693571216#288

theorem wit_stream_flit : flitOk ack0 = true ∧ flitOk ack3 = true ∧ flitOk ackOn = true ∧ flitOk open1 = true := by decide +kernel

theorem wit_stream_start : [ack0, ack3, ackOn, open1].all (fun f =>
    flitType eSys f == 1 && flitByte f 32 == 0 && bit (flitByte f 33) 3 && leAt (leBytes 32 (flitData f).toNat) 4 2 == 1 &&
      leAt (leBytes 32 (flitData f).toNat) 1 1 == 0) = true := by decide +kernel

theorem wit_stream_packet : (parsePacket (leBytes 32 (flitData ack3).toNat)).eseq = 3 ∧ (parsePacket (leBytes 32 (flitData ack0).toNat)).eseq = 0 ∧
    (parsePacket (leBytes 32 (flitData ackOn).toNat)).dpanel = 2 ∧ (parsePacket (leBytes 32 (flitData open1).toNat)).opc = 9 ∧
    (hall.stream 1 0).opened = true ∧ (hall.stream 1 0).expect = 3 ∧ (hall.stream 1 0).buf = [] ∧ (hall.stream 1 0).sinceAck = 0 ∧
    2048 ≤ (0 + 2 ^ 32 - 3) % 2 ^ 32 ∧ (hall.stream 2 0).opened = false ∧ hall.ownId = 0 := by decide +kernel

theorem wit_control : (∀ o ∈ [8, 9, 0xA, 0xB], goodB o (pkWith (pk o.toNat 0 0 []) (fun p => { p with spanel := 1 })) = true ∧
      (let p := { pkWith (pk o.toNat 0 0 []) (fun p => { p with spanel := 1 }) with ecrc := 0 }
       BitVec.ofNat 32 (ecrcOf p) ≠ p.ecrc) ∧
      (let p := pkWith (pk o.toNat 4 0 []) (fun p => { p with spanel := 1 })
       BitVec.ofNat 32 (ecrcOf p) = p.ecrc ∧ packetOk p = false ∧ p.spanel.toNat < 4096)) ∧
    (∀ c < 4, (hall.stream 1 c).waiting = []) ∧
    ((hall.modStream 1 0 (fun x => { x with opening := true })).stream 1 0).opening = true ∧ (hall.stream 1 0).opening = false := by decide +kernel

theorem wit_timeouts :
    let s := hall.modStream 1 0 (fun x => { x with una := [(pk 1 8 0 [], 0)] })
    (s.stream 1 0).una ≠ [] ∧ (hall.stream 1 0).una = [] ∧
    (((s.setReg Reg.pkfE2e 0x00200000).stream 1 0).timeouts + 1 < max 1 ((s.setReg Reg.pkfE2e 0x00200000).regF Reg.pkfE2e 20 4)) ∧
    max 1 ((s.setReg Reg.pkfE2e 0).regF Reg.pkfE2e 20 4) ≤ ((s.setReg Reg.pkfE2e 0).stream 1 0).timeouts + 1 := by decide +kernel

theorem wit_escape :
    let p := pkWith (pk 1 8 0 []) (fun p => { p with dpanel := 1 })
    let s := (hall.setReg (Reg.sylRoute 1) 0x83000020).modLink (.sys 0) (fun l => { l with held := [p] })
    p ∈ (s.link (.sys 0)).held ∧ p.esc = false ∧ s.regF (Reg.sylRoute p.dpanel.toNat) 24 5 = 3 ∧ p ∉ (hall.link (.sys 0)).held := by decide +kernel

end Sys2Proof.Tests
end

