-- ==== Sys2Proof/Tests/WitnessTempo.lean ====
section
/-! SUPPORT. For each statement about the store, fabric failures, near memory and the tempo network that has hypotheses, states and
operands that meet them, clause by clause. -/
namespace Sys2Proof.Tests

set_option Elab.async false

open Sys2Proof.Machine Sys2Proof.Claims

/-! ### The store -/

/-- The header record of generation 7: one core record byte total of 64, no pages, no program. -/
def hdr7 : List Byte := leBytes 4 7 ++ List.replicate 12 0 ++ leBytes 8 64 ++ leBytes 4 0 ++ leBytes 4 0

/-- A store packet of panel 1. -/
def sp (opc attr addr : Nat) (pay : List Byte) : Packet := pkWith (pk opc attr addr pay) (fun p => { p with spanel := 1 })

/-- A panel that offers 48 GiB, and holds an open generation 7 and complete generations 5 and 6. -/
def storing : State :=
  (fab.setReg Reg.pstore 1).modStore (storeKey (sp 0xF 1 0 (hdr7 ++ List.replicate 32 0))) (fun x =>
    { x with gens := [⟨7, hdr7, [], [], 0, 64, 0, 0, false⟩, ⟨6, hdr7, [], [], 0, 64, 0, 0, true⟩, ⟨5, hdr7, [], [], 0, 64, 0, 0, true⟩] })

def ctlPk (fn : Nat) : Packet := sp 0xF fn 0 (hdr7 ++ List.replicate 32 0)

theorem wit_store_control : (∀ fn ∈ [1, 2, 3, 4], goodB 0xF (ctlPk fn) = true ∧ (ctlPk fn).attr.toNat % 16 = fn) ∧
    storing.regF Reg.pstore 0 7 ≠ 0 ∧ fab.regF Reg.pstore 0 7 = 0 ∧ storing.storeRoom 64 = true ∧
    storeKey (ctlPk 2) = storeKey (ctlPk 1) := by decide +kernel

theorem wit_store_totals :
    ((storing.store (storeKey (ctlPk 1))).gens.find? (fun g => !g.complete && g.gen == 7)).map (fun g => (g.core, g.prog, g.delta)) = some (64, 0, 0) ∧
    (fab.store (storeKey (ctlPk 1))).gens = [] ∧ ((storing.store (storeKey (ctlPk 1))).gens.filter (fun g => g.complete)).length = 2 := by
  decide +kernel

theorem wit_store_put : goodB 0xD (sp 0xD 8 (2 ^ 60 + 7 * 2 ^ 56) (List.replicate 64 3)) = true ∧
    goodB 0xE (sp 0xE 8 (2 ^ 60 + 6 * 2 ^ 56) []) = true ∧ leNat ((hdr7.drop 16).take 8) = 64 ∧
    ((storing.store (storeKey (sp 0xD 8 0 (List.replicate 64 3)))).gens.filter (fun x => x = ⟨7, hdr7, [], [], 0, 64, 0, 0, false⟩)).length = 1 := by
  decide +kernel

/-! ### Fabric failures -/

theorem wit_pairs :
    let s := fab.setPair 0 1 3 0xFF
    fab.plinkState 0 1 < 2 ∧ s.detourTile 0 1 = some 2 ∧ 2 ≤ s.plinkState 0 1 ∧
    ((fab.setReg (Reg.sylPort 0) 0x10000000).regF (Reg.sylPort 0) 28 4 = 1) ∧ fab.regF (Reg.sylPort 0) 28 4 = 0 ∧
    ((fab.modLink (.photon 0 1) (fun l => { l with stopped := true })).link (.photon 0 1)).stopped = true := by decide +kernel

theorem wit_no_detour :
    let s := (List.range 12).foldl (fun t c => t.setPair 0 c 3 0xFF) fab
    s.detourTile 0 1 = none := by decide +kernel

theorem wit_handover :
    let s := (((fab.setPair 0 1 2 2).modLink (.photon 0 1) (fun l => { l with stopped := true })).modLink (.photon 0 2) (fun l => { l with stopped := true }))
    s.plinkState 0 1 = 2 ∧ (s.link (.photon 0 1)).stopped = true ∧ s.regF (Reg.plink 0 1) 8 8 = 2 ∧
    (s.link (.photon 0 1)).replay = ([] : List Packet).flatMap (fun p => packetFlits p 0) ∧ (s.link (.photon 0 1)).held = [] ∧
    (s.link (.photon 0 1)).sendSeq = 0 ∧ (s.link (.photon 0 2)).stopped = true ∧ fab.plinkState 0 1 ≠ 2 := by decide +kernel

/-! ### Near memory -/

/-- An exchange of one 8-byte element: index, source and output in slice 0, table in slice 0 of stack 0. -/
def job : List Byte :=
  leBytes 2 1 ++ [0x18, 0x40] ++ leBytes 4 1 ++ leBytes 8 0x40000000000 ++ leBytes 8 (hbm0 + 0x1000) ++ leBytes 8 (hbm0 + 0x2000) ++
    leBytes 8 (hbm0 + 0x3000) ++ leBytes 4 8 ++ leBytes 4 4 ++ List.replicate 16 0

def jobPk : Packet := pk 2 8 (2 ^ 61 + 0xF0000000000 + Reg.nmjob 0) job

theorem wit_job : fab.jobCheck 0 (some 0) job = none ∧ JobRec.op job = 4 ∧ JobRec.count job = 1 ∧ JobRec.atype job = 1 ∧ JobRec.isz job = 8 ∧
    fab.place (some 0) (JobRec.idx job) = .hbm 0x40000001000 ∧ fab.place (some 0) (JobRec.src job) = .hbm 0x40000002000 ∧
    fab.place (some 0) (JobRec.dst job) = .hbm 0x40000003000 ∧ leNat (rdN fab.mem 0x40000001000 8) = 0 ∧ 0 < JobRec.limit job ∧
    fab.place (some 0) (jobRow job 0) = .hbm 0x40000000000 ∧ fab.requester jobPk = some 0 ∧ bytesAt jobPk.payload 0 64 = job := by decide +kernel

theorem wit_job_places : ∀ a ∈ [0x40000001000, 0x40000002000, 0x40000003000, 0x40000000000], a % 8 = 0 ∧ fab.granted (some 0) (sliceOf a) true = true ∧
    fab.stackLost (stackOf a) = false ∧ stackOf a ∉ fab.rails.stacksOff ∧ fab.writeHeld a = false ∧ fab.hbm.ueAt (a / 64) = false ∧
    fab.hbm.missAt (a / 64) = false ∧ a / 64 ∉ fab.hbm.poison := by
  decide +kernel

theorem wit_job_targets : (0x40000003000 : Nat) ≠ 0x40000000000 ∧ (JobRec.count job ≤ 1) ∧ bytesAt jobPk.payload 0 64 = job ∧
    goodB 2 jobPk = true ∧ goodB 0xF (sp 0xF 5 0 (hdr7 ++ List.replicate 32 0)) = false := by decide +kernel

theorem wit_job_queue :
    let s := fab.modStack 0 (fun k => { k with queue := [⟨jobPk, 0⟩], running := [⟨jobPk, 1⟩] })
    (s.stack 0).queue.length = 1 ∧ (s.stack 0).running.length < 8 ∧ (fab.stack 0).queue = [] ∧ (fab.stack 0).running = [] ∧
    fab.jobCheck 0 (some 0) (List.replicate 64 0) = some 1 ∧ (fab.reg Reg.nmerr).getLsbD 31 = false := by decide +kernel

/-! ### Arrivals and releases -/

/-- The arrival of core 0 at group 0, and at group 5. -/
def arrive0 : TempoMsg := fab.tempoMsg 0 0 1 0 0 false false 0
def arrive5 : TempoMsg := fab.tempoMsg 0 5 1 0 0 false false 0

/-- Core 0 holds an arrival at group 0. -/
def held : State := fab.modCore k0 (fun c => { c with arrHeld := [⟨0, 9, false, 0⟩], arrOut := 1, st := 4 })

theorem wit_arrive : arrive0.ok = true ∧ arrive0.ty = 1 ∧ held.partOfMsg arrive0 = some 0 ∧ (held.part 0).st = 1 ∧ dieOf k0 = 0 ∧
    held.partOfCore k0 = some 0 ∧ (held.die 0).dark = false ∧ (held.die 0).stopped = false ∧ (held.tnode k0).unacked = [] ∧
    held.nextSeq k0 (keyDie 0) 0 = 0 ∧ held.hasActed (keyDie 0) k0 arrive0 = false ∧ held.nodeDown (TNode.die 0).key = false ∧
    ((held.modDie 0 (fun d => { d with dark := true })).nodeDown (TNode.die 0).key = true) ∧ sget 0 (held.tnode (keyDie 0)).ports 1 = 0 ∧
    held.sentMsg (keyDie 0) (keyTile 0) arrive0 = none ∧ held.parentOf 0 (keyDie 0) = some (keyTile 0) ∧ 0 ∉ (held.combOf 0 0 (keyDie 0)).arrived ∧ held.canSend k0 ⟨0, 9, false, 0⟩ = true ∧
    sget 0 (held.tnode (keyDie 0)).ports 0 = 0 ∧ State.reset.partOfMsg arrive0 = none := by decide +kernel

theorem wit_awaited : (∃ e ∈ held.expected 0 0 (keyDie 0), e ≠ 0 ∧ held.hasArrival 0 0 (keyDie 0) e = false) ∧
    0 ∈ held.expected 0 0 (keyDie 0) := by
  refine ⟨⟨1, ?_⟩, ?_⟩ <;> decide +kernel

/-- Every other core of die 0 has arrived at its hub. -/
def nearlyFull : State :=
  held.modNode (keyDie 0) (fun t => { t with comb := [(0, ⟨(held.expected 0 0 (keyDie 0)).filter (· != 0), true, 3, 0⟩)] })

theorem wit_last_arrival : ¬ ∃ e ∈ nearlyFull.expected 0 0 (keyDie 0), e ≠ 0 ∧ nearlyFull.hasArrival 0 0 (keyDie 0) e = false := by
  decide +kernel

/-- Every die of the partition's tiles has arrived at its tile hub, and two tiles at the panel hub. -/
def panelNearlyFull : State :=
  let full (n : Nat) (l : List Nat) (t : State) : State := t.modNode n (fun x => { x with comb := [(0, ⟨l, true, 3, 0⟩)] })
  (full keyPanel [keyTile 1, keyTile 2] (full (keyTile 0) ((diesOfTile 0).map keyDie) held)).modNode (keyTile 0) (fun t =>
    { t with unacked := [⟨keyPanel, arrive0, 0⟩] })

theorem wit_panel_release : panelNearlyFull.expected 0 0 keyPanel = [keyTile 0, keyTile 1, keyTile 2] ∧
    (panelNearlyFull.sentMsg (keyTile 0) keyPanel arrive0).isSome = true ∧
    panelNearlyFull.hasActed keyPanel (keyTile 0) arrive0 = false ∧ panelNearlyFull.releasePending 0 = none ∧
    ((panelNearlyFull.noteActed keyPanel (keyTile 0) arrive0).hasActed keyPanel (keyTile 0) arrive0 = true) ∧ keyTile 0 ∉ (panelNearlyFull.combOf 0 0 keyPanel).arrived ∧
    (panelNearlyFull.part 0).parent = none ∧ (panelNearlyFull.part 0).haltPend = none ∧ (panelNearlyFull.part 0).move ≠ 0xFFFFFFFFFFFF ∧
    (panelNearlyFull.part 0).castling = none := by decide +kernel

/-- The hub of die 0 has issued the release of group 0 to core 0. -/
def issuing : State :=
  held.modNode (keyDie 0) (fun t => { t with unacked := [⟨0, { fab.tempoMsg 0 0 2 9 100 false false 3 with seq := 4 }, 0⟩] })

def release0 : TempoMsg := { fab.tempoMsg 0 0 2 9 100 false false 3 with seq := 4 }

theorem wit_release : release0.ok = true ∧ release0.ty = 2 ∧ issuing.partOfMsg release0 = some 0 ∧ issuing.parentOf 0 0 = some (keyDie 0) ∧
    keyDie 0 < 40000 ∧ ((issuing.tnode (keyDie 0)).unacked.find? (fun u => u.peer == 0 && u.msg.ty == 2 && u.msg.group == 0 && u.msg.seq == 4)).isSome = true ∧
    (held.tnode (keyDie 0)).unacked = [] ∧ issuing.hasActed 0 (keyDie 0) release0 = false ∧ issuing.nodeDown 0 = false ∧
    ((issuing.noteActed 0 (keyDie 0) release0).hasActed 0 (keyDie 0) release0 = true) ∧ release0.lvl = 3 ∧ release0.late = false ∧
    (issuing.core 0).rx = [] ∧ issuing.releasePending 0 = none ∧
    (issuing.sentMsg (keyDie 0) 0 release0).map (fun u => u.resends) = some 0 := by decide +kernel

theorem wit_release_late :
    let s := held.modNode (keyDie 0) (fun t => { t with unacked := [⟨0, { release0 with late := true }, 1⟩] })
    (s.sentMsg (keyDie 0) 0 release0).map (fun u => (u.msg.late, u.resends)) = some (true, 1) := by decide +kernel

theorem wit_instant :
    let s := (held.setRegF (Reg.pwrReg 0) 28 4 2).modNode 0 (fun t => { t with sched := [(0, ⟨9, false, false, 0, 0, false, false⟩), (5, ⟨9, false, false, 0, 0, false, false⟩)] })
    (s.tnode 0).sched.find? (fun e => e.1 == pgKey 0 0) = some (pgKey 0 0, ⟨9, false, false, 0, 0, false, false⟩) ∧
    (s.tnode 0).sched.find? (fun e => e.1 == pgKey 0 5) = some (pgKey 0 5, ⟨9, false, false, 0, 0, false, false⟩) ∧ (s.core k0).st = 4 ∧ s.clocked k0 = true ∧
    (s.part 0).launch = none ∧ (s.classOf k0).isSome = true ∧ (held.tnode 0).sched = [] ∧ (s.part 0).opens 0 = false ∧
    (s.core k0).rx = [] ∧ s.releasePending 0 = none ∧ s.nodeDown 0 = false ∧ (s.part 0).st ≠ 3 := by decide +kernel

theorem wit_instant_panel :
    let s := held.modNode keyPanel (fun t => { t with sched := [(0, ⟨9, false, false, 0, 0, false, true⟩)] })
    (s.tnode keyPanel).sched.find? (fun e => e.1 == pgKey 0 0) = some (pgKey 0 0, ⟨9, false, false, 0, 0, false, true⟩) ∧
    (s.combOf 0 0 keyPanel).arrived = [] ∧ (s.part 0).recov = none ∧ s.gambits = [] := by decide +kernel

/-- A launch whose first release ends move 0. -/
def launch0 : Launch :=
  { ring := 1, seq := 0, seed := 5, scrub := false, resLen := 0, resCore := 0, resOff := 0, resAddr := 0, first := 0, base := none
    begun := false, closing := false, status := 0, recovered := false, block := [], value := 0, endMove := 0, endOvf := false }

theorem wit_instant_opens :
    let s := held.modPart 0 (fun q => { q with launch := some launch0 })
    (s.part 0).opens 0 = true ∧ (s.core k0).st ≠ 0 ∧ (s.part 0).st ≠ 3 ∧ (s.classOf k0).isSome = true := by decide +kernel

theorem wit_resend :
    let un := (issuing.tnode (keyDie 0)).unacked
    (un.filter (fun u => u.peer == (TNode.core 0).key && u.msg.group == 0 && u.msg.seq == 4)).length = 1 ∧
    un.find? (fun u => u.peer == (TNode.core 0).key && u.msg.group == 0 && u.msg.seq == 5) = none ∧
    ({ release0 with ty := 4 } : TempoMsg).ty = 4 ∧ issuing.partOfMsg release0 = some 0 ∧ issuing.nodeDown (keyDie 0) = false ∧
    (issuing.tnode 0).out = [] ∧
    (let s := issuing.modNode 0 (fun t => { t with out := [(keyDie 0, { release0 with ty := 4 })] })
     ∃ e ∈ (s.tnode 0).out, e.1 = keyDie 0 ∧ e.2.ty = 4 ∧ e.2.group = release0.group ∧ e.2.seq = release0.seq) := by decide +kernel

theorem wit_resend_last :
    let s := held.modNode (keyDie 0) (fun t => { t with unacked := [⟨0, release0, 8⟩] })
    ((s.tnode (keyDie 0)).unacked.filter (fun u => u.peer == (TNode.core 0).key && u.msg.group == 0 && u.msg.seq == 4)).map (fun u => u.resends) = [8] := by
  decide +kernel

theorem wit_slots : (fab.link (.sys 0)).rxSlot % 64 ≠ 63 ∧
    ((fab.modLink (.sys 0) (fun l => { l with rxSlot := 63, wrong := 1 })).link (.sys 0)).rxSlot % 64 = 63 ∧ flitOk (mkFlit 7 0 5) = true ∧
    flitByte (mkFlit 7 0 5) 33 % 8 = 5 ∧ flitOk (mkFlit 7 0 1) = true ∧ flitByte (mkFlit 7 0 1) 33 % 8 ≠ 5 ∧ flitOk 0 = false ∧
    ∀ ty ∈ [1, 2, 4, 5, 9], (slotMsg (mkFlit ty 0 5) true).ty.toNat < 16 := by decide +kernel

/-- Partition 0 is a member whose parent is panel 1, by ports 0 and 1, with a child panel 2 by ports 2 and 3. -/
def member : State := fab.modPart 0 (fun q => { q with parent := some 1, upPorts := (0, 1), children := [(2, 2, 3)] })

theorem wit_lane : member.pathPeer 0 0 = some 1 ∧ member.pathPeer 0 2 = some 2 ∧ member.pathPeer 0 5 = none ∧
    member.repeatPorts arrive0 0 = [] ∧ member.partOfMsg arrive0 = some 0 ∧ (member.part 0).parent = some 1 ∧
    member.hasActed keyPanel (keyRemote 1) arrive0 = false := by decide +kernel

theorem wit_repeat :
    let s := fab.modPart 1 (fun q => { q with repeats := [BitVec.ofNat 32 (7 * 2 ^ 16 + 1 * 2 ^ 5)] })
    s.repeatPorts { arrive0 with tree := 7 } 0 = [1] ∧ s.partOfMsg { arrive0 with tree := 7 } = none ∧
    (fab.link (.sys 0)).failed = false ∧ (fab.link (.sys 0)).stopped = false ∧
    ((fab.modLink (.sys 0) (fun l => { l with failed := true })).link (.sys 0)).failed = true := by decide +kernel

theorem wit_echo : TNode.panel ≠ TNode.remote 1 ∧ ({ release0 with ty := 5 } : TempoMsg).ok = true ∧
    sget 0 (fab.tnode keyPanel).ports ((TNode.remote 1).key * 2) = 0 ∧
    sget 0 ((fab.modNode keyPanel (fun t => { t with ports := [((TNode.remote 1).key * 2, 500)] })).tnode keyPanel).ports ((TNode.remote 1).key * 2) ≠ 0 ∧
    (1 ≤ (6 : BitVec 6).toNat ∧ (6 : BitVec 6).toNat ≤ 6) ∧ fab.nodeDown (TNode.panel).key = false ∧
    ((fab.modDie 0 (fun d => { d with dark := true })).nodeDown (TNode.die 0).key = true) := by decide +kernel

theorem wit_recal : (∃ e ∈ fab.parts, e.2.height ≠ 0 ∧ (e.2.st = 1 ∨ e.2.st = 5)) ∧
    (∀ e ∈ fab.parts, e.2.height = 0 ∨ e.2.st = 1 ∨ e.2.st = 5) ∧
    ∃ e ∈ (fab.modPart 0 (fun q => { q with st := 0 })).parts, e.2.height ≠ 0 ∧ ¬ (e.2.st = 1 ∨ e.2.st = 5) := by decide +kernel

/-! ### Halts -/

theorem wit_detector : (fab.part 0).parent = none ∧ (member.part 0).parent ≠ none ∧ (fab.part 0).children = [] ∧
    max (fab.regF (Reg.pstale 0) 0 24) (((fab.part 0).prog.map (·.stale)).getD 0) ≤ 60000 ∧
    0 < max (fab.regF (Reg.pstale 0) 0 24) (((fab.part 0).prog.map (·.stale)).getD 0) ∧ (fab.die 0).stopped = false ∧ (fab.part 0).st = 1 ∧ (fab.part 0).haltPend = none ∧ (State.reset.part 0).st ≠ 1 ∧ (State.reset.part 0).st ≠ 5 ∧
    (fab.part 0).height ≠ 0 ∧ (fab.part 1).height = 0 ∧ (fab.die 0).dark = false ∧
    ((fab.modDie 0 (fun d => { d with dark := true })).die 0).dark = true := by decide +kernel

theorem wit_census :
    let s := fab.modPart 0 (fun q => { q with census := some ⟨censusBase 0, [3], [], 0, [], 0⟩ })
    (s.part 0).census = some ⟨censusBase 0, [3], [], 0, [], 0⟩ ∧ (fab.part 0).census = none ∧ ([3] : List Nat).erase 3 = [] ∧ 3 ∈ [3] ∧
    (((member.modPart 0 (fun q => { q with census := some ⟨censusBase 0, [], [2], 0, [], 0⟩ })).part 0).census).map (fun c => c.panels) = some [2] ∧
    fab.ownId = 0 := by decide +kernel

theorem wit_halt :
    ((fab.modPart 0 (fun q => { q with haltPend := some (.stop, .host) })).part 0).haltPend.map (·.1) = some .stop ∧
    ((fab.modPart 0 (fun q => { q with haltPend := some (.abort, .host) })).part 0).haltPend = some (.abort, .host) ∧ (fab.part 0).positions = [] ∧
    fab.coolForReplay 0 = true ∧ fab.releasePending 0 = none ∧ (member.part 0).haltRoot = false ∧
    ((member.modPart 0 (fun q => { q with haltRoot := true })).part 0).haltRoot = true ∧ ((fab.modPart 0 (fun q => { q with st := 4 })).part 0).st = 4 ∧
    0 ∈ (fab.part 0).sites ∧ (fab.core 0).st = 3 ∧ (held.core 0).st = 4 ∧ ((fab.modPart 0 (fun q => { q with st := 2 })).part 0).st = 2 := by decide +kernel

end Sys2Proof.Tests
end

