-- ==== Sys2Proof/Tests/WitnessHost.lean ====
section
/-! SUPPORT. For each statement about the host interface, its commands, partitions, licences, firmware, defects and gambits that has
hypotheses, states and operands that meet them, clause by clause. -/
namespace Sys2Proof.Tests

set_option Elab.async false

open Sys2Proof.Machine Sys2Proof.Claims

/-- `fab` with the host interface enabled, panel 0 listed, its doorbell pages placed, and rings 0 and 1. -/
def hosted : State :=
  ((((fab.setReg Reg.hifCtl 0x80000000).setReg (Reg.dmember 0) 0x80000000).setReg Reg.dbp0Lo 0x30000).modRing 0
    (fun g => { g with live := true, log2 := 4, sq := 0x10000, cq := 0x20000 })).modRing 1
    (fun g => { g with live := true, log2 := 4, sq := 0x60000, cq := 0x70000 })

/-- A descriptor (Table 12-5): opcode, flags, TARGET, and operands from offset 8. -/
def dsc (op flags target : Nat) (rest : List Byte) : List Byte :=
  bytesAt ([BitVec.ofNat 8 op, BitVec.ofNat 8 flags] ++ leBytes 2 target ++ leBytes 4 0 ++ rest) 0 64

/-- A fetched command that has not started. -/
def fresh (d : List Byte) : Cmd := ⟨0, d, false, false, 0, [], none⟩

/-- A state whose ring holds one command. -/
def withCmd (s : State) (r : Nat) (c : Cmd) : State := s.modRing r (fun g => { g with cmds := [c] })

def ref (r : Fin 1024) : Ref := ⟨r, 0⟩

/-- The conditions of Starts as one test. -/
def startsB (s : State) (op : Nat) (r : Ref) (c : Cmd) : Bool :=
  decide (s.cmd r = some c) && c.op == op && !c.started && s.mayStart r.ring.val c && ringAccepts r.ring.val op &&
    leAt c.desc 1 1 / 16 == 0 && s.listed c.panel && c.panel == s.ownId

theorem starts_of {s : State} {op : Nat} {r : Ref} {c : Cmd} (h : startsB s op r c = true) : Starts s op r c := by
  simp only [startsB, Bool.and_eq_true, decide_eq_true_eq, beq_iff_eq, Bool.not_eq_true'] at h
  obtain ⟨⟨⟨⟨⟨⟨⟨h1, h2⟩, h3⟩, h4⟩, h5⟩, h6⟩, h7⟩, h8⟩ := h
  exact ⟨h1, h2, h3, h4, h5, h6, h7, h8⟩

/-! ### Rings -/

/-- The host has stored a tail of `a` and a head of `b` in ring 1's doorbell word. -/
def rung (a b : Nat) : State := { hosted with hostMem := wrN hosted.hostMem (0x30008) (leBytes 4 a ++ leBytes 4 b) }

theorem wit_doorbell : hosted.hifOn = true ∧ hosted.host.down = false ∧ (hosted.ring 1).live = true ∧ rdLe (rung 16 0).hostMem ((rung 16 0).doorbellAddr 1) 8 = 16 ∧
    rdLe (rung 17 0).hostMem ((rung 17 0).doorbellAddr 1) 8 = 17 ∧ rdLe (rung 0 1).hostMem ((rung 0 1).doorbellAddr 1) 8 = 2 ^ 32 ∧
    rdLe hosted.hostMem (hosted.doorbellAddr 1) 8 = 0 ∧ (hosted.ring 1).posted = 0 ∧ (hosted.ring 1).log2 = 4 ∧ (hosted.ring 1).halted = false ∧
    (hosted.ring 1).fetched = (hosted.ring 1).sqt ∧ State.reset.hifOn = false := by decide +kernel

/-- A tail behind the one that was read before: 4 where 5 was. -/
theorem wit_doorbell_back :
    let s := (rung 4 0).modRing 1 (fun g => { g with sqt := 5, fetched := 5 })
    rdLe s.hostMem (s.doorbellAddr 1) 8 = 4 ∧ (s.ring 1).sqt = 5 ∧ (s.ring 1).fetched = 5 ∧ (s.ring 1).posted = 0 ∧ (s.ring 1).log2 = 4 ∧
    (s.ring 1).halted = false ∧ (s.ring 1).live = true := by decide +kernel

/-- Ring 0's word is out of bounds, not noted before and noted. -/
theorem wit_doorbell_admin :
    let s : State := { hosted with hostMem := wrN hosted.hostMem 0x30000 (leBytes 4 17) }
    rdLe s.hostMem (s.doorbellAddr 0) 8 = 17 ∧ (s.ring 0).log2 = 4 ∧ BitVec.ofNat 64 17 ∉ (s.ring 0).badWords ∧
    BitVec.ofNat 64 17 ∈ ((s.modRing 0 (fun g => { g with badWords := [17] })).ring 0).badWords := by decide +kernel

theorem wit_poll : hosted.host.evh = rdLe hosted.hostMem (hosted.pair Reg.evhdLo) 8 ∧ (∀ e ∈ hosted.rings, (hosted.ring e.1).live = true ∧ e.2.cmds = []) ∧
    (fab.modRing 1 (fun g => { g with live := true, log2 := 4 })).rings.length = 1 := by decide +kernel

theorem wit_post :
    let done : Cmd := { fresh (dsc 0 8 0 []) with started := true, fin := some (0, 0, []) }
    let s := withCmd hosted 1 done
    (s.ring 1).cmds = [done] ∧ (done.seq + 2 ^ 32 - (s.ring 1).cqh) % 2 ^ 32 < 2 ^ (s.ring 1).log2 ∧ done.intr = true ∧
    (({ done with seq := 16 } : Cmd).seq + 2 ^ 32 - 0) % 2 ^ 32 = 2 ^ 4 ∧ ((withCmd hosted 1 (fresh (dsc 0 0 0 []))).ring 1).cmds ≠ [] := by
  decide +kernel

theorem wit_events :
    let e : EventRec := ⟨0x0010, 0, 0, []⟩
    let s := (hosted.setReg Reg.evcfg 4)
    let full : State := { s with events := [e], host := { s.host with evPosted := 16 } }
    ({ s with events := [e] } : State).events = e :: [] ∧ s.host.evLost = 0 ∧ s.events = [] ∧ s.regF Reg.evcfg 0 5 = 4 ∧
    2 ^ 4 ≤ (full.host.evPosted % 2 ^ 32 + 2 ^ 32 - full.host.evh) % 2 ^ 32 ∧
    ¬ 2 ^ 4 ≤ ((15 : Nat) % 2 ^ 32 + 2 ^ 32 - s.host.evh) % 2 ^ 32 ∧ 0 < ({ s with host := { s.host with evLost := 1 } } : State).host.evLost := by
  decide +kernel

/-! ### Every command -/

/-- Each row's command, alone on its ring, starts; the subfunction that the row names stands in its operands. -/
theorem wit_rows : ([(1, 0x00, 0, 0), (1, 0x01, 0, 0), (1, 0x02, 0, 0), (1, 0x03, 0, 0), (1, 0x04, 0, 0), (1, 0x05, 0, 0), (1, 0x06, 0, 0), (1, 0x07, 0, 0),
      (1, 0x08, 0, 0), (1, 0x09, 0, 0), (1, 0x0A, 0, 0), (1, 0x0A, 8, 1), (1, 0x0B, 0, 0), (0, 0x80, 0, 0), (0, 0x81, 0, 0), (0, 0x82, 0, 0),
      (0, 0x83, 0x24, 0), (0, 0x83, 0x24, 1), (0, 0x83, 0x24, 2), (0, 0x84, 0, 0), (0, 0x85, 0x24, 0), (0, 0x85, 0x24, 1), (0, 0x85, 0x24, 2),
      (0, 0x85, 0x24, 3), (0, 0x86, 0x24, 0), (0, 0x86, 0x24, 1), (0, 0x86, 0x24, 2), (0, 0x87, 0x24, 0), (0, 0x87, 0x24, 1), (0, 0x87, 0x24, 2),
      (0, 0x88, 0, 0), (0, 0x88, 0xA, 1), (0, 0x89, 0x24, 0), (0, 0x89, 0x24, 1), (0, 0x89, 0x24, 2), (0, 0x89, 0x24, 3)] : List (Nat × Nat × Nat × Nat)).all
      (fun e =>
        let c := fresh (dsc e.2.1 0 0 (if e.2.2.1 = 0 then [] else List.replicate (e.2.2.1 - 8) 0 ++ leBytes 4 e.2.2.2))
        startsB (withCmd hosted e.1 c) e.2.1 ⟨Fin.ofNat 1024 e.1, 0⟩ c) = true := by decide +kernel

theorem wit_refused_rows :
    let onAdmin := fresh (dsc 0x04 0 0 [])
    let reserved := fresh (dsc 0x00 0x10 0 [])
    let stranger := fresh (dsc 0x00 0 5 [])
    let other := fresh (dsc 0x00 0 1 [])
    let s := hosted.setReg (Reg.dmember 1) 0x80000001
    ringAccepts 0 0x04 = false ∧ leAt reserved.desc 1 1 / 16 ≠ 0 ∧ hosted.listed stranger.panel = false ∧ s.listed other.panel = true ∧ other.panel ≠ s.ownId ∧
    s.routable 1 = false ∧
    (((((s.setReg (Reg.sylPort 0) 0x20000000).setReg (Reg.sylPortCfg 0) 0x80000000).setReg (Reg.sylRoute 1) 0x80000020).routable 1) = true) ∧
    hosted.cmd (ref 1) = none ∧ onAdmin.op = 4 := by decide +kernel

/-- A command of a ring that has been deleted. -/
theorem wit_finish_unseen :
    let c := fresh (dsc 0x04 0 0 [])
    let s := hosted.modRing 1024 (fun g => { g with cmds := [c] })
    (s.ring 1024).cmds.filter (fun c => c.seq == 0) = [c] := by decide +kernel

theorem wit_finish :
    let c := fresh (dsc 0x00 1 0 [])
    let s := withCmd hosted 1 c
    (s.ring 1).cmds.filter (fun c => c.seq == 0) = [c] ∧ c.stop = true ∧ (fresh (dsc 0x00 0 0 [])).stop = false := by decide +kernel

/-! ### Transfers -/

/-- The partition of `hosted`, idle. -/
def idle : State := hosted.modPart 0 (fun q => { q with st := 0, prog := none })

/-- Operands of a transfer of n bytes between host address 0x1000 and the start of slice 0. -/
def copyOps (n : Nat) : List Byte := leBytes 8 0x1000 ++ leBytes 8 0x40000000000 ++ leBytes 4 n

theorem wit_copies :
    let c := fresh (dsc 1 0 0 (copyOps 8))
    let s := withCmd idle 1 c
    startsB s 1 (ref 1) c = true ∧ c.u64 8 = 0x1000 ∧ c.u64 0x10 = 0x40000000000 ∧ c.u32 0x18 = 8 ∧ (c.desc.drop 0x1C).all (· == 0) = true ∧
    s.admitted c.part 1 c.target = true ∧ s.rangeBad c.part 0x40000000000 8 true = none ∧ (∀ i < 8, s.stackLost (stackOf (0x40000000000 + i)) = false) ∧
    s.writeHeld 0x40000000000 = false ∧ (s.rangeBad c.part 0x40040000000 8 true).isSome = true ∧ hosted.admitted 0 1 0 = false := by decide +kernel

theorem wit_copy_out :
    let c := fresh (dsc 2 0 0 (copyOps 8))
    let s := withCmd idle 1 c
    startsB s 2 (ref 1) c = true ∧ s.admitted c.part 2 c.target = true ∧ (∀ x ∈ unitsOf 0x40000000000 8, s.hbm.ueAt x = false ∧ x ∉ s.hbm.poison ∧ s.hbm.missAt x = false) ∧
    ¬ 2 ^ 57 < 0x1000 + 8 ∧ 2 ^ 57 < (2 ^ 57 - 8) + 16 ∧ (fresh (dsc 2 0 0 (copyOps 4))).u32 0x18 = 4 := by decide +kernel

theorem wit_signal :
    let c := fresh (dsc 0x0B 0 0 (leBytes 8 (2 ^ 60 + 0x2000) ++ leBytes 8 7))
    let m := fresh (dsc 0x0B 0 0 (leBytes 8 hbm0 ++ leBytes 8 7))
    startsB (withCmd idle 1 c) 0x0B (ref 1) c = true ∧ startsB (withCmd idle 1 m) 0x0B (ref 1) m = true ∧ c.u64 8 / 2 ^ 60 = 1 ∧
    c.u64 8 / 2 ^ 57 % 8 = 0 ∧ (2 ^ 60 + 2 ^ 57) / 2 ^ 57 % 8 ≠ 0 ∧ idle.place (some 0) (m.u64 8) = .hbm 0x40000000000 ∧
    idle.granted (some 0) (sliceOf 0x40000000000) true = true ∧ idle.place (some 0) (2 ^ 61 + 2 ^ 57) = .bad ∧ (3 * 2 ^ 60) / 2 ^ 60 = 3 ∧
    (c.desc.drop 0x18).all (· == 0) = true := by decide +kernel

/-! ### Programs, launches and waits -/

theorem wit_load_bad :
    let c := fresh (dsc 3 0 0 (leBytes 8 (2 ^ 60 + 0x1000) ++ leBytes 4 64))
    let s := withCmd idle 1 c
    startsB s 3 (ref 1) c = true ∧ (c.desc.drop 0x14).all (· == 0) = true ∧ c.u64 8 / 2 ^ 60 = 1 ∧ c.u64 8 / 2 ^ 57 % 8 = 0 ∧
    s.admitted c.part 3 c.target = true ∧ imageStep1 (rdN s.hostMem 0x1000 64) 64 = false ∧ hosted.admitted 0 3 0 = false := by decide +kernel

/-- A load that runs on ring 1, its band whole or with a dark die. -/
def loading (dark : Bool) : State :=
  withCmd ((idle.modPart 0 (fun q => { q with loading := some ⟨prog1, 2 ^ 60, []⟩ })).modDie 0 (fun d => { d with dark := dark })) 1
    { fresh (dsc 3 0 0 []) with started := true }

theorem wit_load_ends : (loading false).bandLost 0 ⟨prog1, 2 ^ 60, []⟩ = false ∧ (loading true).bandLost 0 ⟨prog1, 2 ^ 60, []⟩ = true ∧
    ((loading false).part 0).loading = some ⟨prog1, 2 ^ 60, []⟩ ∧ (loading false).cmd (ref 1) = some { fresh (dsc 3 0 0 []) with started := true } := by
  decide +kernel

/-- The idle partition holds a program. -/
def ready : State := idle.modPart 0 (fun q => { q with prog := some prog1 })

theorem wit_launch :
    let c := fresh (dsc 4 0 0 (leBytes 8 0x1234))
    let s := withCmd ready 1 c
    startsB s 4 (ref 1) c = true ∧ s.launchOperands c = true ∧ s.admitted c.part 4 c.target = true ∧ (s.part c.part).prog ≠ none ∧
    (s.part c.part).parent = none ∧ s.latent c.part = none ∧ (s.modDie 0 (fun d => { d with dark := true })).latent c.part = some (.breaker 0) ∧
    c.u64 0x20 < 2 ^ 57 ∧ (s.part c.part).move ≠ 0xFFFFFFFFFFFF ∧ (s.part c.part).recov = none ∧
    (s.part 0).castling = none ∧ s.releasePending 0 = none ∧ s.launchReady 0 = false ∧
    (idle.part 0).prog = none ∧ s.launchOperands (fresh (dsc 4 0 0 (leBytes 8 0 ++ leBytes 4 0 ++ leBytes 2 4))) = false := by decide +kernel

/-- Every member core is loaded, so a launch is ready, or exhausted. -/
def loadedCore : Core := { Core.reset with st := 2 }
def loadedCores (n : Nat) : SMap Core := (List.range n).map (fun k => (k, loadedCore))
def loaded : State := { ready with cores := loadedCores 3000 }

theorem sget_const {α : Type} (d c : α) (l : List Nat) (k : Nat) (h : k ∈ l) : sget d (l.map (fun k => (k, c))) k = c := by
  induction l with
  | nil => cases h
  | cons a t ih =>
    simp only [List.map_cons, sget]
    split
    · rfl
    · rename_i n
      exact ih ((List.mem_cons.mp h).resolve_left (fun e => n e.symm))

theorem loaded_core (n k : Nat) (h : k < n) : sget Core.reset (loadedCores n) k = loadedCore :=
  sget_const Core.reset loadedCore (List.range n) k (List.mem_range.mpr h)

theorem phys_small (s : State) (l k : Nat) (hl : l < 2048) (h : s.physOf l = some k) : k < 3000 := by
  unfold State.physOf State.physDie physFile at h
  simp only at h
  split at h
  · cases h
  · simp only [Option.some.injEq] at h
    split at h <;> split at h <;> omega

theorem wit_launch_ready : loaded.launchReady 0 = true := by
  have hp : (loaded.part 0).height = 1 ∧ (loaded.part 0).first = 1 ∧ (loaded.part 0).children = [] := by decide +kernel
  have hm : ∀ k ∈ loaded.membersOf 0, (loaded.core k).st = 2 := by
    intro k hk
    unfold State.membersOf Part.logicals at hk
    simp only [hp.1, hp.2.1, List.mem_filterMap, List.mem_map, List.mem_range] at hk
    obtain ⟨i, ⟨n, hn, rfl⟩, h⟩ := hk
    rw [State.core, loaded, loaded_core 3000 k (phys_small loaded _ k (by omega) h)]
    rfl
  unfold State.launchReady
  simp only [hp.2.2, List.all_nil, Bool.and_true, List.all_eq_true]
  intro k hk
  rw [hm k hk]
  decide

theorem wit_launch_moves : (loaded.part 0).move ≠ 0xFFFFFFFFFFFF ∧ loaded.releasePending 0 = none ∧ (loaded.part 0).castling = none ∧
    loaded.latent 0 = none ∧ loaded.haltIs 0 .abort = false ∧
    ((loaded.modPart 0 (fun q => { q with move := 0xFFFFFFFFFFFF })).part 0).move = 0xFFFFFFFFFFFF := by decide +kernel

theorem wit_wait :
    let c := fresh (dsc 5 0 0 (leBytes 8 (2 ^ 48 - 1) ++ leBytes 4 10 ++ leBytes 4 1))
    let s := withCmd hosted 1 c
    let run := { c with started := true }
    startsB s 5 (ref 1) c = true ∧ c.u64 8 < 2 ^ 48 ∧ c.u32 0x14 < 2 ∧ (c.desc.drop 0x18).all (· == 0) = true ∧ s.admitted c.part 5 c.target = true ∧
    idle.admitted 0 5 0 = false ∧ (withCmd hosted 1 run).cmd (ref 1) = some run ∧ run.op = 5 ∧ 0 < run.u32 0x10 ∧ hosted.waitDone run = false ∧
    hosted.waitDone { fresh (dsc 5 0 0 []) with started := true, hit := true } = true ∧ (hosted.part 0).st = 1 ∧ (idle.part 0).st ≠ 1 := by decide +kernel

/-- A launch that is closing with a status, on ring 1. -/
def closing (st : Nat) (done : Bool) : State :=
  withCmd (hosted.modPart 0 (fun q => { q with
    launch := some ⟨1, 0, 0, false, 8, 0, 0, 0x9000, 0, none, true, done, st, false, List.replicate 8 1, 5, 2, false⟩
    positions := [{ fab.snapshot 0 with move := 2 }] })) 1 { fresh (dsc 4 0 0 []) with started := true }

theorem wit_launch_ends : (∀ st ∈ [0, 8, 0xE], ((closing st true).part 0).launch.map (fun l => (l.ring, l.seq, l.closing, l.status)) = some (1, 0, true, st)) ∧
    ((closing 0 false).part 0).launch.map (fun l => l.closing) = some false ∧
    (closing 0 true).cmd (ref 1) = some { fresh (dsc 4 0 0 []) with started := true } ∧
    ((closing 0 true).part 0).positions.map (fun x => x.move) = [2] := by decide +kernel

/-! ### Positions, castling, fences, rings -/

theorem wit_position :
    let c := fresh (dsc 6 0 0 [])
    startsB (withCmd hosted 1 c) 6 (ref 1) c = true ∧ startsB (withCmd ready 1 c) 6 (ref 1) c = true ∧ (withCmd hosted 1 c).admitted 0 6 0 = true ∧
    (withCmd ready 1 c).admitted 0 6 0 = true ∧ (ready.part 0).capturing = none ∧ (ready.part 0).st ≠ 1 ∧ (ready.part 0).st ≠ 4 ∧ (ready.part 0).st ≠ 5 := by
  decide +kernel

theorem wit_position_ends :
    let s := hosted.modPart 0 (fun q => { q with positions := [{ fab.snapshot 0 with gen := 3 }] })
    let c : Cmd := { fresh (dsc 6 0 0 []) with started := true, aux := 3 }
    ((s.part 0).positions.find? (fun x => decide (c.aux ≤ x.gen))).isSome = true ∧ (hosted.part 0).positions = [] ∧ (withCmd s 1 c).cmd (ref 1) = some c := by
  decide +kernel

theorem wit_restore :
    let s := ready.modPart 0 (fun q => { q with positions := [{ fab.snapshot 0 with gen := 3, mine := true }] })
    let c := fresh (dsc 7 0 0 [])
    startsB (withCmd s 1 c) 7 (ref 1) c = true ∧ (withCmd s 1 c).admitted 0 7 0 = true ∧ (s.part 0).positions[0]?.map (fun x => x.mine) = some true ∧
    (s.part 0).positions[1]?.isNone = true ∧ leAt (fresh (dsc 7 0 0 [1])).desc 8 1 = 1 ∧ leAt (fresh (dsc 7 0 0 [2])).desc 8 1 = 2 := by decide +kernel

/-- A partition without a position whose buddy is panel 1, reached on port 0. -/
def buddied : State :=
  (((ready.setReg Reg.buddy 0x80000001).setReg (Reg.sylPort 0) 0x20000000).setReg (Reg.sylPortCfg 0) 0x80000000).setReg (Reg.sylRoute 1) 0x80000020

theorem wit_restore_buddy :
    let c := fresh (dsc 7 0 0 [])
    let w : Cmd := { c with started := true, waits := [(1, 0)], hit := true }
    startsB (withCmd buddied 1 c) 7 (ref 1) c = true ∧ (buddied.part 0).positions = [] ∧ buddied.remoteBuddy = some 1 ∧ buddied.routable 1 = true ∧
    1 ∉ buddied.homes.unreach ∧ (buddied.setReg (Reg.sylRoute 1) 0).routable 1 = false ∧ w.waits ≠ [] ∧
    ((buddied.modPart 0 (fun q => { q with positions := [{ fab.snapshot 0 with gen := 3, mine := false, buddy := true }] })).part 0).positions[0]?.map
      (fun x => (x.mine, x.buddy)) = some (false, true) ∧
    (∀ b, ready.remoteBuddy = some b → b ∈ ready.homes.unreach) ∧ ready.storeRoom 0 = true := by
  refine ⟨by decide +kernel, by decide +kernel, by decide +kernel, by decide +kernel, by decide +kernel, by decide +kernel, by decide +kernel,
    by decide +kernel, ?_, by decide +kernel⟩
  intro b h
  rw [show ready.remoteBuddy = none by decide +kernel] at h
  cases h

theorem wit_position_room :
    let s := ready.setReg Reg.pstore 127
    s.storeRoom (s.positionBytes { s.snapshot 0 with pages := if (s.part 0).full then 512 * (s.ownedSlices 0).length else (s.snapshot 0).pages }) = true := by
  decide +kernel

theorem wit_fence :
    let c := fresh (dsc 8 0 0 [])
    let w : Cmd := { c with started := true, waits := [(1, 7)] }
    startsB (withCmd hosted 1 c) 8 (ref 1) c = true ∧ (withCmd hosted 1 w).runs (1, 7) = false ∧
    ((withCmd hosted 1 { fresh (dsc 4 0 0 []) with started := true }).runs (1, 0)) = true := by decide +kernel

/-- Entry 0 of partition 0's castling table names regions 0 and 8. -/
def castleable : State := ((hosted.setReg (Reg.cpair 0 0) 0xC0080000).setRegF (Reg.pwrReg 0) 28 4 2).setRegF (Reg.pwrReg 8) 28 4 2

theorem wit_castle :
    let c := fresh (dsc 9 0 0 (leBytes 2 0 ++ leBytes 2 8 ++ [1]))
    startsB (withCmd hosted 1 c) 9 (ref 1) c = true ∧ hosted.castleOk 0 1 0 8 = false ∧ castleable.castleOk 0 1 0 8 = true ∧ (withCmd castleable 1 c).admitted 0 9 0 = true ∧ max (1151 : Nat) 0 < 1152 ∧ ¬ max (1152 : Nat) 0 < 1152 ∧
    ({ c with started := true, hit := true } : Cmd).hit = true ∧ (hosted.part 0).castling = none := by decide +kernel

theorem wit_ring_create :
    let ops (n lg : Nat) := leBytes 2 n ++ [BitVec.ofNat 8 lg, 0] ++ leBytes 2 0xFFFF ++ leBytes 2 0 ++ leBytes 8 0x80000 ++ leBytes 8 0x90000
    let c := fresh (dsc 0x80 0 0 (ops 1023 16))
    startsB (withCmd hosted 0 c) 0x80 (ref 0) c = true ∧ (hosted.ring 1023).live = false ∧ (hosted.ring 1).live = true ∧
    rdLe hosted.hostMem (hosted.doorbellAddr 1023) 8 = 0 ∧ rdLe (wr hosted.hostMem (hosted.doorbellAddr 1023) 1) (hosted.doorbellAddr 1023) 8 = 1 ∧
    c.u16 8 = 1023 ∧ leAt c.desc 0xA 1 = 16 ∧ c.u64 0x10 % 4096 = 0 ∧
    (c.desc.drop 0x20).all (· == 0) = true := by decide +kernel

theorem wit_ring_delete :
    let c := fresh (dsc 0x81 0 0 (leBytes 2 1))
    startsB (withCmd hosted 0 c) 0x81 (ref 0) c = true ∧ (c.desc.drop 0xA).all (· == 0) = true ∧ (hosted.ring 1).cmds = [] ∧
    ((withCmd hosted 1 (fresh (dsc 0 0 0 []))).ring 1).cmds ≠ [] := by decide +kernel

theorem wit_resume :
    let c := fresh (dsc 0x88 0 0 (leBytes 2 1))
    let f := fresh (dsc 0x88 0 0 (leBytes 2 1 ++ [1]))
    let s := hosted.modRing 1 (fun g => { g with halted := true })
    startsB (withCmd s 0 c) 0x88 (ref 0) c = true ∧ startsB (withCmd s 0 f) 0x88 (ref 0) f = true ∧ (s.ring 1).halted = true ∧
    (hosted.ring 1).halted = false ∧ (s.ring 1).fetched = (s.ring 1).sqt := by decide +kernel

/-! ### PARTITION_SET -/

/-- The first 96 bytes of a record (Table 12-11): first rank, height, PFLAGS, no children, tenant 7, a window of four, no parent. -/
def recordHead (first height pf : Nat) : List Byte :=
  [BitVec.ofNat 8 first, BitVec.ofNat 8 height, BitVec.ofNat 8 pf, 0] ++ leBytes 4 7 ++ leBytes 2 0 ++ leBytes 2 4 ++ leBytes 2 0 ++ leBytes 2 0 ++
    leBytes 2 0xFFFF ++ leBytes 2 0 ++ List.replicate 76 0

/-- A record that names no slice. -/
def record (first height pf : Nat) : List Byte := recordHead first height pf ++ List.replicate 1152 0

theorem recBit_record (first height pf off i : Nat) (h : 96 ≤ off) : recBit (record first height pf) off i = false := by
  have hl : (recordHead first height pf).length = 96 := rfl
  unfold recBit record
  rw [List.getD_append_right _ _ _ _ (by omega)]
  rw [List.getD_eq_getElem?_getD, List.getElem?_replicate]
  split <;> exact BitVec.getLsbD_zero

/-- A panel with room for partitions, and an idle one of rank 1. -/
def roomy : State := idle.setReg Reg.llim 0x01002100

theorem ownBad_record (first height pf : Nat) : roomy.ownBad 1 (record first height pf) = false := by
  simp [State.ownBad, recBit_record]

theorem spreadBad_record (first height pf : Nat) : spreadBad (record first height pf) = false := by
  simp [spreadBad, recBit_record]

theorem wit_record : roomy.recordBad 1 (record 2 1 0) = none ∧ roomy.recordBad 1 (record 1 1 0) = some (1, 1) ∧
    idle.recordBad 1 (record 2 1 0) = some (3, 19) ∧ recReserved (record 2 1 2) = true ∧ recReserved (record 2 1 1) = false ∧
    (record 2 1 0).length = 0x4E0 ∧ roomy.bandBad 1 (record 16 1 0) = false ∧ roomy.bandBad 1 (record 17 1 0) = true := by
  refine ⟨?_, by decide +kernel, by decide +kernel, by decide +kernel, by decide +kernel, by
    rw [record, List.length_append, List.length_replicate]; rfl, by decide +kernel,
    by decide +kernel⟩
  have h : leAt (record 2 1 0) 1 1 ≠ 0 ∧ ¬ roomy.limPartitions ≤ 1 ∧ recReserved (record 2 1 0) = false ∧ roomy.bandBad 1 (record 2 1 0) = false ∧
      roomy.windowBad 1 (record 2 1 0) = false ∧ ¬ roomy.limContexts < leAt (record 2 1 0) 8 2 + leAt (record 2 1 0) 0xA 2 ∧
      linksBad roomy.ownId (record 2 1 0) = false ∧ ¬ roomy.limPanels ≤ leAt (record 2 1 0) 0xE 2 := by decide +kernel
  obtain ⟨h1, h2, h3, h4, h5, h6, h7, h8⟩ := h
  simp [State.recordBad, h1, h2, h3, h4, h5, h6, h7, h8, ownBad_record, spreadBad_record]

/-- PARTITION_SET of partition p, its record at host address 0x8000. -/
def setPart (p : Nat) (b : List Byte) : State × Cmd :=
  let c := fresh (dsc 0x82 0 (p * 4096) (leBytes 8 0x8000 ++ leBytes 4 0x4E0))
  (withCmd { roomy with hostMem := wrN roomy.hostMem 0x8000 b } 0 c, c)

theorem wit_partition_set :
    let e := setPart 1 (recordHead 2 1 0)
    startsB e.1 0x82 (ref 0) e.2 = true ∧ e.2.part = 1 ∧ (e.2.desc.drop 0x14).all (· == 0) = true ∧ e.1.admitted 1 0x82 e.2.target = true ∧
    e.2.u64 8 = 0x8000 ∧ e.2.u32 0x10 = 0x4E0 ∧ rdN e.1.hostMem 0x8000 96 = recordHead 2 1 0 ∧
    (∀ x ∈ e.1.hostMem, x.1 < 0x8060) ∧ hosted.admitted 0 0x82 0 = false := by decide +kernel

theorem wit_grant_free : roomy.grantConflict 1 (fun i => newGrant 1 (roomy.grantOf i) (recBit (record 2 1 0) 0x60 i) (recBit (record 2 1 0) 0x1E0 i)
    (recBit (record 2 1 0) 0x360 i)) = false := by
  simp only [recBit_record 2 1 0 0x60 _ (by decide), recBit_record 2 1 0 0x1E0 _ (by decide), recBit_record 2 1 0 0x360 _ (by decide)]
  decide +kernel

theorem wit_grant_conflict : hosted.grantConflict 1 (fun i => if i = 0 then 0x81000000 else hosted.grantOf i) = true := by decide +kernel

/-! ### Lists, defects, gambits -/

/-- Operands of an admin command: input, output, subfunction. -/
def adminOps (ia il oa ol sub : Nat) : List Byte := leBytes 8 ia ++ leBytes 4 il ++ leBytes 4 0 ++ leBytes 8 oa ++ leBytes 4 ol ++ leBytes 4 sub

theorem wit_lists :
    let c := fresh (dsc 0x89 0 0 (adminOps 0 0 0x9000 44 3))
    let short := fresh (dsc 0x89 0 0 (adminOps 0 0 0x9000 43 3))
    let far := fresh (dsc 0x89 0 0 (adminOps 0 0 (2 ^ 57 - 8) 44 3))
    startsB (withCmd hosted 0 c) 0x89 (ref 0) c = true ∧ c.sub = 3 ∧ c.fieldsOk false true = true ∧ c.olen = 44 ∧ short.olen < 44 ∧ 2 ^ 57 < far.oaddr + 44 ∧
    (fresh (dsc 0x89 0 0 (adminOps 8 0 0x9000 44 3))).fieldsOk false true = false ∧ 3 < (fresh (dsc 0x89 0 0 (adminOps 0 0 0 0 4))).sub := by decide +kernel

theorem wit_quote :
    let c := fresh (dsc 0x89 0 0 (adminOps 0x8000 32 0x9000 400 2))
    startsB (withCmd hosted 0 c) 0x89 (ref 0) c = true ∧ c.fieldsOk true true = true ∧ c.ilen = 32 ∧ c.iaddr + 32 ≤ 2 ^ 57 ∧
    2 ^ 57 < (fresh (dsc 0x89 0 0 (adminOps (2 ^ 57 - 8) 32 0x9000 400 2))).iaddr + 32 := by decide +kernel

/-- A defect entry of site 271 of die 143, by the operator. -/
def entry : List Byte := leBytes 4 0 ++ [1, 0, 3, 0, 143] ++ leBytes 2 271 ++ List.replicate 21 0

theorem wit_defect_add :
    let c := fresh (dsc 0x86 0 0 (adminOps 0x8000 32 0 0 1))
    let s := withCmd { hosted with hostMem := wrN hosted.hostMem 0x8000 entry } 0 c
    startsB s 0x86 (ref 0) c = true ∧ c.sub = 1 ∧ c.fieldsOk true false = true ∧ c.ilen = 32 ∧ leAt (s.input c) 6 1 = 3 ∧ leAt (s.input c) 7 1 = 0 ∧
    leAt (s.input c) 8 1 = 143 ∧ leAt (s.input c) 4 1 = 1 ∧ leAt (s.input c) 9 2 = 271 ∧ leAt (s.input c) 11 5 = 0 := by decide +kernel

theorem wit_defect_extended :
    let c := fresh (dsc 0x86 0 0 (adminOps 0 0 0 0 2))
    startsB (withCmd hosted 0 c) 0x86 (ref 0) c = true ∧ c.sub = 2 ∧ c.fieldsOk false false = true := by decide +kernel

/-- A gambit of kind 4 on die 143 for 600 s. -/
def gambit4 : List Byte :=
  bytesAt (leBytes 4 9 ++ [4, 0, 0, 0] ++ leBytes 6 3 ++ leBytes 2 0 ++ leBytes 2 143 ++ leBytes 2 0 ++ [0, 0, 0, 0] ++ leBytes 4 600000) 0 32

def gambled : State := (hosted.setReg Reg.gcfg 0x80000000)

theorem wit_gambit :
    let c := fresh (dsc 0x87 0 0 (adminOps 0x8000 32 0 0 0))
    let s := withCmd { gambled with hostMem := wrN gambled.hostMem 0x8000 gambit4 } 0 c
    startsB s 0x87 (ref 0) c = true ∧ s.gambitsOn = true ∧ s.armed.length < 16 ∧ gambitOk ⟨s.input c, false⟩ = true ∧ (∀ x ∈ s.armed, x.id ≠ 9) ∧
    (Gambit.mk (s.input c) false).id = 9 ∧ (Gambit.mk gambit4 true).kind = 4 ∧ hosted.gambitsOn = false := by decide +kernel

theorem wit_gambit_cancel :
    let s : State := { gambled with gambits := [⟨gambit4, false⟩], hostMem := wrN gambled.hostMem 0x8000 (leBytes 4 9) }
    let c := fresh (dsc 0x87 0 0 (adminOps 0x8000 4 0 0 2))
    startsB (withCmd s 0 c) 0x87 (ref 0) c = true ∧ (∃ x ∈ s.armed, x.id = leNat (s.input c)) ∧ c.ilen = 4 := by
  refine ⟨by decide +kernel, ⟨⟨gambit4, false⟩, ?_⟩, by decide +kernel⟩
  decide +kernel

/-- A gambit that holds a link down for 600 s: port 13, or the pair of tiles 2 and 11. -/
def gambit2 (unit : Nat) : List Byte :=
  bytesAt (leBytes 4 9 ++ [2, 0, 0, 0] ++ leBytes 6 3 ++ leBytes 2 0 ++ leBytes 2 unit ++ leBytes 2 0 ++ [0, 0, 0, 0] ++ leBytes 4 600000) 0 32

theorem wit_gambit_back :
    let p : Gambit := ⟨gambit2 13, true⟩
    let l : Gambit := ⟨gambit2 35, true⟩
    let s := (gambled.setRegF (Reg.sylPort 13) 28 4 4).setPair 2 11 3 0xFF
    p.kind = 2 ∧ p.id = (9 : W32).toNat ∧ l.kind = 2 ∧ gambitPort p = true ∧ gambitPort l = false ∧ p.unit = 13 ∧ l.unit = 2 * 12 + 11 ∧
    s.regF (Reg.sylPort 13) 28 4 = 4 ∧ s.plinkState 2 11 = 3 ∧ gambled.plinkState 2 11 ≠ 3 := by decide +kernel

theorem wit_gambit_duration :
    let s : State := { gambled with gambits := [⟨gambit4, true⟩] }
    (∀ x ∈ s.gambits, x.fired = true → x.id = (9 : W32).toNat → x = ⟨gambit4, true⟩) ∧ (Gambit.mk gambit4 true).id = (9 : W32).toNat := by decide +kernel

end Sys2Proof.Tests
end

