-- ==== Sys2Proof/WellFormed.lean ====
section
/-! DEFINITION. Which commands are well formed: operands whose type is wider than the rule that gives them (counts, indices,
byte strings) keep to that rule. The meanings are total and do not ask for it. -/
namespace Sys2Proof

/-- Payload of 0 to 8 units of 64 bytes, as LEN says (R275). -/
def packetWf (p : Packet) : Bool := p.payload.length == 64 * p.len.toNat && decide (p.len.toNat ≤ 8)

/-- A store ends within the 64-bit bus address space. -/
def storeWf (w : HostStore) : Bool := decide (w.addr.toNat + w.bytes.length ≤ 2 ^ 64)

/-- A transfer is of at most 4 GiB, so it cannot stop later (R320). -/
def hostAnsWf : HostAns → Bool
  | .ok => true
  | .addrAt n => decide (n < 2 ^ 32)
  | .dataAt n => decide (n < 2 ^ 32)

/-- A BAR2 access lies within the 64 GiB of BAR2 and within one PCIe request of at most `most` bytes (Tables 12-1, 12-2). -/
def bar2Wf (off n most : Nat) : Bool := decide (1 ≤ n) && decide (n ≤ most) && decide (off + n ≤ 2 ^ 36)

/-- Lanes a link can have: 16 on a system-link port, 128 on a photonic pair (R280, Table 11-10); other links report none. -/
def lanesWf : LinkEnd → Nat → Bool
  | .sys _, n => decide (n ≤ 16)
  | .photon _ _, n => decide (n ≤ 128)
  | _, _ => true

/-- Sensors of a kind (Table 14-2). -/
def sensorsOfKind (k : BitVec 4) : Nat :=
  match k.toNat with
  | 1 => 2304
  | 2 => 1152
  | 3 => 816
  | 4 => 48
  | 5 => 192
  | 6 => 4
  | _ => 0

/-- Pairs and singles of a kind (Table 14-2): a stack has nine, of which the last is the base die's single. -/
def unitWf (u : UnitId) : Bool :=
  if u.kind = 3 then decide (u.idx < 432) else decide (u.idx < sensorsOfKind u.kind / 2)

/-- R362 concerns pairs, not singles. -/
def pairedUnit (u : UnitId) : Bool := u.kind != 3 || u.idx % 9 != 8

/-- A start report: inlet and flow as the sensors can give them, sites within their kinds. -/
def reportWf (r : StartReport) : Bool := decide (r.inlet < 256) && decide (r.flow < 65536) && r.records.all (fun c => decide (c.site < 256))

/-- An SPDM request names one of the five paths and a 32-bit session number (R384, R446). -/
def ctxWf (c : SpdmCtx) : Bool := decide (c.path ≤ 4) && (c.session.getD 0 < 2 ^ 32)

/-- Is a command well formed? -/
def Instr.wf : Instr → Bool
  | .nop .. => true
  | .trap .. => true
  | .alu .. => true
  | .addi .. => true
  | .andi .. => true
  | .ori .. => true
  | .xori .. => true
  | .slli .. => true
  | .srli .. => true
  | .srai .. => true
  | .clti .. => true
  | .li .. => true
  | .insh1 .. => true
  | .insh2 .. => true
  | .insh3 .. => true
  | .ld .. => true
  | .lws .. => true
  | .lwz .. => true
  | .st .. => true
  | .sw .. => true
  | .brcEq .. => true
  | .brcNe .. => true
  | .brcLt .. => true
  | .brcGe .. => true
  | .brcLtu .. => true
  | .brcGeu .. => true
  | .j .. => true
  | .jr .. => true
  | .loop .. => true
  | .pcmp .. => true
  | .plog .. => true
  | .pset .. => true
  | .pget .. => true
  | .csrr .. => true
  | .csrw .. => true
  | .agld .. => true
  | .agrst .. => true
  | .agbase .. => true
  | .agpos .. => true
  | .loadhint .. => true
  | .vadd .. => true
  | .vsub .. => true
  | .vmul .. => true
  | .vfma .. => true
  | .vfms .. => true
  | .vmax .. => true
  | .vmin .. => true
  | .vabs .. => true
  | .vneg .. => true
  | .vand .. => true
  | .vor .. => true
  | .vxor .. => true
  | .vexp .. => true
  | .vlog .. => true
  | .vrcp .. => true
  | .vrsqrt .. => true
  | .vrowstat .. => true
  | .vcmp .. => true
  | .vmov .. => true
  | .vbcast .. => true
  | .vext .. => true
  | .vcvt .. => true
  | .vld .. => true
  | .vst .. => true
  | .smerge .. => true
  | .sprobe .. => true
  | .scompact .. => true
  | .ssort .. => true
  | .setEngineDone .. => true
  | .mmul .. => true
  | .mload .. => true
  | .mouter .. => true
  | .mdrain .. => true
  | .mcfg .. => true
  | .feedQueueLeave .. => true
  | .mcfgZeroing .. => true
  | .xply .. => true
  | .cpy .. => true
  | .cwait .. => true
  | .crd .. => true
  | .bclm .. => true
  | .arr .. => true
  | .wrel .. => true
  | .rres .. => true
  | .rflg .. => true
  | .halt .. => true
  | .xfence .. => true
  | .endp .. => true
  | .patrolScrubber .. => true
  | .scratchpadWriteBack .. => true
  | .copyStart .. => true
  | .transferSend .. => true
  | .transferReceive .. => true
  | .deliveryAcknowledgement .. => true
  | .dataFlit .. => true
  | .idleFlit .. => true
  | .ackFlit .. => true
  | .nakFlit .. => true
  | .quarantine .. => true
  | .beat .. => true
  | .arrive .. => true
  | .release .. => true
  | .releaseInstant .. => true
  | .tempoHalt _ _ _ t => t.sites.all (fun e => decide (e.1 < 144) && decide (e.2 < 272)) && t.linkDies.all (fun d => decide (d < 144))
  | .tempoAck .. => true
  | .tempoResend .. => true
  | .echoReq .. => true
  | .echoRsp .. => true
  | .cal .. => true
  | .reMeasurement .. => true
  | .stalemateDetector .. => true
  | .censusReq .. => true
  | .censusRsp .. => true
  | .censusAbsent .. => true
  | .tpoPhaltAbort .. => true
  | .tpoPhaltStop .. => true
  | .recal .. => true
  | .tpoPmoveLo .. => true
  | .tpoPresultLo .. => true
  | .coreFmoveLo .. => true
  | .memSerrLo .. => true
  | .mgtPmoveLo .. => true
  | .read p => packetWf p
  | .write p => packetWf p
  | .atomic p => packetWf p
  | .readRsp p => packetWf p
  | .ack p => packetWf p
  | .errRsp p => packetWf p
  | .e2eAck p => packetWf p
  | .e2eAckInterval .. => true
  | .openStream p => packetWf p
  | .openRsp p => packetWf p
  | .stale p => packetWf p
  | .mgt p => packetWf p
  | .storePut p => packetWf p
  | .storeGet p => packetWf p
  | .storeCtlOpen p => packetWf p
  | .storeCtlCommit p => packetWf p
  | .storeCtlDrop p => packetWf p
  | .storeCtlQuery p => packetWf p
  | .tempoSlot .. => true
  | .fabricLinkFailed .. => true
  | .retraining .. => true
  | .retrainComplete l n => lanesWf l n
  | .noLight .. => true
  | .handoverRequest .. => true
  | .handoverReply .. => true
  | .requestTimeout .. => true
  | .escapeWait _ p => packetWf p
  | .e2eTimeout .. => true
  | .trainingComplete u _ _ n => match u with
    | .link l => lanesWf l n
    | .stack _ => true
  | .refresh _ _ b => decide (b < 1024)
  | .stackPatrol .. => true
  | .unitWriteBack .. => true
  | .stackLost .. => true
  | .capturePageRead .. => true
  | .jobStart .. => true
  | .jobComplete .. => true
  | .doorbellPoll l => l.all storeWf
  | .hifWake .. => true
  | .postCompletion .. => true
  | .postEvent .. => true
  | .commandNop .. => true
  | .copyIn _ a => hostAnsWf a
  | .copyOut _ a => hostAnsWf a
  | .loadProgram .. => true
  | .launch .. => true
  | .waitMove .. => true
  | .position .. => true
  | .restore .. => true
  | .fence .. => true
  | .castle .. => true
  | .queryPartition .. => true
  | .queryPanel .. => true
  | .signal .. => true
  | .ringCreate .. => true
  | .ringDelete .. => true
  | .partitionSet .. => true
  | .licenseInstall .. => true
  | .licenseList .. => true
  | .licenseRemove .. => true
  | .fwStage .. => true
  | .fwActivateWarm .. => true
  | .fwActivateLive .. => true
  | .fwActivateCommit .. => true
  | .fwActivateRevert .. => true
  | .defectQuery .. => true
  | .defectQueryAdd .. => true
  | .defectQueryExtended .. => true
  | .gambitArm .. => true
  | .gambitList .. => true
  | .gambitCancel .. => true
  | .gambitDuration .. => true
  | .resumeContinue .. => true
  | .resumeFlush .. => true
  | .trustQueryChain .. => true
  | .trustQueryMeasurements .. => true
  | .trustQueryQuote .. => true
  | .trustQueryCounters .. => true
  | .bar2Read o n => bar2Wf o n 4096
  | .bar2Write o b => bar2Wf o b.length 512
  | .enPassantHeaderRead .. => true
  | .hifCtlEnable .. => true
  | .hifCtlDisable .. => true
  | .sylRoute .. => true
  | .mgtBuddy .. => true
  | .mgtRst _ r => reportWf r
  | .registerWrite .. => true
  | .linkDown .. => true
  | .failover .. => true
  | .hcxPerst .. => true
  | .flr .. => true
  | .feedLost _ c => decide (1 ≤ c.toNat) && decide (c.toNat ≤ 3)
  | .feedRestored .. => true
  | .converterFailed .. => true
  | .dieBreaker .. => true
  | .spineRegulatorTrip .. => true
  | .phaseCheck _ _ a => a.length == 8
  | .suspectBond .. => true
  | .hintArrival .. => true
  | .levelChange .. => true
  | .droopStretching .. => true
  | .stretchEnd .. => true
  | .powerTrip .. => true
  | .regionShort .. => true
  | .inputPowerSample .. => true
  | .regionPowerOn .. => true
  | .admissionCheck .. => true
  | .deferredPowerOn .. => true
  | .softStartDone .. => true
  | .vmidOvervoltage .. => true
  | .vmidUndervoltage .. => true
  | .sensorSample k i _ f _ => decide (i < sensorsOfKind k) && decide (f < 65536)
  | .fluidTrip .. => true
  | .fluidLimitEnd .. => true
  | .sensorFlagged u => unitWf u && pairedUnit u
  | .sensorLost u => unitWf u
  | .levelExit u => unitWf u
  | .thermalCap .. => true
  | .routerCap .. => true
  | .restPowerOn .. => true
  | .converterRestart .. => true
  | .coldStart r => reportWf r
  | .takeover .. => true
  | .mrst .. => true
  | .tapInstruction .. => true
  | .getVersion c => ctxWf c
  | .getCapabilities c => ctxWf c
  | .negotiateAlgorithms c _ => ctxWf c
  | .getDigests c => ctxWf c
  | .getCertificate c sl o n => ctxWf c && decide (sl < 2) && decide (o < 65536) && decide (n < 65536)
  | .challenge c sl n => ctxWf c && decide (sl < 2) && n.length == 32
  | .getMeasurements c i => ctxWf c && decide (i < 256)
  | .keyExchange c i => ctxWf c && decide (i < 65536)
  | .finish c _ => ctxWf c
  | .keyUpdate c => ctxWf c
  | .heartbeat c => ctxWf c
  | .endSession c => ctxWf c
  | .setCertificate c sl _ => ctxWf c && decide (sl < 8)
  | .requestUpdate .. => true
  | .activateFirmware .. => true
  | .copyCompletion .. => true
  | .controlFlitInterval .. => true
  | .hostLinkUp .. => true
  | .waitMoveTimeout .. => true
  | .commandFinishes .. => true
  | .tapActiveTimeout .. => true
  | .vendorWarmResetRequest c r => ctxWf c && reportWf r
  | .eventReceiverRegistration .. => true
  | .entdaa .. => true
  | .endpointIdAssignment .. => true
  | .ideKeySetUp c _ _ => ctxWf c
  | .pldmComponentTransfer .. => true

end Sys2Proof
end

