-- ==== Sys2Proof/Tests/Slice0.lean ====
section
/-! SUPPORT. Tests of the definitions: each well-formedness check refuses an ill-formed command; the worked examples of the manual
come out as the manual writes them; slot words written out from the encoding tables decode to their instructions. -/
namespace Sys2Proof.Tests

set_option Elab.async false

open Sys2Proof.Machine Sys2Proof.Claims

/-! ### Ill-formed commands are refused -/

def anyReport : StartReport :=
  { pm := 0, hpsel := false, pufA := true, pufB := false, flashA := true, flashB := true, inlet := 45, flow := 600, records := [], found := [], tenths := 0 }

theorem test_wf_packet : (Instr.write { Packet.blank with len := 1, payload := [0] }).wf = false ∧
    (Instr.write { Packet.blank with len := 9, payload := List.replicate 576 0 }).wf = false ∧ (Instr.read Packet.blank).wf = true := by decide +kernel

theorem test_wf_store : (Instr.doorbellPoll [⟨0xFFFFFFFFFFFFFFFF, [0, 0]⟩]).wf = false ∧ (Instr.doorbellPoll [⟨0xFFFFFFFFFFFFFFFF, [0]⟩]).wf = true := by
  decide +kernel

theorem test_wf_answer : (Instr.copyIn (ref 1) (.addrAt (2 ^ 32))).wf = false ∧ (Instr.copyOut (ref 1) (.dataAt (2 ^ 32))).wf = false := by decide +kernel

theorem test_wf_bar2 : (Instr.bar2Read 0 0).wf = false ∧ (Instr.bar2Read 0 4097).wf = false ∧ (Instr.bar2Read (2 ^ 36 - 1) 2).wf = false ∧
    (Instr.bar2Write 0 []).wf = false ∧ (Instr.bar2Write 0 (List.replicate 513 0)).wf = false ∧ (Instr.bar2Read (2 ^ 36 - 1) 1).wf = true := by
  decide +kernel

theorem test_wf_lanes : (Instr.retrainComplete (.sys 0) 17).wf = false ∧ (Instr.retrainComplete (.photon 0 1) 129).wf = false ∧
    (Instr.trainingComplete (.link (.sys 0)) true 1 17).wf = false := by decide +kernel

theorem test_wf_sensor : (Instr.sensorSample 3 816 20 0 0).wf = false ∧ (Instr.sensorSample 7 0 20 0 0).wf = false ∧
    (Instr.sensorSample 3 815 20 65536 0).wf = false ∧ (Instr.sensorSample 3 815 20 65535 0).wf = true := by decide +kernel

theorem test_wf_unit : (Instr.sensorLost ⟨3, 432⟩).wf = false ∧ (Instr.levelExit ⟨1, 1152⟩).wf = false ∧ (Instr.sensorFlagged ⟨3, 8⟩).wf = false ∧
    (Instr.sensorLost ⟨3, 8⟩).wf = true := by decide +kernel

theorem test_wf_report : (Instr.coldStart { anyReport with inlet := 256 }).wf = false ∧ (Instr.mgtRst 0 { anyReport with flow := 65536 }).wf = false ∧
    (Instr.coldStart { anyReport with records := [⟨1, 256, 0, true, 0, 0, 0⟩] }).wf = false ∧ (Instr.coldStart anyReport).wf = true := by decide +kernel

theorem test_wf_context : (Instr.getVersion ⟨5, none⟩).wf = false ∧ (Instr.heartbeat ⟨0, some (2 ^ 32)⟩).wf = false ∧
    (Instr.getCertificate ⟨0, none⟩ 2 0 0).wf = false ∧ (Instr.challenge ⟨0, none⟩ 0 []).wf = false ∧ (Instr.getMeasurements ⟨0, none⟩ 256).wf = false ∧
    (Instr.keyExchange ⟨0, none⟩ 65536).wf = false ∧ (Instr.setCertificate ⟨0, none⟩ 8 []).wf = false := by decide +kernel

theorem test_wf_others : (Instr.refresh 0 0 1024).wf = false ∧ (Instr.feedLost false 0).wf = false ∧ (Instr.feedLost true 4).wf = false ∧
    (Instr.phaseCheck 0 0 [1]).wf = false := by decide +kernel

theorem test_wf_tests (p : Fin 16) (k : HaltKind) (x : HaltSrc) : (Instr.tempoHalt p k x ⟨[(144, 0)], []⟩).wf = false ∧
    (Instr.tempoHalt p k x ⟨[(0, 272)], []⟩).wf = false ∧ (Instr.tempoHalt p k x ⟨[], [144]⟩).wf = false := by
  refine ⟨?_, ?_, ?_⟩ <;> rfl

/-! ### Words of the slots -/

/-- The worked bundle of 03_core.md: ADDI x5, x5, 64; VFMA v2, v3, v4 in BF16 under p1; MMUL through a2 in E4M3 into row 17;
CWAIT c3, 2; its bytes in memory. -/
theorem test_bundle : decodeBundle 0x06060002020462200822190404052840 =
      ⟨⟨.addi ⟨5, 5, 64⟩, false, 0⟩, ⟨.vfma ⟨2, 3, 4, 1, 0⟩, false, 1⟩, ⟨.mmul ⟨2, 3, 17, false, false, false, 0⟩, false, 0⟩, ⟨.cwait ⟨3, 0, 2⟩, false, 0⟩⟩ ∧
    leBytes 16 0x06060002020462200822190404052840 =
      [0x40, 0x28, 0x05, 0x04, 0x04, 0x19, 0x22, 0x08, 0x20, 0x62, 0x04, 0x02, 0x02, 0x00, 0x06, 0x06] := by decide +kernel

/-- Words of the C slot, bit by bit from Tables 3-6 to 3-8. -/
theorem test_words_c :
    decodeSlot .c (0b0000001#7 ++ 0b0#1 ++ 0b010#3 ++ 0b00011#5 ++ 0b00100#5 ++ 0b00101#5 ++ 0b000111#6) = ⟨.alu ⟨3, 4, 5, 7⟩, false, 2⟩ ∧
    decodeSlot .c (0b0001010#7 ++ 0b0#1 ++ 0b000#3 ++ 0b11111#5 ++ 0b1000000000000001#16) = ⟨.li ⟨31, 0x8001⟩, false, 0⟩ ∧
    decodeSlot .c (0b0010011#7 ++ 0b0#1 ++ 0b000#3 ++ 0b00001#5 ++ 0b00010#5 ++ 0b11111111111#11) = ⟨.st ⟨1, 2, 0x7FF⟩, false, 0⟩ ∧
    decodeSlot .c (0b0011010#7 ++ 0b1#1 ++ 0b001#3 ++ 0b00001#5 ++ 0b00010#5 ++ 0b11111111110#11) = ⟨.brcLt ⟨1, 2, 0x7FE⟩, true, 1⟩ ∧
    decodeSlot .c (0b0011110#7 ++ 0b0#1 ++ 0b000#3 ++ 0b00001#5 ++ 0b000#3 ++ 0b1000000000000#13) = ⟨.j ⟨1, 0, 4096⟩, false, 0⟩ ∧
    decodeSlot .c (0b0100000#7 ++ 0b0#1 ++ 0b000#3 ++ 0b00001#5 ++ 0b00000#5 ++ 0b00000000010#11) = ⟨.loop ⟨1, 0, 2⟩, false, 0⟩ ∧
    decodeSlot .c (0b0100100#7 ++ 0b0#1 ++ 0b000#3 ++ 0b111#3 ++ 0b00001#5 ++ 0b00010#5 ++ 0b101#3 ++ 0b00000#5) = ⟨.pcmp ⟨7, 1, 2, 5, 0⟩, false, 0⟩ ∧
    decodeSlot .c (0b0100101#7 ++ 0b0#1 ++ 0b000#3 ++ 0b001#3 ++ 0b010#3 ++ 0b011#3 ++ 0b11#2 ++ 0b00000#5 ++ 0b00000#5) = ⟨.plog ⟨1, 2, 3, 3, 0, 0⟩, false, 0⟩ ∧
    decodeSlot .c (0b0101001#7 ++ 0b0#1 ++ 0b000#3 ++ 0b00001#5 ++ 0b0000#4 ++ 0b000000010001#12) = ⟨.csrw ⟨1, 0, 0x011⟩, false, 0⟩ ∧
    decodeSlot .c (0b0101100#7 ++ 0b0#1 ++ 0b000#3 ++ 0b1111#4 ++ 0b00001#5 ++ 0b000000000011#12) = ⟨.agld ⟨15, 1, 3⟩, false, 0⟩ ∧
    decodeSlot .c (0b0110000#7 ++ 0b0#1 ++ 0b000#3 ++ 0b1111#4 ++ 0b0000#4 ++ 0b0000001111101#13) = ⟨.loadhint ⟨15, 0, 125⟩, false, 0⟩ ∧
    decodeSlot .c (0b0001110#7 ++ 0b0#1 ++ 0b000#3 ++ 0b000000000000000000000#21) = ⟨.reserved 0x0E, false, 0⟩ := by decide +kernel

/-- Words of the V slot (Table 3-10). -/
theorem test_words_v :
    decodeSlot .v (0b0010100#7 ++ 0b0#1 ++ 0b000#3 ++ 0b00001#5 ++ 0b00010#5 ++ 0b00000#5 ++ 0b0001#4 ++ 0b00#2) = ⟨.vrowstat ⟨1, 2, 0, 1, 0⟩, false, 0⟩ ∧
    decodeSlot .v (0b0011000#7 ++ 0b0#1 ++ 0b000#3 ++ 0b011#3 ++ 0b00010#5 ++ 0b00011#5 ++ 0b100#3 ++ 0b1011#4 ++ 0b0#1) = ⟨.vcmp ⟨3, 2, 3, 4, 0xB, 0⟩, false, 0⟩ ∧
    decodeSlot .v (0b0011100#7 ++ 0b0#1 ++ 0b000#3 ++ 0b00111#5 ++ 0b00001#5 ++ 0b111111#6 ++ 0b0011#4 ++ 0b0#1) = ⟨.vext ⟨7, 1, 63, 3, 0⟩, false, 0⟩ ∧
    decodeSlot .v (0b0011101#7 ++ 0b0#1 ++ 0b000#3 ++ 0b00001#5 ++ 0b00010#5 ++ 0b1010#4 ++ 0b0000#4 ++ 0b100#3) = ⟨.vcvt ⟨1, 2, 0xA, 0, 4⟩, false, 0⟩ ∧
    decodeSlot .v (0b0100001#7 ++ 0b0#1 ++ 0b000#3 ++ 0b01001#5 ++ 0b0101#4 ++ 0b000000000000#12) = ⟨.vst ⟨9, 5, 0⟩, false, 0⟩ ∧
    decodeSlot .v (0b0101000#7 ++ 0b0#1 ++ 0b000#3 ++ 0b00001#5 ++ 0b0010#4 ++ 0b0011#4 ++ 0b0100#4 ++ 0b0010#4) = ⟨.smerge ⟨1, 2, 3, 4, 2⟩, false, 0⟩ := by
  decide +kernel

/-- Words of the M and X slots (Tables 3-11 and 3-12). -/
theorem test_words_mx :
    decodeSlot .m (0b0000010#7 ++ 0b0#1 ++ 0b000#3 ++ 0b0011#4 ++ 0b1010#4 ++ 0b0000000000000#13) = ⟨.mload ⟨3, 0xA, 0⟩, false, 0⟩ ∧
    decodeSlot .m (0b0000100#7 ++ 0b0#1 ++ 0b000#3 ++ 0b0011#4 ++ 0b0100#4 ++ 0b0001#4 ++ 0b1#1 ++ 0b00000000#8) = ⟨.mouter ⟨3, 4, 1, true, 0⟩, false, 0⟩ ∧
    decodeSlot .m (0b0000101#7 ++ 0b0#1 ++ 0b000#3 ++ 0b0011#4 ++ 0b0001#4 ++ 0b11111111#8 ++ 0b001#3 ++ 0b1#1 ++ 0b0#1) = ⟨.mdrain ⟨3, 1, 255, 1, true, false⟩, false, 0⟩ ∧
    decodeSlot .m (0b0000110#7 ++ 0b0#1 ++ 0b000#3 ++ 0b1111101000#10 ++ 0b1#1 ++ 0b0000000000#10) = ⟨.mcfg ⟨0x3E8, true, 0⟩, false, 0⟩ ∧
    decodeSlot .x (0b0000001#7 ++ 0b0#1 ++ 0b000#3 ++ 0b00000101#8 ++ 0b0000000000000#13) = ⟨.xply ⟨5, 0⟩, false, 0⟩ ∧
    decodeSlot .x (0b0000010#7 ++ 0b0#1 ++ 0b000#3 ++ 0b1111#4 ++ 0b00001#5 ++ 0b000000000000#12) = ⟨.cpy ⟨15, 1, 0⟩, false, 0⟩ ∧
    decodeSlot .x (0b0001000#7 ++ 0b0#1 ++ 0b000#3 ++ 0b111111#6 ++ 0b00010#5 ++ 0b000#3 ++ 0b0000000#7) = ⟨.arr ⟨63, 2, 0, 0⟩, false, 0⟩ ∧
    decodeSlot .x (0b0001100#7 ++ 0b0#1 ++ 0b000#3 ++ 0b00000#5 ++ 0b1111111111111111#16) = ⟨.halt ⟨0, 0xFFFF⟩, false, 0⟩ ∧
    decodeSlot .x (0b1111111#7 ++ 0b1#1 ++ 0b011#3 ++ 0b111111111111111111111#21) = ⟨.trap, true, 3⟩ := by decide +kernel

/-! ### Worked examples of the manual -/

/-- The panel of the examples: ID 37, die c7 fenced, site e7:a12 fenced. -/
def panel37 : State := ((State.reset.setRegF (Reg.dhole 0) 24 4 2).setRegF (Reg.chole 58 2) 24 5 0).setReg Reg.sylPanelId 0x80000025

/-- Logical core D7:C12 is index 13,234; it sits on e7:d12, and by default on d7:c12 (00_scope.md, 01_panel_anatomy.md). -/
theorem test_place : panel37.physOf 13234 = some (58 * 272 + 190) ∧ State.reset.physOf 13234 = some (57 * 272 + 189) ∧
    spadAddr (58 * 272 + 190) 0 = 0x80E97C00000 ∧ panel37.place (some 0) 0x00025A0676400000 = .spad (58 * 272 + 190) 0 ∧
    Reg.core (58 * 272 + 190) 0x14 = 0x1EABE14 := by decide +kernel

/-- Slices 16 to 31 of every stack are partition 2's spread set: the spread address of 10_memory_stacks.md. -/
theorem test_spread :
    let s : State := { State.reset with regs := (List.range 768).map (fun i => (Reg.grant (i / 16 * 64 + 16 + i % 16), 0xC2000000)) }
    s.spreadAddr 2 0x01234600000 = some 0x67506117000 ∧ sliceOf 0x67506117000 = 2516 ∧ pageOf 0x67506117000 = 48 ∧ Reg.grant 2516 = 0x050A750 ∧
    Reg.dirty 2516 1 = 0x05E7504 ∧ s.granted (some 2) 2516 true = true ∧ s.granted (some 5) 2516 true = false := by decide +kernel

/-- The YF4 block of 05_number_formats.md: 5.0, 2.6, 0.3 and 4.5. -/
theorem test_yf4 :
    let vals : List FV := (List.range 32).map (fun i =>
      fp32.decode (if i = 0 then 0x40A00000 else if i = 8 then 0x40266666 else if i = 17 then 0x3E99999A else if i = 24 then 0x40900000 else 0))
    let b := toBlock 0xA (fun _ => .rne) vals
    let r := leBytes 64 (recordOf 0xA b.1)
    b.1.scale = 0x7F ∧ b.1.nudge = [0, 1, 3, 0] ∧ r.getD 0 0 = 0x06 ∧ r.getD 8 0 = 0x40 ∧ r.getD 16 0 = 0x7F ∧ r.getD 17 0 = 0x34 := by decide +kernel

/-- The four partial sums of 05_number_formats.md add to 2^89 under both placements, and read 2.0 in FP32. -/
theorem test_fixed_window :
    let p1 : W128 := 0x00010000000000000000000000000000
    let p2 : W128 := 0x00000000010000000000000000000000
    let p3 : W128 := 0xFFFF0000000000000000000000000000
    fwaAdd (fwaAdd p1 p2) (fwaAdd p3 p2) = 0x00000000020000000000000000000000 ∧ fwaAdd (fwaAdd p1 p3) (fwaAdd p2 p2) = 0x00000000020000000000000000000000 ∧
    roundFp fp32 false .rne (fwaVal (-24) (2 ^ 89)) = (0x40000000, 0) := by decide +kernel

/-- Descriptor a1 of the stem layer (Table 4-9), and the step at an output pixel and a tap. -/
def stem : W512 :=
  let d (count stride coef axis : Nat) : Nat := count + stride * 2 ^ 16 + coef * 2 ^ 40 + axis * 2 ^ 48
  BitVec.ofNat 512 (0x7E20 + 4 * 2 ^ 24 + 2 ^ 31 + (29 + 2 ^ 16) * 2 ^ 32 + (29 + 2 ^ 16) * 2 ^ 64 + d 15 32 2 1 * 2 ^ 128 + d 15 928 2 0 * 2 ^ 192 +
    d 3 16 1 1 * 2 ^ 256 + d 3 464 1 0 * 2 ^ 320 + d 1 0 0 3 * 2 ^ 384 + d 1 0 0 3 * 2 ^ 448)
def stemStep (ox oy kw kh : Nat) : Nat := ox + 15 * (oy + 15 * (kw + 3 * kh))

/-- The three elements that 04_matrix_array.md works out. -/
theorem test_stream : AG.ok stem = true ∧ AG.addr stem (stemStep 0 0 1 1) = 0x8000 ∧ AG.padded stem (stemStep 0 0 1 1) = false ∧
    AG.padded stem (stemStep 0 0 0 0) = true ∧ AG.padded stem (stemStep 14 14 2 2) = true := by decide +kernel

/-- Bank 3 given to the feeder, or to link input N (06_scratchpad_and_copies.md): the loser of cycle 500. -/
theorem test_bank : cycleLosers 0x1000 [(1, 3), (5, 3)] = [(5, 3)] ∧ cycleLosers 0x5000 [(1, 3), (5, 3)] = [(1, 3)] := by decide +kernel

/-- Exchange set 5 of the route e7:n3 to f7:a3 (07_scheduled_mesh.md). -/
theorem test_exchange : readEntry 0x1008000004060000 = some ⟨false, 128, 1, 0x60000⟩ ∧ readEntry 0x1008000004080000 = some ⟨false, 128, 1, 0x80000⟩ ∧
    xcOut 0x0400 .e = 1 ∧ xcOut 0x1400 .e = 5 ∧ xcLocal 0x0001 .w = true ∧ panel37.edgeSite 58 .e 2 = 58 * 272 + 2 * 17 + 15 := by decide +kernel

/-- The route entry for panel 1,210 (11_packet_fabric_and_hall.md). -/
theorem test_route : (State.reset.setReg 0x04052E8 0x83033AE3).candidates 1210 = [3, 11, 19] ∧
    (State.reset.setReg 0x04052E8 0x83033AE3).regF (Reg.sylRoute 1210) 24 5 = 3 := by decide +kernel

/-- The header reads of window 5 after two results (12_host_interface.md). -/
theorem test_window :
    let s := State.reset.modRing 5 (fun g => { g with window := ⟨4, 24, 0, 1, 0x0A02, []⟩ })
    ∃ t u, exec (.enPassantHeaderRead 5) s = .next t ∧ t.rdata = 0x01001804 ∧ exec (.enPassantHeaderRead 5) t = .next u ∧ u.rdata = 0x01001803 := by
  refine ⟨_, _, rfl, by decide +kernel, rfl, by decide +kernel⟩

/-- Die e7 with P = 91.0 W and the hints of e7.4 arrived, then with P = 99.6 W: e7.5 stays deferred; at 97.9 W it is admitted
(13_power.md). -/
theorem test_admission :
    let at' (p amp : Nat) : State :=
      let s := (((State.reset.setRegF (Reg.pwrDie 58) 0 16 p).setRegF (Reg.pwrDie 58) 16 8 104).setRegF (Reg.pwrReg 468) 12 10 900).setRegF
        (Reg.pwrRstat 468) 0 16 amp
      s.modCores (coresOfRegion 468) (fun c => { c with st := 3, level := 8, hints := [(15, 125, true)] })
    (at' 910 1444).announced 468 = 34 * 15 ∧ (at' 910 1444).admits 469 = false ∧ (at' 996 2400).admits 469 = false ∧ (at' 979 2400).admits 469 = true := by
  decide +kernel

/-- Region e7.5 with seven live phases: cap 3,000 MHz, 858 mV, and PWR_REG (17_ratings_connections_registers.md). -/
theorem test_region :
    let s := (State.reset.setRegF (Reg.pwrReg 469) 24 4 7).setRail 469 2
    s.powerCap 469 = 3000 ∧ s.setpoint 469 3000 = 858 ∧ ((s.setRegF (Reg.pwrReg 469) 12 10 858).setRegF (Reg.pwrReg 469) 0 12 3000).reg 0x1E83024 = 0x2735ABB8 := by
  decide +kernel

/-- Entry 0 of partition 1's castling table names e7.2 and e7.6 with REST (14_thermal.md). -/
theorem test_castling : (State.reset.setReg 0x0701040 0xE1D601D2).castleTable 1 = [(0, 1, 466, 470, true)] ∧
    (State.reset.setReg 0x0701040 0xE1D601D2).restRegions 1 = [470] := by decide +kernel

/-- After die f6 (index 50) is fenced, rank 6 has its hole at file f (16_faults_and_recovery.md). -/
theorem test_promotion : ((State.reset.setRegF (Reg.dhole 0) 20 4 5).reg (Reg.dhole 0)) = 0x88588888 ∧
    (State.reset.setRegF (Reg.dhole 0) 20 4 5).physDie 5 7 = 53 := by decide +kernel

/-- Witness of LogicalFilesSkipTheHole: a whole rank, and a short one. -/
theorem wit_holes : State.reset.dieHole 6 ≠ 15 ∧ (State.reset.setRegF (Reg.dhole 0) 24 4 15).dieHole 6 = 15 ∧
    (State.reset.setRegF (Reg.dhole 0) 24 4 15).physOf (6 * 2048) = none := by decide +kernel

/-! ### Single steps -/

/-- ADDI x5, x5, −1 wraps; the program counter moves on; the queue's rest stays. -/
theorem test_addi :
    let s : State := { busyC (fun c => c) with pending := [.addi w0 ⟨5, 5, 0x7FF⟩, .trap w0 .c] }
    ∃ t, step s = .next t ∧ (t.core k0).getX 5 = 0xFFFFFFFFFFFFFFFF ∧ (t.core k0).pc = 1 ∧ t.pending = [.trap w0 .c] := by
  refine ⟨_, rfl, by decide +kernel, by decide +kernel, by decide +kernel⟩

/-- HALT records its CODE, stops the core and halts the partition. -/
theorem test_halt : ∃ t, step { busy with pending := [.halt w0 ⟨0, 0x1234⟩] } = .next t ∧ (t.core k0).fault = ⟨0x0B, 3, 0x1234⟩ ∧ (t.core k0).st = 5 ∧
    (t.part 0).haltPend.isSome = true := by
  refine ⟨_, rfl, by decide +kernel, by decide +kernel, by decide +kernel⟩

/-- An SW of a misaligned address raises the scratchpad address error and stores nothing. -/
theorem test_misaligned : ∃ t, step { busyC (fun c => (c.setX 1 2).setX 2 7) with pending := [.sw w0 ⟨2, 1, 0⟩] } = .next t ∧ (t.core k0).fault = ⟨0x04, 0, 0⟩ ∧
    t.mem = [] := by
  refine ⟨_, rfl, by decide +kernel, by decide +kernel⟩

/-- ST is little-endian at base + IMM × 8; the load reads it back. -/
theorem test_store_load : ∃ t u, step { busyC (fun c => c.setX 2 0x0102030405060708) with pending := [.st w0 ⟨2, 0, 1⟩, .ld w0 ⟨3, 0, 1⟩] } = .next t ∧
    t.spadRd 0 8 8 = [8, 7, 6, 5, 4, 3, 2, 1] ∧ step t = .next u ∧ (u.core k0).getX 3 = 0x0102030405060708 := by
  refine ⟨_, _, rfl, by decide +kernel, rfl, by decide +kernel⟩

/-- The empty queue idles. -/
theorem test_idle : step State.reset = .next State.reset := rfl

end Sys2Proof.Tests
end

