-- ==== Sys2Proof/Tests/WitnessBoard.lean ====
section
/-! SUPPORT. For each statement about trust, registers, windows, power, heat, starts and management that has hypotheses, states
and operands that meet them, clause by clause. -/
namespace Sys2Proof.Tests

set_option Elab.async false

open Sys2Proof.Machine Sys2Proof.Claims

/-! ### Licences and firmware -/

/-- An object of a TYPE: header (Table 15-1) with zero signer and binding, body, a signature of zeros. -/
def object (ty svn : Nat) (body : List Byte) : List Byte :=
  leBytes 4 0x4A42594B ++ leBytes 2 ty ++ leBytes 2 0x80 ++ leBytes 4 body.length ++ leBytes 4 svn ++ List.replicate 112 0 ++ body ++
    List.replicate 96 0

def rootBody : List Byte := List.replicate 8 1
def certBody : List Byte := List.replicate 8 2

/-- A licence body: LICID 5, BASE and MX86, port 31, 2 panels, 1,024 contexts, 16 partitions. -/
def licence : List Byte :=
  leBytes 8 5 ++ [3, 1, 0, 0] ++ leBytes 4 3 ++ leBytes 4 0x80000000 ++ leBytes 2 2 ++ leBytes 2 1024 ++ [16] ++ List.replicate 7 0

def licenceObj : List Byte := object 0x20 7 licence
def baseImage : List Byte := object 5 7 (List.replicate 8 3)
def bookImage : List Byte := object 0x10 7 (List.replicate 8 4)

/-- What the uninterpreted functions must say for those objects to be signed by a certified key. -/
def Signed : Prop :=
  Config.sha384 (Config.certKey rootBody) = Config.romRootDigest ∧ sigOk (object 0x31 0 rootBody) (Config.certKey rootBody) = true ∧
  sigOk (object 0x30 0 certBody) (Config.certKey rootBody) = true ∧
  (digestBytes (Config.sha384 (Config.certKey rootBody))).take 8 = List.replicate 8 0 ∧
  (digestBytes (Config.sha384 (Config.certKey certBody))).take 8 = List.replicate 8 0 ∧ Config.certMask certBody = BitVec.allOnes 64 ∧
  (∀ b ∈ [licenceObj, baseImage, bookImage], sigOk b (Config.certKey certBody) = true) ∧
  digestBytes (Config.sha384 Config.identityKey) = List.replicate 48 0

/-- `hosted` with an identity, the root object and one certificate in flash A, and a base-die image and a book staged in slot 1. -/
def trusted : State :=
  let s := (hosted.setReg Reg.secStatus 0x80000000).setReg Reg.mgtState 0xF1000000
  { s with mgmt := { s.mgmt with
    flashA := [(slotKey 5 0, ⟨1, baseImage⟩), (slotKey 5 1, ⟨2, baseImage⟩), (slotKey 0x10 0, ⟨1, bookImage⟩), (slotKey 0x10 1, ⟨2, bookImage⟩),
      (slotKey 0x30 0, ⟨1, object 0x30 0 certBody⟩), (slotKey 0x31 0, ⟨1, object 0x31 0 rootBody⟩)] } }

theorem rootKey_trusted (h : Signed) : trusted.rootKey = some (Config.certKey rootBody) := by
  obtain ⟨h1, h2, -⟩ := h
  have e : trusted.flashObj false 0x31 0 = ⟨1, object 0x31 0 rootBody⟩ := by decide +kernel
  have b : objBody (object 0x31 0 rootBody) = rootBody := by decide +kernel
  have k : headerOk (object 0x31 0 rootBody) = true ∧ objType (object 0x31 0 rootBody) = 0x31 := by decide +kernel
  simp [State.rootKey, e, b, k, h1, h2]

theorem certificates_trusted (h : Signed) : trusted.certificates = [certBody] := by
  have r := rootKey_trusted h
  obtain ⟨-, -, h3, h4, -⟩ := h
  have e : (List.range 32).flatMap (fun i => [trusted.flashObj false 0x30 i, trusted.flashObj true 0x30 i]) =
      ⟨1, object 0x30 0 certBody⟩ :: List.replicate 63 noObj := by decide +kernel
  have k : headerOk (object 0x30 0 certBody) = true ∧ objType (object 0x30 0 certBody) = 0x30 ∧ ((object 0x30 0 certBody).drop 0x10).take 8 = List.replicate 8 0 ∧
      (((object 0x30 0 certBody).drop 0x18).take 48).all (· == 0) = true ∧ trusted.counter 9 ≤ objSvn (object 0x30 0 certBody) ∧
      objBody (object 0x30 0 certBody) = certBody ∧ headerOk noObj.bytes = false := by decide +kernel
  obtain ⟨k1, k2, k3, k4, k5, k6, k7⟩ := k
  simp only [State.certificates, r, e, List.filterMap_cons]
  simp [k1, k2, k3, k5, k6, k7, h3, h4, signedBy]
  rw [if_pos (by simpa using k4)]

/-- A signed object that is in order is not refused. -/
theorem objBad_signed (h : Signed) (b : List Byte) (l : List Nat) (hb : b ∈ [licenceObj, baseImage, bookImage]) (hl : l.contains (objType b) = true) :
    trusted.objBad l b = none := by
  have c := certificates_trusted h
  obtain ⟨-, -, -, -, h5, h6, h7, h8⟩ := h
  have hs := h7 b hb
  have k : ∀ b ∈ [licenceObj, baseImage, bookImage], headerOk b = true ∧ (b.drop 0x10).take 8 = List.replicate 8 0 ∧ objType b ≠ 0x13 ∧ objType b ≠ 0x30 ∧
      (BitVec.allOnes 64).getLsbD (familyBit (objType b)) = true ∧ (b.drop 0x18).take 48 = List.replicate 48 0 ∧
      (match counterOf (objType b) with | some i => decide (objSvn b < trusted.counter i) | none => false) = false := by decide +kernel
  obtain ⟨k1, k2, k3, k4, k5, k6, k7⟩ := k b hb
  have i : (trusted.reg Reg.secStatus).getLsbD 31 = true := by decide +kernel
  have sk : trusted.signerKey b = some (Config.certKey certBody) := by
    simp only [State.signerKey, k3, k4, c, List.find?_cons, signedBy, k2, h5, h6, k5, beq_self_eq_true, Bool.and_self, if_false]
    rfl
  simp only [State.objBad, k1, hl, sk, hs, k6, State.binding, i, h8]
  simp
  exact k7

theorem wit_licence (h : Signed) :
    let c := fresh (dsc 0x83 0 0 (adminOps 0x8000 256 0 0 0))
    let s := withCmd { trusted with hostMem := wrN trusted.hostMem 0x8000 licenceObj } 0 c
    startsB s 0x83 (ref 0) c = true ∧ c.sub = 0 ∧ c.fieldsOk true false = true ∧ s.input c = licenceObj ∧ c.iaddr + c.ilen ≤ 2 ^ 57 ∧
    trusted.objBad [0x20] licenceObj = none ∧ licenceOk (objBody licenceObj) = true ∧ (s.flashFail false = false) ∧
    trusted.objBad [0x20] [] = some 1 := by
  refine ⟨by decide +kernel, by decide +kernel, by decide +kernel, by decide +kernel, by decide +kernel, ?_, by decide +kernel, by decide +kernel, by decide +kernel⟩
  exact objBad_signed h _ _ (by simp) (by decide +kernel)

theorem wit_licence_remove :
    let c := fresh (dsc 0x83 0 0 (adminOps 0x8000 8 0 0 2))
    startsB (withCmd hosted 0 c) 0x83 (ref 0) c = true ∧ c.sub = 2 ∧ c.fieldsOk true false = true ∧ c.ilen = 8 ∧ c.iaddr + 8 ≤ 2 ^ 57 ∧
    hosted.licences = [] ∧ 2 ^ 57 < (fresh (dsc 0x83 0 0 (adminOps (2 ^ 57 - 8) 16 0 0 0))).iaddr + 16 := by decide +kernel

theorem slotObj_signed (h : Signed) : trusted.slotObj 5 0 = some ⟨1, baseImage⟩ ∧ trusted.slotObj 5 1 = some ⟨2, baseImage⟩ ∧
    trusted.slotObj 0x10 0 = some ⟨1, bookImage⟩ ∧ trusted.slotObj 0x10 1 = some ⟨2, bookImage⟩ := by
  have e : (trusted.flashObj false 5 0 = ⟨1, baseImage⟩ ∧ trusted.flashObj true 5 0 = noObj) ∧ (trusted.flashObj false 5 1 = ⟨2, baseImage⟩ ∧
      trusted.flashObj true 5 1 = noObj) ∧ (trusted.flashObj false 0x10 0 = ⟨1, bookImage⟩ ∧ trusted.flashObj true 0x10 0 = noObj) ∧
      trusted.flashObj false 0x10 1 = ⟨2, bookImage⟩ ∧ trusted.flashObj true 0x10 1 = noObj := by decide +kernel
  have n : ∀ l, trusted.objBad l noObj.bytes = some 1 := by
    intro l
    have : headerOk noObj.bytes = false := by decide +kernel
    simp [State.objBad, this]
  have a := objBad_signed h baseImage [5] (by simp) (by decide +kernel)
  have b := objBad_signed h bookImage [0x10] (by simp) (by decide +kernel)
  simp [State.slotObj, e, n, a, b]

/-- FW_STAGE and FW_ACTIVATE of the book and of the base-die firmware: fields, slots, units and counters as the clauses ask. -/
theorem wit_firmware (h : Signed) :
    let c := fresh (dsc 0x84 0 0 (adminOps 0x8000 232 0 0 0))
    let s := withCmd { trusted with hostMem := wrN trusted.hostMem 0x8000 bookImage } 0 c
    startsB s 0x84 (ref 0) c = true ∧ c.fieldsOk true false = true ∧ c.sub = 0 ∧ s.mgmt.update = false ∧ c.iaddr + c.ilen ≤ 2 ^ 57 ∧
    s.input c = bookImage ∧ trusted.firmwareBad bookImage = none ∧ trusted.firmwareBad [] = some 1 ∧ trusted.activeSlot 0x10 = 0 := by
  have k : ¬ objType bookImage ≤ 6 := by decide +kernel
  have a := objBad_signed h bookImage firmwareTypes (by simp) (by decide +kernel)
  have n : headerOk [] = false := by decide +kernel
  refine ⟨by decide +kernel, by decide +kernel, by decide +kernel, by decide +kernel, by decide +kernel, by decide +kernel, ?_, ?_, by decide +kernel⟩
  · simp [State.firmwareBad, a, k]
  · simp [State.firmwareBad, State.objBad, n]

theorem wit_activate (h : Signed) : (∀ m ∈ [0, 1, 2, 3], let c := fresh (dsc 0x85 0 0 (adminOps 0xFFFF 0 0 0 (5 * 2 ^ 16 + m)))
      startsB (withCmd trusted 0 c) 0x85 (ref 0) c = true ∧ c.fwType = 5 ∧ c.fwMode = m ∧ c.sub / 16 % 4096 = 0 ∧
      c.u32 0x14 = 0 ∧ (c.desc.drop 0x28).all (· == 0) = true ∧ c.ilen = 0 ∧ c.oaddr = 0 ∧ c.olen = 0 ∧ c.iaddr < 2 ^ 16) ∧
    trusted.liveUnits 5 0xFFFF ≠ [] ∧ trusted.liveUnits 0x10 0xFFFF = [] ∧ trusted.slotObj 5 1 = some ⟨2, baseImage⟩ ∧
    trusted.slotObj 5 0 = some ⟨1, baseImage⟩ ∧ trusted.activeObj 0x10 = some ⟨1, bookImage⟩ ∧ counterOf 0x10 = some 6 ∧
    trusted.firmwareBad bookImage ≠ some 7 := by
  have w := (wit_firmware h).2.2.2.2.2.2.1
  refine ⟨by decide +kernel, by decide +kernel, by decide +kernel, (slotObj_signed h).2.1, (slotObj_signed h).1, ?_, by decide +kernel, by simp [w]⟩
  have a : trusted.activeSlot 0x10 = 0 := by decide +kernel
  simp [State.activeObj, a, (slotObj_signed h).2.2.1]

/-- No image is staged where the flashes are empty. -/
theorem wit_activate_none : hosted.slotObj 0x10 1 = none ∧ ({ hosted with mgmt := { hosted.mgmt with update := true } } : State).mgmt.update = true := by
  decide +kernel

/-! ### Registers, ports and windows -/

theorem wit_registers : State.reset.hifOn = false ∧ hosted.hifOn = true ∧ (State.reset.part 15).st = 0 ∧ (fab.part 0).st ≠ 0 ∧ (fab.part 0).st ≠ 2 ∧
    (fab.part 0).st ≠ 3 ∧ ((State.reset.setReg Reg.msixPba 1).reg (Reg.msixPba + 0 / 32 * 4)).getLsbD (0 % 32) = true ∧
    ¬ (0x0400100 ≤ Reg.apctl ∧ Reg.apctl < 0x0400300) := by decide +kernel

/-- A panel licensed for two. -/
def two : State := fab.setReg Reg.llim 0x00202100

theorem wit_route : (0x80000021 : W32).getLsbD 31 = true ∧ two.limPanels - 1 < 1 + 1 ∧ (0x80000001 : W32).getLsbD 5 = false ∧ 0 + 2 ≤ two.limPanels ∧
    (two.regs.filter (fun e => decide (Reg.sylRoute 0 ≤ e.1) && decide (e.1 < Reg.sylRoute 4096) && e.1 != Reg.sylRoute 4095 && e.2.getLsbD 31)).length + 2 ≤
      two.limPanels ∧ ((two.setReg (Reg.sylRoute 4095) 0x80000020).reg (Reg.sylRoute 4095)).getLsbD 31 = true ∧ 4095 ≠ two.ownId ∧
    (two.stream 4095 0).opened = false ∧ (fab.part 0) ≠ Part.reset := by decide +kernel

theorem wit_ports :
    let s := State.reset.setReg (Reg.dmember 0) 0x80000000
    let e := hosted.modRing 0 (fun g => { g with log := [(0, [1])] })
    s.hifOn = false ∧ s.listed s.ownId = true ∧ s.regF Reg.mgtState 28 4 ≠ 0xD ∧ s.regF Reg.mgtState 28 4 ≠ 0xE ∧ hosted.hifOn = true ∧
    State.reset.listed State.reset.ownId = false ∧ s.host.started = false ∧ ({ s.host with started := true }).started = true ∧ hosted.host.down = false ∧
    ({ hosted with host := { hosted.host with down := true, up1 := true } } : State).host.up1 = true ∧ hosted.host.active = false ∧
    hosted.rings.all (fun e => e.2.log.isEmpty) = true ∧ (e.ring 0).log = [(0, [1])] := by decide +kernel

/-- A host port whose I/O die is in the defect map, and one whose is not. -/
theorem wit_host_port :
    let s : State := { hosted with defects := [⟨1, 0xA, 0, 3, 4, hosted.life, 0⟩] }
    s.portLost true = true ∧ s.portLost false = false ∧ hosted.portLost true = false := by decide +kernel

/-- A buddy that changes, and one that stays. -/
theorem wit_buddy :
    let s := hosted.modPart 0 (fun q => { q with positions := [{ fab.snapshot 0 with buddy := true }] })
    (s.part 0) ≠ Part.reset ∧ (s.setReg Reg.buddy 0x80000001).remoteBuddy = some 1 ∧ s.remoteBuddy = none ∧
    (s.part 0).positions.map (fun c => c.buddy) = [true] := by decide +kernel

theorem wit_dark_latch : (fab.die (dieOf 0)).dark = false ∧ ((fab.modDie 0 (fun d => { d with dark := true })).die (dieOf 0)).dark = true := by
  decide +kernel

/-- The aperture open on partition 0 at the start of HBM. -/
def window : State := fab.setReg Reg.apctl 0x80001000

theorem wit_aperture : (window.reg Reg.apctl).getLsbD 31 = true ∧ (fab.reg Reg.apctl).getLsbD 31 = false ∧ window.regF Reg.apctl 0 14 * 2 ^ 30 = 0x40000000000 ∧
    (∀ i < 8, window.granted (some 0) (sliceOf (0x40000000000 + i)) true = true ∧ window.stackLost (stackOf (0x40000000000 + i)) = false ∧
      stackOf (0x40000000000 + i) ∉ window.rails.stacksOff) ∧ (∀ i < 8, window.writeHeld (0x40000000000 + i) = false) ∧
    (∀ x ∈ unitsOf 0x40000000000 8, window.hbm.ueAt x = false ∧ window.hbm.missAt x = false ∧ x ∉ window.hbm.poison) ∧ 0xF0000000000 ≤ ((fab.setReg Reg.apctl 0x80003C00).regF Reg.apctl 0 14) * 2 ^ 30 ∧
    (let s : State := { window with hbm := { window.hbm with poison := unitsOf 0x40000000000 8 } }
     ∃ x ∈ unitsOf 0x40000000000 8, x ∈ s.hbm.poison) := by
  refine ⟨by decide +kernel, by decide +kernel, by decide +kernel, by decide +kernel, by decide +kernel, by decide +kernel, by decide +kernel, ?_⟩
  decide +kernel

theorem wit_window : (∀ n ∈ [2, 4], ((hosted.modRing 63 (fun g => { g with window := ⟨n, 1, 0, 1, 0, []⟩ })).ring 63).window.state = n) ∧
    (hosted.ring 63).window.state = 0 ∧ ((hosted.modPart 15 (fun q => { q with positions := [fab.snapshot 15] })).part 15).positions = [fab.snapshot 15] ∧
    (hosted.part 15).positions = [] := by decide +kernel

/-! ### Power -/

/-- `busy` with its first die's rails and clocks on, feeds A and B good, and its tile's modules running. -/
def powered : State :=
  (List.range 8).foldl (fun t m => t.setReg (Reg.pwrCm m) 0x10000000) (((fab.setReg Reg.pwrStatus 0x30000000).setRail 1 2).setReg (Reg.pwrTile 0) 0x8000050C)

theorem wit_feeds : powered.regF Reg.pwrStatus 30 2 = 0 ∧ powered.regF Reg.pwrStatus 28 1 = 1 ∧ powered.regF Reg.pwrStatus 29 1 = 1 ∧
    (powered.setReg Reg.pwrStatus 0x20000000).regF Reg.pwrStatus 28 1 = 0 ∧ (powered.setReg Reg.pwrStatus 0x60000000).regF Reg.pwrStatus 30 2 = 1 ∧
    (powered.setReg Reg.pwrStatus 0x80000000).regF Reg.pwrStatus 30 2 = 2 := by decide +kernel

theorem wit_converters : powered.regF (Reg.pwrCm 7) 28 4 = 1 ∧ 5 ≤ powered.regF (Reg.pwrTile (7 / 8)) 28 4 - 1 ∧
    (powered.setReg (Reg.pwrTile 0) 0x50000000).regF (Reg.pwrTile 0) 28 4 - 1 ≤ 4 ∧ powered.regF (Reg.pwrCm 95) 28 4 ≠ 1 ∧
    powered.partOfRank (rankOfDie 2) = some 0 ∧ 2 ∈ diesOfTile 0 ∧ powered.regF (Reg.pwrDie 143) 31 1 = 0 ∧
    (powered.setReg (Reg.pwrDie 143) 0x80000000).regF (Reg.pwrDie 143) 31 1 = 1 ∧ (∃ e ∈ powered.parts, 0 < e.2.height ∧ e.2.st = 1) := by
  decide +kernel

theorem wit_phases :
    let hot := powered.modRegion 0 (fun g => { g with out := [(0, 9)] })
    let six := (hot.setReg (Reg.pwrReg 0) 0x26000000)
    let bond := (hot.setReg (Reg.pwrReg 0) 0x28800000)
    let amps := [100, 0, 0, 0, 0, 0, 0, 0]
    let even := [10, 10, 10, 10, 10, 10, 10, 10]
    (0 : Nat) ∉ (powered.region 0).lost ∧ sget 0 (hot.region 0).out 0 = 9 ∧ sget 0 (powered.region 0).out 0 + 1 < 10 ∧
    ¬ ((amps.sum ≤ 4 * amps.getD 0 0 * 8) ∧ 4 * amps.getD 0 0 * 8 ≤ 7 * amps.sum) ∧ even.sum ≤ 4 * even.getD 0 0 * 8 ∧ 4 * even.getD 0 0 * 8 ≤ 7 * even.sum ∧
    0 < hot.regF (Reg.pwrReg 0) 24 4 ∧ 6 ≤ hot.regF (Reg.pwrReg 0) 24 4 - 1 ∧ six.regF (Reg.pwrReg 0) 24 4 - 1 < 6 ∧ six.railState 0 ≠ 4 ∧
    bond.regF (Reg.pwrReg 0) 23 1 = 1 ∧ hot.regF (Reg.pwrReg 0) 23 1 = 0 ∧ 0 ∈ ((powered.modRegion 0 (fun g => { g with lost := [0] })).region 0).lost ∧
    powered.partOfRank (rankOfDie (0 / 8)) = some 0 := by decide +kernel

theorem wit_trips :
    let old := powered.modRegion 0 (fun g => { g with trips := [powered.life, powered.life] })
    let one := powered.modRegion 0 (fun g => { g with trips := [powered.life + 1] })
    2 ≤ ((old.region 0).trips.filter (fun h => h == old.life)).length ∧ ((powered.region 0).trips.filter (fun h => h == powered.life)).length = 0 ∧
    (∀ h ∈ (one.region 0).trips, h + 1 ≠ one.life) ∧ powered.partOfRank (rankOfDie 9) = none := by decide +kernel

theorem wit_hints :
    let s := powered.modCore k0 (fun c => { c with hints := [(15, 0, false)] })
    (s.core k0).hints = [(15, 0, false)] ∧ (powered.core k0).hints = [] ∧
    s.announced (regionOf k0) < (s.modCore k0 (fun c => { c with hints := markHint (s.core k0).hints })).announced (regionOf k0) := by decide +kernel

theorem wit_regions :
    let st (n : Nat) : State := powered.setRail 0 n
    (∀ n ∈ [0, 1, 2, 3, 4, 5], (st n).railState 0 = n) ∧ (powered.region 0).droop = false ∧ 6 ≤ powered.phases 0 ∧ (powered.die (0 / 8)).dark = false ∧
    (powered.die (0 / 8)).fenced = false ∧ ((powered.modRegion 0 (fun g => { g with droop := true })).region 0).droop = true ∧
    (st 3).admits 0 = true ∧ ((st 3).setReg (Reg.pwrDie 0) 0).admits 0 = false ∧ ((st 3).reg Reg.pwrStatus).getLsbD 27 = false ∧
    ((powered.setReg Reg.pwrStatus 0x38000000).reg Reg.pwrStatus).getLsbD 27 = true := by decide +kernel

theorem wit_samples : powered.contW = 21000 ∧ (21001 : BitVec 16).toNat = 21001 ∧ 24000 < (24001 : BitVec 16).toNat ∧ 26000 < (26001 : BitVec 16).toNat ∧
    (19499 : BitVec 16).toNat < powered.contW - 1500 ∧ (20501 : BitVec 16).toNat > powered.contW - 500 := by decide +kernel

/-! ### Heat -/

theorem wit_sensor : (816 ≤ sensorCount 3) ∧ 2303 < sensorCount 1 ∧ plausible 1 none 150 0 = true ∧ plausible 1 none 151 0 = false ∧
    plausible 1 (some 100) 120 1000 = true ∧ plausible 1 (some 100) 121 1000 = false ∧ powered.levelOf 1 0 < 4 ∧ powered.railState 0 ≠ 4 ∧
    powered.partOfRank (rankOfDie (0 / 8)) = some 0 ∧ levelFor 1 (powered.unitTemp 1 0) ≤ powered.levelOf 1 0 := by decide +kernel

/-- The two sensors of region 0 read 101 °C and a value. -/
def warm (x : Int) (l : Nat) : State :=
  (powered.modRails (fun t => { t with sensors := [(65536, ⟨some 101, true⟩), (65537, ⟨some x, true⟩)] })).setLevel 1 0 l

def unit0 : UnitId := ⟨1, 0⟩

theorem wit_flagged : (warm 94 0).readings 1 0 = [101, 94] ∧ (warm 95 0).readings 1 0 = [101, 95] ∧ (warm 94 0).isFlagged 1 0 = false ∧ (6 : Int) < 101 - 94 ∧
    powered.readings 1 0 = [] ∧ powered.isBlind 1 0 = false ∧ (sensorsOf 1 0).headD 0 < sensorCount 1 ∧ (sensorsOf 1 1152).headD 0 = sensorCount 1 ∧
    (sensorsOf 2 575).headD 0 < sensorCount 2 ∧ (sensorsOf 3 431).headD 0 < sensorCount 3 ∧ powered.readings 2 575 = [] ∧ powered.readings 3 431 = [] := by
  decide +kernel

theorem wit_levels : (warm 94 2).unitTemp 1 0 = some 101 ∧ threshold 1 2 = some 100 ∧ (100 : Int) - 5 < 101 ∧ threshold 1 4 = some 115 ∧
    (warm 94 4).levelOf 1 0 = 4 ∧ (101 : Int) ≤ 115 - 5 ∧ powered.unitTemp 1 0 = none := by decide +kernel

theorem wit_caps :
    let floor := (warm 94 2).modRegion 0 (fun g => { g with thermal := 800, floorMs := 9 })
    let rest := ((warm 94 2).setReg (Reg.cpair 0 0) 0xE0000001)
    let forced := (powered.setLevel 2 1 2).modRails (fun t => { t with floor := [(1, 1)] })
    (warm 94 2).isBlind 1 0 = false ∧ (warm 94 2).regionTemp 0 = some 101 ∧ ((warm 94 2).region 0).thermal ≠ 800 ∧ (floor.region 0).thermal = 800 ∧
    9 ≤ (floor.region 0).floorMs ∧ floor.levelOf 1 0 = 2 ∧ powered.routerForces 0 = false ∧ powered.levelOf 1 0 < 2 ∧ forced.routerForces 0 = true ∧
    forced.regionTemp 0 = none ∧ 0 ∈ rest.restRegions 0 ∧ rest.railState 0 ≠ 4 ∧
    ((powered.modRails (fun t => { t with blind := [65536] })).isBlind 1 0 = true) := by decide +kernel

theorem wit_router : 575 ∉ powered.rails.stopped ∧ powered.isBlind 2 575 = false ∧ (powered.setLevel 2 575 2).levelOf 2 575 = 2 ∧ powered.levelOf 2 575 < 2 ∧
    powered.regF (Reg.er 143 3) 0 12 = 2000 ∧ ((powered.setRouter 143 3 1400).regF (Reg.er 143 3) 0 12) = 1400 ∧
    575 ∈ (powered.modRails (fun t => { t with stopped := [575] })).rails.stopped := by decide +kernel

/-- Region 0 holds rest work, is off for heat, stays so while idle (REST_OFF 0), and reads 84 °C. -/
def resting : State :=
  (((powered.modRails (fun t => { t with sensors := [(65536, ⟨some 84, true⟩)] })).setReg (Reg.cpair 0 0) 0xE0000001).setReg Reg.thmCfg 0x80000000).setRail 0 5

theorem wit_rest : resting.partOfRank (rankOfDie (0 / 8)) = some 0 ∧ resting.railState 0 = 5 ∧ 0 ∈ resting.restRegions 0 ∧
    (resting.reg Reg.thmCfg).getLsbD 30 = false ∧ resting.regionTemp 0 = some 84 ∧ 6 ≤ resting.phases 0 ∧ (resting.die (0 / 8)).dark = false ∧
    (resting.die (0 / 8)).fenced = false ∧ powered.railState 0 ≠ 5 := by decide +kernel

theorem wit_restart :
    let s := (powered.setReg (Reg.pwrTile 0) 0x70000000).modRails (fun t => { t with modulesOff := [7], sensors := [(5 * 65536 + 14, ⟨some 99, true⟩)] })
    7 ∈ s.rails.modulesOff ∧ s.unitTemp 5 7 = some 99 ∧ s.regF (Reg.pwrTile (7 / 8)) 28 4 = 7 ∧ 7 ∉ powered.rails.modulesOff := by decide +kernel

theorem wit_fluid :
    let s (f : W32) (x : Int) := ((powered.modRails (fun t => { t with sensors := [(6 * 65536, ⟨some x, true⟩)] })).setReg Reg.thmFluid f)
    (s 900 40).regF Reg.thmFluid 0 16 = 900 ∧ (s 900 40).pairTemp 6 0 = some 40 ∧ (s 900 40).fluidBlind = false ∧ (s 299 40).regF Reg.thmFluid 0 16 < 300 ∧
    (s 300 51).pairTemp 6 0 = some 51 ∧ (s 300 50).pairTemp 6 0 = some 50 ∧ 300 ≤ (s 300 50).regF Reg.thmFluid 0 16 := by decide +kernel

/-! ### Starts, training, the TAP -/

/-- A start with dual feeds, both flashes and the identity; and its variants. -/
def report : StartReport :=
  { pm := 0, hpsel := false, pufA := true, pufB := false, flashA := true, flashB := true, inlet := 45, flow := 600, records := [], found := [], tenths := 0 }

theorem wit_starts : ({ report with flashA := false, flashB := false }).flashA = false ∧ ({ report with pufA := false }).pufB = false ∧ 600 ≤ report.flow ∧
    report.inlet ≤ 45 ∧ ({ report with flow := 599 }).flow < 600 ∧ 45 < ({ report with inlet := 46 }).inlet := by decide

theorem wit_warm : (trusted.reg Reg.secStatus).getLsbD 31 = true ∧ trusted.regF Reg.pwrStatus 30 2 ≠ 3 ∧ trusted.regF Reg.mgtState 28 4 ≠ 0xD ∧
    trusted.regF Reg.mgtState 28 4 ≠ 0 ∧ trusted.rails.dark = false ∧ (hosted.reg Reg.secStatus).getLsbD 31 = false ∧
    trusted.regF Reg.mgtState 26 1 = 0 ∧ (trusted.setReg Reg.mgtState 0xF4000000).regF Reg.mgtState 26 1 = 1 := by decide +kernel

/-- `trusted` with a live session of path 1 that has agreed everything. -/
def session : State :=
  { trusted with mgmt := { trusted.mgmt with sessions := [⟨9, 1, true, 0⟩], conns := [(1, ⟨true, true, true⟩)] } }

theorem wit_vendor : ∃ x ∈ session.mgmt.sessions, x.live = true ∧ x.path = 1 ∧ (SpdmCtx.mk 1 (some 9)).session = some x.id := by decide +kernel

theorem wit_training : (State.reset.setReg (Reg.sylPort 31) 0x10000000).regF (Reg.sylPort 31) 28 4 = 1 ∧ State.reset.regF (Reg.sylPort 31) 28 4 ≠ 1 ∧
    (4095 : BitVec 13).toNat ≠ two.ownId ∧ (4095 : BitVec 13).toNat < 4096 ∧ State.reset.stackState 47 ≠ 4 ∧ State.reset.stackState 47 ≠ 3 ∧
    ((State.reset.setReg (Reg.sstat 47) 0x30000000).stackState 47 = 3) ∧ (0 : Fin 12) ≠ 11 := by decide +kernel

/-- A mesh lane of a die outside every partition, and of a partition that trains it, before or for a replay. -/
theorem wit_mesh_training :
    let s := fab.setDlink 0 .e 2 3
    let t := (s.modPart 0 (fun q => { q with retrain := some 0, positions := [fab.snapshot 0] }))
    fab.partOfRank (rankOfDie 143) = none ∧ fab.partOfRank (rankOfDie 0) = some 0 ∧ s.regF (Reg.dlink 0 1) 4 2 = 3 ∧
    (fab.setDlink 0 .e 2 0).regF (Reg.dlink 0 1) 4 2 ≠ 3 ∧ (s.part 0).retrain = none ∧ (t.part 0).retrain = some 0 ∧
    (t.part 0).positions.length = 1 ∧ t.regF (Reg.dlink 0 1) 4 2 = 3 := by decide +kernel

/-- A port that serves a partition's path to a child panel. -/
theorem wit_port_path : ∃ c ∈ (member.part 0).children, c.2.1 = (2 : Fin 32).val ∨ c.2.2 = (2 : Fin 32).val := by decide +kernel

/-- A site that waits to be zeroed, and memory without one. -/
theorem wit_stale_site :
    let s := trusted.modDie 143 (fun d => { d with stale := [271] })
    271 ∈ (s.die 143).stale ∧ s.siteFenced (143 * 272 + 271) = false ∧ (s.die 143).dark = false ∧ (trusted.die 0).stale = [] ∧ trusted.hbm.repair = [] := by decide +kernel

theorem wit_tap : (∀ n ∈ [1, 2, 3, 0xD, 0xE], (State.reset.setRegF Reg.mgtState 28 4 n).regF Reg.mgtState 28 4 = n) ∧
    trusted.regF Reg.mgtState 28 4 = 0xF ∧ ¬ (2 < (2 : Nat)) ∧ 2 < (3 : Nat) := by decide +kernel

/-! ### Attestation and updates -/

theorem wit_spdm : hosted.spdmOn = false ∧ trusted.spdmOn = true ∧ trusted.inContext ⟨0, none⟩ = true ∧ trusted.inContext ⟨1, some 9⟩ = false ∧
    session.inContext ⟨1, some 9⟩ = true ∧ (trusted.conn 0).version = false ∧ (session.conn 1) = ⟨true, true, true⟩ ∧ (1 : Nat) ∈ [1] ∧ (1 : Nat) ∉ [2] ∧
    session.mgmt.chain1 = [] ∧ ({ session with mgmt := { session.mgmt with chain1 := [1] } } : State).mgmt.chain1 ≠ [] ∧
    session.mgmt.sessions.length < 4 ∧ (∀ x ∈ session.mgmt.sessions, x.id ≠ 8) ∧ (∃ x ∈ session.mgmt.sessions, x.id = 9) ∧
    4 ≤ ({ session with mgmt := { session.mgmt with sessions := List.replicate 4 ⟨9, 1, true, 0⟩ } } : State).mgmt.sessions.length := by decide +kernel

theorem wit_finish_spdm :
    let s : State := { trusted with mgmt := { trusted.mgmt with sessions := [⟨9, 1, false, 0⟩] } }
    s.spdmOn = true ∧ (∃ x ∈ s.mgmt.sessions, x.live = false ∧ x.path = 1 ∧ some 9 = some x.id) ∧ (∀ x ∈ trusted.mgmt.sessions, x.live = true) := by
  decide +kernel

theorem wit_update :
    let c : Cmd := { fresh (dsc 0x84 0 0 []) with started := true }
    let open' : State := { trusted with mgmt := { trusted.mgmt with update := true } }
    (withCmd hosted 0 c).fwRuns = true ∧ c.fin = none ∧ hosted.fwRuns = false ∧ hosted.mgmt.update = false ∧ open'.mgmt.update = true ∧
    open'.regF Reg.mgtState 28 4 ≠ 0xD ∧ (open'.setReg Reg.mgtState 0xD0000000).regF Reg.mgtState 28 4 = 0xD ∧ open'.flashFail false = false ∧
    objType [] ≠ 1 ∧ open'.slotObj 1 1 = none := by decide +kernel

/-- Memory in canonical form is where a step may begin. -/
theorem wit_canonical : MemOk State.reset ∧ MemOk hosted := by
  refine ⟨⟨?_, ?_⟩, ?_, ?_⟩ <;> decide +kernel

end Sys2Proof.Tests
end

