-- ==== Sys2Proof/Tests/WitnessCore.lean ====
section
/-! SUPPORT. For each statement about cores that has hypotheses, states and operands that meet them, clause by clause, at the
ends of the ranges that the clauses name. -/
namespace Sys2Proof.Tests

set_option Elab.async false

open Sys2Proof.Machine Sys2Proof.Claims

/-! ### Queue, registers, issuing -/

theorem wit_step : (({ State.reset with pending := [.stackPatrol 0] } : State).pending = .stackPatrol 0 :: []) ∧ State.reset.pending = [] :=
  ⟨rfl, rfl⟩

theorem wit_words : (SlotOp.addi ⟨1, 2, 3⟩).slot = some .c ∧ (SlotOp.vst ⟨1, 2, 0⟩).slot = some .v ∧
    (SlotOp.mcfg ⟨1, true, 0⟩).slot = some .m ∧ (SlotOp.arr ⟨1, 2, 0, 0⟩).slot = some .x := ⟨rfl, rfl, rfl, rfl⟩

theorem wit_fixed : (31 : BitVec 5) ≠ 0 ∧ (7 : BitVec 3) ≠ 0 := by decide +kernel

theorem wit_predicates : ∀ op ∈ [SlotOp.pcmp ⟨7, 31, 0, 0, 0⟩, .pcmp ⟨1, 1, 2, 5, 0⟩, .plog ⟨1, 2, 3, 0, 0, 0⟩, .plog ⟨7, 2, 3, 3, 0, 0⟩,
    .pset ⟨1, 0, 0, 0, 4, 0⟩, .pget ⟨0, 7, 0, 0, 31, 0⟩], Fires busy w0 .c op := fires_all (by decide +kernel)

theorem wit_ready : Ready busy w0.core := (issues_of (op := .nop) (sl := .c) (w := w0) (by decide +kernel)).1.1

/-- A bundle whose X slot holds ARR 0 of x5 beside the C slot. -/
def wArr : Issue := { w0 with rest := wordOf ⟨.arr ⟨0, 5, 0, 0⟩, false, 0⟩ ++ wordOf ⟨.nop, false, 0⟩ ++ wordOf ⟨.nop, false, 0⟩ ++ wordOf ⟨.nop, false, 0⟩ }

theorem wit_reads_first :
    let b := bundleOf wArr .c (.addi ⟨5, 1, 1⟩)
    b.x = ⟨.arr ⟨0, 5, 0, 0⟩, false, 0⟩ ∧ b.v.op = .nop ∧ b.m.op = .nop ∧ Ready busy wArr.core ∧
    holdReason busy wArr.core b = none ∧ bundleEncodingBad b = none ∧ (busy.core wArr.core).predBit wArr.pn wArr.pred 0 = true ∧
    (busy.core wArr.core).predBit false 0 0 = true ∧ busy.inGroup wArr.core 0 = true ∧
    (busy.core wArr.core).arrOut.getLsbD 0 = false := by
  refine ⟨by decide +kernel, by decide +kernel, by decide +kernel, wit_ready, ?_⟩
  decide +kernel

/-! ### The C slot -/

theorem wit_alu : ∀ op ∈ (List.range 0x14).map (fun n => SlotOp.alu ⟨31, 1, if 0x11 ≤ n then 0 else 2, BitVec.ofNat 6 n⟩), Fires busy w0 .c op :=
  fires_all (by decide +kernel)

theorem wit_immediates : ∀ op ∈ [SlotOp.addi ⟨1, 2, 0x7FF⟩, .andi ⟨1, 2, 0x400⟩, .ori ⟨1, 2, 3⟩, .xori ⟨1, 2, 3⟩, .slli ⟨1, 2, 63⟩, .srli ⟨1, 2, 63⟩,
    .srai ⟨1, 2, 0⟩, .clti ⟨0, 2, 3⟩, .li ⟨1, 0x8000⟩, .insh1 ⟨1, 7⟩, .insh2 ⟨1, 7⟩, .insh3 ⟨31, 7⟩], Fires busy w0 .c op :=
  fires_all (by decide +kernel)

/-- x1 holds v. -/
def withX1 (v : W64) : State := busyC (fun c => c.setX 1 v)

theorem wit_load_good :
    (∀ op ∈ [SlotOp.ld ⟨2, 1, 0⟩, .lws ⟨2, 1, 1⟩, .lwz ⟨2, 1, 1⟩], Fires (withX1 0x1FFFF8) w0 .c op) ∧
    ((((withX1 0x1FFFF8).core k0).getX 1).toNat : Int) + (0 : BitVec 11).toInt * 8 = 0x1FFFF8 ∧
    ((((withX1 0x1FFFF8).core k0).getX 1).toNat : Int) + (1 : BitVec 11).toInt * 4 = 0x1FFFFC ∧
    ((withX1 0x1FFFF8).core k0).badRow (wordsOf 0x1FFFF8 8) = none ∧ ((withX1 0x1FFFF8).core k0).badRow (wordsOf 0x1FFFFC 4) = none :=
  ⟨fires_all (by decide +kernel), by decide +kernel⟩

theorem wit_load_misaligned : Fires (withX1 1) w0 .c (.ld ⟨2, 1, 0⟩) ∧ Fires (withX1 0x200000) w0 .c (.lwz ⟨2, 1, 0⟩) ∧
    Fires (withX1 0) w0 .c (.lws ⟨2, 1, 0x7FF⟩) ∧
    (((((withX1 1).core k0).getX 1).toNat : Int) + (0 : BitVec 11).toInt * 8) % 8 ≠ 0 ∧
    0x1FFFFF < (((((withX1 0x200000).core k0).getX 1).toNat : Int) + (0 : BitVec 11).toInt * 4) ∧
    (((((withX1 0).core k0).getX 1).toNat : Int) + (0x7FF : BitVec 11).toInt * 4) < 0 :=
  ⟨fires_of (by decide +kernel), fires_of (by decide +kernel), fires_of (by decide +kernel), by decide +kernel, by decide +kernel, by decide +kernel⟩

/-- `busy` with a strict program, whose claim set gives bank 0 to the north input. -/
def strict : State := busy.modPart 0 (fun q => { q with prog := some { prog1 with strict := true } })

/-- A bundle beside which that input asks for bank 0. -/
def wRival : Issue := { w0 with rivals := [⟨5, 0⟩] }

theorem wit_access_lost : ∀ op ∈ [SlotOp.ld ⟨2, 1, 0⟩, .lws ⟨2, 1, 1⟩, .lwz ⟨2, 1, 1⟩, .st ⟨2, 1, 0⟩, .sw ⟨2, 1, 1⟩],
    Passes strict wRival .c op ∧ ¬ Granted strict wRival .c op ∧ (strict.core k0).predBit false 0 0 = true ∧
    (strict.core k0).badRow (wordsOf 0 8) = none ∧ (strict.core k0).badRow (wordsOf 4 4) = none := by
  intro op ho
  refine ⟨passes_of ?_, ?_, by decide +kernel, by decide +kernel, by decide +kernel⟩
  · exact List.all_eq_true.mp (show ([SlotOp.ld ⟨2, 1, 0⟩, .lws ⟨2, 1, 1⟩, .lwz ⟨2, 1, 1⟩, .st ⟨2, 1, 0⟩, .sw ⟨2, 1, 1⟩].all
      (passesB strict wRival .c)) = true by decide +kernel) op ho
  · have h := List.all_eq_true.mp (show ([SlotOp.ld ⟨2, 1, 0⟩, .lws ⟨2, 1, 1⟩, .lwz ⟨2, 1, 1⟩, .st ⟨2, 1, 0⟩, .sw ⟨2, 1, 1⟩].all
      (fun op => slotDenied strict k0 (asks strict wRival .c op) ⟨op, false, 0⟩ 3)) = true by decide +kernel) op ho
    intro g
    exact Bool.noConfusion (h.symm.trans g)

/-- Row 0 of the scratchpad is poisoned. -/
def poisoned : State := busyC (fun c => { c with poison := [(0, some 0)] })

theorem wit_load_poisoned : Fires poisoned w0 .c (.ld ⟨2, 1, 0⟩) ∧ (poisoned.core k0).badRow (wordsOf 0 8) = some 0 :=
  ⟨fires_of (by decide +kernel), by decide +kernel⟩

theorem wit_store : Fires (withX1 0x1FFFF8) w0 .c (.st ⟨2, 1, 0⟩) ∧ Fires (withX1 0x1FFFF8) w0 .c (.sw ⟨2, 1, 1⟩) ∧
    Fires (withX1 2) w0 .c (.sw ⟨2, 1, 0⟩) ∧ (((((withX1 2).core k0).getX 1).toNat : Int) + (0 : BitVec 11).toInt * 4) % 4 ≠ 0 :=
  ⟨fires_of (by decide +kernel), fires_of (by decide +kernel), fires_of (by decide +kernel), by decide +kernel⟩

theorem wit_branches : (∀ op ∈ [SlotOp.brcEq ⟨1, 2, 0x7FF⟩, .brcNe ⟨1, 2, 5⟩, .brcLt ⟨1, 2, 5⟩, .brcGe ⟨1, 2, 5⟩, .brcLtu ⟨1, 2, 5⟩,
      .brcGeu ⟨1, 2, 5⟩, .j ⟨1, 0, 0x1FFF⟩, .jr ⟨1, 2, 0, 0⟩, .loop ⟨1, 0, 3⟩], Fires (withX1 1) w0 .c op) ∧
    ((withX1 1).core k0).getX 1 ≠ ((withX1 1).core k0).getX 2 ∧
    ¬ (((withX1 1).core k0).getX 1).toInt < (((withX1 1).core k0).getX 2).toInt := ⟨fires_all (by decide +kernel), by decide +kernel⟩

/-- Four loops are active, and the core is at the last bundle of the innermost. -/
def looping : State := busyC (fun c => { c.setX 1 1 with loops := [⟨0, 1, 2⟩, ⟨0, 2, 1⟩, ⟨0, 3, 1⟩, ⟨0, 4, 1⟩] })

theorem wit_loops : Fires looping w0 .c (.loop ⟨1, 0, 3⟩) ∧ Fires looping w0 .c (.loop ⟨2, 0, 3⟩) ∧
    (looping.core k0).loops.length = 4 ∧ ((looping.core k0).getX 1).toNat % 2 ^ 32 = 1 ∧ ((looping.core k0).getX 2).toNat % 2 ^ 32 = 0 ∧
    (looping.core k0).pc = (0 : BitVec 13) + BitVec.ofNat 13 1 - 1 ∧ (busy.core k0).loops = [] :=
  ⟨fires_of (by decide +kernel), fires_of (by decide +kernel), by decide +kernel⟩

theorem wit_csr_read : (∀ op ∈ [0x000, 0x001, 0x002, 0x003, 0x004, 0x005, 0x006, 0x007, 0x008, 0x00F, 0x010, 0x011, 0x012, 0x013, 0x014, 0x01F,
      0x020, 0x021, 0x022, 0x023, 0xFFF].map (fun n => SlotOp.csrr ⟨1, 0, BitVec.ofNat 12 n⟩), Fires busy w0 .c op) ∧
    busy.logicalOf k0 = some 0 ∧ busy.partOfCore k0 = some 0 := ⟨fires_all (by decide +kernel), by decide +kernel⟩

theorem wit_csr_write : (∀ op ∈ [0x000, 0x00F, 0x010, 0x011, 0x012, 0x013, 0x014].map (fun n => SlotOp.csrw ⟨1, 0, BitVec.ofNat 12 n⟩),
      Fires (withX1 4) w0 .c op) ∧ ((withX1 4).core k0).getX 1 = 4 ∧ (withX1 4).licensed 7 = true ∧
    Fires (withX1 32) w0 .c (.csrw ⟨1, 0, 0x010⟩) ∧ Fires (withX1 31) w0 .c (.csrw ⟨1, 0, 0x010⟩) ∧
    Fires (withX1 5) w0 .c (.csrw ⟨1, 0, 0x011⟩) ∧ State.reset.licensed 7 = false :=
  ⟨fires_all (by decide +kernel), by decide +kernel, by decide +kernel, fires_of (by decide +kernel), fires_of (by decide +kernel), fires_of (by decide +kernel), by decide +kernel⟩

/-- A generator of `count` elements of 2^esize bytes, side by side from `base`. -/
def agOf (esize base count : Nat) : AGReg := ⟨BitVec.ofNat 512 (base + esize * 2 ^ 24 + count * 2 ^ 128 + 2 ^ esize * 2 ^ 144), 0, 0⟩

/-- The bytes of a descriptor stand at address 0 of the core's scratchpad. -/
def descAt (d : W512) : State := busy.spadWr k0 0 (leBytes 64 d.toNat)

theorem wit_agld : Fires (descAt (agOf 6 0 16).desc) w0 .c (.agld ⟨3, 0, 0⟩) ∧
    AG.ok (BitVec.ofNat 512 (leNat (rdN (descAt (agOf 6 0 16).desc).mem (spadAddr k0 0) 64))) = true ∧
    ((descAt (agOf 6 0 16).desc).core k0).badRow (wordsOf 0 64) = none ∧ Fires (descAt (agOf 7 0 16).desc) w0 .c (.agld ⟨3, 0, 0⟩) ∧
    AG.ok (BitVec.ofNat 512 (leNat (rdN (descAt (agOf 7 0 16).desc).mem (spadAddr k0 0) 64))) = false :=
  ⟨fires_of (by decide +kernel), by decide +kernel, by decide +kernel, fires_of (by decide +kernel), by decide +kernel⟩

theorem wit_agld_bad : Fires (withX1 1) w0 .c (.agld ⟨3, 1, 0⟩) ∧ Fires (withX1 0x200000) w0 .c (.agld ⟨3, 1, 0⟩) ∧
    Fires (withX1 0x1FFFC0) w0 .c (.agld ⟨3, 1, 0⟩) ∧ Fires poisoned w0 .c (.agld ⟨3, 0, 0⟩) ∧
    (poisoned.core k0).badRow (wordsOf 0 64) = some 0 :=
  ⟨fires_of (by decide +kernel), fires_of (by decide +kernel), fires_of (by decide +kernel), fires_of (by decide +kernel), by decide +kernel⟩

theorem wit_generators : ∀ op ∈ [SlotOp.agrst ⟨15, 0, 0⟩, .agbase ⟨3, 1, 0⟩, .agpos ⟨3, 1, 0⟩, .loadhint ⟨15, 0, 124⟩, .loadhint ⟨0, 0, 125⟩],
    Fires busy w0 .c op := fires_all (by decide +kernel)

/-! ### The V slot -/

theorem wit_lanes : (∀ op ∈ [0, 1, 2, 0xB].flatMap (fun f => [SlotOp.vadd ⟨1, 2, 3, f, 0⟩, .vsub ⟨1, 2, 3, f, 0⟩, .vmul ⟨1, 2, 3, f, 0⟩, .vfma ⟨1, 2, 3, f, 0⟩,
      .vfms ⟨1, 2, 3, f, 0⟩, .vmax ⟨1, 2, 3, f, 0⟩, .vmin ⟨1, 2, 3, f, 0⟩, .vabs ⟨1, 2, 0, f, 0⟩, .vneg ⟨1, 2, 0, f, 0⟩, .vmov ⟨1, 2, 0, f, 0⟩]),
      Fires busy w0 .v op) ∧ busy.fmtOk 0 = true ∧ busy.fmtOk 0xB = true ∧ State.reset.fmtOk 0xB = false := ⟨fires_all (by decide +kernel), by decide +kernel⟩

theorem wit_lanes_unlicensed : Fires (busy.setReg Reg.lfeat 0) w0 .v (.vadd ⟨1, 2, 3, 0, 0⟩) ∧ (busy.setReg Reg.lfeat 0).fmtOk 0 = false :=
  ⟨fires_of (by decide +kernel), by decide +kernel⟩

theorem wit_vector_bits : ∀ op ∈ [SlotOp.vand ⟨1, 2, 3, 0, 0⟩, .vor ⟨1, 2, 3, 1, 1⟩, .vxor ⟨1, 2, 3, 0xB, 1⟩, .vbcast ⟨1, 2, 0, 0, 0⟩,
    .vext ⟨1, 2, 15, 0, 0⟩, .vext ⟨1, 2, 63, 0xB, 0⟩], Fires busy w0 .v op := fires_all (by decide +kernel)

theorem wit_compares : (∀ op ∈ [0, 1, 2, 3, 4, 5].flatMap (fun c => [SlotOp.vcmp ⟨1, 2, 3, c, 0, 0⟩, .vcmp ⟨1, 2, 3, c, 0xB, 0⟩]), Fires busy w0 .v op) ∧
    elemVal 0 0x7FC00000 = .nan ∧ elemVal 0 0 ≠ .nan := ⟨fires_all (by decide +kernel), by decide +kernel⟩

theorem wit_functions : ∀ op ∈ [SlotOp.vexp ⟨1, 2, 0, 0, 0⟩, .vlog ⟨1, 2, 0, 1, 0⟩, .vrcp ⟨1, 2, 0, 0, 0⟩, .vrsqrt ⟨1, 2, 0, 1, 0⟩, .vrowstat ⟨1, 2, 0, 0, 0⟩,
    .vrowstat ⟨1, 2, 0, 1, 1⟩], Fires busy w0 .v op := fires_all (by decide +kernel)

theorem wit_convert : (∀ op ∈ [SlotOp.vcvt ⟨2, 4, 1, 0, 0⟩, .vcvt ⟨2, 1, 0, 1, 4⟩, .vcvt ⟨2, 4, 5, 0, 0⟩, .vcvt ⟨2, 4, 0xB, 0, 3⟩],
      Fires busy w0 .v op) ∧ busy.licensed 7 = true ∧ isBlock 5 = true ∧ isBlock 1 = false ∧ busy.fmtOk 5 = true ∧
    Issues (busyC (fun c => c.setP 1 0)) { w0 with pred := 1 } .v (.vcvt ⟨2, 4, 5, 0, 0⟩) ∧
    ((busyC (fun c => c.setP 1 0)).core k0).predBit false 1 0 = false ∧
    Fires (busy.setReg Reg.lfeat 0) w0 .v (.vcvt ⟨2, 4, 1, 0, 0⟩) := by
  exact ⟨fires_all (by decide +kernel), by decide +kernel, by decide +kernel, by decide +kernel, by decide +kernel, issues_if (by decide +kernel),
    by decide +kernel, fires_of (by decide +kernel)⟩

theorem wit_functions_unlicensed : ∀ op ∈ [SlotOp.vexp ⟨1, 2, 0, 0, 0⟩, .vlog ⟨1, 2, 0, 1, 0⟩, .vrcp ⟨1, 2, 0, 0, 0⟩, .vrsqrt ⟨1, 2, 0, 1, 0⟩,
    .vrowstat ⟨1, 2, 0, 0, 0⟩, .vcvt ⟨2, 4, 0xB, 0, 0⟩], Fires (busy.setReg Reg.lfeat 0) w0 .v op := fires_all (by decide +kernel)

theorem wit_convert_unlicensed : (busy.setReg Reg.lfeat 0x7F).fmtOk 0 = true ∧ (busy.setReg Reg.lfeat 0x7F).licensed 7 = false ∧
    Fires (busy.setReg Reg.lfeat 0x7F) w0 .v (.vcvt ⟨2, 1, 0, 1, 4⟩) := ⟨by decide +kernel, by decide +kernel, fires_of (by decide +kernel)⟩

/-- a3 walks, and a4 is misaligned. -/
def walking : State := busyC (fun c => (c.setA 3 (agOf 2 0x40 64)).setA 4 (agOf 2 1 64))

theorem wit_walk : Fires walking w0 .v (.vld ⟨1, 3, 0⟩) ∧ Fires walking w0 .v (.vst ⟨1, 3, 0⟩) ∧
    AG.ok ((walking.core k0).getA 3).desc = true ∧
    (¬ ∃ j < 16, AG.padded (agOf 2 0x40 64).desc ((AG.succ (agOf 2 0x40 64).desc)^[j] 0) = false ∧
      AG.addr (agOf 2 0x40 64).desc ((AG.succ (agOf 2 0x40 64).desc)^[j] 0) % 4 ≠ 0) ∧
    (walking.core k0).badRow (AG.words (agOf 2 0x40 64).desc (AG.targets (agOf 2 0x40 64) 64)) = none :=
  ⟨fires_of (by decide +kernel), fires_of (by decide +kernel), by decide +kernel, by decide +kernel, by decide +kernel⟩

theorem wit_walk_poisoned :
    let s := walking.modCore k0 (fun c => { c with poison := [(1, some 0)] })
    Fires s w0 .v (.vld ⟨1, 3, 0⟩) ∧ (s.core k0).badRow (AG.words (agOf 2 0x40 64).desc (AG.targets (agOf 2 0x40 64) 64)) = some 1 :=
  ⟨fires_of (by decide +kernel), by decide +kernel⟩

theorem wit_walk_bad : Fires walking w0 .v (.vld ⟨1, 4, 0⟩) ∧ Fires walking w0 .v (.vst ⟨1, 4, 0⟩) ∧
    AG.ok ((walking.core k0).getA 4).desc = true ∧ AG.padded ((walking.core k0).getA 4).desc 0 = false ∧
    AG.addr ((walking.core k0).getA 4).desc 0 % 4 ≠ 0 := ⟨fires_of (by decide +kernel), fires_of (by decide +kernel), by decide +kernel⟩

/-! ### The set engine -/

/-- Two streams of 8-byte records, a table and a mask; v1 asks for a sort of two records, v2 for a merge, v3 for a probe and v4
for a compaction. -/
def sets : State := (busyC (fun c => (((((((c.setA 3 (agOf 3 0 8)).setA 4 (agOf 3 0x100 8)).setA 5 (agOf 3 0x200 8)).setA 6 (agOf 6 0x400 8)).setV 1
  (BitVec.ofNat 512 (2 + 2 * 2 ^ 64 + 2 * 2 ^ 96))).setV 2 (BitVec.ofNat 512 (2 + 2 * 2 ^ 32 + 2 * 2 ^ 64 + 4 * 2 ^ 96))).setV 3
  (BitVec.ofNat 512 (2 + (2 + 1 * 2 ^ 8) * 2 ^ 64 + 2 * 2 ^ 96))).setV 4 (BitVec.ofNat 512 (2 + 2 * 2 ^ 64 + 2 * 2 ^ 96))))

theorem wit_sort : Fires sets w0 .v (.ssort ⟨1, 3, 0, 5, 0⟩) ∧ sets.licensed 4 = true ∧ ctlOk ((sets.core k0).getV 1) = true ∧
    (let t := readCtl ((sets.core k0).getV 1)
     recReg ((sets.core k0).getA 3) t.rc = true ∧ recReg ((sets.core k0).getA 5) t.rc = true ∧ t.nb = 0 ∧ t.na = 2 ∧ t.na ≤ t.cap ∧
     misaligned t.rc (streamAddrs ((sets.core k0).getA 3) t.na ++ streamAddrs ((sets.core k0).getA 5) t.na) = none ∧
     (sets.core k0).badRow ((recWords t.rc (streamAddrs ((sets.core k0).getA 3) t.na) ++ []).eraseDups) = none) :=
  ⟨fires_of (by decide +kernel), by decide +kernel, by decide +kernel, by decide +kernel⟩

theorem wit_set_done :
    ((busyC (fun c => { c with setRun := some ⟨1, [(3, 2)], 0⟩ })).core k0).setRun = some ⟨1, [(3, 2)], 0⟩ ∧ (busy.core k0).setRun = none := by
  decide +kernel

theorem wit_union : ([1, 3] : List Nat).Pairwise (fun a b => keyOf 2 a < keyOf 2 b) ∧ ([2, 3] : List Nat).Pairwise (fun a b => keyOf 2 a < keyOf 2 b) ∧
    [1, 3].length + [2, 3].length ≤ 4 := by decide +kernel

theorem wit_merge : Fires sets w0 .v (.smerge ⟨2, 3, 4, 5, 1⟩) ∧ ctlOk ((sets.core k0).getV 2) = true ∧
    (let t := readCtl ((sets.core k0).getV 2)
     recReg ((sets.core k0).getA 3) t.rc = true ∧ recReg ((sets.core k0).getA 5) t.rc = true ∧ recReg ((sets.core k0).getA 4) t.rc = true ∧
     misaligned t.rc (streamAddrs ((sets.core k0).getA 3) 2 ++ streamAddrs ((sets.core k0).getA 5) 4) = none) :=
  ⟨fires_of (by decide +kernel), by decide +kernel, by decide +kernel⟩

theorem wit_probe : Fires sets w0 .v (.sprobe ⟨3, 3, 4, 5, 0⟩) ∧ ctlOk ((sets.core k0).getV 3) = true ∧
    (let t := readCtl ((sets.core k0).getV 3)
     recReg ((sets.core k0).getA 3) t.rc = true ∧ recReg ((sets.core k0).getA 5) t.rc = true ∧ t.nb = 0 ∧ t.na ≤ t.cap ∧ t.bits = 1 ∧
     2 ^ t.bits * 4 * 2 ^ recLog t.rc ≤ 2 ^ 21 ∧ AG.base ((sets.core k0).getA 4).desc % (4 * 2 ^ recLog t.rc) = 0) :=
  ⟨fires_of (by decide +kernel), by decide +kernel, by decide +kernel⟩

theorem wit_compact : Fires sets w0 .v (.scompact ⟨4, 3, 6, 5, 0⟩) ∧ ctlOk ((sets.core k0).getV 4) = true ∧
    (readCtl ((sets.core k0).getV 4)).nb = 0 ∧ AG.esize ((sets.core k0).getA 6).desc = 6 ∧
    AG.addr ((sets.core k0).getA 6).desc 0 % 64 = 0 := ⟨fires_of (by decide +kernel), by decide +kernel⟩

/-! ### Bundles that do not issue -/

theorem wit_idle_core : fits (.addi ⟨1, 2, 3⟩) .c ∧ commandOf w0 .c (.addi ⟨1, 2, 3⟩) = some (.addi w0 ⟨1, 2, 3⟩) ∧
    (State.reset.core k0).st ≠ 3 ∧ (State.reset.core k0).st ≠ 4 ∧ ((busyC (fun c => { c with st := 4 })).core k0).st = 4 :=
  ⟨.inl rfl, rfl, by decide +kernel⟩

theorem wit_pending_exception : ((busyC (fun c => { c with excPend := [⟨0x0C, 0xF, 0⟩, ⟨0x05, 0xF, 0⟩] })).core k0).excPend ≠ [] ∧
    (∃ h ∈ halves ((busyC (fun c => { c with istoreUe := [1] })).core k0).pc, h ∈ ((busyC (fun c => { c with istoreUe := [1] })).core k0).istoreUe) := by decide +kernel

theorem wit_held : holdReason (busyC (fun c => { c with arrOut := 2 })) k0 (bundleOf w0 .x (.wrel ⟨1, 0, 0, 0⟩)) = some .wrel ∧
    ((busyC (fun c => { c with arrOut := 2 })).core k0).arrOut.getLsbD 1 = true ∧ (busy.core k0).getC 0 = 0 ∧
    ((busyC (fun c => { c with copies := List.replicate 64 ⟨0, 0, false, false, false, 0, 0, [], 0, 0⟩ })).core k0).copies.length = 64 ∧
    ((busyC (fun c => { c with setRun := some ⟨1, [], 0⟩ })).core k0).setRun.isSome = true := by decide +kernel

theorem wit_encoding : bundleEncodingBad (bundleOf w0 .c (.addi ⟨1, 2, 3⟩)) = none ∧
    (bundleEncodingBad (bundleOf { w0 with pn := true } .c (.addi ⟨1, 2, 3⟩))).isSome = true ∧
    illegalMask (bundleOf wArr .c (.alu ⟨5, 1, 2, 0⟩)) = 0 ∧
    illegalMask (bundleOf { w0 with rest := wordOf ⟨.nop, false, 0⟩ ++ wordOf ⟨.nop, false, 0⟩ ++ wordOf ⟨.vext ⟨1, 2, 0, 0, 0⟩, false, 0⟩ ++ wordOf ⟨.nop, false, 0⟩ } .c
      (.addi ⟨1, 2, 3⟩)) ≠ 0 := by decide +kernel

theorem wit_predicate_false : Issues (busyC (fun c => c.setP 1 0)) { w0 with pred := 1 } .c (.addi ⟨1, 2, 3⟩) ∧
    ((busyC (fun c => c.setP 1 0)).core k0).predBit false 1 0 = false := ⟨issues_if (by decide +kernel), by decide +kernel⟩

theorem wit_nop_corrected : let c := (busyC (fun c => { c with istoreCe := [0, 1] })).core k0
    c.st = 3 ∧ c.excPend = [] ∧ (∀ h ∈ halves c.pc, h ∉ c.istoreUe) ∧ Alone w0 .c ∧ Alone w0 .x ∧
    ((halves c.pc).filter (fun h => h ∈ c.istoreCe)).length = 2 :=
  ⟨by decide +kernel, by decide +kernel, by decide +kernel, (issues_of (op := .nop) (s := busy) (by decide +kernel)).1.2.1,
    (issues_of (op := .nop) (s := busy) (by decide +kernel)).1.2.1, by decide +kernel⟩

theorem wit_nothing_held : Issues busy w0 .c .nop ∧ Issues busy w0 .v .nop ∧ Issues busy w0 .m .nop ∧ Issues busy w0 .x .nop ∧
    Issues busy w0 .x (.cwait ⟨0, 0, 0⟩) ∧ Issues busy w0 .x (.wrel ⟨1, 0, 0, 0⟩) ∧ Issues busy w0 .x (.xfence ⟨0, 0⟩) :=
  ⟨issues_of (by decide +kernel), issues_of (by decide +kernel), issues_of (by decide +kernel), issues_of (by decide +kernel), issues_of (by decide +kernel), issues_of (by decide +kernel),
    issues_of (by decide +kernel)⟩

theorem wit_traps : Fires busy w0 .c .trap ∧ Fires busy w0 .v .trap ∧ Fires busy w0 .m .trap ∧ Fires busy w0 .x .trap ∧
    Fires busy w0 .x (.halt ⟨0, 0xFFFF⟩) ∧ State.reset.events.length < 256 ∧ busy.partOfCore k0 = some 0 ∧ (busy.part 0).haltPend = none :=
  ⟨fires_of (by decide +kernel), fires_of (by decide +kernel), fires_of (by decide +kernel), fires_of (by decide +kernel), fires_of (by decide +kernel), by decide +kernel⟩

/-! ### The matrix array -/

/-- A shadow and an active tile of FP32, and generators of a stream, a tile and a drain. -/
def arrayed : State := busyC (fun c => (((c.setA 3 (agOf 2 0 4096)).setA 4 (agOf 1 0 4096)).setA 6 (agOf 1 0 4096)))

theorem wit_mload : Fires arrayed w0 .m (.mload ⟨4, 1, 0⟩) ∧ arrayed.fmtOk 1 = true ∧
    (∃ ts, agCheck 2 0x02 ((arrayed.core k0).getA 4) (mloadWidth 1) = .ok ts) ∧
    (arrayed.core k0).badRow (AG.words ((arrayed.core k0).getA 4).desc (AG.targets ((arrayed.core k0).getA 4) (mloadWidth 1))) = none :=
  ⟨fires_of (by decide +kernel), by decide +kernel, ok_of (by decide +kernel), by decide +kernel⟩

/-- The active tile holds BF16. -/
def tiled : State := arrayed.modCore k0 (fun c => { c with active := ⟨true, 1, []⟩ })

theorem wit_mmul : Fires tiled w0 .m (.mmul ⟨4, 1, 255, false, false, false, 0⟩) ∧ (marksAfter (tiled.core k0)).1.1 = true ∧
    grpOf (marksAfter (tiled.core k0)).1.2 = grpOf 1 ∧
    (∃ ts, agCheck 2 0x01 ((tiled.core k0).getA 4) (streamWidth 1 false) = .ok ts) ∧
    (tiled.core k0).badRow (AG.words ((tiled.core k0).getA 4).desc (AG.targets ((tiled.core k0).getA 4) (streamWidth 1 false))) = none :=
  ⟨fires_of (by decide +kernel), by decide +kernel, by decide +kernel, ok_of (by decide +kernel), by decide +kernel⟩

theorem wit_mouter : Fires tiled w0 .m (.mouter ⟨4, 6, 1, true, 0⟩) ∧
    (∃ ts, agCheck 2 0x04 ((tiled.core k0).getA 4) (streamWidth 1 true) = .ok ts) :=
  ⟨fires_of (by decide +kernel), ok_of (by decide +kernel)⟩

theorem wit_mdrain : Fires tiled w0 .m (.mdrain ⟨3, 0, 0, 0, true, false⟩) ∧ tiled.licensed 7 = true ∧ tiled.fmtOk 0 = true ∧
    (∃ ts, agCheck 2 0x05 ((tiled.core k0).getA 3) (drainWidth 0) = .ok ts) :=
  ⟨fires_of (by decide +kernel), by decide +kernel, by decide +kernel, ok_of (by decide +kernel)⟩

theorem wit_mcfg : Fires tiled w0 .m (.mcfg ⟨1, true, 0⟩) ∧ tiled.licensed 3 = true := ⟨fires_of (by decide +kernel), by decide +kernel⟩

/-- One entry of each kind at the head of the feed queue. -/
def queued (op : FeedOp) : State := busyC (fun c => { c with queue := [⟨op, [], 0, [], false⟩] })

theorem wit_queue : ((queued (.mload 1 [])).core k0).queue ≠ [] ∧ ((queued (.mmul ⟨4, 1, 0, false, false, true, 0⟩ 255 [])).core k0).queue ≠ [] ∧
    ((queued (.mmul ⟨4, 1, 0, true, false, true, 0⟩ 128 [])).core k0).queue ≠ [] ∧ ((queued (.mdrain ⟨3, 0, 0, 0, true, true⟩ 0 0 0 [some 0])).core k0).queue ≠ [] ∧
    ((queued (.mouter 1 true [] [])).core k0).queue ≠ [] ∧ ((queued (.mdrain ⟨3, 0, 0, 0, true, false⟩ 0 0 0 [some 0])).core k0).queue ≠ [] ∧
    ((queued (.mcfg true 3)).core k0).queue ≠ [] ∧ (busy.core k0).queue = [] ∧ (255 : Nat) < 256 := by decide +kernel

theorem wit_zeroing : ((busyC (fun c => { c with zeroing := true })).core k0).zeroing = true ∧ (busy.core k0).zeroing = false := by decide +kernel

theorem wit_grid : ([.fin false 1 0, .fin true 3 2] : List FV).Perm ([.fin true 3 2] ++ [.fin false 1 0]) ∧ (-1 : Int) < 0 ∧
    -(2 ^ 127 : Int) ≤ (0 : Acc).toInt := ⟨List.Perm.swap .., by decide +kernel⟩

/-! ### The X slot -/

theorem wit_xply : Fires busy w0 .x (.xply ⟨0, 0⟩) ∧ Fires busy w0 .x (.xply ⟨1, 0⟩) ∧ Fires busy w0 .x (.xply ⟨2, 0⟩) ∧
    (((busy.classOf k0).bind (fun r => r.exch)).bind (fun e => e.sets[0]?)).isSome = true ∧
    ((busy.classOf k0).bind (fun r => r.exch)).bind (fun e => e.sets[2]?) = none ∧
    ((busy.progOf k0).map (fun g => g.overlap.getLsbD 1)).getD false = true ∧ (busy.core k0).fresh = true ∧
    Fires (busyC (fun c => { c with fresh := false, xplyDone := true })) w0 .x (.xply ⟨0, 0⟩) ∧
    Fires (busyC (fun c => { c with fresh := false })) w0 .x (.xply ⟨1, 0⟩) :=
  ⟨fires_of (by decide +kernel), fires_of (by decide +kernel), fires_of (by decide +kernel), by decide +kernel, by decide +kernel, by decide +kernel, by decide +kernel, fires_of (by decide +kernel),
    fires_of (by decide +kernel)⟩

theorem wit_cpy : Fires (withX1 0x1FFFC0) w0 .x (.cpy ⟨0, 1, 0⟩) ∧ Fires (withX1 1) w0 .x (.cpy ⟨0, 1, 0⟩) ∧
    Fires (withX1 0x200000) w0 .x (.cpy ⟨0, 1, 0⟩) ∧ Fires busy w0 .x (.crd ⟨15, 1, 0⟩) :=
  ⟨fires_of (by decide +kernel), fires_of (by decide +kernel), fires_of (by decide +kernel), fires_of (by decide +kernel)⟩

theorem wit_bclm : Fires busy w0 .x (.bclm ⟨0, 0⟩) ∧ Fires busy w0 .x (.bclm ⟨1, 0⟩) ∧
    ((busy.classOf k0).map (fun r => r.claims.length)).getD 0 = 1 := ⟨fires_of (by decide +kernel), fires_of (by decide +kernel), by decide +kernel⟩

theorem wit_arrivals : Fires busy w0 .x (.arr ⟨63, 1, 0, 0⟩) ∧ Fires busy w0 .x (.endp ⟨0, 1, 0, 0⟩) ∧ Fires busy w0 .x (.rres ⟨63, 1, 0, 0⟩) ∧
    Fires busy w0 .x (.rflg ⟨63, 0, 1, 0⟩) ∧ busy.inGroup k0 63 = true ∧ (busy.core k0).arrOut.getLsbD 63 = false ∧
    Fires (busyC (fun c => { c with arrOut := 2 })) w0 .x (.arr ⟨1, 1, 0, 0⟩) ∧
    Fires (State.reset.modCore k0 (fun c => { c with st := 3 })) w0 .x (.arr ⟨1, 1, 0, 0⟩) ∧ State.reset.inGroup k0 1 = false :=
  ⟨fires_of (by decide +kernel), fires_of (by decide +kernel), fires_of (by decide +kernel), fires_of (by decide +kernel), by decide +kernel, by decide +kernel, fires_of (by decide +kernel),
    fires_of (by decide +kernel), by decide +kernel⟩

/-! ### Scratchpads, stacks and copies -/

theorem wit_scrub : ((busyC (fun c => { c with spadCe := [3], spadUe := [4] })).core k0).spadCe.contains 3 = true ∧
    ((busyC (fun c => { c with spadWb := [3] })).core k0).spadWb = 3 :: [] ∧ (busy.core k0).spadWb = [] := by decide +kernel

theorem wit_patrol :
    let u := 2 ^ 36
    let ce : State := { busy with hbm := { busy.hbm with errs := [(u, .symbols [0, 71, 5])] } }
    let ue : State := { busy with hbm := { busy.hbm with errs := [(u, .symbols [0, 1, 2, 3])], wb := [u] } }
    let off : State := { busy with hbm := { busy.hbm with errs := [(u, .misplaced)] } }
    busy.stackLost 0 = false ∧ (busy.stack 0).patrol = 0 ∧ ce.hbm.errAt u = .symbols [0, 71, 5] ∧ u ∉ ce.hbm.wb ∧ ue.hbm.errAt u = .symbols [0, 1, 2, 3] ∧
    off.hbm.errAt u = .misplaced ∧ busy.hbm.errAt u = .symbols [] ∧ busy.hbm.missAt u = false ∧ busy.clockStopped k0 = false ∧
    State.reset.clockStopped k0 = true ∧
    ue.hbm.wb.find? (fun u => stackOfUnit u == 0) = some u ∧ busy.hbm.wb.find? (fun u => stackOfUnit u == 0) = none ∧
    ((match exec (.stackLost 0) busy with | .next t => t | _ => busy).stackLost 0) = true := by decide +kernel

theorem wit_stack_owner : ((busy.setReg (Reg.grant 0) 0x80000000).grantOf 0).getLsbD 31 = true ∧
    grantOwner ((busy.setReg (Reg.grant 0) 0x80000000).grantOf 0) = 0 ∧
    (busy.part 0).st = 1 := by decide +kernel

end Sys2Proof.Tests
end

