-- ==== Sys2Proof/Tests/WitnessImage.lean ====
section
/-! SUPPORT. A program image that passes every check of Table 3-21 (03_core.md R99 to R106), for the statement about LOAD_PROGRAM:
one rank, one class of one bundle. -/
namespace Sys2Proof.Tests

set_option Elab.async false

open Sys2Proof.Machine Sys2Proof.Claims

/-- An entry of the section table (Table 3-17). -/
def sect (ty off size : Nat) : List Byte := leBytes 2 ty ++ leBytes 2 0 ++ leBytes 4 off ++ leBytes 4 size ++ leBytes 4 0

/-- A class record: bundles in section 0, claims in section 4, no other section, group 0 (Table 3-18). -/
def imageClass : List Byte :=
  leBytes 2 0 ++ leBytes 2 0 ++ leBytes 2 0xFFFF ++ leBytes 2 4 ++ leBytes 4 0xFFFFFFFF ++ leBytes 4 0 ++ leBytes 8 1 ++ leBytes 8 0

/-- A tempo plan: STALE_US 100, no operation, no overlap. -/
def imagePlan : List Byte := leBytes 4 100 ++ leBytes 4 0 ++ List.replicate 64 0

/-- The image before its class map, with a CRC-32C field. -/
def imageHead (crc : Nat) : List Byte :=
  leBytes 4 0x4950594B ++ leBytes 2 1 ++ leBytes 2 0x40 ++ leBytes 4 4376 ++ leBytes 4 crc ++ leBytes 2 5 ++ [1, 0] ++ leBytes 4 0 ++ leBytes 8 0 ++
    leBytes 2 1 ++ leBytes 2 2 ++ leBytes 2 3 ++ List.replicate 26 0 ++
    (sect 1 144 16 ++ sect 2 160 32 ++ sect 3 280 4096 ++ sect 8 208 72 ++ sect 5 192 16) ++
    leBytes 16 nops.toNat ++ imageClass ++ (leBytes 8 1 ++ leBytes 8 0) ++ imagePlan

/-- The image, its class map of zeros last. -/
def image : List Byte := imageHead 0x623CE9C1 ++ List.replicate 4096 0

theorem image_length : image.length = 4376 := by decide +kernel

/-- One byte of CRC-32C. -/
def crcStep (r : Nat) (b : Byte) : Nat := crc32Bits 8 (r ^^^ b.toNat)

/-- `f n`, with n evaluated first. -/
def byFirst {α : Type} : Nat → (Nat → α) → α
  | 0, f => f 0
  | n + 1, f => f (n + 1)

theorem byFirst_eq {α : Type} (n : Nat) (f : Nat → α) : byFirst n f = f n := by cases n <;> rfl

/-- CRC-32C of bytes, the remainder evaluated at every byte. -/
def crcFold : List Byte → Nat → Nat
  | [], r => r
  | b :: bs, r => byFirst (crcStep r b) (crcFold bs)

theorem crcFold_eq (bs : List Byte) (r : Nat) : crcFold bs r = bs.foldl crcStep r := by
  induction bs generalizing r with
  | nil => rfl
  | cons b bs ih => rw [crcFold, byFirst_eq, ih, List.foldl_cons]

theorem crc32c_eq (bs : List Byte) : crc32c bs = crcFold bs 0xFFFFFFFF ^^^ 0xFFFFFFFF := by
  rw [crcFold_eq]
  rfl

theorem crc_image : crc32c (imageHead 0 ++ List.replicate 4096 0) = 0x623CE9C1 := by
  rw [crc32c_eq]
  decide +kernel

theorem image_zeroed : (image.take 0xC ++ [0, 0, 0, 0] ++ image.drop 0x10).take 4376 = imageHead 0 ++ List.replicate 4096 0 := by
  have h : (imageHead 0x623CE9C1).take 0xC ++ [0, 0, 0, 0] ++ (imageHead 0x623CE9C1).drop 0x10 = imageHead 0 := by decide +kernel
  have n : (imageHead 0x623CE9C1).length = 280 := by decide +kernel
  have n0 : (imageHead 0 ++ List.replicate 4096 (0 : Byte)).length = 4376 := by
    have : (imageHead 0).length = 280 := by decide +kernel
    rw [List.length_append, this, List.length_replicate]
  have t : image.take 0xC = (imageHead 0x623CE9C1).take 0xC := List.take_append_of_le_length (by omega)
  have d : image.drop 0x10 = (imageHead 0x623CE9C1).drop 0x10 ++ List.replicate 4096 0 := List.drop_append_of_le_length (by omega)
  rw [t, d, ← List.append_assoc, h, List.take_of_length_le (by omega)]

theorem image_step1 : imageStep1 image 4376 = true := by
  have h : (leAt image 0 4 == 0x4950594B && leAt image 4 2 == 1 && leAt image 6 2 == 0x40 && leAt image 8 4 == 4376 && mult 4376 8 && decide (0x40 ≤ 4376) &&
      decide (4376 ≤ 0xFFFFFFF8)) = true ∧ leAt image 0xC 4 = 0x623CE9C1 ∧ (((image.drop 0x26).take 26).all (· == 0) && decide (leAt image 0x13 1 < 2)) = true := by
    decide +kernel
  obtain ⟨h1, h2, h3⟩ := h
  rw [imageStep1, image_zeroed, crc_image, h2, h1, Bool.and_assoc, h3]
  rfl

theorem image_step2 : idle.imageStep2 0 image = true := by decide +kernel

theorem image_step3 : imageStep3 image = true := by decide +kernel

/-- The class of the image. -/
def imageRec : ClassRec := ⟨[nops], 0, none, [0], [], [], 1⟩

theorem image_sections :
    let ss := sections image
    sectAt image ss (leAt image 0x20 2) 2 = some imageClass ∧ ss[leAt image 0x22 2]? = some ⟨3, 280, 4096, true⟩ ∧
    sectAt image ss (leAt image 0x24 2) 8 = some imagePlan ∧ readClass image ss imageClass = some imageRec ∧ leAt image 0x12 1 = 1 ∧
    leAt image 0x13 1 = 0 ∧ leAt image 0x14 4 = 0 ∧ leAt image 0xC 4 = 0x623CE9C1 := by decide +kernel

theorem image_map : sectAt image (sections image) (leAt image 0x22 2) 3 = some (List.replicate 4096 0) := by
  have n : (imageHead 0x623CE9C1).length = 280 := by decide +kernel
  have d : image.drop 280 = List.replicate 4096 0 := by
    rw [image]
    exact List.drop_left' n
  rw [sectAt, image_sections.2.1]
  simp only [if_true, sectBytes, d, List.take_replicate, Nat.min_self]

theorem leAt_zeros (n i k : Nat) : leAt (List.replicate n 0) i k = 0 := by
  have h : ∀ j, leNat (List.replicate j 0#8) = 0 := by
    intro j
    induction j with
    | zero => rfl
    | succ j ih => simp [List.replicate_succ, leNat, ih]
  simp [leAt, List.drop_replicate, List.take_replicate, h]

/-- The program that the image holds. -/
def imageProgram : Program :=
  { strict := false, features := 0, classes := [imageRec], cmap := List.replicate 2048 0, stale := 100, ops := List.replicate 64 0, overlap := 0
    digest := 0x623CE9C1, size := 4376 }

theorem image_table : sections image = [⟨1, 144, 16, true⟩, ⟨2, 160, 32, true⟩, ⟨3, 280, 4096, true⟩, ⟨8, 208, 72, true⟩, ⟨5, 192, 16, true⟩] := by
  decide +kernel

theorem image_map_ok : sectionOk image (sections image) 1 ⟨3, 280, 4096, true⟩ = true := by
  have n : (imageHead 0x623CE9C1).length = 280 := by decide +kernel
  have d : image.drop 280 = List.replicate 4096 0 := by
    rw [image]
    exact List.drop_left' n
  have hr : leAt image 0x12 1 = 1 := image_sections.2.2.2.2.1
  show classMapOk 1 (leAt image 0x12 1) (sectBytes image ⟨3, 280, 4096, true⟩) = true
  simp only [hr, sectBytes, d, List.take_replicate, Nat.min_self, classMapOk, List.length_replicate, leAt_zeros, Nat.zero_lt_one, decide_true,
    Bool.and_eq_true, List.all_eq_true, implies_true, and_true]
  decide

theorem image_sections_ok : (sections image).all (sectionOk image (sections image) 1) = true := by
  have h : ∀ x ∈ [Sect.mk 1 144 16 true, ⟨2, 160, 32, true⟩, ⟨8, 208, 72, true⟩, ⟨5, 192, 16, true⟩], sectionOk image (sections image) 1 x = true := by
    decide +kernel
  rw [List.all_eq_true]
  intro x hx
  rw [image_table] at hx
  simp only [List.mem_cons, List.not_mem_nil, or_false] at hx
  obtain rfl | rfl | rfl | rfl | rfl := hx
  · exact h _ (by decide)
  · exact h _ (by decide)
  · exact image_map_ok
  · exact h _ (by decide)
  · exact h _ (by decide)

theorem image_step4 : imageStep4 image = some imageProgram := by
  obtain ⟨h1, -, h3, -, h5, h6, h7, h8⟩ := image_sections
  have hp : leAt imagePlan 0 4 = 100 ∧ leAt imagePlan 0x28 32 = 0 ∧ (planOps imagePlan).map (BitVec.ofNat 4) = List.replicate 64 0 := by decide +kernel
  have hc : imageClass.length / 32 = 1 := by decide +kernel
  have hk : readClasses image (sections image) imageClass = some [imageRec] := by decide +kernel
  have hm : (List.range 2048).map (fun i => leAt (List.replicate 4096 (0 : Byte)) (2 * i) 2) = List.replicate 2048 0 := by
    rw [List.map_congr_left (g := fun _ => 0) (fun i _ => leAt_zeros 4096 (2 * i) 2), List.map_const', List.length_range]
  have hl : (List.replicate 4096 (0 : Byte)).length / 2 = 2048 := by rw [List.length_replicate]
  rw [imageStep4, h1, image_map, h3]
  simp only [hc, image_sections_ok, hk, hl, hm, hp, h6, h7, h8, image_length, Option.map_some]
  rfl

theorem image_step5 : imageStep5 image = true := by
  rw [imageStep5, image_table]
  decide +kernel

theorem image_read (m : Mem) : rdN (wrN m 0x100000 image) 0x100000 4376 = image := by
  rw [← image_length]
  exact rdN_wrN m 0x100000 image

theorem withCmd_hostMem (s : State) (r : Nat) (c : Cmd) : (withCmd s r c).hostMem = s.hostMem := rfl

theorem checkImage_ok {s : State} {p n : Nat} {b : List Byte} {g : Program} (h1 : imageStep1 b n = true) (h2 : s.imageStep2 p b = true)
    (h3 : imageStep3 b = true) (h4 : imageStep4 b = some g) (h5 : imageStep5 b = true) : s.checkImage p n b = .ok g := by
  simp [State.checkImage, h1, h2, h3, h4, h5]

theorem wit_load :
    let c := fresh (dsc 3 0 0 (leBytes 8 (2 ^ 60 + 0x100000) ++ leBytes 4 4376))
    let s := withCmd { idle with hostMem := wrN idle.hostMem 0x100000 image } 1 c
    startsB s 3 (ref 1) c = true ∧ (c.desc.drop 0x14).all (· == 0) = true ∧ c.u64 8 / 2 ^ 60 = 1 ∧ c.u64 8 / 2 ^ 57 % 8 = 0 ∧
    c.u64 8 % 2 ^ 57 = 0x100000 ∧ c.u32 0x10 = 4376 ∧ s.admitted c.part 3 c.target = true ∧ rdN s.hostMem 0x100000 4376 = image ∧
    idle.checkImage 0 4376 image = .ok imageProgram := by
  refine ⟨by decide +kernel, by decide +kernel, by decide +kernel, by decide +kernel, by decide +kernel, by decide +kernel, by decide +kernel, ?_, ?_⟩
  · rw [withCmd_hostMem, image_read]
  · exact checkImage_ok image_step1 image_step2 image_step3 image_step4 image_step5

end Sys2Proof.Tests
end

section
/-! Logical places and the holes of their ranks (R7, R17): a physical file, a core number and a logical index, each taken apart
into its parts, and the way from a logical place to its physical core and back. -/
namespace Sys2Proof.Places

open Sys2Proof.Machine

/-! ### Files around a hole -/

theorem physFile_below {h l : Nat} (hl : l < h) : physFile h l = l := if_pos hl

theorem physFile_from_hole {h l : Nat} (hl : h ≤ l) : physFile h l = l + 1 := if_neg (Nat.not_lt.mpr hl)

theorem physFile_le_succ (h l : Nat) : physFile h l ≤ l + 1 := by
  rcases Nat.lt_or_ge l h with hl | hl
  · rw [physFile_below hl]
    exact Nat.le_succ l
  · exact (physFile_from_hole hl).le

/-- The hole lies at no physical file of a logical one, so the logical file is read back. -/
@[simp] theorem logFile_physFile (h l : Nat) : logFile h (physFile h l) = some l := by
  rcases Nat.lt_or_ge l h with hl | hl
  · rw [physFile_below hl, logFile, if_neg hl.ne, if_pos hl]
  · have above : h < l + 1 := Nat.lt_succ_of_le hl
    rw [physFile_from_hole hl, logFile, if_neg above.ne', if_neg above.not_gt, Nat.add_sub_cancel]

/-! ### The parts of a core number -/

/-- The number of the core at a die, a core rank of it and a core file. -/
def coreAt (d m f : Nat) : Nat := d * 272 + m * 17 + f

theorem dieOf_coreAt {d m f : Nat} (hm : m < 16) (hf : f < 17) : dieOf (coreAt d m f) = d := by
  unfold dieOf coreAt
  omega

theorem rankOfSite_coreAt {d m f : Nat} (hm : m < 16) (hf : f < 17) : rankOfSite (siteOf (coreAt d m f)) = m := by
  unfold rankOfSite siteOf coreAt
  omega

theorem fileOfSite_coreAt {d m f : Nat} (hf : f < 17) : fileOfSite (siteOf (coreAt d m f)) = f := by
  unfold fileOfSite siteOf coreAt
  omega

/-! ### The die of a logical die file -/

section
variable {l : Nat} (hl : l < 8)
include hl

theorem rankOfDie_physDie (s : State) (r : Nat) : rankOfDie (s.physDie r l) = r := by
  have := physFile_le_succ (s.dieHole r) l
  unfold rankOfDie State.physDie
  omega

theorem fileOfDie_physDie (s : State) (r : Nat) : fileOfDie (s.physDie r l) = physFile (s.dieHole r) l := by
  have := physFile_le_succ (s.dieHole r) l
  unfold fileOfDie State.physDie
  omega

end

/-! ### The core of a logical place -/

theorem physOf_of_short {s : State} {n : Nat} (h : s.dieHole (n / 2048) = 15) : s.physOf n = none := if_pos h

/-- The core at a die rank and logical die file, and a core rank and logical core file of that die. -/
def placeCore (s : State) (r ld m lc : Nat) : Nat :=
  coreAt (s.physDie r ld) m (physFile (s.coreHole (s.physDie r ld) m) lc)

theorem physOf_of_whole {s : State} {n : Nat} (h : s.dieHole (n / 2048) ≠ 15) :
    s.physOf n = some (placeCore s (n / 2048) (n / 256 % 8) (n / 16 % 16) (n % 16)) := if_neg h

/-- What the logical index of a core is, from its die rank and core rank and the logical files that its two physical files have. -/
theorem logicalOf_of_files {s : State} {k ld lc : Nat} (whole : s.dieHole (rankOfDie (dieOf k)) ≠ 15)
    (hd : logFile (s.dieHole (rankOfDie (dieOf k))) (fileOfDie (dieOf k)) = some ld)
    (hc : logFile (s.coreHole (dieOf k) (rankOfSite (siteOf k))) (fileOfSite (siteOf k)) = some lc) :
    s.logicalOf k = some ((rankOfDie (dieOf k) * 8 + ld) * 256 + rankOfSite (siteOf k) * 16 + lc) := by
  simp only [State.logicalOf, if_neg whole, hd, hc]

section
variable (s : State) (r : Nat) {ld m lc : Nat} (hc : lc < 16)
include hc

theorem dieOf_placeCore (hm : m < 16) : dieOf (placeCore s r ld m lc) = s.physDie r ld :=
  dieOf_coreAt hm ((physFile_le_succ _ lc).trans_lt (Nat.succ_lt_succ hc))

theorem rankOfSite_placeCore (hm : m < 16) : rankOfSite (siteOf (placeCore s r ld m lc)) = m :=
  rankOfSite_coreAt hm ((physFile_le_succ _ lc).trans_lt (Nat.succ_lt_succ hc))

theorem fileOfSite_placeCore :
    fileOfSite (siteOf (placeCore s r ld m lc)) = physFile (s.coreHole (s.physDie r ld) m) lc :=
  fileOfSite_coreAt ((physFile_le_succ _ lc).trans_lt (Nat.succ_lt_succ hc))

/-- In a whole rank, the core of a logical place has that place again. -/
theorem logicalOf_placeCore (hm : m < 16) (hd : ld < 8) (whole : s.dieHole r ≠ 15) :
    s.logicalOf (placeCore s r ld m lc) = some ((r * 8 + ld) * 256 + m * 16 + lc) := by
  have die := dieOf_placeCore s r (ld := ld) hc hm
  have rank : rankOfDie (dieOf (placeCore s r ld m lc)) = r := by rw [die, rankOfDie_physDie hd]
  have coreRank := rankOfSite_placeCore s r (ld := ld) hc hm
  rw [logicalOf_of_files (ld := ld) (lc := lc), rank, coreRank]
  · rwa [rank]
  · rw [rank, die, fileOfDie_physDie hd, logFile_physFile]
  · rw [coreRank, die, fileOfSite_placeCore s r hc, logFile_physFile]

end

/-- A linear logical index is put together from its die rank, die file, core rank and core file (R7). -/
theorem logicalIndex_parts (n : Nat) : (n / 2048 * 8 + n / 256 % 8) * 256 + n / 16 % 16 * 16 + n % 16 = n := by omega

/-- Settles O2: `physOf` gives a place of a whole rank the core `placeCore`, and each part of that core's number reads back because a
physical file stays below its rank's width on both sides of the hole. -/
theorem logicalFilesSkipTheHole : Obligations.LogicalFilesSkipTheHole := by
  intro s n dieRank coreRank place
  have hd : n / 256 % 8 < 8 := Nat.mod_lt _ (by decide)
  have hm : coreRank < 16 := Nat.mod_lt _ (by decide)
  have hc : n % 16 < 16 := Nat.mod_lt _ (by decide)
  have place_physFile (h l : Nat) : place h l (physFile h l) := ⟨physFile_below, physFile_from_hole⟩
  refine ⟨physOf_of_short, fun whole => ⟨_, physOf_of_whole whole, ?_, ?_, ?_, ?_, ?_⟩⟩
  · rw [logicalOf_placeCore s _ hc hm hd whole, logicalIndex_parts]
  · rw [dieOf_placeCore s _ hc hm, rankOfDie_physDie hd]
  · rw [dieOf_placeCore s _ hc hm, fileOfDie_physDie hd]
    exact place_physFile _ _
  · exact rankOfSite_placeCore s _ hc hm
  · rw [fileOfSite_placeCore s _ hc, dieOf_placeCore s _ hc hm]
    exact place_physFile _ _

end Sys2Proof.Places
end

section
/-! Arrivals at a core (R35, R69, R90, R91): what issuing leaves of the core beside the instruction's own effect, the flags of the
queued matrix instructions, and the three outcomes of an arrival. -/
namespace Sys2Proof.CoreTempo

open Sys2Proof.Machine Sys2Proof.Claims

/-! ### What issuing keeps -/

/-- An exception that an engine finds at a running core waits for its next bundle boundary. -/
theorem engineExc_of_running {s : State} {k : Nat} (e : Exc) (h : (s.core k).st = 3) :
    s.engineExc k e = s.modCore k (fun c => { c with excPend := c.excPend ++ [e] }) := by
  simp [State.engineExc, h]

/-- Colliding requests at a running core change its counters and its waiting exceptions, and no other unit. -/
theorem collide_of_running {s : State} {k : Nat} (h : (s.core k).st = 3) (reqs : List (Nat × Nat)) (own : Bool) :
    ∃ b o x y z, s.collide k reqs own = s.modCore k (fun c =>
      { c with bankcol := b, owed := o, spdColl := x, spdRbwait := y, excPend := z }) := by
  unfold State.collide
  dsimp only
  split
  · split
    · rw [engineExc_of_running _ (by simpa using h), State.modCore_modCore]
      exact ⟨_, _, _, _, _, rfl⟩
    · exact ⟨_, _, _, _, _, rfl⟩
  · exact ⟨_, _, _, _, _, rfl⟩

/-- What issuing at a running core leaves: the same core but for its place in the program, its counters and its waiting
exceptions, and every other core and the memory as they were. -/
theorem issued_of_running {s : State} {w : Issue} (h : (s.core w.core).st = 3) (sl : Slot) (op : SlotOp) :
    (∃ pc loops cycle ops bub owed srctr b x y z, (issued s w sl op).core w.core =
      { s.core w.core with
        pc := pc, loops := loops, cycle := cycle, mtxOps := ops, mtxBubbles := bub, owed := owed, srctr := srctr, bankcol := b
        spdColl := x, spdRbwait := y, excPend := z, fresh := false, hold := none }) ∧
    (∀ j, j ≠ w.core.val → (issued s w sl op).core j = s.core j) ∧ (issued s w sl op).mem = s.mem := by
  unfold issued contended State.meet
  split
  · refine ⟨?_, fun j hj => ?_, rfl⟩
    · simp only [State.core_modCore, State.freshen_core_at, Core.goNext, Core.passCycles, Core.arrayCycles, h, true_or, if_true]
      exact ⟨_, _, _, _, _, _, _, _, _, _, _, rfl⟩
    · simp [State.core_modCore_ne _ _ hj]
  · obtain ⟨b, o, x, y, z, e⟩ := collide_of_running h (asks s w sl op) (!(slotAsks s w.core (bundleOf w sl op).m).isEmpty)
    rw [e]
    refine ⟨?_, fun j hj => ?_, rfl⟩
    · simp only [State.core_modCore, State.freshen_core_at, Core.goNext, Core.passCycles, Core.arrayCycles, h, true_or, if_true]
      exact ⟨_, _, _, _, _, _, _, _, _, _, _, rfl⟩
    · simp [State.core_modCore_ne _ _ hj]

/-! ### Flags of the queued matrix instructions (R69) -/

/-- Two cores that agree in all that a matrix instruction reads. -/
def SameArray (c d : Core) : Prop :=
  d.active = c.active ∧ d.shadow = c.shadow ∧ d.acc = c.acc ∧ d.cell = c.cell ∧ d.mode = c.mode ∧ d.w = c.w ∧ d.fflags = c.fflags

theorem SameArray.act {c d : Core} (h : SameArray c d) (e : FeedEntry) : SameArray (c.act e) (d.act e) := by
  obtain ⟨op, ags, extra, banks, mute⟩ := e
  obtain ⟨h1, h2, h3, h4, h5, h6, h7⟩ := h
  cases op with
  | mmul f row bs => cases hf : f.sw <;> simp [SameArray, Core.act, Core.swapTiles, hf, h1, h2, h3, h4, h5, h6, h7]
  | mload fmt bs => simp [SameArray, Core.act, h1, h3, h4, h5, h6, h7]
  | mouter fmt z xb yb => simp [SameArray, Core.act, h1, h2, h3, h4, h5, h6, h7]
  | mdrain f row seed ctr dst => simp [SameArray, Core.act, Core.drained, drainRow, h1, h2, h3, h4, h5, h6, h7]
  | mcfg mode w => simp [SameArray, Core.act, h1, h2, h3, h4, h7]

theorem SameArray.foldl_act {c d : Core} (h : SameArray c d) (q : List FeedEntry) :
    SameArray (q.foldl Core.act c) (q.foldl Core.act d) := by
  induction q generalizing c d with
  | nil => exact h
  | cons e q ih => exact ih (h.act e)

/-- The flags of what is queued depend on the queue and the array alone. -/
theorem flagsNow_congr {c d : Core} (h : SameArray c d) (hq : d.queue = c.queue) : d.flagsNow = c.flagsNow := by
  obtain ⟨-, -, -, -, -, -, hf⟩ := h.foldl_act c.queue
  simpa [Core.flagsNow, hq] using hf

/-! ### Arrivals (R35, R90, R91) -/

/-- A bit set in a mask of 64. -/
theorem getLsbD_or_twoPow (m : W64) (g : BitVec 6) (j : Nat) :
    (m ||| BitVec.ofNat 64 (2 ^ g.toNat)).getLsbD j = (m.getLsbD j || decide (j = g.toNat)) := by
  rw [BitVec.getLsbD_or, BitVec.getLsbD_ofNat, Nat.testBit_two_pow]
  by_cases h : j = g.toNat
  · subst h; simp [g.isLt]
  · simp [h, Ne.symm h]

/-- What an arrival at a group does to its core, which latches the operand and the copies issued so far. -/
def arrived (v : W64) (seq : Nat) (g : BitVec 6) (last : Bool) (d : Core) : Core :=
  { d with
    arrOut := d.arrOut ||| BitVec.ofNat 64 (2 ^ g.toNat)
    arrHeld := d.arrHeld ++ [⟨g.toNat, v, last, seq⟩]
    st := if g = 0 then 4 else d.st
    ended := d.ended || last
    fflagsReg := if last then d.flagsNow else d.fflagsReg }

theorem arrival_not_member {s : State} {k : Nat} {g : BitVec 6} (hg : s.inGroup k g.toNat = false) (x : BitVec 5) (last : Bool) :
    arrival s k g x last = .error (excTempo (0x400 + g.toNat)) := by
  simp [arrival, hg]

theorem arrival_outstanding {s : State} {k : Nat} {g : BitVec 6} (hg : s.inGroup k g.toNat = true)
    (ha : (s.core k).arrOut.getLsbD g.toNat = true) (x : BitVec 5) (last : Bool) :
    arrival s k g x last = .error (excTempo g.toNat) := by
  simp [arrival, hg, ha]

theorem arrival_taken {s : State} {k : Nat} {g : BitVec 6} (hg : s.inGroup k g.toNat = true)
    (ha : (s.core k).arrOut.getLsbD g.toNat = false) (x : BitVec 5) (last : Bool) :
    arrival s k g x last = effCore k (arrived ((s.core k).getX x) (s.core k).copySeq g last) := by
  simp only [arrival, hg, ha]
  rfl

/-- The command of an instruction of the X slot whose exception, if it raises one, is a tempo exception. -/
theorem issue_arrival {s : State} {w : Issue} {op : SlotOp} {g : BitVec 6} {x : BitVec 5} {last : Bool} (h : Fires s w .x op)
    (hs : op.slot = some .x) (he : effX s w.core ⟨op, w.pn, w.pred⟩ = arrival s w.core g x last) :
    let c := s.core w.core
    (s.inGroup w.core g.toNat = false →
      issue w .x op s = .next (s.coreException w.core ⟨0x08, 3, BitVec.ofNat 16 (0x400 + g.toNat)⟩)) ∧
    (s.inGroup w.core g.toNat = true → c.arrOut.getLsbD g.toNat = true →
      issue w .x op s = .next (s.coreException w.core ⟨0x08, 3, BitVec.ofNat 16 g.toNat⟩)) ∧
    (s.inGroup w.core g.toNat = true → c.arrOut.getLsbD g.toNat = false → ∃ t, issue w .x op s = .next t ∧
      let d := t.core w.core
      d.arrHeld = c.arrHeld ++ [⟨g.toNat, c.getX x, last, c.copySeq⟩] ∧
      (∀ j, d.arrOut.getLsbD j = (c.arrOut.getLsbD j || decide (j = g.toNat))) ∧
      d.st = (if g = 0 then 4 else 3) ∧ d.ended = (c.ended || last) ∧ (last = true → d.fflagsReg = c.flagsNow) ∧
      (last = false → d.fflagsReg = c.fflagsReg) ∧ (∀ i, d.getX i = c.getX i) ∧ t.mem = s.mem ∧
      ∀ j, j ≠ w.core.val → t.core j = s.core j) := by
  intro c
  have hr : c.st = 3 := h.1.1.1.1
  rw [issue_x h.1 (Or.inl hs), he]
  refine ⟨fun hg => ?_, fun hg ha => ?_, fun hg ha => ?_⟩
  · simp [arrival_not_member hg, excTempo]
  · simp [arrival_outstanding hg ha, excTempo]
  · obtain ⟨⟨pc, loops, cycle, ops, bub, owed, srctr, b, y, z, p, hc⟩, hne, hm⟩ := issued_of_running hr .x op
    rw [arrival_taken hg ha]
    refine ⟨(issued s w .x op).modCore w.core (arrived (c.getX x) c.copySeq g last), rfl, ?_⟩
    rw [State.core_modCore, hc]
    refine ⟨rfl, getLsbD_or_twoPow _ _, ?_, rfl, fun hl => ?_, fun hl => ?_, fun i => rfl, (State.modCore_mem ..).trans hm, fun j hj => ?_⟩
    · simp only [arrived]
      split
      · rfl
      · exact hr
    · subst hl
      exact flagsNow_congr ⟨rfl, rfl, rfl, rfl, rfl, rfl, rfl⟩ rfl
    · subst hl
      rfl
    · rw [State.core_modCore_ne _ _ hj, hne j hj]

/-- Settles O21: an arrival is one effect with three outcomes, and ARR, END are its two uses. -/
theorem arrivalsAndReleasesOfGroups : Obligations.ArrivalsAndReleasesOfGroups := by
  unfold Obligations.ArrivalsAndReleasesOfGroups
  intro s w f k c arrives
  refine ⟨fun h => ?_, fun h => ?_, fun h => ?_, fun h => ?_⟩
  · exact issue_arrival h rfl (by simp [effX, h.2, effArr])
  · exact issue_arrival h rfl (by simp [effX, h.2, effEndp])
  · change issue w .x (.rres f) s = _
    rw [issue_x h.1 (Or.inl rfl)]
    simp [effX, h.2, effRres, effCore, k, c]
  · change issue w .x (.rflg f) s = _
    rw [issue_x h.1 (Or.inl rfl)]
    simp [effX, h.2, effRflg, effCore, k, c]

end Sys2Proof.CoreTempo
end

section
/-! A partition list that is not in the order of its numbers, as the statements over every state allow. `State.part` reads the entry of
a number wherever it stands, and `State.partOfRank` the first entry whose band holds a rank; an update of a partition's record puts
its entry at its place in the order, so that of two entries with a common rank the other may then come first. -/
namespace Sys2Proof.PartOrder

open Sys2Proof.Machine Sys2Proof.Claims

/-- Partition 1 runs on die rank 1; partition 0 names the same rank and stands behind it. -/
def shuffled (q : Part) : State :=
  { State.reset with
    parts := [(1, { q with first := 1, height := 1, tree := 7, st := 1 }), (0, { Part.reset with first := 1, height := 1 })] }

/-- The state that a command leaves. -/
def after (i : Instr) (s : State) : State :=
  match exec i s with
  | .next t => t
  | _ => s

theorem after_eq {i : Instr} {s t : State} (h : exec i s = .next t) : after i s = t := by
  simp [after, h]

/-! ### The census (R55, R56) -/

/-- The detector of partition 1 asks none of its dies: the update of its record has put the entry of partition 0 first. -/
theorem shuffled_census_waiting :
    (((after (.stalemateDetector ⟨1, 100⟩) (shuffled Part.reset)).part 1).census.map (·.waiting)) = some [] := by
  decide +kernel

/-- Refutes O38: at the timeout of 100 ms the census of partition 1 waits for no die, although die 0 is one of its dies and has members
of group 0 (`State.groupCores`) in the state before. -/
theorem not_stalematesAndHaltsReachTheTree : ¬ Obligations.StalematesAndHaltsReachTheTree := by
  unfold Obligations.StalematesAndHaltsReachTheTree
  rintro ⟨h, -⟩
  obtain ⟨-, detects, -⟩ := h (shuffled Part.reset) 1 100
  obtain ⟨t, ht, -, -, -, -, ⟨c, hc, -, -, -, -, -, hw⟩, -⟩ :=
    detects (by decide +kernel) (by decide +kernel) (by decide +kernel) (by decide +kernel)
  have waits : 0 ∈ c.waiting := (hw 0).mpr ⟨by decide +kernel, by decide +kernel⟩
  have none_waits := shuffled_census_waiting
  rw [after_eq ht, show (t.part 1).census = some c from hc] at none_waits
  simp [Option.some.inj none_waits] at waits

/-! ### The release (R44, R45) -/

/-- The arrival of tile 0 at group 0 of the tree of partition 1. -/
def tileArrival : TempoMsg :=
  { ty := 1, late := false, ovf := false, proxy := false, port := false, group := 0, op := 0, tree := 7, move := 0, seq := 0, value := 0
    hi := 0, delay := 0, lvl := 0, ok := true }

/-- The other two tiles of the rank have arrived, tile 0 has sent its arrival, and a capture asked for waits for one under way. -/
def lastTile : State :=
  ((shuffled { Part.reset with captureAsk := true, capturing := some default }).modNode keyPanel (fun t =>
    { t with comb := [(pgKey 1 0, ⟨[keyTile 1, keyTile 2], true, 0, 0⟩)] })).modNode (keyTile 0) (fun t =>
      { t with unacked := [⟨keyPanel, tileArrival, 0⟩] })

/-- The last arrival issues the release, but no child is sent it: the deferred capture has updated the record of partition 1. -/
theorem lastTile_unacked :
    ((after (.arrive .panel (.tile 0) tileArrival) lastTile).tnode keyPanel).unacked = [] := by
  decide +kernel

/-- Refutes O35: in `lastTile` the arrival of tile 0 is the last that the panel hub of the unlinked partition 1 awaits, and of the
release that it issues no message goes to tile 0. -/
theorem not_arrivalsCombineUpToTheRelease : ¬ Obligations.ArrivalsCombineUpToTheRelease := by
  unfold Obligations.ArrivalsCombineUpToTheRelease
  intro h
  obtain ⟨-, -, -, -, atPanel⟩ := h lastTile tileArrival
  obtain ⟨-, releases⟩ := atPanel 0 1 ⟨keyPanel, tileArrival, 0⟩ rfl rfl rfl (by decide +kernel) (by decide +kernel) (by decide +kernel)
    (by decide +kernel) (by decide +kernel) (by decide +kernel) (by decide +kernel) (by decide +kernel)
  have no_halt : (lastTile.part 1).haltPend = none := by decide +kernel
  obtain ⟨t, ht, -, -, -, sent⟩ := releases (fun src => by simp [no_halt]) (by decide +kernel) (by decide +kernel) (by decide +kernel)
  obtain ⟨u, hu, -⟩ := sent (keyTile 0) (by decide +kernel)
  rw [← after_eq ht, lastTile_unacked] at hu
  exact absurd hu List.not_mem_nil

end Sys2Proof.PartOrder
end

section
/-! Registers and links of the tempo ports: a field of a register read after it was set, and the frames of what a port does. -/
namespace Sys2Proof.TempoPorts

open Sys2Proof.Machine Sys2Proof.Claims

/-! ### Fields of registers -/

theorem testBit_field (v lo len i : Nat) : (field v lo len).testBit i = (decide (i < len) && v.testBit (lo + i)) := by
  simp [field, Nat.testBit_mod_two_pow, Nat.testBit_div_two_pow, Nat.add_comm]

/-- A field within the low n bits does not see the bits above them. -/
theorem field_mod_two_pow {lo len n : Nat} (h : lo + len ≤ n) (v : Nat) : field (v % 2 ^ n) lo len = field v lo len := by
  apply Nat.eq_of_testBit_eq
  intro i
  rw [testBit_field, testBit_field, Nat.testBit_mod_two_pow]
  by_cases hi : i < len
  · simp [hi, show lo + i < n by omega]
  · simp [hi]

/-- Replacing a field of a number. -/
theorem field_replace (v lo len w : Nat) : field (v - field v lo len * 2 ^ lo + w % 2 ^ len * 2 ^ lo) lo len = w % 2 ^ len := by
  have split : v / 2 ^ lo - field v lo len = 2 ^ len * (v / 2 ^ lo / 2 ^ len) := by
    have := Nat.div_add_mod (v / 2 ^ lo) (2 ^ len)
    unfold field
    omega
  have shift : (v - field v lo len * 2 ^ lo) / 2 ^ lo = v / 2 ^ lo - field v lo len := by
    rw [Nat.mul_comm, Nat.sub_mul_div]
  conv_lhs => unfold field
  rw [Nat.add_mul_div_right _ _ (Nat.two_pow_pos lo), ← field, shift, split, Nat.mul_add_mod, Nat.mod_mod]

theorem regF_setRegF {lo len : Nat} (h : lo + len ≤ 32) (s : State) (off v : Nat) :
    (s.setRegF off lo len v).regF off lo len = v % 2 ^ len := by
  simp only [State.regF, State.setRegF, State.reg_setReg, BitVec.toNat_ofNat]
  rw [field_mod_two_pow h, field_replace]

theorem reg_setRegF_ne {s : State} {off j : Nat} (h : j ≠ off) (lo len v : Nat) : (s.setRegF off lo len v).reg j = s.reg j :=
  State.reg_setReg_ne s _ h

theorem regF_setRegF_ne {s : State} {off j : Nat} (h : j ≠ off) (lo len v a b : Nat) :
    (s.setRegF off lo len v).regF j a b = s.regF j a b := by
  simp only [State.regF, reg_setRegF_ne h]

/-! ### Links -/

theorem sys_linkKey_ne {o p : Fin 32} (h : o ≠ p) : linkKey (.sys o) ≠ linkKey (.sys p) := by
  simpa [linkKey, Fin.ext_iff] using h

theorem link_modLink_sys_ne {s : State} {o p : Fin 32} (h : o ≠ p) (f : Link → Link) :
    (s.modLink (.sys p) f).link (.sys o) = s.link (.sys o) := sget_sput_ne _ _ _ (sys_linkKey_ne h)

/-- Two states that differ in the links alone. -/
def LinksOnly (s t : State) : Prop := ∃ l, t = { s with links := l }

theorem LinksOnly.refl (s : State) : LinksOnly s s := ⟨s.links, rfl⟩
theorem LinksOnly.trans {s t u : State} : LinksOnly s t → LinksOnly t u → LinksOnly s u := by
  rintro ⟨_, rfl⟩ ⟨_, rfl⟩
  exact ⟨_, rfl⟩
theorem LinksOnly.eq {s t : State} : LinksOnly s t → t = { s with links := t.links } := by
  rintro ⟨_, rfl⟩
  rfl

theorem linksOnly_modLink (s : State) (l : LinkEnd) (f : Link → Link) : LinksOnly s (s.modLink l f) := ⟨_, rfl⟩
theorem linksOnly_onLane (s : State) (port : Nat) (m : TempoMsg) : LinksOnly s (s.onLane port m) := ⟨_, rfl⟩
theorem linksOnly_onPath (s : State) (p peer : Nat) (m : TempoMsg) : LinksOnly s (s.onPath p peer m) := by
  unfold State.onPath
  split
  · exact .refl s
  · exact (linksOnly_onLane ..).trans (linksOnly_onLane ..)

/-- Only the hubs of other panels, whose keys are 40000 and above, are at the other end of a path. -/
theorem pathPorts_of_lt {s : State} {peer : Nat} (h : peer < 40000) (p : Nat) : s.pathPorts p peer = none := by
  have hr (q : Nat) : keyRemote q ≠ peer := by unfold keyRemote; omega
  have hu : (s.part p).parent.map keyRemote ≠ some peer := by
    cases (s.part p).parent <;> simp [hr]
  simp [State.pathPorts, hu, hr]

theorem onPath_of_lt {s : State} {peer : Nat} (h : peer < 40000) (p : Nat) (m : TempoMsg) : s.onPath p peer m = s := by
  simp [State.onPath, pathPorts_of_lt h]

/-! ### Halts (R53) -/

/-- An abort that is raised is on its way, whatever halt was. -/
theorem haltPend_raiseHalt_abort (s : State) (p : Nat) (src : HaltSrc) :
    ((s.raiseHalt p .abort src).part p).haltPend.map (·.1) = some .abort := by
  rw [State.raiseHalt, State.part_modPart]
  rcases h : (s.part p).haltPend with _ | ⟨_ | _, x⟩ <;> simp [h]

end Sys2Proof.TempoPorts
end

section
/-! Tempo slots of a system-link port (R40 to R42, R287): what `execTempoSlot` and `State.laneMessage` do, a lemma for each outcome. -/
namespace Sys2Proof.TempoPorts

open Sys2Proof.Machine Sys2Proof.Claims

/-- The state in which a slot has been counted. -/
def slotCounted (s : State) (port : Fin 32) : State := s.modLink (.sys port) (fun k => { k with rxSlot := k.rxSlot + 1 })

/-- The state in which a slot has been counted and its type found right. -/
def slotRight (s : State) (port : Fin 32) : State := (slotCounted s port).modLink (.sys port) (fun k => { k with wrong := 0 })

theorem linksOnly_slotRight (s : State) (port : Fin 32) : LinksOnly s (slotRight s port) := ⟨_, rfl⟩

theorem link_slotRight (s : State) (port : Fin 32) :
    (slotRight s port).link (.sys port) = { s.link (.sys port) with rxSlot := (s.link (.sys port)).rxSlot + 1, wrong := 0 } := by
  simp [slotRight, slotCounted]

section outcomes

variable {s : State} {port : Fin 32} {slot : BitVec 288} {rx : SlotRx}

theorem tempoSlot_of_down (h : (s.link (.sys port)).failed = true ∨ (s.link (.sys port)).stopped = true) :
    execTempoSlot port slot rx s = .next s := by
  simp only [execTempoSlot, if_pos h]

variable (hf : (s.link (.sys port)).failed = false) (hs : (s.link (.sys port)).stopped = false)
include hf hs

theorem tempoSlot_of_bad (h : rx.fecOk = false ∨ flitOk slot = false) :
    execTempoSlot port slot rx s = .next (slotCounted s port) := by
  simp [execTempoSlot, hf, hs, h, slotCounted]

variable (he : rx.fecOk = true) (hc : flitOk slot = true)
include he hc

/-- A slot whose type disagrees with the count is noted; a second one in a row stops the port and retrains it (R287). -/
theorem tempoSlot_of_wrong_type (h : ¬ (flitByte slot 33 % 8 = 5 ↔ (s.link (.sys port)).rxSlot % 64 = 63)) :
    execTempoSlot port slot rx s = .next (
      let t := (slotCounted s port).modLink (.sys port) (fun k => { k with wrong := k.wrong + 1 })
      if 1 ≤ (s.link (.sys port)).wrong then
        (t.setRegF (Reg.sylPort port) 28 4 1).modLink (.sys port) (fun k => { k with stopped := true, wrong := 0 })
      else t) := by
  have hne : (flitByte slot 33 % 8 == 5) ≠ ((s.link (.sys port)).rxSlot % 64 == 63) := mt beq_eq_beq.mp h
  simp only [execTempoSlot, hf, hs, he, hc, slotCounted, if_pos hne]
  simp

theorem tempoSlot_of_right_type (h : flitByte slot 33 % 8 = 5 ↔ (s.link (.sys port)).rxSlot % 64 = 63) :
    execTempoSlot port slot rx s = if (s.link (.sys port)).rxSlot % 64 = 63 then
        (slotRight s port).laneMessage port (slotMsg slot true) rx.now else .next (slotRight s port) := by
  have heq : ¬ (flitByte slot 33 % 8 == 5) ≠ ((s.link (.sys port)).rxSlot % 64 == 63) := not_not_intro (beq_eq_beq.mpr h)
  simp only [execTempoSlot, hf, hs, he, hc, slotRight, slotCounted, if_neg heq]
  simp

end outcomes

/-! ### A message that has come in -/

section lane

variable {s : State} {port : Nat} {m : TempoMsg} (now : W64)

/-- The state once a message is repeated on the ports that its records name. -/
def repeated (s : State) (port : Nat) (m : TempoMsg) : State := (s.repeatPorts m port).foldl (fun t o => t.onLane o m) s

theorem laneMessage_of_no_partition (hp : (repeated s port m).partOfMsg m = none) :
    s.laneMessage port m now = .next (repeated s port m) := by
  unfold repeated at *
  simp only [State.laneMessage, hp]

theorem laneMessage_of_no_peer {p : Nat} (hp : (repeated s port m).partOfMsg m = some p) (hq : (repeated s port m).pathPeer p port = none) :
    s.laneMessage port m now = .next (repeated s port m) := by
  unfold repeated at *
  simp only [State.laneMessage, hp, hq]

/-- A message on the path to a panel: what a node of its side does not send is dropped, the rest acts at the panel hub. -/
theorem laneMessage_on_path {p q : Nat} (hr : s.repeatPorts m port = []) (hp : s.partOfMsg m = some p) (hq : s.pathPeer p port = some q) :
    s.laneMessage port m now =
      (let peer : TNode := .remote (Fin.ofNat _ q)
       let up := (s.part p).parent = some q
       if (fromParent m.ty.toNat = true ∧ ¬ up) ∨ (fromChild m.ty.toNat = true ∧ up) then .next s
       else match m.ty.toNat with
        | 1 => execArrive .panel peer m s
        | 2 => execRelease .panel m s
        | 3 => .next (s.haltArrives p (keyRemote q) m)
        | 4 => execTempoAck .panel peer m s
        | 5 => execEchoReq .panel peer m s
        | 6 => execEchoRsp .panel peer m now s
        | 7 => .next (if (s.part p).census.isNone then s.askCensus p else s)
        | 8 => .next (match (s.part p).census with
          | some c => if c.panels.contains q then s.censusStep p c { c with panels := c.panels.erase q } else s
          | none => s)
        | 9 => execCal .panel m s
        | _ => .next s) := by
  simp only [State.laneMessage, hr, List.foldl_nil, hp, hq] <;> rfl

end lane

/-- An abort that another panel sends is on its way, whatever halt was. -/
theorem haltArrives_abort {s : State} {p peer : Nat} {m : TempoMsg} (hv : m.value = 1) (ha : s.hasActed keyPanel peer m = false) :
    ((s.haltArrives p peer m).part p).haltPend.map (·.1) = some .abort ∧ (s.haltArrives p peer m).cores = s.cores ∧
      (s.haltArrives p peer m).mem = s.mem := by
  have hn : ¬ (s.hasActed keyPanel peer m = true ∨ m.value.toNat ≠ 1 ∧ m.value.toNat ≠ 2) := by simp [ha, hv]
  have hk : m.value.toNat = 1 := by rw [hv]; rfl
  have raised := haltPend_raiseHalt_abort (s.noteActed keyPanel peer m) p .member
  rw [State.haltArrives, if_neg hn]
  simp only [hk, if_true]
  split
  · rw [State.part_modPart]
    exact ⟨raised, rfl, rfl⟩
  · exact ⟨raised, rfl, rfl⟩

end Sys2Proof.TempoPorts
end

section
/-! Calibration (R43, R46, R65): the frames of CAL messages and of a calibration, and what the registers of Tables 2-8 and 2-9 show. -/
namespace Sys2Proof.TempoPorts

open Sys2Proof.Machine Sys2Proof.Claims

/-! ### Relations that hold along a fold -/

theorem foldl_rel {α β : Type} {R : β → β → Prop} (refl : ∀ b, R b b) (trans : ∀ {a b c}, R a b → R b c → R a c) {f : β → α → β}
    (h : ∀ b a, R b (f b a)) (l : List α) (b : β) : R b (l.foldl f b) := by
  induction l generalizing b with
  | nil => exact refl b
  | cons a l ih => exact trans (h b a) (ih (f b a))

/-- What every step establishes holds after a fold over a list that is not empty. -/
theorem foldl_establishes {α β : Type} {P : β → Prop} {f : β → α → β} (h : ∀ b a, P (f b a)) {l : List α} (hl : l ≠ []) (b : β) :
    P (l.foldl f b) := by
  rw [← List.dropLast_concat_getLast hl, List.foldl_append]
  exact h _ _

/-! ### Messages posted by a node -/

/-- From s to t the node n has sent messages that nobody acknowledges: on links, or by its own `out`. -/
def Posts (n : Nat) (s t : State) : Prop :=
  (∃ x l, t = { s with tnodes := x, links := l }) ∧ (∀ j, j ≠ n → t.tnode j = s.tnode j) ∧ ∃ o, t.tnode n = { s.tnode n with out := o }

theorem Posts.refl (n : Nat) (s : State) : Posts n s s := ⟨⟨_, _, rfl⟩, fun _ _ => rfl, ⟨_, rfl⟩⟩

theorem Posts.trans {n : Nat} {s t u : State} : Posts n s t → Posts n t u → Posts n s u := by
  rintro ⟨⟨x, l, ht⟩, hj, o, ho⟩ ⟨⟨x', l', hu⟩, hj', o', ho'⟩
  refine ⟨⟨x', l', ?_⟩, fun j h => (hj' j h).trans (hj j h), o', ?_⟩
  · rw [hu, ht]
  · rw [ho', ho]

theorem LinksOnly.posts {s t : State} (n : Nat) : LinksOnly s t → Posts n s t := by
  rintro ⟨l, rfl⟩
  exact ⟨⟨_, _, rfl⟩, fun _ _ => rfl, ⟨_, rfl⟩⟩

theorem posts_out (n : Nat) (s : State) (l : List (Nat × TempoMsg)) :
    Posts n s (s.modNode n (fun t => { t with out := t.out ++ l })) :=
  ⟨⟨_, _, rfl⟩, fun _ h => State.tnode_modNode_ne _ _ h, _, State.tnode_modNode ..⟩

theorem posts_foldl {α : Type} {n : Nat} {f : State → α → State} (h : ∀ t a, Posts n t (f t a)) (l : List α) (s : State) :
    Posts n s (l.foldl f s) := foldl_rel (Posts.refl n) Posts.trans h l s

theorem posts_sendCal (s : State) (p n child o d : Nat) : Posts n s (s.sendCal p n child o d) := by
  unfold State.sendCal
  dsimp only
  have post (t : State) (m : TempoMsg) : Posts n t (if 40000 ≤ child then (match t.pathPorts p child with
      | none => t
      | some (a, b) => t.onLane (if o = 0 then a else b) m)
    else t.modNode n (fun x => { x with out := x.out ++ [(child, m)] })) := by
    split
    · split
      · exact .refl n t
      · exact (linksOnly_onLane ..).posts n
    · exact posts_out n t _
  exact (post s _).trans (posts_foldl (fun t l => post t _) _ _)

theorem posts_sendCals (s : State) (p n : Nat) : Posts n s (s.sendCals p n) := by
  unfold State.sendCals
  exact posts_foldl (fun t c => posts_foldl (fun t o => posts_sendCal t p n c o _) _ t) _ s

/-! ### Registers that calibration shows (Tables 2-8, 2-9) -/

theorem calDmax_eq (s : State) : ∃ v, s.calDmax = s.setRegF Reg.calStatus 0 24 v := ⟨_, rfl⟩

/-- RECAL reads 0 once no port and no partition waits for its calibration, and is left alone before. -/
theorem recalDone_cases (s : State) :
    ((∀ e ∈ s.tnodes, e.2.recal = []) ∧ (∀ e ∈ s.parts, e.2.recal = false) ∧ s.recalDone = s.setRegF Reg.calCtl 31 1 0) ∨
    (((∃ e ∈ s.tnodes, e.2.recal ≠ []) ∨ ∃ e ∈ s.parts, e.2.recal = true) ∧ s.recalDone = s) := by
  unfold State.recalDone
  by_cases h : (s.tnodes.all (fun e => e.2.recal.isEmpty) && s.parts.all (fun e => !e.2.recal)) = true
  · rw [if_pos h]
    simp only [Bool.and_eq_true, List.all_eq_true, List.isEmpty_iff, Bool.not_eq_true'] at h
    exact .inl ⟨h.1, h.2, rfl⟩
  · rw [if_neg h]
    refine .inr ⟨?_, rfl⟩
    by_contra hn
    push Not at hn
    apply h
    simpa using hn

theorem recalDone_regs (s : State) : ∃ r, s.recalDone = { s with regs := r } := by
  rcases recalDone_cases s with ⟨-, -, h⟩ | ⟨-, h⟩
  · exact ⟨_, h⟩
  · exact ⟨s.regs, h⟩

theorem calStatus_recalDone (s : State) (a b : Nat) : s.recalDone.regF Reg.calStatus a b = s.regF Reg.calStatus a b := by
  rcases recalDone_cases s with ⟨-, -, h⟩ | ⟨-, h⟩
  · rw [h, regF_setRegF_ne (by decide)]
  · rw [h]

/-! ### Calibrating a partition's tree -/

/-- A change of a tempo node that leaves the releases it will act on. -/
def KeepsSched (f : TempoNode → TempoNode) : Prop := ∀ x, (f x).sched = x.sched

/-- What a calibration may change: tempo nodes but their releases, registers, links and the index of the next free value. -/
def Calibrates (s t : State) : Prop :=
  (∃ x r l c, t = { s with tnodes := x, regs := r, links := l, freeCtr := c }) ∧ ∀ n, (t.tnode n).sched = (s.tnode n).sched

theorem Calibrates.refl (s : State) : Calibrates s s := ⟨⟨_, _, _, _, rfl⟩, fun _ => rfl⟩

theorem Calibrates.trans {s t u : State} : Calibrates s t → Calibrates t u → Calibrates s u := by
  rintro ⟨⟨_, _, _, _, ht⟩, h⟩ ⟨⟨x, r, l, c, hu⟩, h'⟩
  exact ⟨⟨x, r, l, c, by rw [hu, ht]⟩, fun n => (h' n).trans (h n)⟩

theorem calibrates_foldl {α : Type} {f : State → α → State} (h : ∀ t a, Calibrates t (f t a)) (l : List α) (s : State) :
    Calibrates s (l.foldl f s) := foldl_rel Calibrates.refl Calibrates.trans h l s

theorem Posts.calibrates {n : Nat} {s t : State} : Posts n s t → Calibrates s t := by
  rintro ⟨⟨_, _, ht⟩, hne, o, ho⟩
  refine ⟨⟨_, _, _, _, ht⟩, fun j => ?_⟩
  by_cases hj : j = n
  · rw [hj, ho]
  · rw [hne j hj]

theorem calibrates_modNode (s : State) (n : Nat) {f : TempoNode → TempoNode} (h : KeepsSched f) : Calibrates s (s.modNode n f) := by
  refine ⟨⟨_, _, _, _, rfl⟩, fun j => ?_⟩
  by_cases hj : j = n
  · rw [hj, State.tnode_modNode, h]
  · rw [State.tnode_modNode_ne _ _ hj]

theorem calibrates_of_tnodes {s t : State} (h : ∃ r l c, t = { s with regs := r, links := l, freeCtr := c }) : Calibrates s t := by
  obtain ⟨_, _, _, rfl⟩ := h
  exact ⟨⟨_, _, _, _, rfl⟩, fun _ => rfl⟩

theorem calibrates_recalDone (s : State) : Calibrates s s.recalDone := by
  obtain ⟨r, h⟩ := recalDone_regs s
  exact calibrates_of_tnodes ⟨r, _, _, h⟩

theorem calibrates_renewNode (s : State) (parent n : Nat) : Calibrates s (s.renewNode parent n) := by
  refine calibrates_foldl (fun t o => ?_) _ s
  exact calibrates_modNode t n (fun _ => rfl)

theorem calibrates_renewPaths (s : State) (dies : List Nat) : Calibrates s (s.renewPaths dies) := by
  refine calibrates_foldl (fun t x => ?_) _ s
  refine ((calibrates_renewNode t _ _).trans (calibrates_renewNode ..)).trans (calibrates_foldl (fun u k => ?_) _ _)
  exact calibrates_renewNode ..

theorem calibrates_calibrate (s : State) (dies : List Nat) : Calibrates s (s.calibrate dies) := by
  unfold State.calibrate
  dsimp only
  refine Calibrates.trans (Calibrates.trans (Calibrates.trans (calibrates_foldl (fun t x => ?_) dies s) (calibrates_renewPaths _ dies))
    (calibrates_of_tnodes ⟨_, _, _, rfl⟩)) (calibrates_recalDone _)
  refine Calibrates.trans (Calibrates.trans (calibrates_modNode _ _ ?_) (calibrates_modNode _ _ ?_))
    (calibrates_foldl (fun u k => calibrates_modNode _ _ ?_) _ _) <;>
  exact fun _ => rfl

theorem calibrates_calibrateLinks (s : State) (p : Nat) : Calibrates s (s.calibrateLinks p) := by
  unfold State.calibrateLinks
  dsimp only
  refine Calibrates.trans (calibrates_foldl (fun t c => calibrates_foldl (fun u o => ?_) _ t) _ s) (calibrates_of_tnodes ⟨_, _, _, rfl⟩)
  refine Calibrates.trans (calibrates_modNode _ _ ?_) (posts_sendCal ..).calibrates
  exact fun _ => rfl

/-- A calibration of dies is shown in `TPO_CALSTATUS`, whatever links are calibrated after it. -/
theorem calStatus_calibrate (s : State) (dies : List Nat) : (s.calibrate dies).regF Reg.calStatus 31 1 = 1 := by
  unfold State.calibrate
  dsimp only
  rw [calStatus_recalDone, regF_setRegF (by decide), Nat.mod_eq_of_lt (by decide)]

theorem regs_sendCal (s : State) (p n child o d : Nat) : (s.sendCal p n child o d).regs = s.regs := by
  obtain ⟨⟨_, _, h⟩, -⟩ := posts_sendCal s p n child o d
  rw [h]

theorem regs_calibrateLinks (s : State) (p : Nat) : (s.calibrateLinks p).regs = s.regs := by
  have keeps {f : State → Nat → State} (h : ∀ t a, (f t a).regs = t.regs) (l : List Nat) (t : State) : (l.foldl f t).regs = t.regs :=
    foldl_rel (R := fun a b : State => b.regs = a.regs) (fun _ => rfl) (fun h h' => h'.trans h) h l t
  unfold State.calibrateLinks
  rw [State.freshen_regs]
  refine keeps (fun t c => keeps (fun u o => ?_) _ t) _ s
  exact (regs_sendCal ..).trans (State.modNode_regs ..)

end Sys2Proof.TempoPorts
end

section
/-! Echoes, CAL, re-measurement and RECAL (R43, R46, R65), and the statement about tempo ports. -/
namespace Sys2Proof.TempoPorts

open Sys2Proof.Machine Sys2Proof.Claims

section echo

variable {s : State} {node other : TNode} {m : TempoMsg} {now : W64}

/-! ### ECHO_REQ and re-measurement -/

theorem echoReq_refused (h : m.ok = false ∨ m.ty ≠ 5 ∨ node = other ∨ s.nodeDown node.key = true) :
    execEchoReq node other m s = .next s := by
  simp only [execEchoReq, if_pos h]

/-- The parent's time count goes back unchanged: in `answer`, and to another panel on its path. -/
theorem echoReq_answers (hok : m.ok = true) (hty : m.ty = 5) (hne : node ≠ other) (hup : ¬ s.nodeDown node.key = true) :
    ∃ t, execEchoReq node other m s = .next t ∧ LinksOnly { s with answer := leBytes 8 m.value.toNat } t ∧
      (other.key < 40000 → t.links = s.links) := by
  rw [execEchoReq, if_neg (by simp [hok, hty, hne, hup])]
  refine ⟨_, rfl, ?_, fun h => ?_⟩
  · dsimp only
    split
    · exact .refl _
    · split
      · exact .refl _
      · exact linksOnly_onLane ..
  · simp only [pathPorts_of_lt h]
    split <;> rfl

theorem reMeasurement_refused (p : Bool) (h : node = other ∨ s.nodeDown node.key = true) :
    execReMeasurement node other p now s = .next s := by
  simp only [execReMeasurement, if_pos h]

theorem reMeasurement_sends (p : Bool) (hne : node ≠ other) (hup : ¬ s.nodeDown node.key = true) :
    ∃ t, execReMeasurement node other p now s = .next t ∧
      LinksOnly { s with answer := leBytes 8 now.toNat ++ [if p then 1 else 0] } t ∧ (other.key < 40000 → t.links = s.links) := by
  have hb : BitVec.ofNat 8 (bitN p) = if p then 1 else 0 := by cases p <;> rfl
  rw [execReMeasurement, if_neg (by simp [hne, hup])]
  refine ⟨_, rfl, ?_, fun h => ?_⟩
  · rw [← hb]
    dsimp only
    split
    · exact .refl _
    · split
      · exact .refl _
      · exact linksOnly_onLane ..
  · simp only [pathPorts_of_lt h]
    split <;> rfl

/-! ### ECHO_RSP -/

/-- The one-way delay of a port in ps: half of what the round trip leaves after the turnaround. -/
def echoDelay (m : TempoMsg) (now : W64) : Nat := ((now - m.value).toNat * 625 / 64 - 20000) / 2

/-- A port whose delay has moved beyond the drift limit is marked and reported. -/
def echoMarked (s : State) (n p key diff : Nat) : State :=
  (s.modNode n (fun t => { t with recal := addNew key t.recal })).raise 0x0004 p (leBytes 4 key ++ leBytes 4 diff)

/-- A port's new delay waits for the next release. -/
def echoWaits (s : State) (n key d : Nat) : State := s.modNode n (fun t => { t with fresh := sput 0 t.fresh key d })

theorem echoRsp_refused (h : m.ok = false ∨ m.ty ≠ 6 ∨ s.nodeDown node.key = true) : execEchoRsp node other m now s = .next s := by
  simp only [execEchoRsp, if_pos h]

variable (hok : m.ok = true) (hty : m.ty = 6) (hup : ¬ s.nodeDown node.key = true)
include hok hty hup

/-- A first or recalibrated delay is taken at once, and the child is told. -/
theorem echoRsp_taken (h : sget 0 (s.tnode node.key).ports (other.key * 2 + bitN m.port) = 0 ∨
      other.key * 2 + bitN m.port ∈ (s.tnode node.key).recal) :
    execEchoRsp node other m now s = .next ((((s.modNode node.key (fun t =>
      { t with ports := sput 0 t.ports (other.key * 2 + bitN m.port) (echoDelay m now), recal := t.recal.erase (other.key * 2 + bitN m.port) })).sendCal
        ((s.partOfMsg m).getD 0) node.key other.key (bitN m.port) (echoDelay m now)).calDmax).recalDone) := by
  rw [execEchoRsp, if_neg (by simp [hok, hty, hup])]
  simp only
  rw [if_pos (by simpa using h)]
  rfl

variable (h0 : sget 0 (s.tnode node.key).ports (other.key * 2 + bitN m.port) ≠ 0)
  (hr : other.key * 2 + bitN m.port ∉ (s.tnode node.key).recal)
include h0 hr

/-- A delay beyond the drift limit marks its port and is reported; a smaller change waits for the next release. -/
theorem echoRsp_compared :
    let key := other.key * 2 + bitN m.port
    let old := sget 0 (s.tnode node.key).ports key
    let diff := max old (echoDelay m now) - min old (echoDelay m now)
    execEchoRsp node other m now s = .next (if s.regF Reg.calCtl 0 16 < diff then echoMarked s node.key ((s.partOfMsg m).getD 0) key diff
      else echoWaits s node.key key (echoDelay m now)) := by
  intro key old diff
  have hd : diff = if old ≤ echoDelay m now then echoDelay m now - old else old - echoDelay m now := by
    simp only [diff]
    split <;> omega
  rw [execEchoRsp, if_neg (by simp [hok, hty, hup])]
  simp only
  rw [if_neg (by simpa using ⟨h0, hr⟩), hd]
  rfl

end echo

/-! ### CAL (R43) -/

theorem upNode_ne {n u : Nat} (h : upNode n = some u) : n ≠ u := by
  unfold upNode keyDie keyTile keyPanel at h
  split_ifs at h <;> simp only [Option.some.injEq] at h <;> omega

/-- The acknowledged CAL has left the parent's messages under way. -/
def calHeard (s : State) (n : Nat) (m : TempoMsg) : State :=
  match upNode n with
  | some u => s.modNode u (fun t => { t with out := t.out.erase (n, m) })
  | none => s

/-- The node has noted the delay that a CAL tells it. -/
def calNoted (s : State) (n : Nat) (m : TempoMsg) : State :=
  let port := bitN m.port
  let lvl := m.group.toNat
  if lvl = 0 then
    (calHeard s n m).modNode n (fun t =>
      { t with ports := sput 0 t.ports (2 * 65536 + port) m.delay.toNat, path := sput 0 t.path (2 * (nodeLevel n + 1) + port) m.delay.toNat })
  else if lvl ≤ 6 then
    (calHeard s n m).modNode n (fun t =>
      { t with path := sput 0 t.path (2 * lvl + port) (m.delay.toNat + sget 0 (s.tnode n).ports (2 * 65536 + port)) })
  else calHeard s n m

section cal

variable {s : State} {m : TempoMsg}

theorem cal_refused {node : TNode} (h : m.ok = false ∨ m.ty ≠ 9 ∨ s.nodeDown node.key = true) : execCal node m s = .next s := by
  simp only [execCal, if_pos h]

theorem cal_taken {node : TNode} (hok : m.ok = true) (hty : m.ty = 9) (hup : ¬ s.nodeDown node.key = true) :
    execCal node m s = .next ((if ((calNoted s node.key m).tnode node.key).path = (s.tnode node.key).path then calNoted s node.key m
      else (calNoted s node.key m).sendCals ((s.partOfMsg m).getD 0) node.key).calDmax) := by
  rw [execCal, if_neg (by simp [hok, hty, hup])]
  rfl

theorem calHeard_tnodes (s : State) (n : Nat) (m : TempoMsg) : ∃ x, calHeard s n m = { s with tnodes := x } := by
  unfold calHeard
  split <;> exact ⟨_, rfl⟩

theorem calNoted_tnodes (s : State) (n : Nat) (m : TempoMsg) : ∃ x, calNoted s n m = { s with tnodes := x } := by
  obtain ⟨x, h⟩ := calHeard_tnodes s n m
  unfold calNoted
  rw [h]
  dsimp only
  split
  · exact ⟨_, rfl⟩
  · split <;> exact ⟨_, rfl⟩

/-- A CAL of group 0 brings the port delay from the parent. -/
theorem calNoted_parent {n : Nat} (h : m.group = 0) :
    sget 0 ((calNoted s n m).tnode n).path (2 * (nodeLevel n + 1) + bitN m.port) = m.delay.toNat ∧
      sget 0 ((calNoted s n m).tnode n).ports (131072 + bitN m.port) = m.delay.toNat := by
  simp [calNoted, h]

/-- A CAL of another level brings the delay of an ancestor, to which the port delay is added. -/
theorem calNoted_ancestor {n : Nat} (h1 : 1 ≤ m.group.toNat) (h6 : m.group.toNat ≤ 6) :
    sget 0 ((calNoted s n m).tnode n).path (2 * m.group.toNat + bitN m.port) =
      m.delay.toNat + sget 0 (s.tnode n).ports (131072 + bitN m.port) := by
  simp [calNoted, show m.group.toNat ≠ 0 by omega, h6]

end cal

/-! ### RECAL (R65) -/

/-- Does a partition run? -/
def running (q : Part) : Bool := q.st == 1 || q.st == 5

theorem sget_map {α : Type} {d : α} {f : α → α} (hd : f d = d) (m : SMap α) (k : Nat) :
    sget d (m.map (fun e => (e.1, f e.2))) k = f (sget d m k) := by
  induction m with
  | nil => exact hd.symm
  | cons e m ih =>
    obtain ⟨j, v⟩ := e
    by_cases h : j = k <;> simp [sget, h, ih]

/-- Every partition's record notes whether RECAL has found it running. -/
def recalNoted (s : State) : State :=
  { s with parts := s.parts.map (fun e => (e.1, { e.2 with recal := decide (0 < e.2.height) && running e.2 })) }

/-- The partitions that run nothing. -/
def quiet (s : State) : List (Nat × Part) := s.parts.filter (fun e => decide (0 < e.2.height) && !running e.2)

/-- The trees of the partitions that run nothing are calibrated. -/
def quietCalibrated (s : State) : State :=
  (quiet s).foldl (fun t e => (t.calibrate e.2.dies).calibrateLinks e.1) (recalNoted s)

theorem recal_eq (s : State) : execRecal s = .next (((quietCalibrated s).setRegF Reg.calCtl 31 1 1).recalDone) := rfl

theorem part_recalNoted (s : State) (j : Nat) :
    (recalNoted s).part j = { s.part j with recal := (s.part j).height != 0 && ((s.part j).st == 1 || (s.part j).st == 5) } := by
  have hh (n : Nat) : (n != 0) = decide (0 < n) := by cases n <;> rfl
  rw [hh]
  exact sget_map (f := fun q : Part => { q with recal := decide (0 < q.height) && running q }) rfl s.parts j

theorem calibrates_quiet (s : State) : Calibrates (recalNoted s) (quietCalibrated s) := by
  refine calibrates_foldl (fun t e => ?_) _ _
  exact (calibrates_calibrate t _).trans (calibrates_calibrateLinks ..)

theorem calStatus_quietCalibrated {s : State} (h : quiet s ≠ []) : (quietCalibrated s).regF Reg.calStatus 31 1 = 1 := by
  refine foldl_establishes (P := fun t : State => t.regF Reg.calStatus 31 1 = 1) (fun t e => ?_) h _
  have := calStatus_calibrate t e.2.dies
  simpa only [State.regF, State.reg, regs_calibrateLinks] using this

theorem calCtl_recalDone (s : State) :
    let t := (s.setRegF Reg.calCtl 31 1 1).recalDone
    ((∃ e ∈ s.tnodes, e.2.recal ≠ []) ∨ (∃ e ∈ s.parts, e.2.recal = true) → t.regF Reg.calCtl 31 1 = 1) ∧
      ((∀ e ∈ s.tnodes, e.2.recal = []) → (∀ e ∈ s.parts, e.2.recal = false) → t.regF Reg.calCtl 31 1 = 0) := by
  intro t
  have one : (s.setRegF Reg.calCtl 31 1 1).regF Reg.calCtl 31 1 = 1 := regF_setRegF (by decide) ..
  have cases := recalDone_cases (s.setRegF Reg.calCtl 31 1 1)
  rw [State.setRegF_tnodes, State.setRegF_parts] at cases
  rcases cases with ⟨hn, hp, h⟩ | ⟨hw, h⟩
  · refine ⟨?_, fun _ _ => ?_⟩
    · rintro (⟨e, he, hr⟩ | ⟨e, he, hr⟩)
      · exact absurd (hn e he) hr
      · rw [hp e he] at hr
        cases hr
    · rw [show t = _ from h]
      exact regF_setRegF (by decide) ..
  · refine ⟨fun _ => ?_, fun hn hp => ?_⟩
    · rw [show t = _ from h, one]
    · rcases hw with ⟨e, he, hr⟩ | ⟨e, he, hr⟩
      · exact absurd (hn e he) hr
      · rw [hp e he] at hr
        cases hr

end Sys2Proof.TempoPorts
end

section
/-! The statement about tempo ports (O37), assembled from what a slot, a message that came in, an echo, a CAL and RECAL do. -/
namespace Sys2Proof.TempoPorts

open Sys2Proof.Machine Sys2Proof.Claims

/-! ### A message repeated on one port -/

theorem lane_onLane (s : State) (o : Fin 32) (m : TempoMsg) :
    ((s.onLane o.val m).link (.sys o)).lane = (s.link (.sys o)).lane ++ [m] := by
  simp [State.onLane]

/-- What a pass-through record repeats on one other port, and no partition here acts on. -/
theorem laneMessage_repeated {s : State} {port : Nat} {o : Fin 32} {m : TempoMsg} (now : W64) (hr : s.repeatPorts m port = [o.val])
    (hp : s.partOfMsg m = none) : s.laneMessage port m now = .next (s.onLane o.val m) := by
  have hs : repeated s port m = s.onLane o.val m := by simp [repeated, hr]
  rw [← hs]
  refine laneMessage_of_no_partition now ?_
  rw [hs]
  exact hp

/-! ### Frames -/

/-- Two states that differ in links and registers alone. -/
def LinksRegs (s t : State) : Prop := ∃ l r, t = { s with links := l, regs := r }

theorem LinksRegs.trans {s t u : State} : LinksRegs s t → LinksRegs t u → LinksRegs s u := by
  rintro ⟨_, _, rfl⟩ ⟨_, _, rfl⟩
  exact ⟨_, _, rfl⟩

theorem LinksRegs.eq {s t : State} : LinksRegs s t → t = { s with links := t.links, regs := t.regs } := by
  rintro ⟨_, _, rfl⟩
  rfl

theorem linksRegs_modLink (s : State) (l : LinkEnd) (f : Link → Link) : LinksRegs s (s.modLink l f) := ⟨_, _, rfl⟩
theorem linksRegs_setRegF (s : State) (off lo len v : Nat) : LinksRegs s (s.setRegF off lo len v) := ⟨_, _, rfl⟩

theorem link_setRegF (s : State) (off lo len v : Nat) (e : LinkEnd) : (s.setRegF off lo len v).link e = s.link e := rfl
theorem regF_modLink (s : State) (e : LinkEnd) (f : Link → Link) (off lo len : Nat) : (s.modLink e f).regF off lo len = s.regF off lo len := rfl
theorem regs_of_setRegF (s : State) (off lo len v : Nat) (r : SMap W32) : { s.setRegF off lo len v with regs := r } = { s with regs := r } := rfl

/-- RECAL's bit lies in a register. -/
theorem recalBit_regs (s : State) : ∃ r, (s.setRegF Reg.calCtl 31 1 1).recalDone = { s with regs := r } := by
  obtain ⟨r, h⟩ := recalDone_regs (s.setRegF Reg.calCtl 31 1 1)
  exact ⟨r, h.trans (regs_of_setRegF ..)⟩

/-! ### What the message types do on the path to a panel -/

section types

variable {s : State} {port p q : Nat} {m : TempoMsg} (now : W64)
  (hr : s.repeatPorts m port = []) (hp : s.partOfMsg m = some p) (hq : s.pathPeer p port = some q)
include hr hp hq

theorem laneMessage_ack (h : m.ty = 4) : s.laneMessage port m now = execTempoAck .panel (.remote (Fin.ofNat _ q)) m s := by
  simp [laneMessage_on_path now hr hp hq, h, fromParent, fromChild]

theorem laneMessage_halt (h : m.ty = 3) : s.laneMessage port m now = .next (s.haltArrives p (keyRemote q) m) := by
  simp [laneMessage_on_path now hr hp hq, h, fromParent, fromChild]

/-- A child panel's messages act at the panel hub. -/
theorem laneMessage_from_child (hup : ¬ (s.part p).parent = some q) :
    (m.ty = 1 → s.laneMessage port m now = execArrive .panel (.remote (Fin.ofNat _ q)) m s) ∧
      (m.ty = 6 → s.laneMessage port m now = execEchoRsp .panel (.remote (Fin.ofNat _ q)) m now s) ∧
      (m.ty ∈ ([2, 5, 7, 9] : List _) → s.laneMessage port m now = .next s) := by
  rw [laneMessage_on_path now hr hp hq]
  refine ⟨fun h => ?_, fun h => ?_, fun h => ?_⟩
  · simp [h, fromParent, fromChild, hup]
  · simp [h, fromParent, fromChild, hup]
  · simp only [List.mem_cons, List.not_mem_nil, or_false] at h
    have hf : fromParent m.ty.toNat = true := by rcases h with h | h | h | h <;> rw [h] <;> rfl
    simp [hf, hup]

/-- The parent panel's messages act at the panel hub. -/
theorem laneMessage_from_parent (hup : (s.part p).parent = some q) :
    (m.ty = 2 → s.laneMessage port m now = execRelease .panel m s) ∧
      (m.ty = 5 → s.laneMessage port m now = execEchoReq .panel (.remote (Fin.ofNat _ q)) m s) ∧
      (m.ty = 9 → s.laneMessage port m now = execCal .panel m s) ∧
      (m.ty ∈ ([1, 6, 8] : List _) → s.laneMessage port m now = .next s) := by
  rw [laneMessage_on_path now hr hp hq]
  refine ⟨fun h => ?_, fun h => ?_, fun h => ?_, fun h => ?_⟩
  · simp [h, fromParent, fromChild, hup]
  · simp [h, fromParent, fromChild, hup]
  · simp [h, fromParent, fromChild, hup]
  · simp only [List.mem_cons, List.not_mem_nil, or_false] at h
    have hf : fromChild m.ty.toNat = true := by rcases h with h | h | h <;> rw [h] <;> rfl
    simp [hf, hup]

end types

/-! ### Delays that ECHO_RSP and CAL leave -/

/-- A delay that is taken stands in its port, which no longer waits, and nothing is reported. -/
theorem echoTaken_frame (s : State) (n p child key o d : Nat) :
    ∃ t, ((((s.modNode n (fun t => { t with ports := sput 0 t.ports key d, recal := t.recal.erase key })).sendCal p n child o
        d).calDmax).recalDone) = t ∧ t.mem = s.mem ∧ t.cores = s.cores ∧ t.events = s.events ∧ (∀ j, j ≠ n → t.tnode j = s.tnode j) ∧
      sget 0 (t.tnode n).ports key = d ∧ (t.tnode n).recal = (s.tnode n).recal.erase key := by
  obtain ⟨⟨x, l, ht⟩, hj, out, ho⟩ :=
    posts_sendCal (s.modNode n (fun t => { t with ports := sput 0 t.ports key d, recal := t.recal.erase key })) p n child o d
  obtain ⟨v, hv⟩ := calDmax_eq ((s.modNode n (fun t => { t with ports := sput 0 t.ports key d, recal := t.recal.erase key })).sendCal p n child o d)
  obtain ⟨r, hr⟩ := recalDone_regs
    ((s.modNode n (fun t => { t with ports := sput 0 t.ports key d, recal := t.recal.erase key })).sendCal p n child o d).calDmax
  refine ⟨_, rfl, ?_⟩
  rw [hr, hv]
  generalize (s.modNode n _).sendCal p n child o d = u at *
  have hn : u.tnode n = { s.tnode n with ports := sput 0 (s.tnode n).ports key d, recal := (s.tnode n).recal.erase key, out := out } := by
    rw [ho, State.tnode_modNode]
  refine ⟨?_, ?_, ?_, fun j h => ?_, ?_, ?_⟩
  · rw [ht]; rfl
  · rw [ht]; rfl
  · rw [ht]; rfl
  · exact (hj j h).trans (State.tnode_modNode_ne _ _ h)
  · change sget 0 (u.tnode n).ports key = d
    rw [hn, sget_sput_self]
  · change (u.tnode n).recal = _
    rw [hn]

theorem mem_addNew_self {α : Type} [DecidableEq α] (a : α) (l : List α) : a ∈ addNew a l := by
  unfold addNew
  split
  · rwa [← List.contains_iff_mem]
  · simp

theorem tnode_echoMarked (s : State) (n p key diff : Nat) :
    (echoMarked s n p key diff).tnode n = { s.tnode n with recal := addNew key (s.tnode n).recal } := by
  rw [State.tnode, echoMarked, State.raise_tnodes]
  exact State.tnode_modNode ..

theorem tnode_echoWaits (s : State) (n key d : Nat) :
    (echoWaits s n key d).tnode n = { s.tnode n with fresh := sput 0 (s.tnode n).fresh key d } := State.tnode_modNode ..

/-- What a CAL writes in its node stays there while the node tells its children. -/
theorem calSent_frame (s u : State) (n p : Nat) (hu : ∃ x, u = { s with tnodes := x }) (c : Prop) [Decidable c] :
    ∃ t, (if c then u else u.sendCals p n).calDmax = t ∧ t = { s with tnodes := t.tnodes, regs := t.regs, links := t.links } ∧
      (t.tnode n).path = (u.tnode n).path ∧ (t.tnode n).ports = (u.tnode n).ports := by
  obtain ⟨x, rfl⟩ := hu
  have sent : Posts n { s with tnodes := x } (if c then { s with tnodes := x } else State.sendCals { s with tnodes := x } p n) := by
    split
    · exact .refl _ _
    · exact posts_sendCals ..
  obtain ⟨⟨y, l, ht⟩, -, o, ho⟩ := sent
  obtain ⟨v, hv⟩ := calDmax_eq (if c then { s with tnodes := x } else State.sendCals { s with tnodes := x } p n)
  refine ⟨_, rfl, ?_, ?_, ?_⟩
  · rw [hv, ht]; rfl
  · rw [hv]
    change (State.tnode (if c then _ else _) n).path = _
    rw [ho]
  · rw [hv]
    change (State.tnode (if c then _ else _) n).ports = _
    rw [ho]

/-! ### RECAL with every partition running -/

theorem quiet_eq_nil {s : State} (h : ∀ e ∈ s.parts, e.2.height = 0 ∨ (e.2.st = 1 ∨ e.2.st = 5)) : quiet s = [] := by
  rw [quiet, List.filter_eq_nil_iff]
  intro e he
  rcases h e he with h | h | h <;> simp [running, h]

theorem quiet_ne_nil {s : State} (h : ∃ e ∈ s.parts, e.2.height ≠ 0 ∧ ¬ (e.2.st = 1 ∨ e.2.st = 5)) : quiet s ≠ [] := by
  obtain ⟨e, he, hh, hst⟩ := h
  refine List.ne_nil_of_mem (List.mem_filter.mpr ⟨he, ?_⟩)
  simpa [running, Nat.pos_iff_ne_zero, hh] using hst

/-! ### The statement -/

/-- Settles O37, by a lemma for each outcome of a slot, of a message on a path, and of the messages of calibration. -/
theorem tempoPortsCarryAndMeasure : Obligations.TempoPortsCarryAndMeasure := by
  unfold Obligations.TempoPortsCarryAndMeasure
  refine ⟨fun s port slot rx => ?_, fun s node other m now => ?_⟩
  · intro l isT counted run
    refine ⟨tempoSlot_of_down, fun hf hs => ⟨tempoSlot_of_bad hf hs, fun he hc hw => ?_, fun he hc hty ht => ?_, fun he hc hty ht => ?_⟩⟩
    · refine ⟨_, tempoSlot_of_wrong_type hf hs he hc hw, ?_⟩
      by_cases hl : 1 ≤ l.wrong
      · rw [if_pos hl]
        refine ⟨LinksRegs.eq (.trans (.trans (linksRegs_modLink ..) (linksRegs_modLink ..)) (.trans (linksRegs_setRegF ..)
          (linksRegs_modLink ..))), ?_, fun h => absurd h (by omega), fun _ => ⟨?_, ?_⟩⟩
        · rw [State.link_modLink, link_setRegF]
          simp [slotCounted, l]
        · rw [regF_modLink, regF_setRegF (by decide), Nat.mod_eq_of_lt (by decide)]
        · rw [State.link_modLink]
      · rw [if_neg hl]
        refine ⟨rfl, ?_, fun h => ⟨rfl, ?_⟩, fun h => absurd h hl⟩
        · simp [slotCounted, l]
        · simpa [slotCounted] using h
    · intro m
      have eq : run = (slotRight s port).laneMessage port m rx.now := by
        refine (tempoSlot_of_right_type hf hs he hc (by simp [hty]; exact ht)).trans ?_
        rw [if_pos ht]
      refine ⟨slotRight s port, (linksOnly_slotRight s port).eq, link_slotRight s port, fun hr => ?_, fun o hr ho hp => ?_⟩
      · refine ⟨fun hp => ?_, fun p hp hq => ?_, fun p q hp hq => ?_⟩
        · have hs : repeated (slotRight s port) port m = slotRight s port := by
            rw [repeated, show (slotRight s port).repeatPorts m port = [] from hr, List.foldl_nil]
          rw [eq, laneMessage_of_no_partition rx.now (by rw [hs]; exact hp), hs]
        · have hs : repeated (slotRight s port) port m = slotRight s port := by
            rw [repeated, show (slotRight s port).repeatPorts m port = [] from hr, List.foldl_nil]
          rw [eq, laneMessage_of_no_peer rx.now (by rw [hs]; exact hp) (by rw [hs]; exact hq), hs]
        · intro peer up
          have hr' : (slotRight s port).repeatPorts m port = [] := hr
          have hp' : (slotRight s port).partOfMsg m = some p := hp
          have hq' : (slotRight s port).pathPeer p port = some q := hq
          rw [eq]
          refine ⟨laneMessage_ack rx.now hr' hp' hq', laneMessage_from_child rx.now hr' hp' hq',
            laneMessage_from_parent rx.now hr' hp' hq', fun h3 hv ha => ?_⟩
          exact ⟨_, laneMessage_halt rx.now hr' hp' hq' h3, haltArrives_abort (s := slotRight s port) hv ha⟩
      · refine ⟨_, eq.trans (laneMessage_repeated rx.now (s := slotRight s port) hr hp), ?_, ?_⟩
        · exact ((linksOnly_slotRight s port).trans (linksOnly_onLane ..)).eq
        · rw [lane_onLane, slotRight, slotCounted, link_modLink_sys_ne ho, link_modLink_sys_ne ho]
    · refine ⟨slotRight s port, ?_, (linksOnly_slotRight s port).eq, link_slotRight s port⟩
      refine (tempoSlot_of_right_type hf hs he hc (by simp [hty]; exact ht)).trans ?_
      rw [if_neg ht]
  · intro n t0 port down
    refine ⟨echoReq_refused, fun hok hty hne hup => ?_, fun p => reMeasurement_refused p, fun p hne hup => ?_, echoRsp_refused,
      fun hok hty hup => ?_, cal_refused, fun hok hty hup => ?_, ?_⟩
    · obtain ⟨t, ht, hl, hlt⟩ := echoReq_answers hok hty hne hup
      exact ⟨t, ht, hl.eq, hlt⟩
    · obtain ⟨t, ht, hl, hlt⟩ := reMeasurement_sends p hne hup
      exact ⟨t, ht, hl.eq, hlt⟩
    · intro key d old far
      by_cases taken : old = 0 ∨ key ∈ t0.recal
      · obtain ⟨t, ht, hmem, hcores, hev, hj, hport, hrec⟩ :=
          echoTaken_frame s n ((s.partOfMsg m).getD 0) other.key key (bitN m.port) d
        refine ⟨t, ?_, hmem, hcores, hj, fun _ => ⟨hport, hrec, hev⟩, fun h0 hr => ?_, fun h0 hr => ?_⟩
        · rw [← ht]
          exact echoRsp_taken hok hty hup taken
        · exact absurd taken (by simp [h0, hr])
        · exact absurd taken (by simp [h0, hr])
      · obtain ⟨h0, hr⟩ := not_or.mp taken
        have run := echoRsp_compared (now := now) hok hty hup h0 hr
        by_cases hfar : far
        · refine ⟨_, run.trans (congrArg _ (if_pos hfar)), State.raise_mem .., State.raise_cores .., fun j h => ?_,
            fun h => absurd h taken, fun _ _ _ => ?_, fun _ _ h => absurd hfar h⟩
          · rw [State.tnode, echoMarked, State.raise_tnodes]
            exact State.tnode_modNode_ne _ _ h
          · rw [tnode_echoMarked]
            exact ⟨mem_addNew_self .., rfl⟩
        · refine ⟨_, run.trans (congrArg _ (if_neg hfar)), rfl, rfl, fun j h => State.tnode_modNode_ne _ _ h, fun h => absurd h taken,
            fun _ _ h => absurd h hfar, fun _ _ _ => ?_⟩
          rw [tnode_echoWaits]
          exact ⟨sget_sput_self .., rfl, rfl⟩
    · obtain ⟨t, ht, hframe, hpath, hports⟩ := calSent_frame s (calNoted s n m) n ((s.partOfMsg m).getD 0) (calNoted_tnodes s n m)
        (((calNoted s n m).tnode n).path = t0.path)
      refine ⟨t, ?_, hframe, ?_⟩
      · rw [← ht]
        exact cal_taken hok hty hup
      · rw [hpath, hports]
        exact ⟨calNoted_parent, calNoted_ancestor⟩
    · intro runs
      obtain ⟨⟨x, r, l, c, hq⟩, -⟩ := calibrates_quiet s
      obtain ⟨t, ht, ⟨v, hv⟩, hstatus, hcal⟩ : ∃ t, t = ((quietCalibrated s).setRegF Reg.calCtl 31 1 1).recalDone ∧
          (∃ v, t = { quietCalibrated s with regs := v }) ∧ (t.regF Reg.calStatus 31 1 = (quietCalibrated s).regF Reg.calStatus 31 1) ∧ _ := by
        obtain ⟨v, hv⟩ := recalBit_regs (quietCalibrated s)
        refine ⟨_, rfl, ⟨v, hv⟩, ?_, calCtl_recalDone (quietCalibrated s)⟩
        rw [calStatus_recalDone, regF_setRegF_ne (by decide)]
      refine ⟨t, (recal_eq s).trans (by rw [ht]), ?_, fun j => ?_, fun h => ?_, fun h => ?_, fun h => ?_, fun hn hp => ?_⟩
      · rw [hv, hq]; rfl
      · rw [hv, hq]
        exact part_recalNoted s j
      · rw [hv, quietCalibrated, quiet_eq_nil h]
        exact ⟨rfl, rfl, rfl⟩
      · rw [hstatus]
        exact calStatus_quietCalibrated (quiet_ne_nil h)
      · rw [hv] at h
        rw [ht]
        exact hcal.1 h
      · rw [hv] at hn hp
        rw [ht]
        exact hcal.2 hn hp

end Sys2Proof.TempoPorts
end

section
/-! A release that its parent has issued (R45, R50, R51): the messages of a node to its children on this panel, and what `execRelease`
does with a first copy, a second copy and a late one. -/
namespace Sys2Proof.ReleaseTree

open Sys2Proof.Machine Sys2Proof.Claims Sys2Proof.TempoPorts

/-! ### Children on this panel -/

theorem parentOf_lt {s : State} {p n up : Nat} (h : s.parentOf p n = some up) (hup : up < 40000) : n < 39324 := by
  by_contra hn
  unfold State.parentOf at h
  split at h
  · obtain ⟨q, -, hq⟩ := Option.map_eq_some_iff.mp h
    unfold keyRemote at hq
    omega
  · have : upNode n = none := by
      rw [upNode, if_neg (by omega), if_neg (by omega), if_neg hn]
    simp [this] at h

theorem groupCores_lt {s : State} {p g d e : Nat} (hd : d < 144) (h : e ∈ s.groupCores p g d) : e < 39168 := by
  unfold State.groupCores at h
  split at h
  · simp at h
  · obtain ⟨he, -⟩ := List.mem_filter.mp h
    obtain ⟨i, hi, rfl⟩ := List.mem_map.mp he
    have := List.mem_range.mp hi
    omega

/-- The children of a hub below the panel hub are on this panel. -/
theorem expected_lt {s : State} {p g n e : Nat} (hn : n < 39324) (h : e ∈ s.expected p g n) : e < 40000 := by
  unfold State.expected at h
  split at h
  · simp at h
  · split at h
    · have := groupCores_lt (by omega) h
      omega
    · obtain ⟨d, hd, rfl⟩ := List.mem_map.mp h
      obtain ⟨hd, -⟩ := List.mem_filter.mp hd
      obtain ⟨hd, -⟩ := List.mem_filter.mp hd
      have := List.mem_range.mp hd
      unfold keyDie
      omega

/-! ### Messages that a node sends to peers on this panel -/

/-- From s to t the node n has sent messages on this panel and keeps them until they are acknowledged. -/
def Sends (n : Nat) (s t : State) : Prop :=
  (∃ x, t = { s with tnodes := x }) ∧ (∀ j, j ≠ n → t.tnode j = s.tnode j) ∧
    ∃ a u, t.tnode n = { s.tnode n with sent := a, unacked := (s.tnode n).unacked ++ u }

theorem Sends.refl (n : Nat) (s : State) : Sends n s s := ⟨⟨_, rfl⟩, fun _ _ => rfl, ⟨_, [], by rw [List.append_nil]⟩⟩

theorem Sends.trans {n : Nat} {s t u : State} : Sends n s t → Sends n t u → Sends n s u := by
  rintro ⟨⟨_, ht⟩, hj, a, l, hn⟩ ⟨⟨x, hu⟩, hj', a', l', hn'⟩
  refine ⟨⟨x, by rw [hu, ht]⟩, fun j h => (hj' j h).trans (hj j h), a', l ++ l', ?_⟩
  rw [hn', hn, List.append_assoc]

theorem tempoSend_of_lt {s : State} {p n peer : Nat} {m : TempoMsg} (h : peer < 40000) : Sends n s (s.tempoSend p n peer m) ∧
    ∃ v ∈ ((s.tempoSend p n peer m).tnode n).unacked, v.peer = peer ∧ ∃ q, v.msg = { m with seq := q } := by
  unfold State.tempoSend
  dsimp only
  rw [onPath_of_lt h]
  refine ⟨⟨⟨_, rfl⟩, fun j hj => State.tnode_modNode_ne _ _ hj, _, _, State.tnode_modNode ..⟩, ?_⟩
  rw [State.tnode_modNode]
  exact ⟨_, List.mem_append_right _ (List.mem_singleton_self _), rfl, _, rfl⟩

theorem sends_foldl {p n : Nat} {m : TempoMsg} (l : List Nat) (hl : ∀ e ∈ l, e < 40000) (s : State) :
    Sends n s (l.foldl (fun t c => t.tempoSend p n c m) s) ∧
      ∀ e ∈ l, ∃ v ∈ ((l.foldl (fun t c => t.tempoSend p n c m) s).tnode n).unacked, v.peer = e ∧ ∃ q, v.msg = { m with seq := q } := by
  induction l generalizing s with
  | nil => exact ⟨.refl n s, by simp⟩
  | cons c l ih =>
    obtain ⟨hc, v, hv, hpeer, hmsg⟩ := tempoSend_of_lt (s := s) (p := p) (n := n) (m := m) (hl c (List.mem_cons_self ..))
    obtain ⟨hrest, hunacked⟩ := ih (fun e he => hl e (List.mem_cons_of_mem _ he)) (s.tempoSend p n c m)
    refine ⟨hc.trans hrest, fun e he => ?_⟩
    rcases List.mem_cons.mp he with rfl | he
    · obtain ⟨-, -, a, u, hu⟩ := hrest
      refine ⟨v, ?_, hpeer, hmsg⟩
      rw [List.foldl_cons, hu]
      exact List.mem_append_left _ hv
    · exact hunacked e he

theorem forwardRelease_of_lt {s : State} {p g n : Nat} {m : TempoMsg} (hn : n < 39324) : Sends n s (s.forwardRelease p g n m) ∧
    ∀ e ∈ s.expected p g n, ∃ v ∈ ((s.forwardRelease p g n m).tnode n).unacked, v.peer = e ∧ ∃ q, v.msg = { m with seq := q } :=
  sends_foldl _ (fun _ he => expected_lt hn he) s

/-- An acknowledgement to a peer of this panel leaves by the node's own `out`. -/
theorem sendAck_of_lt {s : State} {p n peer : Nat} {m : TempoMsg} (h : peer < 40000) :
    ∃ a : TempoMsg, s.sendAck p n peer m = s.modNode n (fun t => { t with out := t.out ++ [(peer, a)] }) ∧
      a.ty = 4 ∧ a.seq = m.seq ∧ a.group = m.group := by
  unfold State.sendAck State.tempoPost
  rw [if_neg (by omega)]
  exact ⟨_, rfl, rfl, rfl, by simp [State.tempoMsg]⟩

/-! ### RELEASE -/

/-- The release as it reaches a node, from what its parent has sent: late where it was resent. -/
def releaseSent (u : Unacked) (m : TempoMsg) : TempoMsg :=
  { u.msg with late := u.msg.late || decide (0 < u.resends), port := m.port }

/-- What a node schedules, or acts on at once. -/
def releaseSched (s : State) (p n : Nat) (r : TempoMsg) : Sched :=
  ⟨r.value, r.ovf, r.late, r.delay.toNat - sget 0 (s.tnode n).path (2 * s.ancestorLevel p r.lvl.toNat + bitN r.port), r.move,
    s.haltIs p .stop && (s.part p).haltRoot, s.finalMove p r.move⟩

/-- A node has acknowledged the first copy of a release, has noted it, and combines anew. -/
def releaseNoted (s : State) (p n up g : Nat) (r : TempoMsg) : State :=
  ((s.sendAck p n up r).noteActed n up r).modNode n (fun t => { t with comb := sput Comb.empty t.comb (pgKey p g) Comb.empty })

/-- The late release is acted on at once, its partition marked. -/
def releaseLate (s : State) (p n g : Nat) (sc : Sched) : State := (s.modPart p (fun q => { q with late := true })).actRelease p g n sc

section release

variable {s : State} {node : TNode} {m : TempoMsg}

theorem release_refused (h : m.ok = false ∨ m.ty ≠ 2 ∨ s.partOfMsg m = none ∨ s.nodeDown node.key = true) :
    execRelease node m s = .next s := by
  unfold execRelease
  dsimp only
  by_cases hr : m.ok = false ∨ m.ty ≠ 2 ∨ s.nodeDown node.key = true
  · rw [if_pos hr]
  · have hp : s.partOfMsg m = none := by
      obtain ⟨hok, hty, hup⟩ := by simpa only [not_or] using hr
      rcases h with h | h | h | h
      · exact absurd h hok
      · exact absurd h hty
      · exact h
      · exact absurd h hup
    rw [if_neg hr, hp]

variable {p up : Nat} (hok : m.ok = true) (hty : m.ty = 2) (hp : s.partOfMsg m = some p) (hu : s.parentOf p node.key = some up)
  (hlt : up < 40000) (hup : s.nodeDown node.key = false)
include hok hty hp hu hlt hup

theorem release_unsent (h : s.nodeDown up = true ∨ s.sentMsg up node.key m = none) : execRelease node m s = .next s := by
  unfold execRelease
  dsimp only
  rw [if_neg (by simp [hok, hty, hup]), hp]
  dsimp only
  rw [hu]
  dsimp only
  rw [if_neg (by omega)]
  rcases h with h | h
  · rw [if_pos h]
  · by_cases hd : s.nodeDown up = true
    · rw [if_pos hd]
    · rw [if_neg hd, h]
      rfl

variable {u : Unacked} (hud : s.nodeDown up = false) (hs : s.sentMsg up node.key m = some u)
include hud hs

/-- A release of the parent is acknowledged; its first copy is acted on at once where it is late, else scheduled. -/
theorem release_taken : execRelease node m s = .next (
    let n := node.key
    let g := m.group.toNat
    let r := releaseSent u m
    let sc := releaseSched s p n r
    let s2 := (releaseNoted s p n up g r).forwardRelease p g n r
    if s.hasActed n up r then s.sendAck p n up r
    else if r.late then
      if 0 < u.resends then ((releaseLate s2 p n g sc).countReg Reg.alignLost 1).raise 0x0001 p (leBytes 2 n) else releaseLate s2 p n g sc
    else s2.modNode n (fun t => { t with sched := (pgKey p g, sc) :: t.sched.filter (fun e => e.1 != pgKey p g) })) := by
  have hn : ¬ (node.key = keyPanel ∧ m.group.toNat = 0) := by
    have := parentOf_lt hu hlt
    unfold keyPanel
    omega
  unfold execRelease
  dsimp only
  rw [if_neg (by simp [hok, hty, hup]), hp]
  dsimp only
  rw [hu]
  dsimp only
  rw [if_neg (by omega), if_neg (by simp [hud]), hs]
  simp only [Option.map_some, if_neg hn, decide_eq_true_eq]
  rfl

omit hok hp hu hlt hup hud in
/-- What the parent has sent is the message that has come in. -/
theorem sentMsg_eq : u.msg.ty = 2 ∧ u.msg.group = m.group ∧ u.msg.seq = m.seq := by
  have := List.find?_some hs
  simp only [Bool.and_eq_true, beq_iff_eq] at this
  obtain ⟨⟨⟨-, h1⟩, h2⟩, h3⟩ := this
  exact ⟨h1.trans hty, h2, h3⟩

omit hok hp hu hlt hup hud in
theorem hasActed_releaseSent (t : State) : t.hasActed node.key up (releaseSent u m) = t.hasActed node.key up m := by
  obtain ⟨-, hg, hq⟩ := sentMsg_eq hty hs
  simp [State.hasActed, releaseSent, hg, hq]

end release

/-- A node that has noted a release has acted on it. -/
theorem hasActed_noteActed (s : State) (n up : Nat) (r : TempoMsg) : (s.noteActed n up r).hasActed n up r = true := by
  simp [State.hasActed, State.noteActed, smod]

/-- Acknowledging and noting a release change its node alone: an acknowledgement in `out`, what it has acted on, and combining begins anew. -/
theorem releaseNoted_frame {s : State} {p n up g : Nat} {r : TempoMsg} (hup : up < 40000) :
    (∃ x, releaseNoted s p n up g r = { s with tnodes := x }) ∧ (∀ j, j ≠ n → (releaseNoted s p n up g r).tnode j = s.tnode j) ∧
      (releaseNoted s p n up g r).hasActed n up r = true := by
  obtain ⟨a, ha, -⟩ := sendAck_of_lt (s := s) (p := p) (n := n) (m := r) hup
  unfold releaseNoted
  rw [ha]
  refine ⟨⟨_, rfl⟩, fun j hj => ?_, ?_⟩
  · rw [State.tnode_modNode_ne _ _ hj, State.noteActed, State.tnode_modNode_ne _ _ hj, State.tnode_modNode_ne _ _ hj]
  · have := hasActed_noteActed (s.modNode n (fun t => { t with out := t.out ++ [(up, a)] })) n up r
    simpa [State.hasActed] using this

end Sys2Proof.ReleaseTree
end

section
/-! A core at a move release (R20, R31, R95, R193): what its switch may change when it runs a standing set, and the core's new state. -/
namespace Sys2Proof.ReleaseTree

open Sys2Proof.Machine Sys2Proof.Claims Sys2Proof.TempoPorts

/-! ### Switches change cores, their memory and links -/

/-- Two states that differ in cores, memory and links alone. -/
def Switches (s t : State) : Prop := ∃ c m l, t = { s with cores := c, mem := m, links := l }

theorem Switches.refl (s : State) : Switches s s := ⟨_, _, _, rfl⟩
theorem Switches.trans {s t u : State} : Switches s t → Switches t u → Switches s u := by
  rintro ⟨_, _, _, rfl⟩ ⟨_, _, _, rfl⟩
  exact ⟨_, _, _, rfl⟩

theorem Switches.parts {s t : State} : Switches s t → t.parts = s.parts := by
  rintro ⟨_, _, _, rfl⟩
  rfl
theorem Switches.reg {s t : State} (o : Nat) : Switches s t → t.reg o = s.reg o := by
  rintro ⟨_, _, _, rfl⟩
  rfl

theorem Switches.ite {s t u : State} (h : Switches s t) (c : Prop) [Decidable c] (h' : Switches t u) : Switches s (if c then u else t) := by
  split
  · exact h.trans h'
  · exact h

theorem switches_modCore (s : State) (k : Nat) (f : Core → Core) : Switches s (s.modCore k f) := ⟨_, _, _, rfl⟩
theorem switches_modLink (s : State) (l : LinkEnd) (f : Link → Link) : Switches s (s.modLink l f) := ⟨_, _, _, rfl⟩
theorem switches_spadWr (s : State) (k off : Nat) (bs : List Byte) : Switches s (s.spadWr k off bs) := ⟨_, _, _, rfl⟩

theorem switches_sendOut (s : State) (k : Nat) (o : Dir) (t : BitVec 256) : Switches s (s.sendOut k o t) := by
  unfold State.sendOut
  split
  · exact .refl s
  · exact (switches_modCore ..).trans (switches_modCore ..)
  · exact switches_modLink ..

theorem switches_ackUp (s : State) (k : Nat) (i : Dir) : Switches s (s.ackUp k i) := by
  unfold State.ackUp
  split
  · exact .refl s
  · exact switches_modCore ..
  · exact switches_modLink ..

theorem switches_creditUp (s : State) (k : Nat) (i : Dir) : Switches s (s.creditUp k i).1 := by
  unfold State.creditUp
  split
  · exact .refl s
  · exact ⟨_, _, _, rfl⟩
  · exact ⟨_, _, _, rfl⟩

theorem switches_deliver (s : State) (k : Nat) (i : Dir) (t : BitVec 256) : Switches s (s.deliver k i t) := by
  unfold State.deliver
  refine Switches.trans ?_ (switches_modCore ..)
  split
  · split
    · exact .refl s
    · exact switches_spadWr ..
  · exact .refl s

theorem switches_leave (s : State) (k : Nat) (i : Dir) : Switches s (s.leave k i).1 := by
  unfold State.leave
  dsimp only
  split
  · exact .refl s
  · refine Switches.trans (Switches.ite (Switches.ite ?_ _ (switches_deliver ..)) _ (switches_ackUp ..)) (switches_creditUp ..)
    refine Switches.trans ?_ (foldl_rel Switches.refl Switches.trans (fun a o => switches_sendOut a k o _) _ _)
    exact switches_modCore ..

theorem switches_runSwitches (fuel : Nat) (ks : List Nat) (s : State) : Switches s (State.runSwitches fuel ks s) := by
  fun_induction State.runSwitches fuel ks s with
  | case1 => exact .refl _
  | case2 => exact .refl _
  | case3 _ _ _ _ _ ih => exact ih
  | case4 _ _ _ _ _ _ _ ih => exact (switches_leave ..).trans ih

theorem switches_runSwitch (s : State) (k : Nat) : Switches s (s.runSwitch k) := switches_runSwitches ..

/-! ### A core's clock -/

/-- Every die's register block lies above the panel's counters. -/
theorem pwrReg_ne_alignLost (r : Nat) : Reg.alignLost ≠ Reg.pwrReg r := by
  unfold Reg.alignLost Reg.pwrReg Reg.die
  omega

theorem freshen_setRegF (s : State) (off lo len v : Nat) : ∃ r, (s.setRegF off lo len v).freshen = { s with regs := r, freeCtr := s.freeCtr + 1 } :=
  ⟨_, rfl⟩

/-- A core takes its frequency: it alone changes, in its clock, and its region's register shows it. -/
theorem clockCore_frame (s : State) (k : Nat) : ∃ f b r, s.clockCore k =
    { s.modCore k (fun c => { c with mhz := f, capped := b }) with regs := r, freeCtr := s.freeCtr + 1 } := by
  obtain ⟨r, h⟩ := freshen_setRegF (s.modCore k _) (Reg.pwrReg (regionOf k)) 12 10 _
  exact ⟨_, _, r, h⟩

theorem clockCore_fields (s : State) (k : Nat) : (s.clockCore k).parts = s.parts ∧ (s.clockCore k).mem = s.mem ∧
    ∃ f b, (s.clockCore k).cores = (s.modCore k (fun c => { c with mhz := f, capped := b })).cores := by
  obtain ⟨f, b, _, h⟩ := clockCore_frame s k
  rw [h]
  exact ⟨rfl, rfl, f, b, rfl⟩

theorem core_clockCore_ne {s : State} {j k : Nat} (hj : j ≠ k) : (s.clockCore k).core j = s.core j := by
  obtain ⟨-, -, _, _, h⟩ := clockCore_fields s k
  rw [State.core, h]
  exact State.core_modCore_ne (s := s) _ hj

theorem core_clockCore (s : State) (k : Nat) : ∃ f b, (s.clockCore k).core k = { s.core k with mhz := f, capped := b } := by
  obtain ⟨-, -, f, b, h⟩ := clockCore_fields s k
  rw [State.core, h]
  exact ⟨f, b, State.core_modCore (s := s) ..⟩

theorem reg_freshen (s : State) (o : Nat) : s.freshen.reg o = s.reg o := rfl
theorem reg_modCore (s : State) (k : Nat) (f : Core → Core) (o : Nat) : (s.modCore k f).reg o = s.reg o := rfl

theorem alignLost_clockCore (s : State) (k : Nat) : (s.clockCore k).reg Reg.alignLost = s.reg Reg.alignLost := by
  unfold State.clockCore
  rw [reg_freshen, reg_setRegF_ne (pwrReg_ne_alignLost _), reg_modCore]

end Sys2Proof.ReleaseTree
end

section
/-! A core at a move release (R20, R31, R95): what it takes, and how it goes on. -/
namespace Sys2Proof.ReleaseTree

open Sys2Proof.Machine Sys2Proof.Claims Sys2Proof.TempoPorts

/-- The standing set of a core's class. -/
def standingSet (s : State) (k : Nat) : Option XSet :=
  (s.classOf k).bind (fun r => r.exch.bind (fun e => e.standing.bind (fun n => e.sets[n]?)))

/-- Is a powered core's region without a running clock? -/
def regionOff (s : State) (k : Nat) : Bool := !s.clocked k && (s.core k).st != 0

/-- What every core takes at a move release: the number, the result, and a switch without a ply. -/
def takesRelease (v : W64) (ovf : Bool) (m : MoveNo) (off : Bool) (set : Option XSet) (c : Core) : Core :=
  { c with
    move := m, gres := sput 0 c.gres 0 v, govf := if ovf then c.govf ||| 1 else c.govf &&& ~~~1#64, c := []
    arrOut := c.arrOut &&& ~~~1#64, xplyDone := false, fresh := true
    sw := { c.sw with active := false, outSent := [], inTaken := [], unack := [], routes := [], dead := []
                      standing := off && set.isSome
                      xc := match set with | some x => x.xc | none => 0 } }

/-- The state in which a core goes on: off for heat, as it was, halted, idle after END, or running. -/
def goesOn (opening off : Bool) (halted : Prop) [Decidable halted] (c base : Core) : Core :=
  if off then { base with st := 7 }
  else if c.st = 5 ∨ c.st = 0 ∨ c.st = 6 then { base with st := if opening && c.st != 0 then 3 else c.st }
  else if halted then { base with st := 6, fflagsReg := c.flagsNow }
  else if c.ended then { base with st := 2 }
  else { base with st := 3 }

/-- A core begins the launch that the release opens. -/
def beginsLaunch (s : State) (p k : Nat) (m : MoveNo) (c : Core) : Core :=
  match (s.part p).opens (m - 1), (s.part p).opening with
  | true, some l => s.launchCore p k l.2 c
  | _, _ => c

/-- A core at a move release. -/
def coreReleased (s : State) (p k : Nat) (v : W64) (ovf : Bool) (m : MoveNo) (c : Core) : Core :=
  goesOn ((s.part p).opens (m - 1)) (regionOff s k) ((s.part p).st = 3) (beginsLaunch s p k m c)
    (takesRelease v ovf m (regionOff s k) (standingSet s k) (beginsLaunch s p k m c))

theorem coreMoveRelease_eq {s : State} {p k : Nat} {v : W64} {ovf : Bool} {m : MoveNo} (h : (s.core k).rx = []) :
    s.coreMoveRelease p k v ovf m =
      (let t := (s.modCore k (coreReleased s p k v ovf m)).clockCore k
       if regionOff s k && (standingSet s k).isSome then t.runSwitch k else t) := by
  have hd : s.drainRx k = s := by simp [State.drainRx, h]
  unfold State.coreMoveRelease
  rw [hd]
  rfl

/-! ### Frames -/

/-- Whatever a core does at a move release leaves partitions, tempo nodes and the panel's count of resent releases. -/
theorem coreMoveRelease_frame {s : State} {p k : Nat} (v : W64) (ovf : Bool) (m : MoveNo) (h : (s.core k).rx = []) :
    (s.coreMoveRelease p k v ovf m).parts = s.parts ∧ (s.coreMoveRelease p k v ovf m).reg Reg.alignLost = s.reg Reg.alignLost := by
  rw [coreMoveRelease_eq h]
  obtain ⟨hparts, -⟩ := clockCore_fields (s.modCore k (coreReleased s p k v ovf m)) k
  have hreg := alignLost_clockCore (s.modCore k (coreReleased s p k v ovf m)) k
  have run := switches_runSwitch ((s.modCore k (coreReleased s p k v ovf m)).clockCore k) k
  dsimp only
  split
  · exact ⟨run.parts.trans hparts, (run.reg _).trans hreg⟩
  · exact ⟨hparts, hreg⟩

/-- Where the clocks of a core's region run, the core alone changes. -/
theorem coreMoveRelease_clocked {s : State} {p k : Nat} (v : W64) (ovf : Bool) (m : MoveNo) (h : (s.core k).rx = []) (hclk : s.clocked k = true) :
    (s.coreMoveRelease p k v ovf m).mem = s.mem ∧ (∀ j, j ≠ k → (s.coreMoveRelease p k v ovf m).core j = s.core j) ∧
      ∃ f b, (s.coreMoveRelease p k v ovf m).core k = { coreReleased s p k v ovf m (s.core k) with mhz := f, capped := b } := by
  have hoff : regionOff s k = false := by simp [regionOff, hclk]
  rw [coreMoveRelease_eq h, hoff]
  obtain ⟨-, hmem, -⟩ := clockCore_fields (s.modCore k (coreReleased s p k v ovf m)) k
  obtain ⟨f, b, hc⟩ := core_clockCore (s.modCore k (coreReleased s p k v ovf m)) k
  dsimp only
  rw [Bool.false_and, if_neg Bool.false_ne_true]
  refine ⟨hmem, fun j hj => ?_, f, b, ?_⟩
  · rw [core_clockCore_ne hj, State.core_modCore_ne _ _ hj]
  · rw [hc, State.core_modCore]

/-! ### The core's new state -/

section core

variable {s : State} {p k : Nat} {v : W64} {ovf : Bool} {m : MoveNo} {c : Core} (hoff : regionOff s k = false)
include hoff

/-- A core that waited goes on with its own registers: it halts, is idle after END, or runs. -/
theorem coreReleased_resumes (hopen : (s.part p).opens (m - 1) = false) (hst : c.st = 3 ∨ c.st = 4 ∨ c.st = 2) :
    ∃ fl, coreReleased s p k v ovf m c = { takesRelease v ovf m false (standingSet s k) c with
      st := if (s.part p).st = 3 then 6 else if c.ended then 2 else 3, fflagsReg := fl } := by
  have hc : beginsLaunch s p k m c = c := by rw [beginsLaunch, hopen]
  have hn : ¬ (c.st = 5 ∨ c.st = 0 ∨ c.st = 6) := by rcases hst with h | h | h <;> rw [h] <;> decide
  unfold coreReleased goesOn
  rw [hc, hoff, if_neg Bool.false_ne_true, if_neg hn]
  split
  · exact ⟨_, rfl⟩
  · cases c.ended <;> exact ⟨_, rfl⟩

/-- A powered core begins the launch that the release opens. -/
theorem coreReleased_begins (hopen : (s.part p).opens (m - 1) = true) (hst : c.st ≠ 0) (hp : (s.part p).st ≠ 3) :
    ∃ seed, coreReleased s p k v ovf m c = { takesRelease v ovf m false (standingSet s k) (s.launchCore p k seed c) with st := 3 } := by
  obtain ⟨l, hl⟩ : ∃ l, (s.part p).opening = some l := by
    cases h : (s.part p).opening with
    | none => simp [Part.opens, h] at hopen
    | some l => exact ⟨l, rfl⟩
  have hc : beginsLaunch s p k m c = s.launchCore p k l.2 c := by rw [beginsLaunch, hopen, hl]
  have he : (s.launchCore p k l.2 c).ended = false := rfl
  have hs : (s.launchCore p k l.2 c).st = c.st := rfl
  refine ⟨l.2, ?_⟩
  unfold coreReleased goesOn
  rw [hc, hoff, hopen, he, hs, if_neg Bool.false_ne_true, if_neg hp, if_neg Bool.false_ne_true]
  split
  · rw [if_pos (by simpa using hst)]
  · rfl

end core

/-- The overflow flag of group 0 that a core takes. -/
theorem govf_takesRelease (v : W64) (ovf : Bool) (m : MoveNo) (off : Bool) (set : Option XSet) (c : Core) :
    (takesRelease v ovf m off set c).govf.getLsbD 0 = ovf := by
  cases ovf <;> simp [takesRelease]

theorem arrOut_takesRelease (v : W64) (ovf : Bool) (m : MoveNo) (off : Bool) (set : Option XSet) (c : Core) :
    (takesRelease v ovf m off set c).arrOut.getLsbD 0 = false := by
  simp [takesRelease]

end Sys2Proof.ReleaseTree
end

section
/-! The instant of a release (R31, R32, R45, R95): what the panel hub does to its partition, and which function a node's instant is. -/
namespace Sys2Proof.ReleaseTree

open Sys2Proof.Machine Sys2Proof.Claims Sys2Proof.TempoPorts

/-! ### The managers at a release leave the tree alone -/

/-- Two states with the same partitions, tempo nodes and gambits. -/
def SameTree (s t : State) : Prop := t.parts = s.parts ∧ t.tnodes = s.tnodes ∧ t.gambits = s.gambits

theorem SameTree.refl (s : State) : SameTree s s := ⟨rfl, rfl, rfl⟩
theorem SameTree.trans {s t u : State} : SameTree s t → SameTree t u → SameTree s u := fun ⟨a, b, c⟩ ⟨a', b', c'⟩ =>
  ⟨a'.trans a, b'.trans b, c'.trans c⟩

theorem sameTree_foldl {α : Type} {f : State → α → State} (h : ∀ t a, SameTree t (f t a)) (l : List α) (s : State) :
    SameTree s (l.foldl f s) := foldl_rel SameTree.refl SameTree.trans h l s

theorem sameTree_raise (s : State) (t p : Nat) (d : List Byte) : SameTree s (s.raise t p d) :=
  ⟨State.raise_parts .., State.raise_tnodes .., State.raise_gambits ..⟩

theorem sameTree_setReg (s : State) (o : Nat) (v : W32) : SameTree s (s.setReg o v) := ⟨rfl, rfl, rfl⟩
theorem sameTree_setRegF (s : State) (o lo len v : Nat) : SameTree s (s.setRegF o lo len v) := ⟨rfl, rfl, rfl⟩
theorem sameTree_modRegion (s : State) (r : Nat) (f : Region → Region) : SameTree s (s.modRegion r f) := ⟨rfl, rfl, rfl⟩
theorem sameTree_modCore (s : State) (k : Nat) (f : Core → Core) : SameTree s (s.modCore k f) := ⟨rfl, rfl, rfl⟩
theorem sameTree_noteWaits (s : State) (p : Nat) : SameTree s (s.noteWaits p) := ⟨rfl, rfl, rfl⟩
theorem sameTree_modCores (s : State) (ks : List Nat) (f : Core → Core) : SameTree s (s.modCores ks f) :=
  sameTree_foldl (fun t k => sameTree_modCore t k f) ks s

theorem sameTree_heatOff (s : State) (r : Nat) : SameTree s (s.heatOff r) := by
  unfold State.heatOff
  split
  · exact .refl s
  · exact ((((sameTree_setRegF ..).trans (sameTree_setRegF ..)).trans (sameTree_modCores ..)).trans (sameTree_modRegion ..)).trans
      (sameTree_raise ..)

theorem sameTree_capRegion (s : State) (p r : Nat) : SameTree s (s.capRegion p r) := by
  unfold State.capRegion
  dsimp only
  split
  · exact (sameTree_modRegion ..).trans (sameTree_setRegF ..)
  · exact ((sameTree_modRegion ..).trans (sameTree_setRegF ..)).trans (sameTree_raise ..)

theorem sameTree_railsAtRelease (s : State) (p : Nat) (opening : Bool) : SameTree s (s.railsAtRelease p opening) := by
  have levels : SameTree s (if opening then s.modCores (s.part p).sites (fun c => { c with level := 15, hints := [] }) else s) := by
    split
    · exact sameTree_modCores ..
    · exact .refl s
  have caps (t : State) := sameTree_foldl (fun t r => sameTree_capRegion t p r) (s.part p).regions t
  have clocks (t : State) := sameTree_foldl (f := fun t r => if t.railState r = 2 ∧ (t.region r).waiting = true then
    t.modRegion r (fun g => { g with waiting := false }) else t) (fun t r => by
      split
      · exact sameTree_modRegion ..
      · exact .refl t) (s.part p).regions t
  unfold State.railsAtRelease
  dsimp only
  split
  · exact ((levels.trans (caps _)).trans (clocks _)).trans (sameTree_foldl (fun t r => sameTree_heatOff t r) _ _)
  · exact (levels.trans (caps _)).trans (clocks _)

/-! ### The panel hub -/

theorem fireGambits_of_none {s : State} {p : Nat} (h : ∀ x ∈ s.gambits, x.part ≠ p) : s.fireGambits p = s := by
  have hnil : s.gambits.filter (fun g => !g.fired && g.part == p && decide (g.move ≤ (s.part p).move.toNat)) = [] := by
    rw [List.filter_eq_nil_iff]
    intro x hx
    simp [h x hx]
  unfold State.fireGambits
  dsimp only
  rw [hnil]
  split <;> rfl

/-- The state after the registers that a launch's first release clears. -/
def parityCleared (s : State) (p : Nat) (m : MoveNo) : State :=
  if (s.part p).opens m then (s.part p).dies.foldl (fun t d => t.setReg (Reg.parerr d) 0) s else s

theorem sameTree_parityCleared (s : State) (p : Nat) (m : MoveNo) : SameTree s (parityCleared s p m) := by
  unfold parityCleared
  split
  · exact sameTree_foldl (fun t d => sameTree_setReg ..) _ _
  · exact .refl s

/-- A change of a partition's record that a release makes. -/
def Releases (opening : Bool) (r : Sched) (f : Part → Part) : Prop := ∀ x, (f x).move = r.move + 1 ∧ (f x).result = r.value ∧ (f x).ovf = r.ovf ∧
  (f x).st = (if r.stop then 3 else if r.final then 0 else if opening && x.st != 5 then 1 else x.st)

/-- A release where no recovery is under way: the record, the waiting commands and the managers' caps. -/
theorem partRelease_eq {s : State} {p : Nat} {r : Sched} (hrec : (s.part p).recov = none) : ∃ f, Releases ((s.part p).opens r.move) r f ∧
    s.partRelease p r = (((((parityCleared s p r.move).modPart p f).noteWaits p).railsAtRelease p ((s.part p).opens r.move)).fireGambits p).freshen := by
  unfold State.partRelease
  dsimp only
  rw [if_neg (by simp [Part.recovered, hrec])]
  exact ⟨_, fun x => ⟨rfl, rfl, rfl, rfl⟩, rfl⟩

/-- The record of a partition after its release, where no recovery is under way and no gambit is loaded. -/
theorem partRelease_part {s : State} {p : Nat} {r : Sched} (hrec : (s.part p).recov = none) (hg : ∀ x ∈ s.gambits, x.part ≠ p) :
    (s.partRelease p r).tnodes = s.tnodes ∧ ∃ f, Releases ((s.part p).opens r.move) r f ∧ (s.partRelease p r).part p = f (s.part p) := by
  obtain ⟨f, hf, heq⟩ := partRelease_eq (r := r) hrec
  obtain ⟨hp, ht, hgam⟩ := sameTree_parityCleared s p r.move
  obtain ⟨hp', ht', hgam'⟩ := (sameTree_noteWaits ((parityCleared s p r.move).modPart p f) p).trans
    (sameTree_railsAtRelease _ p ((s.part p).opens r.move))
  rw [heq, fireGambits_of_none (by rw [hgam', State.modPart_gambits, hgam]; exact hg)]
  refine ⟨ht'.trans ht, f, hf, ?_⟩
  rw [State.part, State.freshen_parts, hp']
  refine (State.part_modPart (parityCleared s p r.move) p f).trans ?_
  rw [State.part, hp]
  rfl

/-- No arrival of the next move stands at the panel hub. -/
theorem hubReady_of_none {s : State} {p : Nat} (h : (s.combOf p 0 keyPanel).arrived = []) : s.hubReady p 0 keyPanel = s := by
  have children : ∀ e ∈ s.expected p 0 keyPanel, 39168 ≤ e := by
    intro e he
    rw [State.expected, if_neg (by decide), if_neg (by decide), if_neg (by decide), if_pos rfl, List.mem_append] at he
    rcases he with he | he <;> obtain ⟨x, -, rfl⟩ := List.mem_map.mp he
    · unfold keyTile; omega
    · unfold keyRemote; omega
  have hfull : s.combFull p 0 keyPanel = false := by
    unfold State.combFull
    dsimp only
    cases hc : s.expected p 0 keyPanel with
    | nil => rfl
    | cons e l =>
      have he : ¬ e < 39168 := by
        have := children e (by rw [hc]; exact List.mem_cons_self ..)
        omega
      simp [State.hasArrival, h, he]
  rw [State.hubReady, if_pos hfull]

/-- The panel hub at the instant of a move release. -/
theorem hubRelease_panel {s : State} {p : Nat} {r : Sched} (harr : (s.combOf p 0 keyPanel).arrived = []) (hrec : (s.part p).recov = none)
    (hg : ∀ x ∈ s.gambits, x.part ≠ p) :
    (∃ f, Releases ((s.part p).opens r.move) r f ∧ (s.hubRelease p 0 keyPanel r).part p = f (s.part p)) ∧
      sget 0 ((s.hubRelease p 0 keyPanel r).tnode keyPanel).moves p = r.move + 1 ∧ (s.hubRelease p 0 keyPanel r).releasePending p = none := by
  unfold State.hubRelease
  rw [if_pos rfl, if_pos rfl]
  generalize hs1 : s.modNode keyPanel _ = s1
  have hnode : s1.tnode keyPanel = { s.tnode keyPanel with
      moves := sput 0 (s.tnode keyPanel).moves p (r.move + 1), sched := (s.tnode keyPanel).sched.filter (fun e => e.1 != pgKey p 0) } := by
    rw [← hs1, State.tnode_modNode]
    rfl
  have hpart : s1.part p = s.part p := by rw [← hs1]; rfl
  obtain ⟨ht, f, hf, hp⟩ := partRelease_part (s := s1) (r := r) (by rw [hpart]; exact hrec) (by rw [← hs1]; exact hg)
  have hnode' : (s1.partRelease p r).tnode keyPanel = s1.tnode keyPanel := by rw [State.tnode, ht]; rfl
  rw [hubReady_of_none (by rw [State.combOf, hnode', hnode]; exact harr), hp, hpart]
  refine ⟨⟨f, by rw [← hpart]; exact hf, rfl⟩, ?_, ?_⟩
  · rw [hnode', hnode, sget_sput_self]
  · rw [State.releasePending, hnode', hnode]
    simp

/-! ### Which function a node's instant is -/

section act

variable {s : State} {p g n : Nat} {r : Sched}

theorem actRelease_of_panel : s.actRelease p g keyPanel r = s.hubRelease p g keyPanel r := by
  unfold State.actRelease
  rw [if_neg (by decide)]
  split
  · rw [if_neg (by simp)]
  · rfl

variable (h : g = 0 → ∀ x, s.releasePending p = some x → x.move ≠ r.move)
include h

theorem actRelease_of_core (hn : n < 39168) : s.actRelease p g n r =
    (let t := s.modNode n (fun t => { t with sched := t.sched.filter (fun e => e.1 != pgKey p g) })
     if g = 0 then t.coreMoveRelease p n r.value r.ovf (r.move + 1) else t.coreGroupRelease n g r.value r.ovf) := by
  unfold State.actRelease
  cases hx : s.releasePending p with
  | none => rw [if_pos hn]
  | some x =>
    have hne : ¬ (g = 0 ∧ n ≠ keyPanel ∧ x.move = r.move) := fun ⟨hg, _, hm⟩ => h hg x hx hm
    dsimp only
    rw [if_neg hne, if_pos hn]

theorem actRelease_of_hub (hn : 39168 ≤ n) : s.actRelease p g n r = s.hubRelease p g n r := by
  unfold State.actRelease
  cases hx : s.releasePending p with
  | none => rw [if_neg (by omega)]
  | some x =>
    have hne : ¬ (g = 0 ∧ n ≠ keyPanel ∧ x.move = r.move) := fun ⟨hg, _, hm⟩ => h hg x hx hm
    dsimp only
    rw [if_neg hne, if_neg (by omega)]

end act

/-- A hub below the panel hub changes its own node and at most its partition's group results. -/
theorem hubRelease_below {s : State} {p g n : Nat} {r : Sched} (hn : n ≠ keyPanel) :
    ∃ x y, s.hubRelease p g n r = { s with tnodes := x, parts := y } ∧ ((s.hubRelease p g n r).part p).late = (s.part p).late := by
  unfold State.hubRelease
  dsimp only
  split
  · exact ⟨_, _, rfl, rfl⟩
  · split
    · refine ⟨_, _, rfl, ?_⟩
      rw [State.groupResult, State.part_modPart]
      rfl
    · exact ⟨_, _, rfl, rfl⟩

end Sys2Proof.ReleaseTree
end

section
/-! The statement about releases (O36): a release on time and late, acknowledgements and repetitions, and the assembly. -/
namespace Sys2Proof.ReleaseTree

open Sys2Proof.Machine Sys2Proof.Claims Sys2Proof.TempoPorts

/-! ### Changes of tempo nodes alone -/

theorem nodes_modNode {s t : State} (h : ∃ x, t = { s with tnodes := x }) (n : Nat) (f : TempoNode → TempoNode) :
    ∃ x, t.modNode n f = { s with tnodes := x } := by
  obtain ⟨_, rfl⟩ := h
  exact ⟨_, rfl⟩

theorem eq_of_nodes {s t : State} (h : ∃ x, t = { s with tnodes := x }) : t = { s with tnodes := t.tnodes } := by
  obtain ⟨_, rfl⟩ := h
  rfl

/-! ### A first copy -/

section first

variable {s : State} {p n up g : Nat} {r : TempoMsg} (hup : up < 40000) (hn : n < 39324)
include hup hn

/-- Noting a release and forwarding it changes its node alone, which has acted on it. -/
theorem releaseForwarded_frame :
    let t := (releaseNoted s p n up g r).forwardRelease p g n r
    (∃ x, t = { s with tnodes := x }) ∧ (∀ j, j ≠ n → t.tnode j = s.tnode j) ∧ t.hasActed n up r = true ∧
      ∀ e ∈ s.expected p g n, ∃ v ∈ (t.tnode n).unacked, v.peer = e ∧ ∃ q, v.msg = { r with seq := q } := by
  intro t
  obtain ⟨⟨x, hx⟩, hj, ha⟩ := releaseNoted_frame (s := s) (p := p) (n := n) (g := g) (r := r) hup
  obtain ⟨⟨⟨y, hy⟩, hj', a, u, hnode⟩, hsent⟩ := forwardRelease_of_lt (s := releaseNoted s p n up g r) (p := p) (g := g) (m := r) hn
  refine ⟨⟨y, hy.trans (by rw [hx])⟩, fun j h => (hj' j h).trans (hj j h), ?_, fun e he => hsent e (by rw [hx]; exact he)⟩
  rw [State.hasActed, hnode]
  exact ha

/-- A release on time waits for the instant that its hold-back gives. -/
theorem releaseScheduled_frame (sc : Sched) :
    let u := (releaseNoted s p n up g r).forwardRelease p g n r
    let t := u.modNode n (fun t => { t with sched := (pgKey p g, sc) :: t.sched.filter (fun e => e.1 != pgKey p g) })
    t = { s with tnodes := t.tnodes } ∧ t.hasActed n up r = true ∧ (t.tnode n).sched.find? (fun e => e.1 == pgKey p g) = some (pgKey p g, sc) ∧
      ∀ e ∈ s.expected p g n, ∃ v ∈ (t.tnode n).unacked, v.peer = e ∧ ∃ q, v.msg = { r with seq := q } := by
  intro u t
  obtain ⟨⟨x, hx⟩, -, ha, hsent⟩ := releaseForwarded_frame (s := s) (p := p) (g := g) (r := r) hup hn
  have hnode : t.tnode n = { u.tnode n with sched := (pgKey p g, sc) :: (u.tnode n).sched.filter (fun e => e.1 != pgKey p g) } :=
    State.tnode_modNode ..
  refine ⟨?_, ?_, ?_, ?_⟩
  · exact eq_of_nodes (nodes_modNode ⟨x, hx⟩ ..)
  · rw [State.hasActed, hnode]
    exact ha
  · rw [hnode]
    simp
  · rw [hnode]
    exact hsent

end first

/-- A late release is acted on at once, and its partition's status shows it. -/
theorem releaseLate_frame {s s2 : State} {p n g : Nat} {sc : Sched} (h2 : ∃ x, s2 = { s with tnodes := x }) (hj : ∀ j, j ≠ n → s2.tnode j = s.tnode j)
    (hn : n < 39324) (hpend : s.releasePending p = none) (hrx : (s.core n).rx = []) :
    let t := releaseLate s2 p n g sc
    (t.part p).late = true ∧ (g ≠ 0 ∨ 39168 ≤ n → t.mem = s.mem) ∧ t.reg Reg.alignLost = s.reg Reg.alignLost ∧
      (n < 39168 → g ≠ 0 → sget 0 (t.core n).gres g = sc.value) := by
  intro t
  have hpanel : keyPanel ≠ n := by unfold keyPanel; omega
  obtain ⟨u, hu, hlate, hmem, hreg, hcore, hnone⟩ : ∃ u, u = s2.modPart p (fun q => { q with late := true }) ∧ (u.part p).late = true ∧
      u.mem = s.mem ∧ u.regs = s.regs ∧ u.cores = s.cores ∧ u.releasePending p = none := by
    refine ⟨_, rfl, ?_, ?_⟩
    · rw [State.part_modPart]
    · refine ⟨?_, ?_, ?_, ?_⟩
      · obtain ⟨x, rfl⟩ := h2; rfl
      · obtain ⟨x, rfl⟩ := h2; rfl
      · obtain ⟨x, rfl⟩ := h2; rfl
      · change ((s2.tnode keyPanel).sched.find? _).map _ = none
        rw [hj _ hpanel]
        exact hpend
  have hno : g = 0 → ∀ x, u.releasePending p = some x → x.move ≠ sc.move := by
    intro _ x hx
    rw [hnone] at hx
    cases hx
  have ht : t = u.actRelease p g n sc := by rw [hu]; rfl
  rw [ht]
  by_cases hc : n < 39168
  · rw [actRelease_of_core hno hc]
    dsimp only
    generalize hw : u.modNode n (fun t => { t with sched := t.sched.filter (fun e => e.1 != pgKey p g) }) = w
    have hwrx : (w.core n).rx = [] := by
      rw [← hw, State.core, State.modNode_cores, hcore]
      exact hrx
    have hwparts : w.parts = u.parts := by rw [← hw]; rfl
    have hwreg : w.reg Reg.alignLost = s.reg Reg.alignLost := by rw [← hw, State.reg, State.modNode_regs, hreg]; rfl
    split
    · next hg =>
      obtain ⟨hp, hr⟩ := coreMoveRelease_frame (p := p) sc.value sc.ovf (sc.move + 1) hwrx
      refine ⟨?_, fun h => ?_, hr.trans hwreg, fun _ h => absurd hg h⟩
      · rw [State.part, hp, hwparts]
        exact hlate
      · omega
    · refine ⟨?_, fun _ => ?_, hwreg, fun _ _ => ?_⟩
      · rw [State.part]
        change (sget _ w.parts p).late = true
        rw [hwparts]
        exact hlate
      · rw [← hmem, ← hw]
        rfl
      · rw [State.coreGroupRelease, State.core_modCore, sget_sput_self]
  · rw [actRelease_of_hub hno (by omega)]
    obtain ⟨x, y, hh, hl⟩ := hubRelease_below (s := u) (p := p) (g := g) (r := sc) hpanel.symm
    refine ⟨hl.trans hlate, fun _ => ?_, ?_, fun h => absurd h hc⟩
    · rw [hh, ← hmem]
    · rw [hh]
      change sget _ u.regs _ = _
      rw [hreg]
      rfl

/-! ### Acknowledgements and repetitions (R50, R51) -/

section ack

variable {s : State} {node peer : TNode} {m : TempoMsg}

/-- Has the peer sent an acknowledgement of a message of the node? -/
def ackCame (s : State) (node peer : TNode) (m : TempoMsg) : Prop :=
  40000 ≤ peer.key ∨ ∃ e ∈ (s.tnode peer.key).out, e.1 = node.key ∧ e.2.ty = 4 ∧ e.2.group = m.group ∧ e.2.seq = m.seq

theorem ackCame_iff : ackCame s node peer m ↔ (decide (40000 ≤ peer.key) || (s.tnode peer.key).out.any
    (fun e => e.1 == node.key && e.2.ty == 4 && e.2.group == m.group && e.2.seq == m.seq)) = true := by
  simp [ackCame, and_assoc]

theorem tempoAck_refused (h : m.ok = false ∨ m.ty ≠ 4 ∨ ¬ ackCame s node peer m ∨ s.nodeDown node.key = true) :
    execTempoAck node peer m s = .next s := by
  rw [ackCame_iff, Bool.not_eq_true] at h
  unfold execTempoAck
  dsimp only
  rw [if_pos h]

/-- An acknowledged message is forgotten, and no other. -/
theorem tempoAck_taken (hok : m.ok = true) (hty : m.ty = 4) (hc : ackCame s node peer m) (hup : s.nodeDown node.key = false) :
    ∃ t, execTempoAck node peer m s = .next t ∧ t = { s with tnodes := t.tnodes } ∧
      (t.tnode node.key).unacked = (s.tnode node.key).unacked.filter (fun u => !(u.peer == peer.key && u.msg.group == m.group && u.msg.seq == m.seq)) ∧
      ∀ n, n ≠ node.key → (t.tnode n).unacked = (s.tnode n).unacked ∧ (n ≠ peer.key → t.tnode n = s.tnode n) := by
  rw [ackCame_iff] at hc
  unfold execTempoAck
  dsimp only
  rw [if_neg (by simp only [hok, hty, hc, hup]; decide)]
  generalize hu : s.modNode peer.key (fun t =>
    { t with out := t.out.filter (fun e => !(e.1 == node.key && e.2.ty == 4 && e.2.group == m.group && e.2.seq == m.seq)) }) = u
  have unacked (n : Nat) : (u.tnode n).unacked = (s.tnode n).unacked := by
    by_cases hn : n = peer.key
    · rw [hn, ← hu, State.tnode_modNode]
    · rw [← hu, State.tnode_modNode_ne _ _ hn]
  refine ⟨_, rfl, ?_, ?_, fun n hn => ⟨?_, fun hp => ?_⟩⟩
  · exact eq_of_nodes (nodes_modNode ⟨_, hu.symm.trans rfl⟩ ..)
  · rw [State.tnode_modNode, unacked]
  · rw [State.tnode_modNode_ne _ _ hn, unacked]
  · rw [State.tnode_modNode_ne _ _ hn, ← hu, State.tnode_modNode_ne _ _ hp]

end ack

section resend

variable {s : State} {node peer : TNode} {q : BitVec 16} {g : BitVec 6}

/-- Is an unacknowledged message the one that a resend names? -/
def resent (peer : TNode) (q : BitVec 16) (g : BitVec 6) (u : Unacked) : Bool := u.peer == peer.key && u.msg.group == g && u.msg.seq == q

/-- The message as it is sent again: a RELEASE is late. -/
def againMsg (u : Unacked) : TempoMsg := { u.msg with late := u.msg.late || u.msg.ty == 2 }

/-- The sender's record of a repetition: a RELEASE's move and child, and the message with its count. -/
def resendNode (peer : TNode) (q : BitVec 16) (g : BitVec 6) (u : Unacked) (t : TempoNode) : TempoNode :=
  { t with
    late := if u.msg.ty = 2 then some (u.msg.move, peer.key) else t.late
    unacked := t.unacked.map (fun v => if resent peer q g v then { v with resends := v.resends + 1, msg := againMsg u } else v) }

theorem find?_of_filter {α : Type} {f : α → Bool} {l : List α} {a : α} (h : l.filter f = [a]) : l.find? f = some a := by
  rw [← List.head?_filter, h]
  rfl

theorem tempoResend_refused (h : s.nodeDown node.key = true ∨ (s.tnode node.key).unacked.find? (resent peer q g) = none) :
    execTempoResend node peer q g s = .next s := by
  unfold execTempoResend
  dsimp only
  split
  · rfl
  · next hd =>
    have hf : (s.tnode node.key).unacked.find? (fun u => u.peer == peer.key && u.msg.group == g && u.msg.seq == q) = none := h.resolve_left hd
    rw [hf]

variable {u : Unacked} (hup : s.nodeDown node.key = false) (hf : (s.tnode node.key).unacked.filter (resent peer q g) = [u])
include hup hf

/-- After the eighth repetition the sender gives up and the partition halts. -/
theorem tempoResend_gives_up {p : Nat} (h : 8 ≤ u.resends) (hp : s.partOfMsg u.msg = some p) :
    ∃ src, execTempoResend node peer q g s =
      .next ((s.modNode node.key (fun t => { t with unacked := t.unacked.filter (fun v => !resent peer q g v) })).raiseHalt p .abort src) := by
  have hu : (s.tnode node.key).unacked.find? (fun u => u.peer == peer.key && u.msg.group == g && u.msg.seq == q) = some u := find?_of_filter hf
  unfold execTempoResend
  dsimp only
  rw [if_neg (by simp [hup]), hu]
  dsimp only
  rw [if_pos h, hp]
  exact ⟨_, rfl⟩

/-- A message without an acknowledgement is sent again, and its count advances. -/
theorem tempoResend_again (h : u.resends < 8) :
    ∃ t, execTempoResend node peer q g s = .next t ∧ LinksOnly (s.modNode node.key (resendNode peer q g u)) t ∧
      (peer.key < 40000 → t.links = s.links) := by
  have hu : (s.tnode node.key).unacked.find? (fun u => u.peer == peer.key && u.msg.group == g && u.msg.seq == q) = some u := find?_of_filter hf
  unfold execTempoResend
  dsimp only
  rw [if_neg (by simp [hup]), hu]
  dsimp only
  rw [if_neg (by omega)]
  refine ⟨_, rfl, ?_, fun hp => ?_⟩
  · split
    · exact .refl _
    · exact linksOnly_onPath ..
  · split
    · rfl
    · rw [onPath_of_lt hp]
      rfl

omit hup in
/-- The repeated message takes the place of the one that was sent. -/
theorem filter_resendNode : (resendNode peer q g u (s.tnode node.key)).unacked.filter (resent peer q g) =
    [{ u with resends := u.resends + 1, msg := againMsg u }] := by
  have hu : resent peer q g u = true := (List.mem_filter.mp (hf ▸ List.mem_singleton_self u)).2
  have again (v : Unacked) (hv : resent peer q g v = true) : resent peer q g { v with resends := v.resends + 1, msg := againMsg u } = true := by
    simp only [resent, Bool.and_eq_true] at hv hu ⊢
    exact ⟨⟨hv.1.1, hu.1.2⟩, hu.2⟩
  have hmine : resent peer q g ∘ (fun v => if resent peer q g v then { v with resends := v.resends + 1, msg := againMsg u } else v) =
      resent peer q g := by
    funext v
    by_cases hv : resent peer q g v = true
    · simp only [Function.comp, hv, if_true, again v hv]
    · simp only [Function.comp, if_neg hv]
  rw [resendNode, List.filter_map, hmine, hf, List.map_singleton, if_pos hu]

end resend

end Sys2Proof.ReleaseTree
end

section
/-! The statement about releases (O36), assembled. -/
namespace Sys2Proof.ReleaseTree

open Sys2Proof.Machine Sys2Proof.Claims Sys2Proof.TempoPorts

theorem countReg_toNat (s : State) (o n : Nat) : ((s.countReg o n).reg o).toNat = min (2 ^ 32 - 1) ((s.reg o).toNat + n) := by
  rw [State.countReg, State.reg_setReg, BitVec.toNat_ofNat, satAdd, Nat.mod_eq_of_lt (by omega)]

section parts

variable {s : State} {node : TNode} {m : TempoMsg} {p up : Nat} {u : Unacked} (hok : m.ok = true) (hty : m.ty = 2)
  (hp : s.partOfMsg m = some p) (hu : s.parentOf p node.key = some up) (hlt : up < 40000) (hup : s.nodeDown node.key = false)
  (hud : s.nodeDown up = false) (hs : s.sentMsg up node.key m = some u)
include hok hty hp hu hlt hup hud hs

/-- A second copy is acknowledged and not acted on. -/
theorem release_again (ha : s.hasActed node.key up m = true) : ∃ t, execRelease node m s = .next t ∧ t = { s with tnodes := t.tnodes } ∧
    (∃ a, (t.tnode node.key).out = (s.tnode node.key).out ++ [(up, a)] ∧ a.ty = 4 ∧ a.seq = m.seq ∧ a.group = m.group) ∧
    ∀ k, (t.tnode k).sched = (s.tnode k).sched ∧ (t.tnode k).unacked = (s.tnode k).unacked := by
  have run := release_taken hok hty hp hu hlt hup hud hs
  dsimp only at run
  rw [if_pos ((hasActed_releaseSent hty hs s).trans ha)] at run
  obtain ⟨-, hgrp, hseq⟩ := sentMsg_eq hty hs
  obtain ⟨a, hack, h4, hq, hg⟩ := sendAck_of_lt (s := s) (p := p) (n := node.key) (m := releaseSent u m) hlt
  refine ⟨_, run, ?_, ⟨a, ?_, h4, hq.trans hseq, hg.trans hgrp⟩, fun k => ?_⟩
  · rw [hack]
    rfl
  · rw [hack, State.tnode_modNode]
  · rw [hack]
    by_cases hk : k = node.key
    · rw [hk, State.tnode_modNode]
      exact ⟨rfl, rfl⟩
    · rw [State.tnode_modNode_ne _ _ hk]
      exact ⟨rfl, rfl⟩

variable (ha : s.hasActed node.key up m = false)
include ha

/-- The first copy on time is scheduled by the hold-back that remains, and goes on to the children. -/
theorem release_on_time (hlate : u.msg.late = false) (hre : u.resends = 0) (hlvl : u.msg.lvl = (3 : BitVec 3)) :
    ∃ t, execRelease node m s = .next t ∧ t = { s with tnodes := t.tnodes } ∧ t.hasActed node.key up m = true ∧
      (∃ x, (t.tnode node.key).sched.find? (fun e => e.1 == pgKey p m.group.toNat) = some (pgKey p m.group.toNat, x) ∧
        x.value = u.msg.value ∧ x.ovf = u.msg.ovf ∧ x.late = false ∧
        x.hold = u.msg.delay.toNat - sget 0 (s.tnode node.key).path (6 + bitN m.port) ∧ x.move = u.msg.move) ∧
      (∀ e ∈ s.expected p m.group.toNat node.key, ∃ v ∈ (t.tnode node.key).unacked, v.peer = e ∧ v.msg.ty = 2 ∧ v.msg.value = u.msg.value ∧
        v.msg.move = u.msg.move) := by
  have run := release_taken hok hty hp hu hlt hup hud hs
  have hl : (releaseSent u m).late = false := by simp [releaseSent, hlate, hre]
  dsimp only at run
  rw [if_neg (by rw [hasActed_releaseSent hty hs, ha]; decide), if_neg (by rw [hl]; decide)] at run
  obtain ⟨hframe, hact, hfind, hsent⟩ := releaseScheduled_frame (s := s) (p := p) (g := m.group.toNat) (r := releaseSent u m) hlt
    (parentOf_lt hu hlt) (releaseSched s p node.key (releaseSent u m))
  refine ⟨_, run, hframe, (hasActed_releaseSent hty hs _).symm.trans hact, ⟨_, hfind, rfl, rfl, hl, ?_, rfl⟩, fun e he => ?_⟩
  · have lvl : s.ancestorLevel p 3 = 3 := by unfold State.ancestorLevel; split <;> rfl
    change u.msg.delay.toNat - sget 0 _ (2 * s.ancestorLevel p u.msg.lvl.toNat + bitN m.port) = _
    rw [hlvl, show (3 : BitVec 3).toNat = 3 from rfl, lvl]
  · obtain ⟨v, hv, hpeer, q, hmsg⟩ := hsent e he
    refine ⟨v, hv, hpeer, ?_⟩
    rw [hmsg]
    exact ⟨(sentMsg_eq hty hs).1, rfl, rfl⟩

/-- A late first copy is acted on at once, and counted where it was resent. -/
theorem release_late (hlate : u.msg.late = true ∨ 0 < u.resends) (hpend : s.releasePending p = none) (hrx : (s.core node.key).rx = []) :
    ∃ t, execRelease node m s = .next t ∧ (t.part p).late = true ∧ (m.group.toNat ≠ 0 ∨ 39168 ≤ node.key → t.mem = s.mem) ∧
      (t.reg Reg.alignLost).toNat = min (2 ^ 32 - 1) ((s.reg Reg.alignLost).toNat + bitN (decide (0 < u.resends))) ∧
      (node.key < 39168 → m.group.toNat ≠ 0 → sget 0 (t.core node.key).gres m.group.toNat = u.msg.value) := by
  have run := release_taken hok hty hp hu hlt hup hud hs
  have hl : (releaseSent u m).late = true := by simpa [releaseSent] using hlate
  dsimp only at run
  rw [if_neg (by rw [hasActed_releaseSent hty hs, ha]; decide), if_pos hl] at run
  obtain ⟨h2, hj, -⟩ := releaseForwarded_frame (s := s) (p := p) (g := m.group.toNat) (r := releaseSent u m) hlt (parentOf_lt hu hlt)
  obtain ⟨hpart, hmem, hreg, hcore⟩ := releaseLate_frame (g := m.group.toNat) (sc := releaseSched s p node.key (releaseSent u m)) h2 hj
    (parentOf_lt hu hlt) hpend hrx
  by_cases hre : 0 < u.resends
  · rw [if_pos hre] at run
    refine ⟨_, run, ?_, ?_, ?_, ?_⟩
    · rw [State.part, State.raise_parts]
      exact hpart
    · rw [State.raise_mem]
      exact hmem
    · rw [State.reg, State.raise_regs]
      refine (countReg_toNat _ _ _).trans ?_
      rw [hreg, decide_eq_true hre]
      rfl
    · rw [State.core, State.raise_cores]
      exact hcore
  · rw [if_neg hre] at run
    refine ⟨_, run, hpart, hmem, ?_, hcore⟩
    rw [hreg, decide_eq_false hre]
    have := (s.reg Reg.alignLost).isLt
    simp only [bitN]
    simp
    omega

end parts

/-! ### Instants -/

section instant

variable {s : State} {p g : Nat}

theorem releaseInstant_refused {node : TNode} {part : Fin 16} {group : BitVec 6}
    (h : s.nodeDown node.key = true ∨ ∀ e ∈ (s.tnode node.key).sched, e.1 ≠ pgKey part.val group.toNat) :
    execReleaseInstant node part group s = .next s := by
  unfold execReleaseInstant
  dsimp only
  split
  · rfl
  · next hd =>
    have hn : (s.tnode node.key).sched.find? (fun e => e.1 == pgKey part.val group.toNat) = none := by
      rw [List.find?_eq_none]
      intro e he
      simpa using h.resolve_left hd e he
    rw [hn]

theorem releaseInstant_acts {node : TNode} {part : Fin 16} {group : BitVec 6} {k : Nat} {r : Sched} (hup : s.nodeDown node.key = false)
    (h : (s.tnode node.key).sched.find? (fun e => e.1 == pgKey part.val group.toNat) = some (k, r)) :
    execReleaseInstant node part group s = .next (s.actRelease part.val group.toNat node.key r) := by
  unfold execReleaseInstant
  dsimp only
  rw [if_neg (by simp [hup]), h]

variable {k : Nat} {r : Sched} (hk : k < 39168)
include hk

/-- A core at the instant of a group release takes its result and overflow flag. -/
theorem actRelease_group (hg : g ≠ 0) : (s.actRelease p g k r).mem = s.mem ∧ (∀ j, j ≠ k → (s.actRelease p g k r).core j = s.core j) ∧
    (s.actRelease p g k r).core k = { s.core k with
      gres := sput 0 (s.core k).gres g r.value, arrOut := (s.core k).arrOut &&& ~~~BitVec.ofNat 64 (2 ^ g)
      govf := if r.ovf then (s.core k).govf ||| BitVec.ofNat 64 (2 ^ g) else (s.core k).govf &&& ~~~BitVec.ofNat 64 (2 ^ g) } := by
  rw [actRelease_of_core (fun h => absurd h hg) hk]
  dsimp only
  rw [if_neg hg]
  refine ⟨rfl, fun j hj => State.core_modCore_ne _ _ hj, ?_⟩
  rw [State.coreGroupRelease, State.core_modCore]
  rfl

/-- A core with a running clock at the instant of a move release. -/
theorem actRelease_move (hpend : ∀ x, s.releasePending p = some x → x.move ≠ r.move) (hrx : (s.core k).rx = []) (hclk : s.clocked k = true) :
    ∃ w f b, regionOff w k = false ∧ w.part p = s.part p ∧
      (∀ seed c, w.launchCore p k seed c = s.launchCore p k seed c) ∧ (s.actRelease p 0 k r).mem = s.mem ∧
      (∀ j, j ≠ k → (s.actRelease p 0 k r).core j = s.core j) ∧
      (s.actRelease p 0 k r).core k = { coreReleased w p k r.value r.ovf (r.move + 1) (s.core k) with mhz := f, capped := b } := by
  rw [actRelease_of_core (fun _ => hpend) hk]
  dsimp only
  rw [if_pos rfl]
  generalize hw : s.modNode k (fun t => { t with sched := t.sched.filter (fun e => e.1 != pgKey p 0) }) = w
  have hw' : w = { s with tnodes := w.tnodes } := by rw [← hw]; rfl
  obtain ⟨hmem, hcore, f, b, hk⟩ := coreMoveRelease_clocked (s := w) (p := p) (k := k) r.value r.ovf (r.move + 1) (by rw [hw']; exact hrx)
    (by rw [hw']; exact hclk)
  have same (j : Nat) : w.core j = s.core j := by rw [hw']; rfl
  refine ⟨w, f, b, ?_, ?_, fun seed c => ?_, ?_, fun j hj => (hcore j hj).trans (same j), ?_⟩
  · rw [hw', regionOff, show State.clocked { s with tnodes := w.tnodes } k = true from hclk]
    rfl
  · rw [hw']; rfl
  · rw [hw']; rfl
  · rw [hmem, hw']
  · rw [hk, same]

end instant

end Sys2Proof.ReleaseTree
end

section
/-! A core after the instant of a move release, and the statement about releases (O36). -/
namespace Sys2Proof.ReleaseTree

open Sys2Proof.Machine Sys2Proof.Claims Sys2Proof.TempoPorts

section core

variable {s : State} {p k : Nat} {r : Sched} (hk : k < 39168) (hpend : ∀ x, s.releasePending p = some x → x.move ≠ r.move)
  (hrx : (s.core k).rx = []) (hclk : s.clocked k = true)
include hk hpend hrx hclk

/-- A core that waited resumes with the next move number and the result, its registers as they were. -/
theorem actRelease_resumes (hst : (s.core k).st = 3 ∨ (s.core k).st = 4 ∨ (s.core k).st = 2) (hopen : (s.part p).opens r.move = false) :
    let t := s.actRelease p 0 k r
    let c := s.core k
    let d := t.core k
    t.mem = s.mem ∧ d.move = r.move + 1 ∧ sget 0 d.gres 0 = r.value ∧ d.govf.getLsbD 0 = r.ovf ∧ (∀ i, d.getC i = 0) ∧
      d.xplyDone = false ∧ d.fresh = true ∧ d.arrOut.getLsbD 0 = false ∧ d.sw.active = false ∧ d.sw.standing = false ∧
      d.st = (if (s.part p).st = 3 then 6 else if c.ended then 2 else 3) ∧
      (∀ i, d.getX i = c.getX i) ∧ (∀ i, d.getV i = c.getV i) ∧ (∀ i, d.getP i = c.getP i) ∧ d.pc = c.pc ∧ d.acc = c.acc ∧
      ∀ j, j ≠ k → t.core j = s.core j := by
  intro t c d
  obtain ⟨w, f, b, hoff, hpart, -, hmem, hj, hd⟩ := actRelease_move hk hpend hrx hclk
  have hmove : r.move + 1 - 1 = r.move := by bv_omega
  obtain ⟨fl, hc⟩ := coreReleased_resumes (v := r.value) (ovf := r.ovf) (m := r.move + 1) (c := c) hoff (by rw [hpart, hmove]; exact hopen) hst
  have hd' : d = _ := hd
  rw [hc, hpart] at hd'
  rw [hd']
  exact ⟨hmem, rfl, sget_sput_self .., govf_takesRelease r.value r.ovf (r.move + 1) false (standingSet w k) c, fun _ => rfl, rfl, rfl,
    arrOut_takesRelease r.value r.ovf (r.move + 1) false (standingSet w k) c, rfl, rfl, rfl, fun _ => rfl, fun _ => rfl, fun _ => rfl,
    rfl, rfl, hj⟩

/-- At the first release of a launch a powered core begins at its class's entry, cleared. -/
theorem actRelease_begins {cr : ClassRec} (hopen : (s.part p).opens r.move = true) (hst : (s.core k).st ≠ 0) (hp : (s.part p).st ≠ 3)
    (hcr : s.classOf k = some cr) :
    let t := s.actRelease p 0 k r
    let d := t.core k
    t.mem = s.mem ∧ d.st = 3 ∧ d.pc = cr.entry ∧ d.move = r.move + 1 ∧ d.cycle = 0 ∧ d.acc = [] ∧ d.cell = [] ∧ d.ended = false ∧ d.loops = [] ∧
      d.fault = Exc.none ∧ (∀ i, d.getX i = 0) ∧ (∀ i, d.getC i = 0) ∧ d.v = [] ∧ d.p = [] ∧ d.a = [] ∧ d.fflags = 0 ∧ d.rmode = 0 ∧
      d.active = Tile.empty ∧ d.shadow = Tile.empty ∧ ∀ j, j ≠ k → t.core j = s.core j := by
  intro t d
  obtain ⟨w, f, b, hoff, hpart, hlaunch, hmem, hj, hd⟩ := actRelease_move hk hpend hrx hclk
  have hmove : r.move + 1 - 1 = r.move := by bv_omega
  obtain ⟨seed, hc⟩ := coreReleased_begins (v := r.value) (ovf := r.ovf) (m := r.move + 1) (c := s.core k) hoff
    (by rw [hpart, hmove]; exact hopen) hst (by rw [hpart]; exact hp)
  have hd' : d = _ := hd
  rw [hc, hlaunch] at hd'
  have hpc : d.pc = ((s.classOf k).map (·.entry)).getD 0 := by rw [hd']; rfl
  rw [hcr] at hpc
  refine ⟨hmem, ?_, hpc, ?_⟩
  · rw [hd']
  · rw [hd']
    refine ⟨rfl, rfl, rfl, rfl, rfl, rfl, rfl, fun i => ?_, fun _ => rfl, rfl, rfl, rfl, rfl, rfl, rfl, rfl, hj⟩
    unfold Core.getX
    split <;> rfl

end core

/-! ### The statement -/

/-- Settles O36, by a lemma for each outcome of a release, of a node's instant, of an acknowledgement and of a repetition. -/
theorem releasesReachEveryMemberOnce : Obligations.ReleasesReachEveryMemberOnce := by
  unfold Obligations.ReleasesReachEveryMemberOnce
  refine ⟨fun s node m => ?_, fun s node part group => ?_, fun s node peer m q g => ?_⟩
  · intro n g
    refine ⟨release_refused, fun p up hok hty hp hu hlt hup => ⟨release_unsent hok hty hp hu hlt hup, fun u hud hs => ⟨?_, ?_, ?_⟩⟩⟩
    · exact release_again hok hty hp hu hlt hup hud hs
    · exact release_on_time hok hty hp hu hlt hup hud hs
    · exact release_late hok hty hp hu hlt hup hud hs
  · intro p g q run
    refine ⟨releaseInstant_refused, ?_, ?_⟩
    · rintro r rfl hg0 hfind harr hrec hgam
      have hg : group.toNat = 0 := hg0
      obtain ⟨⟨f, hf, hpart⟩, hmoves, hpend⟩ := hubRelease_panel (r := r) harr hrec hgam
      obtain ⟨hmove, hvalue, hovf, hst⟩ := hf (s.part p)
      refine ⟨s.hubRelease p 0 keyPanel r, ?_, ?_⟩
      · have := releaseInstant_acts (s := s) (node := .panel) (part := part) (group := group) rfl hfind
        rw [show run = _ from this, hg]
        exact congrArg _ actRelease_of_panel
      · rw [hpart]
        refine ⟨hmove, hvalue, hovf, hmoves, hpend, hst.trans ?_⟩
        simp [q]
    · rintro k r rfl hup hfind c
      have hrun := releaseInstant_acts (s := s) (node := .core k) (part := part) (group := group) hup hfind
      refine ⟨fun hg => ?_, fun hg hpend hrx hclk => ⟨fun hst hopen => ?_, fun cr hopen hst hq hcr => ?_⟩⟩
      · obtain ⟨hmem, hj, hcore⟩ := actRelease_group (s := s) (p := p) (r := r) k.isLt hg
        exact ⟨_, hrun, hmem, hcore, hj⟩
      · have hg0 : group.toNat = 0 := hg
        rw [hg0] at hrun
        exact ⟨_, hrun, actRelease_resumes k.isLt hpend hrx hclk hst hopen⟩
      · have hg0 : group.toNat = 0 := hg
        rw [hg0] at hrun
        exact ⟨_, hrun, actRelease_begins k.isLt hpend hrx hclk hopen hst hq hcr⟩
  · intro mine un came
    refine ⟨tempoAck_refused, ?_, tempoResend_refused, fun u hup hf h8 => ?_, fun u p hup hf h8 hp => ?_⟩
    · rintro hok hty rfl rfl hc hup
      exact tempoAck_taken hok hty hc hup
    · obtain ⟨t, ht, hlinks, hsame⟩ := tempoResend_again hup hf h8
      have hnode : t.tnode node.key = resendNode peer q g u (s.tnode node.key) := by
        rw [hlinks.eq]
        exact State.tnode_modNode (s := s) ..
      refine ⟨t, ht, ?_, hsame, ?_, ?_, fun h2 => ?_⟩
      · obtain ⟨l, rfl⟩ := hlinks
        rfl
      · rw [hnode]
        exact filter_resendNode hf
      · rw [hnode]
        exact List.length_map ..
      · rw [hnode]
        exact if_pos h2
    · obtain ⟨src, ht⟩ := tempoResend_gives_up hup hf h8 hp
      refine ⟨_, ht, haltPend_raiseHalt_abort .., ?_, rfl, rfl⟩
      rw [State.tnode, State.raiseHalt_tnodes]
      refine (congrArg TempoNode.unacked (State.tnode_modNode (s := s) ..)).trans rfl

end Sys2Proof.ReleaseTree
end

section
/-! What a capture that begins at a held release may change (R266, R416, R417): the requests that a failed capture lets go reach memory,
scratchpads and the fabric, raise events and halts, and leave every partition's move, state, program and launch, and the tempo network. -/
namespace Sys2Proof.LaunchTree

open Sys2Proof.Machine Sys2Proof.Claims Sys2Proof.TempoPorts Sys2Proof.ReleaseTree

/-- What a release of a partition depends on: move, state, program and launch. -/
def runOf (q : Part) : MoveNo × BitVec 4 × Option Program × Option Launch := (q.move, q.st, q.prog, q.launch)

/-- Two states with the same tempo nodes, in which every partition runs alike. -/
def KeepsRuns (s t : State) : Prop := t.tnodes = s.tnodes ∧ ∀ p, runOf (t.part p) = runOf (s.part p)

theorem KeepsRuns.refl (s : State) : KeepsRuns s s := ⟨rfl, fun _ => rfl⟩
theorem KeepsRuns.trans {s t u : State} : KeepsRuns s t → KeepsRuns t u → KeepsRuns s u := fun ⟨a, b⟩ ⟨a', b'⟩ =>
  ⟨a'.trans a, fun p => (b' p).trans (b p)⟩

theorem KeepsRuns.of_same {s t : State} (hp : t.parts = s.parts) (ht : t.tnodes = s.tnodes) : KeepsRuns s t :=
  ⟨ht, fun p => by rw [State.part, hp]; rfl⟩

theorem KeepsRuns.ite {s t u : State} (c : Prop) [Decidable c] (h : KeepsRuns s t) (h' : KeepsRuns s u) : KeepsRuns s (if c then t else u) := by
  split
  · exact h
  · exact h'

theorem keepsRuns_foldl {α : Type} {f : State → α → State} (h : ∀ t a, KeepsRuns t (f t a)) (l : List α) (s : State) :
    KeepsRuns s (l.foldl f s) := foldl_rel KeepsRuns.refl KeepsRuns.trans h l s

/-! ### Rules of the state's operations -/

section rules

variable (s : State)

theorem runs_modCore (k : Nat) (f : Core → Core) : KeepsRuns s (s.modCore k f) := .of_same rfl rfl
theorem runs_modCores (ks : List Nat) (f : Core → Core) : KeepsRuns s (s.modCores ks f) := keepsRuns_foldl (fun t k => runs_modCore t k f) ks s
theorem runs_modHbm (f : Hbm → Hbm) : KeepsRuns s (s.modHbm f) := .of_same rfl rfl
theorem runs_modLink (l : LinkEnd) (f : Link → Link) : KeepsRuns s (s.modLink l f) := .of_same rfl rfl
theorem runs_setReg (o : Nat) (v : W32) : KeepsRuns s (s.setReg o v) := .of_same rfl rfl
theorem runs_setRegF (o lo len v : Nat) : KeepsRuns s (s.setRegF o lo len v) := .of_same rfl rfl
theorem runs_countReg (o n : Nat) : KeepsRuns s (s.countReg o n) := .of_same rfl rfl
theorem runs_raise (t p : Nat) (d : List Byte) : KeepsRuns s (s.raise t p d) := .of_same (State.raise_parts ..) (State.raise_tnodes ..)
theorem runs_freshen : KeepsRuns s s.freshen := .of_same rfl rfl
theorem runs_spadWr (k off : Nat) (bs : List Byte) : KeepsRuns s (s.spadWr k off bs) := .of_same rfl rfl

theorem runs_modPart (p : Nat) {f : Part → Part} (h : ∀ q, runOf (f q) = runOf q) : KeepsRuns s (s.modPart p f) := by
  refine ⟨rfl, fun j => ?_⟩
  by_cases hj : j = p
  · rw [hj, State.part_modPart, h]
  · rw [State.part_modPart_ne _ _ hj]

theorem runs_raiseHalt (p : Nat) (k : HaltKind) (x : HaltSrc) : KeepsRuns s (s.raiseHalt p k x) := by
  refine runs_modPart s p fun q => ?_
  rcases h : q.haltPend with _ | ⟨_ | _, _⟩ <;> cases k <;> rfl

end rules

/-! ### The fabric -/

theorem runs_sendOn (s : State) (l : LinkEnd) (p : Packet) : KeepsRuns s (s.sendOn l p) := runs_modLink ..
theorem runs_sendAlong (s : State) (path : List LinkEnd × Bool) (p : Packet) : KeepsRuns s (s.sendAlong path p) :=
  keepsRuns_foldl (fun t l => runs_sendOn t l _) path.1 s

theorem runs_pkfError (s : State) (u r c : Nat) : KeepsRuns s (s.pkfError u r c) := by
  unfold State.pkfError
  exact .ite _ (.refl s) (runs_setReg ..)

theorem runs_pathless (s : State) (dst : FUnit) (p : Packet) : KeepsRuns s (s.pathless dst p) := by
  unfold State.pathless
  dsimp only
  have noted (d : Bool) (u r c : Nat) : KeepsRuns s (if d then s else s.pkfError u r c) := .ite _ (.refl s) (runs_pkfError ..)
  exact .ite _ ((noted ..).trans (.of_same rfl rfl)) (noted ..)

theorem runs_localSend (s : State) (src : FUnit) (p : Packet) : KeepsRuns s (s.localSend src p) := by
  unfold State.localSend
  dsimp only
  split
  · exact runs_pathless ..
  · exact KeepsRuns.trans (.of_same rfl rfl) (runs_sendAlong ..)

theorem runs_throttleUpdate (s : State) (p : Nat) : KeepsRuns s (s.throttleUpdate p) := .of_same rfl rfl
theorem runs_modStream (s : State) (q c : Nat) (f : Stream → Stream) : KeepsRuns s (s.modStream q c f) := .of_same rfl rfl
theorem runs_portSend (s : State) (port : Nat) (p : Packet) : KeepsRuns s (s.portSend port p) :=
  (runs_sendOn ..).trans (runs_throttleUpdate ..)

theorem runs_streamPort (s : State) (q : Nat) (p : Packet) : KeepsRuns s (s.streamPort q p).1 := by
  unfold State.streamPort
  split
  · exact KeepsRuns.trans (.of_same rfl rfl) (runs_portSend ..)
  · exact .refl s

theorem runs_trySend (q c n : Nat) (s : State) : KeepsRuns s (State.trySend q c n s) := by
  induction n generalizing s with
  | zero => exact .refl s
  | succ n ih =>
    unfold State.trySend
    dsimp only
    split
    · exact .refl s
    · exact .ite _ (((runs_streamPort ..).trans (runs_modStream ..)).trans (ih _)) (.refl s)

theorem runs_openStreams (s : State) (q : Nat) : KeepsRuns s (s.openStreams q) := by
  unfold State.openStreams
  exact .ite _ (.refl s) ((keepsRuns_foldl (fun t c => runs_modStream t q c _) _ s).trans (runs_streamPort ..))

theorem runs_remoteSend (s : State) (p : Packet) : KeepsRuns s (s.remoteSend p) := by
  unfold State.remoteSend
  dsimp only
  exact .ite _ ((runs_modStream ..).trans (runs_trySend ..)) ((runs_modStream ..).trans (runs_openStreams ..))

theorem runs_inject (s : State) (src : FUnit) (p : Packet) : KeepsRuns s (s.inject src p) := by
  unfold State.inject
  refine .ite _ (runs_localSend ..) ?_
  dsimp only
  split
  · exact runs_pathless ..
  · exact (runs_sendAlong ..).trans (runs_remoteSend ..)

theorem runs_answerTo (s : State) (p : Packet) (a : Answer) : KeepsRuns s (s.answerTo p a) := by
  unfold State.answerTo
  cases a with
  | later => exact .refl s
  | ok => exact runs_inject ..
  | err c => exact runs_inject ..
  | data bs => exact runs_inject ..

/-! ### Cores -/

theorem runs_coreException (s : State) (k : Nat) (e : Exc) : KeepsRuns s (s.coreException k e) := by
  unfold State.coreException State.haltRank
  dsimp only
  split
  · exact ((runs_modCore ..).trans (runs_raise ..)).trans (runs_raiseHalt ..)
  · exact (runs_modCore ..).trans (runs_raise ..)

theorem runs_engineExc (s : State) (k : Nat) (e : Exc) : KeepsRuns s (s.engineExc k e) := by
  unfold State.engineExc
  exact .ite _ (runs_modCore ..) (.ite _ (runs_coreException ..) (.refl s))

theorem runs_beatWrite (s : State) (k row : Nat) (wen : Byte) (data : W512) : KeepsRuns s (s.beatWrite k row wen data) :=
  keepsRuns_foldl (fun t _ => .ite _ (runs_spadWr ..) (.refl t)) _ s

theorem runs_beatDo (s : State) (k : Nat) (b : Beat) : KeepsRuns s (s.beatDo k b) := by
  unfold State.beatDo
  dsimp only
  refine .ite _ (runs_beatWrite ..) ?_
  split
  · exact (runs_modCore ..).trans (runs_engineExc ..)
  · exact .ite _ (.of_same rfl rfl)
      (.ite _ (runs_modCore ..) ((runs_modCore ..).trans (runs_beatWrite ..)))

theorem runs_drainRx (s : State) (k : Nat) : KeepsRuns s (s.drainRx k) := by
  unfold State.drainRx
  exact KeepsRuns.trans (.ite _ (.refl s) (runs_modCore ..)) (keepsRuns_foldl (fun t b => runs_beatDo t k b) _ _)

theorem runs_spadAccess (s : State) (k off : Nat) (a : Access) : KeepsRuns s (s.spadAccess k off a).1 := by
  unfold State.spadAccess
  dsimp only
  refine (runs_drainRx s k).trans ?_
  split
  · exact runs_spadWr ..
  · split
    · exact (runs_modCore ..).trans (runs_engineExc ..)
    · exact runs_modCore ..
  · split
    · exact (runs_modCore ..).trans (runs_engineExc ..)
    · exact (runs_modCore ..).trans (runs_spadWr ..)

/-! ### Memory -/

theorem runs_markRepair (s : State) (u : Nat) : KeepsRuns s (s.markRepair u) := (runs_modHbm ..).trans (runs_setRegF ..)
theorem runs_serr (s : State) (u : Nat) (ue : Bool) : KeepsRuns s (s.serr u ue) := (runs_setReg ..).trans (runs_modHbm ..)

theorem runs_unitCe (s : State) (u : Nat) (back : Bool) : KeepsRuns s (s.unitCe u back) := by
  unfold State.unitCe
  dsimp only
  have h : KeepsRuns s ((s.countReg (Reg.sce (stackOfUnit u)) 1).serr u false) := (runs_countReg ..).trans (runs_serr ..)
  exact .ite _ ((h.trans (runs_modHbm ..)).trans (runs_markRepair ..)) (h.trans (runs_modHbm ..))

theorem runs_ueMet (s : State) (u : Nat) : KeepsRuns s (s.ueMet u) := by
  unfold State.ueMet State.raiseFree
  exact (((runs_setRegF ..).trans (runs_serr ..)).trans (runs_raise ..)).trans (runs_freshen _)

theorem runs_unitUe (s : State) (u : Nat) : KeepsRuns s (s.unitUe u) := ((runs_markRepair ..).trans (runs_modHbm ..)).trans (runs_ueMet ..)

theorem runs_unitMissed (s : State) (u : Nat) : KeepsRuns s (s.unitMissed u) := by
  unfold State.unitMissed
  exact KeepsRuns.trans (.of_same rfl rfl) (runs_unitCe ..)

theorem runs_unitEcc (s : State) (u : Nat) : KeepsRuns s (s.unitEcc u) := by
  unfold State.unitEcc
  dsimp only
  generalize hv : (if s.hbm.missAt u then s.unitMissed u else s) = v
  have h1 : KeepsRuns s v := hv ▸ .ite _ (runs_unitMissed ..) (.refl s)
  generalize hw : (if v.hbm.ceAt u && !v.hbm.wb.contains u then v.unitCe u true else v) = w
  have h2 : KeepsRuns v w := hw ▸ .ite _ (runs_unitCe ..) (.refl v)
  exact (h1.trans h2).trans (.ite _ (runs_unitUe ..) (.refl w))

theorem runs_activate (s : State) (u : Nat) : KeepsRuns s (s.activate u) := by
  unfold State.activate
  dsimp only
  exact .ite _ (.refl s) (.ite _ ((runs_modHbm ..).trans (runs_countReg ..)) (runs_modHbm ..))

theorem runs_hbmRead (s : State) (pa n : Nat) : KeepsRuns s (s.hbmRead pa n).1 := by
  unfold State.hbmRead
  dsimp only
  have h := keepsRuns_foldl (f := fun a u => (a.activate u).unitEcc u) (fun t u => (runs_activate t u).trans (runs_unitEcc ..)) (unitsOf pa n) s
  split
  · exact .ite _ (h.trans (runs_ueMet ..)) h
  · exact h

theorem runs_unitWritten (s : State) (u : Nat) (whole : Bool) : KeepsRuns s (s.unitWritten u whole) := by
  unfold State.unitWritten
  exact .ite _ (runs_modHbm ..) ((runs_unitEcc ..).trans (runs_modHbm ..))

theorem runs_hbmWrite (s : State) (pa : Nat) (bs : List Byte) (mark : Bool) : KeepsRuns s (s.hbmWrite pa bs mark) := by
  unfold State.hbmWrite
  dsimp only
  generalize hv : List.foldl _ s (unitsOf pa bs.length) = v
  have h : KeepsRuns s v := hv ▸ keepsRuns_foldl (fun t u => (runs_activate t u).trans (runs_unitWritten ..)) _ s
  have hm : KeepsRuns s { v with mem := wrN v.mem pa bs } := h.trans (.of_same rfl rfl)
  exact .ite _ (hm.trans (keepsRuns_foldl (fun t u => runs_modHbm ..) _ _)) hm

theorem runs_hbmAccess (s : State) (pa : Nat) (a : Access) : KeepsRuns s (s.hbmAccess pa a).1 := by
  unfold State.hbmAccess
  split
  · exact .refl s
  · split
    · exact .refl s
    · cases a with
      | read n =>
        have h := runs_hbmRead s pa n
        dsimp only
        split <;> next heq => rw [heq] at h; exact h
      | write bs => exact runs_hbmWrite ..
      | atomic op ty bs =>
        have h := runs_hbmRead s pa bs.length
        dsimp only
        split
        · next heq =>
          rw [heq] at h
          exact h.trans (runs_hbmWrite ..)
        · next heq =>
          rw [heq] at h
          exact h

theorem runs_accessAt (s : State) (asker : Asker) (req : Option Nat) (pl : Place) (a : Access) : KeepsRuns s (s.accessAt asker req pl a).1 := by
  unfold State.accessAt
  split
  · split
    · exact runs_hbmAccess ..
    · exact .refl s
  · exact .refl s
  · split
    · exact .refl s
    · exact runs_spadAccess ..
  · split
    · exact .refl s
    · split <;> exact .refl s
    · split
      · exact .of_same rfl rfl
      · exact .refl s
  · split
    · exact .refl s
    · exact .refl s
    · split <;> exact .refl s
  · split
    · exact .refl s
    · exact .refl s
    · exact .of_same rfl rfl
  · exact .refl s

/-! ### Requests and captures -/

theorem runs_bcastWrite (s : State) (p : Packet) : KeepsRuns s (s.bcastWrite p) := by
  unfold State.bcastWrite
  exact keepsRuns_foldl (fun t k => .ite _ (.refl t) (runs_spadWr ..)) _ s

theorem runs_nmError (s : State) (t op part reason : Nat) : KeepsRuns s (s.nmError t op part reason) := by
  unfold State.nmError
  exact .ite _ (.refl s) (runs_setReg ..)

theorem runs_performRequest (s : State) (p : Packet) : KeepsRuns s (s.performRequest p) := by
  unfold State.performRequest
  refine .ite _ (.ite _ ((runs_bcastWrite ..).trans (runs_answerTo ..)) (runs_answerTo ..)) ?_
  dsimp only
  split
  · refine .ite _ (.ite _ ((runs_modHbm ..).trans (runs_setRegF ..)) (runs_modHbm ..)) ?_
    exact .ite _ (runs_answerTo ..) (.ite _ ((runs_nmError ..).trans (runs_answerTo ..)) (runs_answerTo ..))
  · exact runs_answerTo ..
  · exact .ite _ (runs_answerTo ..) (.ite _ ((runs_modHbm ..).trans (runs_countReg ..)) ((runs_hbmAccess ..).trans (runs_answerTo ..)))
  · exact (runs_accessAt ..).trans (runs_answerTo ..)

theorem runs_pstatState (s : State) (p st : Nat) : KeepsRuns s (s.pstatState p st) := runs_setRegF ..

theorem runs_captureFail (s : State) (p cause : Nat) : KeepsRuns s (s.captureFail p cause) := by
  unfold State.captureFail
  split
  · exact .refl s
  · dsimp only
    generalize hv : State.raise _ 0x0027 p _ = v
    have slices : KeepsRuns s ((s.ownedSlices p).foldl (fun t sl => t.modSlice sl (fun l => { l with cur := l.cur ||| l.cap, cap := 0 })) s) :=
      keepsRuns_foldl (fun t sl => runs_modHbm t _) _ s
    have h : KeepsRuns s v := by
      rw [← hv]
      refine KeepsRuns.trans (KeepsRuns.trans ?_ (runs_pstatState ..)) (runs_raise ..)
      refine KeepsRuns.trans (KeepsRuns.trans slices ?_) (runs_modPart _ _ fun _ => rfl)
      exact runs_setReg ..
    refine KeepsRuns.trans (h.trans ?_) (keepsRuns_foldl (fun t x => runs_performRequest t x) _ _)
    refine KeepsRuns.trans ?_ (runs_modHbm ..)
    split
    · exact runs_inject ..
    · exact .refl v

theorem runs_beginCaptureAs (s : State) (p : Nat) (q : Part) : KeepsRuns s (s.beginCaptureAs p q) := by
  unfold State.beginCaptureAs
  refine .ite _ ((runs_setRegF ..).trans (runs_modPart _ _ fun _ => rfl)) ?_
  dsimp only
  generalize hv : State.pstatState _ p 3 = v
  have slices (t : State) (l : List Nat) (f : Slice → Slice) : KeepsRuns t (l.foldl (fun t sl => t.modSlice sl f) t) :=
    keepsRuns_foldl (fun t sl => runs_modHbm t _) l t
  have h : KeepsRuns s v := by
    rw [← hv]
    refine KeepsRuns.trans ?_ (runs_pstatState ..)
    refine KeepsRuns.trans ?_ (runs_modPart _ _ ?_)
    · refine KeepsRuns.trans ?_ (runs_setReg ..)
      refine KeepsRuns.trans ?_ (slices _ _ _)
      exact runs_modCores ..
    · exact fun _ => rfl
  refine .ite _ (h.trans (runs_captureFail ..)) ?_
  split
  · exact h.trans (runs_inject ..)
  · exact h

theorem runs_heldCapture (s : State) (p : Nat) (m : MoveNo) (v : W64) (ovf edge : Bool) : KeepsRuns s (s.heldCapture p m v ovf edge) := by
  unfold State.heldCapture
  exact .ite _ (runs_beginCaptureAs ..) (.refl s)

end Sys2Proof.LaunchTree
end

section
/-! The first release of a launch (R32, R43, R44): what stands when the root has issued it, and commands that start (R321). -/
namespace Sys2Proof.LaunchTree

open Sys2Proof.Machine Sys2Proof.Claims Sys2Proof.TempoPorts Sys2Proof.ReleaseTree

/-! ### Calibrations and captures hold the releases under way -/

/-- Two states with the same releases under way, in which every partition runs alike. -/
def HoldsRuns (s t : State) : Prop := (∀ n, (t.tnode n).sched = (s.tnode n).sched) ∧ ∀ p, runOf (t.part p) = runOf (s.part p)

theorem HoldsRuns.trans {s t u : State} : HoldsRuns s t → HoldsRuns t u → HoldsRuns s u := fun ⟨a, b⟩ ⟨a', b'⟩ =>
  ⟨fun n => (a' n).trans (a n), fun p => (b' p).trans (b p)⟩

theorem KeepsRuns.holds {s t : State} : KeepsRuns s t → HoldsRuns s t := fun ⟨h, hp⟩ => ⟨fun n => by rw [State.tnode, h]; rfl, hp⟩

theorem part_of_calibrates {s t : State} (h : Calibrates s t) (p : Nat) : t.part p = s.part p := by
  obtain ⟨⟨_, _, _, _, rfl⟩, -⟩ := h
  rfl

theorem holds_of_calibrates {s t : State} (h : Calibrates s t) : HoldsRuns s t := ⟨h.2, fun p => by rw [part_of_calibrates h]⟩

theorem HoldsRuns.releasePending {s t : State} (h : HoldsRuns s t) (p : Nat) : t.releasePending p = s.releasePending p := by
  rw [State.releasePending, h.1]
  rfl

theorem calibrates_onPath (s : State) (p peer : Nat) (m : TempoMsg) : Calibrates s (s.onPath p peer m) := by
  obtain ⟨l, h⟩ := linksOnly_onPath s p peer m
  exact calibrates_of_tnodes ⟨_, l, _, h⟩

theorem calibrates_tempoSend (s : State) (p n peer : Nat) (m : TempoMsg) : Calibrates s (s.tempoSend p n peer m) := by
  unfold State.tempoSend
  refine Calibrates.trans (calibrates_modNode _ _ ?_) (calibrates_onPath ..)
  exact fun _ => rfl

theorem calibrates_forwardRelease (s : State) (p g n : Nat) (m : TempoMsg) : Calibrates s (s.forwardRelease p g n m) :=
  calibrates_foldl (fun t c => calibrates_tempoSend t p n c m) _ s

theorem calibrates_ite {s t u : State} (c : Prop) [Decidable c] (h : Calibrates s t) (h' : Calibrates s u) :
    Calibrates s (if c then t else u) := by
  split
  · exact h
  · exact h'

theorem calibrates_renewDelays (s : State) (p : Nat) : Calibrates s (s.renewDelays p) := by
  unfold State.renewDelays
  dsimp only
  have far (c : Bool) : Calibrates s (if c then (s.calibrate (s.part p).dies).calibrateLinks p else s) := by
    split
    · exact (calibrates_calibrate ..).trans (calibrates_calibrateLinks ..)
    · exact .refl s
  refine calibrates_ite _ (far _) ((far _).trans (Calibrates.trans (calibrates_foldl (fun t n => calibrates_modNode _ _ ?_) _ _)
    (calibrates_renewPaths ..)))
  exact fun _ => rfl

theorem heldCastle_of_none {s : State} {p : Nat} (h : (s.part p).castling = none) : s.heldCastle p = s := by
  unfold State.heldCastle
  dsimp only
  rw [h]

/-! ### The release -/

theorem releasePending_modNode {s : State} {p : Nat} {x : Sched} {f : TempoNode → TempoNode} (h : ∀ t, (f t).sched = (pgKey p 0, x) :: t.sched) :
    (s.modNode keyPanel f).releasePending p = some x := by
  rw [State.releasePending, State.tnode_modNode, h]
  simp

section release

variable {s : State} {p : Nat}

/-- The root issues the release of the move as it stands: it is scheduled at the panel hub, and every partition runs on alike. -/
theorem moveRelease_issues (hab : s.haltIs p .abort = false) (hpend : s.releasePending p = none) (hmove : (s.part p).move ≠ 0xFFFFFFFFFFFF)
    (hcas : (s.part p).castling = none) : ∃ v o h, (s.moveRelease p).releasePending p =
      some ⟨v, o, false, h, (s.part p).move, s.haltIs p .stop, s.finalMove p (s.part p).move⟩ ∧
      ∀ j, runOf ((s.moveRelease p).part j) = runOf (s.part j) := by
  unfold State.moveRelease
  dsimp only
  rw [if_neg (by simp [hab, hpend]), if_neg hmove]
  have hcal := calibrates_renewDelays s p
  rw [heldCastle_of_none (by rw [part_of_calibrates hcal]; exact hcas)]
  generalize hv : State.heldCapture _ p _ _ _ _ = v
  have hold : HoldsRuns s v := hv ▸ (holds_of_calibrates hcal).trans (runs_heldCapture ..).holds
  generalize hw : (v.setReg _ _).modNode keyPanel _ = w
  have hpart (j : Nat) : w.part j = v.part j := by
    rw [← hw]
    rfl
  have hfor := calibrates_forwardRelease w p 0 keyPanel
  refine ⟨(finalResult (s.redOp p 0) (s.combOf p 0 keyPanel)).1, (finalResult (s.redOp p 0) (s.combOf p 0 keyPanel)).2,
    s.hubDelay p 0 keyPanel + issueGuard (s.linkLevels p), ?_, fun j => ?_⟩
  · refine ((holds_of_calibrates (hfor _)).releasePending p).trans ?_
    rw [← hw]
    exact releasePending_modNode (fun _ => rfl)
  · refine (congrArg runOf (part_of_calibrates (hfor _) j)).trans ?_
    rw [hpart]
    exact hold.2 j

/-- At the last move number the partition halts instead. -/
theorem moveRelease_exhausted (hab : s.haltIs p .abort = false) (hpend : s.releasePending p = none) (hmove : (s.part p).move = 0xFFFFFFFFFFFF) :
    s.moveRelease p = (s.raise 0x0003 p []).raiseHalt p .abort .exhausted := by
  unfold State.moveRelease
  dsimp only
  rw [if_neg (by simp [hab, hpend]), if_pos hmove]

end release

/-! ### The first release of a launch -/

/-- A launch that RECAL has found running begins with a calibration, which leaves its partition's record but for that. -/
theorem calibrateLaunch_holds (s : State) (p : Nat) : (∀ n, ((s.calibrateLaunch p).tnode n).sched = (s.tnode n).sched) ∧
    (∃ b, (s.calibrateLaunch p).part p = { s.part p with recal := b }) ∧ ∀ j, runOf ((s.calibrateLaunch p).part j) = runOf (s.part j) := by
  unfold State.calibrateLaunch
  split
  · generalize hu : s.modPart p (fun q => { q with recal := false }) = u
    have hcal : Calibrates u ((u.calibrate (s.part p).dies).calibrateLinks p) := (calibrates_calibrate ..).trans (calibrates_calibrateLinks ..)
    have hruns : KeepsRuns s u := hu ▸ runs_modPart s p (fun _ => rfl)
    refine ⟨fun n => (hcal.2 n).trans (by rw [← hu]; rfl), ⟨false, ?_⟩, (hruns.holds.trans (holds_of_calibrates hcal)).2⟩
    rw [part_of_calibrates hcal, ← hu, State.part_modPart]
  · exact ⟨fun _ => rfl, ⟨_, rfl⟩, fun _ => rfl⟩

section opens

variable {s : State} {p : Nat} {l : Launch} (hl : (s.part p).launch = some l)
include hl

theorem openLaunch_waits (h : l.begun = true ∨ l.closing = true ∨ s.launchReady p = false) : s.openLaunch p = s.freshen := by
  unfold State.openLaunch
  rw [hl]
  dsimp only
  rw [if_neg]
  rintro ⟨hb, hc, hr, -⟩
  simp [hb, hc, hr] at h

theorem openLaunch_goes (hb : l.begun = false) (hc : l.closing = false) (hr : s.launchReady p = true) (hpend : s.releasePending p = none)
    (hab : s.haltIs p .abort = false) : s.openLaunch p = (s.calibrateLaunch p).moveRelease p := by
  unfold State.openLaunch
  rw [hl]
  dsimp only
  rw [if_pos ⟨hb, hc, hr, by rw [hpend]; rfl, hab⟩]

variable (hb : l.begun = false) (hc : l.closing = false) (hr : s.launchReady p = true) (hpend : s.releasePending p = none)
  (hab : s.haltIs p .abort = false)
include hb hc hr hpend hab

/-- A ready launch issues its first release, of the move as it stands. -/
theorem openLaunch_issues (hmove : (s.part p).move ≠ 0xFFFFFFFFFFFF) (hcas : (s.part p).castling = none) :
    ∃ v o h f, (s.openLaunch p).releasePending p = some ⟨v, o, false, h, (s.part p).move, s.haltIs p .stop, f⟩ ∧
      (l.first = (s.part p).move → f = false) ∧ ∀ j, runOf ((s.openLaunch p).part j) = runOf (s.part j) := by
  obtain ⟨hsched, ⟨b, hpart⟩, hruns⟩ := calibrateLaunch_holds s p
  rw [openLaunch_goes hl hb hc hr hpend hab]
  generalize s.calibrateLaunch p = t at *
  have hhalt (k : HaltKind) : t.haltIs p k = s.haltIs p k := by rw [State.haltIs, hpart]; rfl
  have hpend' : t.releasePending p = none := by rw [State.releasePending, hsched]; exact hpend
  obtain ⟨v, o, h, hrel, hend⟩ := moveRelease_issues (s := t) (p := p) ((hhalt _).trans hab) hpend' (by rw [hpart]; exact hmove)
    (by rw [hpart]; exact hcas)
  rw [hhalt, hpart] at hrel
  refine ⟨v, o, h, _, hrel, fun hf => ?_, fun j => (hend j).trans (hruns j)⟩
  have hopens : (t.part p).opens (s.part p).move = true := by simp [Part.opens, Part.opening, hpart, hl, hf]
  simp [State.finalMove, hopens]

/-- At the last move number a ready launch halts. -/
theorem openLaunch_exhausted (hmove : (s.part p).move = 0xFFFFFFFFFFFF) (hnone : (s.part p).haltPend = none) :
    ((s.openLaunch p).part p).haltPend = some (.abort, .exhausted) ∧ ∀ j, runOf ((s.openLaunch p).part j) = runOf (s.part j) := by
  obtain ⟨hsched, ⟨b, hpart⟩, hruns⟩ := calibrateLaunch_holds s p
  rw [openLaunch_goes hl hb hc hr hpend hab]
  generalize s.calibrateLaunch p = t at *
  have hhalt : t.haltIs p .abort = s.haltIs p .abort := by rw [State.haltIs, hpart]; rfl
  have hpend' : t.releasePending p = none := by rw [State.releasePending, hsched]; exact hpend
  rw [moveRelease_exhausted (hhalt.trans hab) hpend' (by rw [hpart]; exact hmove)]
  refine ⟨?_, fun j => (((runs_raise ..).trans (runs_raiseHalt ..)).2 j).trans (hruns j)⟩
  have hp : (t.raise 0x0003 p []).part p = t.part p := by rw [State.part, State.raise_parts]; rfl
  rw [State.raiseHalt, State.part_modPart, hp, hpart, hnone]

end opens

/-! ### Commands that start and run -/

section start

variable {s t : State} {op : Nat} {r : Ref} {c : Cmd} {f : Cmd → State → State × Res} (h : Starts s op r c)
include h

/-- A command that starts and whose operands end it. -/
theorem start_ends {st d : Nat} {su : List Byte} (hf : f c s = (t, .fin st d su)) : s.start op r f = t.finish r.ring.val c.seq st d su := by
  obtain ⟨hc, hop, hns, hm, hacc, hz, hlist, hown⟩ := h
  unfold State.start
  dsimp only
  rw [hc]
  dsimp only
  rw [if_neg (by simp [hop, hns, hm]), if_neg (by simp [hacc, hz, hlist]), if_neg (by simp [hown]), hf]

/-- A command that starts and runs on. -/
theorem start_runs (hf : f c s = (t, .run)) : s.start op r f = t.modCmd r.ring.val c.seq (fun c => { c with started := true }) := by
  obtain ⟨hc, hop, hns, hm, hacc, hz, hlist, hown⟩ := h
  unfold State.start
  dsimp only
  rw [hc]
  dsimp only
  rw [if_neg (by simp [hop, hns, hm]), if_neg (by simp [hacc, hz, hlist]), if_neg (by simp [hown]), hf]

end start

/-- A command that runs is found in its own ring. -/
theorem cmd_found {s : State} {r : Ref} {c : Cmd} (h : s.cmd r = some c) : s.runRing r = r.ring.val ∧
    (s.ring (s.runRing r)).cmds.find? (fun c => c.seq == r.seq.toNat) = some c := by
  have hr : s.runRing r = r.ring.val := by rw [State.runRing, h]; rfl
  exact ⟨hr, by rw [hr]; exact h⟩

end Sys2Proof.LaunchTree
end

section
/-! LAUNCH and WAIT_MOVE (R32, R326, R327, Table 12-8): how they start, run on and finish. -/
namespace Sys2Proof.LaunchTree

open Sys2Proof.Machine Sys2Proof.Claims Sys2Proof.TempoPorts Sys2Proof.ReleaseTree

/-! ### Scrubbing -/

/-- Two states that differ in cores and their memory, with every core in its state. -/
def Scrubs (s t : State) : Prop := (∃ c m, t = { s with cores := c, mem := m }) ∧ ∀ k, (t.core k).st = (s.core k).st

theorem Scrubs.refl (s : State) : Scrubs s s := ⟨⟨_, _, rfl⟩, fun _ => rfl⟩
theorem Scrubs.trans {s t u : State} : Scrubs s t → Scrubs t u → Scrubs s u := by
  rintro ⟨⟨_, _, rfl⟩, h⟩ ⟨⟨c, m, rfl⟩, h'⟩
  exact ⟨⟨c, m, rfl⟩, fun k => (h' k).trans (h k)⟩

theorem scrubs_modCore (s : State) (k : Nat) {f : Core → Core} (h : ∀ c, (f c).st = c.st) : Scrubs s (s.modCore k f) := by
  refine ⟨⟨_, _, rfl⟩, fun j => ?_⟩
  by_cases hj : j = k
  · rw [hj, State.core_modCore, h]
  · rw [State.core_modCore_ne _ _ hj]

theorem scrubs_mem (s : State) (m : Mem) : Scrubs s { s with mem := m } := ⟨⟨_, _, rfl⟩, fun _ => rfl⟩

theorem scrubs_scrubCore (s : State) (k : Nat) : Scrubs s (s.scrubCore k) := by
  unfold State.scrubCore
  dsimp only
  refine Scrubs.trans (Scrubs.trans (t := s.spadZero k) ?_ (foldl_rel Scrubs.refl Scrubs.trans (fun t e => scrubs_mem t _) _ _))
    (scrubs_modCore _ _ ?_)
  · refine Scrubs.trans (scrubs_mem s _) (scrubs_modCore _ _ ?_)
    exact fun _ => rfl
  · exact fun _ => rfl

theorem launchReady_congr {s t : State} {p : Nat} (hm : t.membersOf p = s.membersOf p) (hst : ∀ k, (t.core k).st = (s.core k).st)
    (hch : (t.part p).children = (s.part p).children) (htree : (t.part p).tree = (s.part p).tree) (hctr : t.freeCtr = s.freeCtr) :
    t.launchReady p = s.launchReady p := by
  simp only [State.launchReady, hm, hst, hch, htree, hctr]

/-! ### LAUNCH -/

/-- The state in which SCRUB has zeroed the members' scratchpads, or the state itself. -/
def scrubbed (s : State) (c : Cmd) : State :=
  if bit (c.u32 0x10) 0 then (s.membersOf c.part).foldl (fun t k => t.scrubCore k) s else s

theorem scrubs_scrubbed (s : State) (c : Cmd) : Scrubs s (scrubbed s c) := by
  unfold scrubbed
  split
  · exact foldl_rel Scrubs.refl Scrubs.trans scrubs_scrubCore _ s
  · exact .refl s

/-- The launch that a LAUNCH command begins. -/
def newLaunch (s : State) (r : Ref) (c : Cmd) : Launch :=
  { ring := r.ring.val, seq := c.seq, seed := BitVec.ofNat 64 (c.u64 8), scrub := bit (c.u32 0x10) 0, resLen := c.u16 0x14
    resCore := c.u32 0x18, resOff := c.u32 0x1C, resAddr := c.u64 0x20, first := (s.part c.part).move
    base := ((s.part c.part).positions.head?.filter (fun x => s.unchangedSince c.part x)).map (·.gen), begun := false, closing := false, status := 0
    recovered := false, block := [], value := 0, endMove := 0, endOvf := false }

/-- The partition's record as a LAUNCH begins. -/
def launching (l : Launch) (q : Part) : Part := { q with launch := some l, st := 1, late := false, haltSrc := 3, haltPend := none }

/-- The partition runs its launch, of which no release has been issued. -/
def launched (s : State) (r : Ref) (c : Cmd) : State := (scrubbed s c).modPart c.part (launching (newLaunch s r c))

theorem part_launched (s : State) (r : Ref) (c : Cmd) : (launched s r c).part c.part = launching (newLaunch s r c) (s.part c.part) := by
  rw [launched, State.part_modPart]
  obtain ⟨⟨_, _, h⟩, -⟩ := scrubs_scrubbed s c
  rw [h]
  rfl

theorem launchReady_launched (s : State) (r : Ref) (c : Cmd) : (launched s r c).launchReady c.part = s.launchReady c.part := by
  have hp := part_launched s r c
  obtain ⟨⟨x, m, h⟩, hst⟩ := scrubs_scrubbed s c
  refine launchReady_congr ?_ hst ?_ ?_ ?_
  · rw [State.membersOf, hp, launched, h]
    rfl
  · rw [hp]; rfl
  · rw [hp]; rfl
  · rw [launched, h]; rfl

theorem releasePending_launched (s : State) (r : Ref) (c : Cmd) (p : Nat) : (launched s r c).releasePending p = s.releasePending p := by
  obtain ⟨⟨x, m, h⟩, -⟩ := scrubs_scrubbed s c
  rw [launched, h]
  rfl

section launch

variable {s : State} {r : Ref} {c : Cmd} (h : Starts s 4 r c)
include h

theorem launch_invalid (hh : (s.part c.part).height ≠ 0) (ho : s.launchOperands c = false) : Ends (.launch r) s r c 1 0 [] (fun u => u = s) := by
  refine ⟨s, congrArg _ (start_ends h ?_), rfl⟩
  dsimp only
  rw [if_pos ⟨ho, hh⟩]

variable (ho : s.launchOperands c = true)
include ho

theorem launch_conflict (hc : s.admitted c.part 4 c.target = false ∨ (s.part c.part).prog = none ∨ (s.part c.part).parent ≠ none) :
    Ends (.launch r) s r c 2 (s.stateDetail c.part) [] (fun u => u = s) := by
  refine ⟨s, congrArg _ (start_ends h ?_), rfl⟩
  dsimp only
  rw [if_neg (by simp [ho]), if_pos (by simpa [State.rootHere, Option.isSome_iff_ne_none] using hc)]
  rfl

variable (ha : s.admitted c.part 4 c.target = true) (hprog : (s.part c.part).prog ≠ none) (hroot : (s.part c.part).parent = none)
  (haddr : c.u64 0x20 < 2 ^ 57)
include ha hprog hroot haddr

theorem launch_latent {f : HaltSrc} (hf : s.latent c.part = some f) :
    exec (.launch r) s = .next (((launched s r c).raiseHalt c.part .abort f).modCmd r.ring.val c.seq (fun c => { c with started := true })) := by
  refine congrArg _ (start_runs h ?_)
  dsimp only
  rw [if_neg (by simp [ho]), if_neg (by simp [ha, hprog, State.rootHere, hroot]), if_neg (by omega), hf]
  rfl

theorem launch_opens (hf : s.latent c.part = none) :
    exec (.launch r) s = .next (((launched s r c).openLaunch c.part).modCmd r.ring.val c.seq (fun c => { c with started := true })) := by
  refine congrArg _ (start_runs h ?_)
  dsimp only
  rw [if_neg (by simp [ho]), if_neg (by simp [ha, hprog, State.rootHere, hroot]), if_neg (by omega), hf]
  rfl

end launch

/-- LAUNCH with a latent fault: its halt is on its way, and nothing is released. -/
theorem launched_latent (s : State) (r : Ref) (c : Cmd) (f : HaltSrc) :
    let u := (launched s r c).raiseHalt c.part .abort f
    (u.part c.part).haltPend = some (.abort, f) ∧ (u.part c.part).move = (s.part c.part).move ∧ (u.part c.part).st = 1 := by
  intro u
  have hu : u.part c.part = { launching (newLaunch s r c) (s.part c.part) with haltPend := some (.abort, f) } := by
    refine (State.part_modPart (launched s r c) ..).trans ?_
    rw [part_launched]
    rfl
  rw [hu]
  exact ⟨rfl, rfl, rfl⟩

section opening

variable {s : State} {r : Ref} {c : Cmd}

/-- Whatever the opening of a launch does, the partition runs it. -/
theorem launched_runs {u : State} (h : runOf (u.part c.part) = runOf ((launched s r c).part c.part)) :
    (u.part c.part).move = (s.part c.part).move ∧ (u.part c.part).st = 1 ∧ (u.part c.part).prog = (s.part c.part).prog ∧
      (u.part c.part).launch = some (newLaunch s r c) := by
  rw [part_launched] at h
  simp only [runOf, launching, Prod.mk.injEq] at h
  exact h

theorem launched_not_halting (k : HaltKind) : (launched s r c).haltIs c.part k = false := by
  rw [State.haltIs, part_launched]
  rfl

variable (hcas : (s.part c.part).castling = none) (hpend : s.releasePending c.part = none)
include hcas hpend

/-- A launch whose partition is ready issues its first release; else it waits for the cores. -/
theorem openLaunch_launched : let u := (launched s r c).openLaunch c.part
    ((u.part c.part).move = (s.part c.part).move ∧ (u.part c.part).st = 1 ∧ (u.part c.part).prog = (s.part c.part).prog ∧
      (u.part c.part).launch = some (newLaunch s r c)) ∧
    (s.launchReady c.part = false → u.releasePending c.part = none) ∧
    (s.launchReady c.part = true → (s.part c.part).move ≠ 0xFFFFFFFFFFFF → ∃ x, u.releasePending c.part = some x ∧
      x.move = (s.part c.part).move ∧ x.stop = false ∧ x.final = false) ∧
    (s.launchReady c.part = true → (s.part c.part).move = 0xFFFFFFFFFFFF → (u.part c.part).haltPend = some (.abort, .exhausted)) := by
  intro u
  have hl : ((launched s r c).part c.part).launch = some (newLaunch s r c) := by rw [part_launched]; rfl
  have hmove : ((launched s r c).part c.part).move = (s.part c.part).move := by rw [part_launched]; rfl
  have hpend' := (releasePending_launched s r c c.part).trans hpend
  have hready := launchReady_launched s r c
  by_cases hr : s.launchReady c.part = true
  · have hr' := hready.trans hr
    by_cases hm : (s.part c.part).move = 0xFFFFFFFFFFFF
    · obtain ⟨hhalt, hruns⟩ := openLaunch_exhausted hl rfl rfl hr' hpend' (launched_not_halting _) (hmove.trans hm) (by rw [part_launched]; rfl)
      exact ⟨launched_runs (hruns _), fun h => by simp [hr] at h, fun _ h => absurd hm h, fun _ _ => hhalt⟩
    · obtain ⟨v, o, h, f, hrel, hf, hruns⟩ := openLaunch_issues hl rfl rfl hr' hpend' (launched_not_halting _) (by rw [hmove]; exact hm)
        (by rw [part_launched]; exact hcas)
      exact ⟨launched_runs (hruns _), fun h => by simp [hr] at h,
        fun _ _ => ⟨_, hrel, hmove, launched_not_halting _, hf hmove.symm⟩, fun _ h => absurd h hm⟩
  · have hu : u = (launched s r c).freshen := openLaunch_waits hl (.inr (.inr (by rw [hready]; simpa using hr)))
    rw [hu]
    exact ⟨launched_runs rfl, fun _ => hpend', fun h => absurd h hr, fun h => absurd h hr⟩

end opening

/-! ### LAUNCH goes on and finishes -/

section finishes

variable {s : State} {r : Ref} {c : Cmd} (hc : s.cmd r = some c) (hown : c.panel = s.ownId) (hst : c.started = true) (hfin : c.fin = none)
include hc hown hst hfin

/-- What COMMAND_FINISHES does to a running command of this panel, by its opcode. -/
theorem commandFinishes_of_running : (c.op = 3 → exec (.commandFinishes r) s = .next (s.finishLoad r.ring.val c)) ∧
    (c.op = 4 → exec (.commandFinishes r) s = .next (s.finishLaunch r.ring.val c)) ∧
    (c.op = 5 → exec (.commandFinishes r) s = .next (if s.waitDone c then s.finish r.ring.val c.seq 0 0 (leBytes 6 (s.part c.part).move.toNat)
      else if (s.part c.part).st = 1 then s else s.finish r.ring.val c.seq 0x0F (s.stateDetail c.part) [])) := by
  obtain ⟨hr, hf⟩ := cmd_found hc
  have run : exec (.commandFinishes r) s = execCommandFinishes r s := rfl
  rw [run]
  unfold execCommandFinishes
  dsimp only
  rw [hf, hr]
  dsimp only
  rw [if_neg (by simp [hst]), if_neg (by simp [hfin]), if_neg (by simp [hown])]
  exact ⟨fun h => by simp only [h], fun h => by simp only [h], fun h => by simp only [h]⟩

theorem waitMoveTimeout_of_running (h5 : c.op = 5) : exec (.waitMoveTimeout r) s =
    .next (if 0 < c.u32 0x10 ∧ s.waitDone c = false then s.finish r.ring.val c.seq 0x0C 0 [] else s) := by
  obtain ⟨hr, hf⟩ := cmd_found hc
  have run : exec (.waitMoveTimeout r) s = execWaitMoveTimeout r s := rfl
  rw [run]
  unfold execWaitMoveTimeout
  rw [hf, hr]
  simp only [h5, hown, hst, hfin, true_and]

end finishes

section finishLaunch

variable {s : State} {ring : Nat} {c : Cmd} {l : Launch} (hl : (s.part c.part).launch = some l) (hring : l.ring = ring) (hseq : l.seq = c.seq)
include hl hring hseq

theorem finishLaunch_opens (h : l.closing = false) : s.finishLaunch ring c = s.openLaunch c.part := by
  unfold State.finishLaunch
  dsimp only
  rw [hl]
  dsimp only
  rw [if_neg (by simp [hring, hseq]), if_pos h]

variable (h : l.closing = true)
include h

theorem finishLaunch_at_once (hs : l.status = 8 ∨ l.status = 0xE) : s.finishLaunch ring c = s.finish ring c.seq l.status 0 [] := by
  unfold State.finishLaunch
  dsimp only
  rw [hl]
  dsimp only
  rw [if_neg (by simp [hring, hseq]), if_neg (by simp [h]), if_pos hs]

/-- The result block is written, and the summary tells the result, the move, the flags and the words. -/
theorem finishLaunch_finishes (h8 : l.status ≠ 8) (hE : l.status ≠ 0xE)
    (hpos : ∃ x ∈ (s.part c.part).positions, l.endMove.toNat ≤ x.move.toNat) : s.finishLaunch ring c =
      (if l.resAddr = 0 then s else { s with hostMem := wrN s.hostMem l.resAddr l.block }).finish ring c.seq l.status 0
        (launchSummary l (s.part c.part).late) := by
  unfold State.finishLaunch
  dsimp only
  rw [hl]
  dsimp only
  rw [if_neg (by simp [hring, hseq]), if_neg (by simp [h]), if_neg (by simp [h8, hE]), if_neg (by simpa using hpos)]

end finishLaunch

theorem launchSummary_eq (l : Launch) (late : Bool) : launchSummary l late = leBytes 8 l.value.toNat ++ leBytes 6 l.endMove.toNat ++
    [BitVec.ofNat 8 ((if late then 1 else 0) + (if l.endOvf then 2 else 0) + (if l.recovered then 4 else 0)),
      BitVec.ofNat 8 (min 255 (l.resLen / 8))] := by
  have hb (b : Bool) (n : Nat) : n * bitN b = if b then n else 0 := by cases b <;> simp [bitN]
  have h1 : bitN late = if late then 1 else 0 := by simpa using hb late 1
  rw [launchSummary, h1, hb, hb]

/-! ### WAIT_MOVE -/

section wait

variable {s : State} {r : Ref} {c : Cmd} (h : Starts s 5 r c)
include h

theorem waitMove_invalid (hbad : 2 ^ 48 ≤ c.u64 8 ∨ 2 ≤ c.u32 0x14 ∨ (c.desc.drop 0x18).all (· == 0) = false) :
    Ends (.waitMove r) s r c 1 0 [] (fun u => u = s) := by
  refine ⟨s, congrArg _ (start_ends h ?_), rfl⟩
  exact if_pos hbad

variable (hmove : c.u64 8 < 2 ^ 48) (hpos : c.u32 0x14 < 2) (hz : (c.desc.drop 0x18).all (· == 0) = true)
include hmove hpos hz

theorem waitMove_conflict (hc : s.admitted c.part 5 c.target = false ∨ (s.part c.part).parent ≠ none) :
    Ends (.waitMove r) s r c 2 (s.stateDetail c.part) [] (fun u => u = s) := by
  have hgood : ¬ (2 ^ 48 ≤ c.u64 8 ∨ 2 ≤ c.u32 0x14 ∨ c.zeroFrom 0x18 = false) := by
    rw [show c.zeroFrom 0x18 = true from hz]
    simp only [Bool.true_eq_false, or_false]
    omega
  refine ⟨s, congrArg _ (start_ends h ?_), rfl⟩
  dsimp only
  rw [if_neg hgood, if_pos (by simpa [State.rootHere, Option.isSome_iff_ne_none] using hc)]
  rfl

theorem waitMove_runs (ha : s.admitted c.part 5 c.target = true) (hroot : (s.part c.part).parent = none) :
    Goes (.waitMove r) s r c (fun u => u = s.modCmd r.ring.val c.seq (fun d => { d with hit := decide (c.u64 8 ≤ (s.part c.part).move.toNat) })) := by
  have hgood : ¬ (2 ^ 48 ≤ c.u64 8 ∨ 2 ≤ c.u32 0x14 ∨ c.zeroFrom 0x18 = false) := by
    rw [show c.zeroFrom 0x18 = true from hz]
    simp only [Bool.true_eq_false, or_false]
    omega
  refine ⟨_, congrArg _ (start_runs h ?_), rfl⟩
  dsimp only
  rw [if_neg hgood, if_neg (by simp [ha, State.rootHere, hroot])]

end wait

end Sys2Proof.LaunchTree
end

section
/-! LOAD_PROGRAM (R105, R106, Table 3-21): what each core of the band holds while a program is broadcast and once it is loaded. -/
namespace Sys2Proof.LaunchTree

open Sys2Proof.Machine Sys2Proof.Claims Sys2Proof.TempoPorts Sys2Proof.ReleaseTree Sys2Proof.Places

/-! ### Logical places have cores of their own -/

theorem logicalOf_of_physOf {s : State} {n k : Nat} (h : s.physOf n = some k) : s.logicalOf k = some n := by
  by_cases hw : s.dieHole (n / 2048) = 15
  · rw [physOf_of_short hw] at h
    cases h
  · rw [physOf_of_whole hw, Option.some.injEq] at h
    rw [← h, logicalOf_placeCore s _ (Nat.mod_lt _ (by decide)) (Nat.mod_lt _ (by decide)) (Nat.mod_lt _ (by decide)) hw, logicalIndex_parts]

theorem physOf_injective {s : State} {n l k : Nat} (h : s.physOf n = some k) (h' : s.physOf l = some k) : n = l := by
  have := (logicalOf_of_physOf h).symm.trans (logicalOf_of_physOf h')
  exact Option.some.inj this

/-! ### Changes of cores and their memory -/

/-- Two states that differ in cores and their memory. -/
def CoresOnly (s t : State) : Prop := ∃ c m, t = { s with cores := c, mem := m }

theorem CoresOnly.refl (s : State) : CoresOnly s s := ⟨_, _, rfl⟩
theorem CoresOnly.trans {s t u : State} : CoresOnly s t → CoresOnly t u → CoresOnly s u := by
  rintro ⟨_, _, rfl⟩ ⟨c, m, rfl⟩
  exact ⟨c, m, rfl⟩

theorem CoresOnly.physOf {s t : State} (h : CoresOnly s t) (n : Nat) : t.physOf n = s.physOf n := by
  obtain ⟨_, _, rfl⟩ := h
  rfl
theorem CoresOnly.part {s t : State} (h : CoresOnly s t) (p : Nat) : t.part p = s.part p := by
  obtain ⟨_, _, rfl⟩ := h
  rfl
theorem CoresOnly.hostMem {s t : State} (h : CoresOnly s t) : t.hostMem = s.hostMem := by
  obtain ⟨_, _, rfl⟩ := h
  rfl

/-! ### Blank sites -/

/-- STATE of a site that has lost its program. -/
def blankSt (st : BitVec 4) : BitVec 4 := if st = 7 ∨ st = 0 then st else 1

theorem blankSt_blankSt (st : BitVec 4) : blankSt (blankSt st) = blankSt st := by
  by_cases h : st = 7 ∨ st = 0
  · have hs : blankSt st = st := if_pos h
    rw [hs, hs]
  · have hs : blankSt st = 1 := if_neg h
    rw [hs]
    rfl

/-- A site that is on, or waits for its power, is loaded alike whether or not it was blanked before. -/
theorem loadedSt_blankSt (st : BitVec 4) : (if blankSt st = 7 then 7 else 2 : BitVec 4) = if st = 7 then 7 else 2 := by
  revert st
  decide

theorem coresOnly_blankCore (s : State) (k : Nat) : CoresOnly s (s.blankCore k) := ⟨_, _, rfl⟩

theorem core_blankCore_ne {s : State} {j k : Nat} (h : j ≠ k) : (s.blankCore k).core j = s.core j := by
  rw [State.blankCore, State.core_modCore_ne _ _ h, State.spadZero]
  exact State.core_modCore_ne { s with mem := _ } _ h

theorem core_blankCore (s : State) (k : Nat) : ((s.blankCore k).core k).istore = [] ∧ ((s.blankCore k).core k).st = blankSt (s.core k).st ∧
    ((s.blankCore k).core k).fault = Exc.none ∧ ((s.blankCore k).core k).active = Tile.empty ∧ ((s.blankCore k).core k).shadow = Tile.empty := by
  have hst : ((s.spadZero k).core k).st = (s.core k).st := by
    rw [State.spadZero, State.core_modCore]
    rfl
  rw [State.blankCore, State.core_modCore]
  exact ⟨rfl, by rw [← hst]; rfl, rfl, rfl, rfl⟩

theorem coresOnly_blanked (ks : List Nat) (s : State) : CoresOnly s (ks.foldl (fun t k => t.blankCore k) s) :=
  foldl_rel CoresOnly.refl CoresOnly.trans coresOnly_blankCore ks s

/-- Every site of a list is blank once each has been blanked, the others are as they were. -/
theorem core_blanked (k : Nat) (ks : List Nat) (s : State) :
    (k ∈ ks → ((ks.foldl (fun t k => t.blankCore k) s).core k).istore = [] ∧
      ((ks.foldl (fun t k => t.blankCore k) s).core k).st = blankSt (s.core k).st) ∧
    (k ∉ ks → (ks.foldl (fun t k => t.blankCore k) s).core k = s.core k) := by
  induction ks generalizing s with
  | nil => exact ⟨fun h => absurd h List.not_mem_nil, fun _ => rfl⟩
  | cons a ks ih =>
    obtain ⟨hin, hout⟩ := ih (s.blankCore a)
    rw [List.foldl_cons]
    refine ⟨fun h => ?_, fun h => ?_⟩
    · obtain ⟨hi, hs, -⟩ := core_blankCore s a
      by_cases hk : k ∈ ks
      · obtain ⟨hi', hs'⟩ := hin hk
        refine ⟨hi', hs'.trans ?_⟩
        by_cases ha : k = a
        · rw [ha, hs, blankSt_blankSt]
        · rw [core_blankCore_ne ha]
      · obtain rfl : k = a := (List.mem_cons.mp h).resolve_right hk
        rw [hout hk]
        exact ⟨hi, hs⟩
    · obtain ⟨ha, hk⟩ := not_or.mp (mt List.mem_cons.mpr h)
      rw [hout hk, core_blankCore_ne ha]

/-! ### Loaded sites -/

theorem coresOnly_foldl_mem {α : Type} (f : Mem → α → Mem) (l : List α) (s : State) :
    ∃ m, l.foldl (fun (t : State) e => { t with mem := f t.mem e }) s = { s with mem := m } :=
  foldl_rel (R := fun s t : State => ∃ m, t = { s with mem := m }) (fun _ => ⟨_, rfl⟩)
    (fun ⟨_, h⟩ ⟨m', h'⟩ => ⟨m', by rw [h', h]⟩) (fun _ _ => ⟨_, rfl⟩) l s

theorem coresOnly_loadCore (s : State) (k cls : Nat) (c : ClassRec) : CoresOnly s (s.loadCore k cls c) := by
  obtain ⟨m, h⟩ := coresOnly_foldl_mem (fun m (e : Nat × List Byte) => wrN m (spadAddr k e.1) e.2) c.data (s.blankCore k)
  rw [State.loadCore, h]
  exact ⟨_, _, rfl⟩

theorem core_loadCore_ne {s : State} {j k cls : Nat} {c : ClassRec} (hj : j ≠ k) : (s.loadCore k cls c).core j = s.core j := by
  obtain ⟨m, h⟩ := coresOnly_foldl_mem (fun m (e : Nat × List Byte) => wrN m (spadAddr k e.1) e.2) c.data (s.blankCore k)
  rw [State.loadCore, h, State.core_modCore_ne _ _ hj]
  exact core_blankCore_ne hj

/-- What a loaded core holds. -/
def Loaded (st : BitVec 4) (cls : Nat) (cr : ClassRec) (d : Core) : Prop :=
  d.st = (if st = 7 then 7 else 2) ∧ d.cls = BitVec.ofNat 12 cls ∧ d.pc = cr.entry ∧ d.istore = storeOf cr.bundles ∧ d.ended = false ∧
    d.fault = Exc.none ∧ d.active = Tile.empty ∧ d.shadow = Tile.empty

theorem loaded_loadCore (s : State) (k cls : Nat) (cr : ClassRec) : Loaded (s.core k).st cls cr ((s.loadCore k cls cr).core k) := by
  obtain ⟨m, h⟩ := coresOnly_foldl_mem (fun m (e : Nat × List Byte) => wrN m (spadAddr k e.1) e.2) cr.data (s.blankCore k)
  obtain ⟨-, hst, hfault, hact, hshadow⟩ := core_blankCore s k
  rw [State.loadCore, h, State.core_modCore]
  generalize s.blankCore k = b at *
  have hcore : State.core { b with mem := m } k = b.core k := rfl
  rw [hcore]
  refine ⟨?_, rfl, rfl, rfl, rfl, hfault, hact, hshadow⟩
  dsimp only
  rw [hst, loadedSt_blankSt]

/-- Loading one logical place of a program's class map. -/
def loadPlace (g : Program) (base : Nat) (t : State) (e : Nat × Nat) : State :=
  match t.physOf e.1, g.classes[e.2]? with
  | some k, some c => if base ≤ e.1 then t.loadCore k e.2 c else t
  | _, _ => t

theorem coresOnly_loadPlace (g : Program) (base : Nat) (t : State) (e : Nat × Nat) : CoresOnly t (loadPlace g base t e) := by
  unfold loadPlace
  split
  · split
    · exact coresOnly_loadCore ..
    · exact .refl t
  · exact .refl t

theorem coresOnly_loadPlaces (g : Program) (base : Nat) (es : List (Nat × Nat)) (t : State) : CoresOnly t (es.foldl (loadPlace g base) t) :=
  foldl_rel CoresOnly.refl CoresOnly.trans (coresOnly_loadPlace g base) es t

section places

variable {g : Program} {base n k : Nat}

/-- Loading another place leaves a place's core. -/
theorem core_loadPlace_ne {t : State} {e : Nat × Nat} (hk : t.physOf n = some k) (hn : e.1 ≠ n) : (loadPlace g base t e).core k = t.core k := by
  unfold loadPlace
  split
  · next j c hj _ =>
    have hne : k ≠ j := by
      rintro rfl
      exact hn (physOf_injective hj hk)
    split
    · exact core_loadCore_ne hne
    · rfl
  · rfl

theorem core_loadPlaces_ne {es : List (Nat × Nat)} (hes : ∀ e ∈ es, e.1 ≠ n) {t : State} (hk : t.physOf n = some k) :
    (es.foldl (loadPlace g base) t).core k = t.core k := by
  induction es generalizing t with
  | nil => rfl
  | cons e es ih =>
    rw [List.foldl_cons, ih (fun a ha => hes a (List.mem_cons_of_mem _ ha)) (((coresOnly_loadPlace g base t e).physOf n).trans hk)]
    exact core_loadPlace_ne hk (hes e (List.mem_cons_self ..))

/-- Of places that each occur once, every one has its class's record. -/
theorem loaded_loadPlaces {es : List (Nat × Nat)} (hes : (es.map (·.1)).Nodup) {cls : Nat} {cr : ClassRec} (hmem : (n, cls) ∈ es)
    (hcr : g.classes[cls]? = some cr) (hbase : base ≤ n) {t : State} (hk : t.physOf n = some k) :
    Loaded (t.core k).st cls cr ((es.foldl (loadPlace g base) t).core k) := by
  obtain ⟨pre, post, rfl⟩ := List.append_of_mem hmem
  rw [List.map_append, List.map_cons, List.nodup_append] at hes
  obtain ⟨-, hpost, hpre⟩ := hes
  have hpre' : ∀ e ∈ pre, e.1 ≠ n := fun e he => hpre e.1 (List.mem_map_of_mem he) n (List.mem_cons_self ..)
  have hpost' : ∀ e ∈ post, e.1 ≠ n := by
    intro e he heq
    have he' : e.1 ∈ post.map (·.1) := List.mem_map_of_mem he
    exact (List.nodup_cons.mp hpost).1 (heq ▸ he')
  have hphys := (coresOnly_loadPlaces g base pre t).physOf n
  have hsame := core_loadPlaces_ne (g := g) (base := base) hpre' hk
  rw [List.foldl_append, List.foldl_cons]
  generalize pre.foldl (loadPlace g base) t = u at *
  have hu : u.physOf n = some k := hphys.trans hk
  have hload : loadPlace g base u (n, cls) = u.loadCore k cls cr := by
    unfold loadPlace
    rw [hu, hcr]
    exact if_pos hbase
  rw [hload, core_loadPlaces_ne hpost' (((coresOnly_loadCore ..).physOf n).trans hu), ← hsame]
  exact loaded_loadCore u k cls cr

end places

end Sys2Proof.LaunchTree
end

section
/-! LOAD_PROGRAM's start and end, and the statement about programs and launches (O43). -/
namespace Sys2Proof.LaunchTree

open Sys2Proof.Machine Sys2Proof.Claims Sys2Proof.TempoPorts Sys2Proof.ReleaseTree Sys2Proof.Places

/-! ### The image's hall address -/

theorem leNat_lt (bs : List Byte) : leNat bs < 256 ^ bs.length := by
  induction bs with
  | nil => decide
  | cons b bs ih =>
    have := b.isLt
    rw [leNat, List.length_cons, Nat.pow_succ]
    omega

theorem u64_lt (c : Cmd) (o : Nat) : c.u64 o < 2 ^ 64 := by
  have h := leNat_lt ((c.desc.drop o).take 8)
  have hl : ((c.desc.drop o).take 8).length ≤ 8 := List.length_take_le ..
  have hp : 256 ^ ((c.desc.drop o).take 8).length ≤ 256 ^ 8 := Nat.pow_le_pow_right (by decide) hl
  exact (h.trans_le hp).trans_eq (by decide)

/-- The space of a command's hall address is its top four bits. -/
theorem space_u64 (c : Cmd) (o : Nat) : field (c.u64 o) 60 4 = c.u64 o / 2 ^ 60 := by
  have := u64_lt c o
  unfold field
  omega

section read

variable {s : State} {p h n : Nat} (hs : field h 60 4 = 1)
include hs

/-- An image in host memory is read as it stands there. -/
theorem readImage_host (hz : h / 2 ^ 57 % 8 = 0) : s.readImage p h n = .ok (rdN s.hostMem (h % 2 ^ 57) n) := by
  have hp : s.place (some p) h = .host (h % 2 ^ 57) := by
    unfold State.place
    dsimp only
    rw [if_neg (by simpa [field] using hz), if_pos hs]
  unfold State.readImage
  rw [hp]

/-- Host memory ends below 2^57. -/
theorem readImage_beyond (hz : h / 2 ^ 57 % 8 ≠ 0) : s.readImage p h n = .error (4, 0) := by
  have hp : s.place (some p) h = .bad := by
    unfold State.place
    dsimp only
    rw [if_pos (by simpa [field] using hz)]
  unfold State.readImage
  rw [hp]
  dsimp only
  rw [if_pos hs]

end read

/-! ### LOAD_PROGRAM starts -/

section load

variable {s : State} {r : Ref} {c : Cmd} (h : Starts s 3 r c)
include h

theorem loadProgram_invalid (hbad : (c.desc.drop 0x14).all (· == 0) = false ∨ 2 ≤ c.u64 8 / 2 ^ 60) :
    Ends (.loadProgram r) s r c 1 0 [] (fun u => u = s) := by
  refine ⟨s, congrArg _ (start_ends h ?_), rfl⟩
  dsimp only
  rw [space_u64]
  exact if_pos hbad

variable (hz : (c.desc.drop 0x14).all (· == 0) = true) (hsp : c.u64 8 / 2 ^ 60 < 2)
include hz hsp

omit h in
/-- The operands are good: no reserved bit, and the space of memory or of a host. -/
theorem loadProgram_operands : ¬ (c.zeroFrom 0x14 = false ∨ 2 ≤ field (c.u64 8) 60 4) := by
  rw [space_u64, show c.zeroFrom 0x14 = true from hz]
  simp only [Bool.true_eq_false, false_or]
  omega

theorem loadProgram_conflict (ha : s.admitted c.part 3 c.target = false) :
    Ends (.loadProgram r) s r c 2 (s.stateDetail c.part) [] (fun u => u = s) := by
  refine ⟨s, congrArg _ (start_ends h ?_), rfl⟩
  dsimp only
  rw [if_neg (loadProgram_operands hz hsp), if_pos ha]
  rfl

variable (ha : s.admitted c.part 3 c.target = true)
include ha

theorem loadProgram_unread {st d : Nat} (hr : s.readImage c.part (c.u64 8) (c.u32 0x10) = .error (st, d)) :
    Ends (.loadProgram r) s r c st d [] (fun u => u = s) := by
  refine ⟨s, congrArg _ (start_ends h ?_), rfl⟩
  dsimp only
  rw [if_neg (loadProgram_operands hz hsp), if_neg (by simp [ha]), hr]

variable {b : List Byte} (hr : s.readImage c.part (c.u64 8) (c.u32 0x10) = .ok b)
include hr

theorem loadProgram_refused {step : Nat} (hc : s.checkImage c.part (c.u32 0x10) b = .error step) :
    Ends (.loadProgram r) s r c 6 step [] (fun u => u = s.freshen) := by
  refine ⟨_, congrArg _ (start_ends h ?_), rfl⟩
  dsimp only
  rw [if_neg (loadProgram_operands hz hsp), if_neg (by simp [ha]), hr]
  dsimp only
  rw [hc]

theorem loadProgram_begins {g : Program} (hc : s.checkImage c.part (c.u32 0x10) b = .ok g) :
    Goes (.loadProgram r) s r c (fun u => u = (s.beginLoad c.part (c.u64 8) g).freshen) := by
  refine ⟨_, congrArg _ (start_runs h ?_), rfl⟩
  dsimp only
  rw [if_neg (loadProgram_operands hz hsp), if_neg (by simp [ha]), hr]
  dsimp only
  rw [hc]

end load

theorem part_modPart_freshen (s : State) (p : Nat) (f : Part → Part) : (s.modPart p f).freshen.part p = f (s.part p) :=
  State.part_modPart s p f

/-- While a program is broadcast every member core reads STATE 1 and holds no bundle. -/
theorem beginLoad_state (s : State) (p h : Nat) (g : Program) :
    let u := (s.beginLoad p h g).freshen
    (u.part p).prog = none ∧ (u.part p).loading = some ⟨g, h, (s.part p).dies.filter (fun d => (s.die d).fenced)⟩ ∧
      (u.part p).st = (s.part p).st ∧ u.hostMem = s.hostMem ∧
      ∀ k ∈ s.membersOf p, (u.core k).istore = [] ∧ (u.core k).st = (if (s.core k).st = 7 ∨ (s.core k).st = 0 then (s.core k).st else 1) := by
  intro u
  have honly := coresOnly_blanked (s.membersOf p) s
  have hpart : u.part p = { s.part p with prog := none, loading := some ⟨g, h, (s.part p).dies.filter (fun d => (s.die d).fenced)⟩ } := by
    refine (part_modPart_freshen ((s.membersOf p).foldl (fun t k => t.blankCore k) s) ..).trans ?_
    rw [honly.part]
  rw [hpart]
  exact ⟨rfl, rfl, rfl, honly.hostMem, fun k hk => (core_blanked k (s.membersOf p) s).1 hk⟩

/-! ### LOAD_PROGRAM ends -/

section finish

variable {s : State} {ring : Nat} {c : Cmd} {l : Loading} (hl : (s.part c.part).loading = some l)
include hl

/-- A band that is lost, or a write that fails, ends the load with no program. -/
theorem finishLoad_fails (h : s.bandLost c.part l = true ∨ Config.writeFails s.freeCtr = true) :
    ∃ u : State, s.finishLoad ring c = u.finish ring c.seq 6 6 [] ∧ (u.part c.part).loading = none ∧ (u.part c.part).prog = (s.part c.part).prog ∧
      ∀ k ∈ s.membersOf c.part, (u.core k).istore = [] := by
  have honly := coresOnly_blanked (s.membersOf c.part) s
  unfold State.finishLoad
  dsimp only
  rw [hl]
  dsimp only
  rw [if_pos (by simpa using h)]
  have hpart := part_modPart_freshen ((s.membersOf c.part).foldl (fun t k => t.blankCore k) s) c.part (fun q => { q with loading := none })
  rw [honly.part] at hpart
  refine ⟨_, rfl, (congrArg Part.loading hpart).trans rfl, (congrArg Part.prog hpart).trans rfl, fun k hk => ?_⟩
  exact ((core_blanked k (s.membersOf c.part) s).1 hk).1

theorem finishLoad_loads (hb : s.bandLost c.part l = false) (hw : Config.writeFails s.freeCtr = false) :
    s.finishLoad ring c = (s.loadImage c.part l.prog).freshen.finish ring c.seq 0 0 (leBytes 2 l.prog.classes.length) := by
  unfold State.finishLoad
  dsimp only
  rw [hl]
  dsimp only
  rw [if_neg (by simp [hb, hw])]

end finish

theorem loadImage_eq (s : State) (p : Nat) (g : Program) : s.loadImage p g =
    (((s.part p).logicals.zip g.cmap).foldl (loadPlace g (((s.part p).first - 1) * 2048)) s).modPart p
      (fun q => { q with prog := some g, progNew := true, loading := none }) := rfl

theorem nodup_logicals (q : Part) : q.logicals.Nodup := by
  unfold Part.logicals
  exact (List.nodup_range).map (fun a b h => by simpa using h)

theorem zip_fst_sublist {α β : Type} (l : List α) (m : List β) : ((l.zip m).map (·.1)).Sublist l := by
  induction l generalizing m with
  | nil => exact .slnil
  | cons a l ih =>
    cases m with
    | nil => exact List.nil_sublist _
    | cons b m => exact (ih m).cons_cons a

/-- The partition has the program, and each logical place's core its class's record. -/
theorem loadImage_state (s : State) (p : Nat) (g : Program) :
    let u := (s.loadImage p g).freshen
    (u.part p).prog = some g ∧ (u.part p).loading = none ∧ (u.part p).st = (s.part p).st ∧ u.hostMem = s.hostMem ∧
      ∀ i cls cr k, i < (s.part p).height * 2048 → g.cmap[i]? = some cls → g.classes[cls]? = some cr →
        s.physOf (((s.part p).first - 1) * 2048 + i) = some k → Loaded (s.core k).st cls cr (u.core k) := by
  intro u
  have honly := coresOnly_loadPlaces g (((s.part p).first - 1) * 2048) ((s.part p).logicals.zip g.cmap) s
  have hpart : u.part p = { s.part p with prog := some g, progNew := true, loading := none } := by
    refine (part_modPart_freshen (((s.part p).logicals.zip g.cmap).foldl (loadPlace g (((s.part p).first - 1) * 2048)) s) ..).trans ?_
    rw [honly.part]
  rw [hpart]
  refine ⟨rfl, rfl, rfl, honly.hostMem, fun i cls cr k hi hcls hcr hk => ?_⟩
  refine loaded_loadPlaces ((nodup_logicals _).sublist (zip_fst_sublist ..)) ?_ hcr (Nat.le_add_right ..) hk
  refine List.mem_of_getElem? (i := i) ?_
  simp [List.getElem?_zip_eq_some, Part.logicals, hi, hcls]

/-! ### The statement -/

/-- Settles O43, by a lemma for each outcome of LOAD_PROGRAM, LAUNCH and WAIT_MOVE, at their start and as they go on. -/
theorem launchesRunPrograms : Obligations.LaunchesRunPrograms := by
  unfold Obligations.LaunchesRunPrograms
  intro s r c p q same
  refine ⟨fun h => ?_, fun l hc hop hown hst hfin hl => ?_, fun h => ?_, fun h => waitMove_invalid h, fun h hm hp hz =>
    ⟨waitMove_conflict h hm hp hz, waitMove_runs h hm hp hz⟩, fun hc hop hown hst hfin => ?_, fun l hc hop hown hst hfin hl hring hseq => ?_⟩
  · intro b good
    have read (hg : good) : s.readImage c.part (c.u64 8) (c.u32 0x10) = .ok b := readImage_host ((space_u64 c 8).trans hg.2.1) hg.2.2.1
    refine ⟨loadProgram_invalid h, loadProgram_conflict h, fun step hg hk => ?_, fun hz hsp hb ha => ?_, fun g hg hk => ?_⟩
    · exact loadProgram_refused h hg.1 (by rw [hg.2.1]; decide) hg.2.2.2 (read hg) hk
    · exact loadProgram_unread h hz (by rw [hsp]; decide) ha (readImage_beyond ((space_u64 c 8).trans hsp) hb)
    · obtain ⟨u, hu, rfl⟩ := loadProgram_begins h hg.1 (by rw [hg.2.1]; decide) hg.2.2.2 (read hg) hk
      exact ⟨_, hu, beginLoad_state s p (c.u64 8) g⟩
  · have run := (commandFinishes_of_running hc hown hst hfin).1 hop
    intro fails
    have failing (h : s.bandLost p l = true ∨ Config.writeFails s.freeCtr = true) : fails := by
      obtain ⟨u, hu, hm⟩ := finishLoad_fails (ring := r.ring.val) hl h
      exact ⟨u, run.trans (congrArg _ hu), hm⟩
    refine ⟨fun hb => failing (.inl hb), fun hb => ?_⟩
    split
    · next hw => exact failing (.inr hw)
    · next hw =>
      refine ⟨_, run.trans (congrArg _ (finishLoad_loads hl hb (by simpa using hw))), ?_⟩
      exact loadImage_state s p l.prog
  · refine ⟨launch_invalid h, fun ho => launch_conflict h ho, fun ho ha hprog hroot haddr => ⟨fun f hf => ?_, fun hf hcas hpend => ?_,
      fun hf hcas hpend hr hm => ?_⟩⟩
    · exact ⟨_, launch_latent h ho ha hprog hroot haddr hf, launched_latent s r c f⟩
    · obtain ⟨⟨hmove, hst, hpr, hl⟩, hwait, hgo, -⟩ := openLaunch_launched (r := r) hcas hpend
      exact ⟨_, launch_opens h ho ha hprog hroot haddr hf, hmove, hst, hpr, ⟨_, hl, rfl, rfl, rfl, rfl, rfl, rfl⟩, hwait, hgo⟩
    · obtain ⟨⟨hmove, -⟩, -, -, hmax⟩ := openLaunch_launched (r := r) hcas hpend
      exact ⟨_, launch_opens h ho ha hprog hroot haddr hf, hmax hr hm, hmove⟩
  · have run := (commandFinishes_of_running hc hown hst hfin).2.2 hop
    have timeout := waitMoveTimeout_of_running hc hown hst hfin hop
    refine ⟨fun h0 hw => ?_, fun h => ?_, fun hw => ?_, fun hw h1 => ?_, fun hw h1 => ?_⟩
    · exact ⟨s, timeout.trans (congrArg _ (if_pos ⟨h0, hw⟩)), rfl⟩
    · refine timeout.trans (congrArg _ (if_neg ?_))
      rintro ⟨h0, hw⟩
      rcases h with h | h
      · omega
      · simp [h] at hw
    · exact ⟨s, run.trans (congrArg _ (if_pos hw)), rfl⟩
    · exact run.trans (congrArg _ ((if_neg (by simp [hw])).trans (if_pos h1)))
    · exact ⟨s, run.trans (congrArg _ ((if_neg (by simp [hw])).trans (if_neg h1))), rfl⟩
  · have run := (commandFinishes_of_running hc hown hst hfin).2.1 hop
    refine ⟨fun hcl h => ?_, fun hcl hb hr hpend hab hcas hm => ?_, fun hcl hs => ?_, fun hcl h8 hE hpos => ?_⟩
    · rw [run, finishLaunch_opens hl hring hseq hcl, openLaunch_waits hl (by tauto)]
    · obtain ⟨v, o, x, f, hrel, -, hruns⟩ := openLaunch_issues hl hb hcl hr hpend hab hm hcas
      refine ⟨_, run.trans (congrArg _ (finishLaunch_opens hl hring hseq hcl)), ?_, _, hrel, rfl, rfl⟩
      exact congrArg Prod.fst (hruns p)
    · exact ⟨s, run.trans (congrArg _ (finishLaunch_at_once hl hring hseq hcl hs)), rfl⟩
    · have fin := finishLaunch_finishes hl hring hseq hcl h8 hE hpos
      rw [launchSummary_eq] at fin
      exact ⟨_, run.trans (congrArg _ fin), rfl⟩

end Sys2Proof.LaunchTree
end

section
/-! Slot words (R77, R78, Tables 3-6 to 3-12): each operand format is read back from its bits below any header, and a slot's word gives
back its instruction. -/
namespace Sys2Proof.SlotWords

open BitVec

theorem getLsbD_append_low {n m i : Nat} (a : BitVec n) (b : BitVec m) (h : i < m) : (a ++ b).getLsbD i = b.getLsbD i := by
  simp [getLsbD_append, h]

theorem getLsbD_append_high {n m i : Nat} (a : BitVec n) (b : BitVec m) (h : m ≤ i) : (a ++ b).getLsbD i = a.getLsbD (i - m) := by
  simp [getLsbD_append, Nat.not_lt.mpr h]

/-! ### Operand formats (Table 3-7) -/

section formats
variable (h : BitVec 11)

@[simp] theorem readCR_bits (f : CR) : readCR (h ++ bitsCR f) = f := by
  simp (disch := decide) only [readCR, bitsCR, extractLsb'_append_eq_of_add_le, extractLsb'_append_eq_of_le]; simp
@[simp] theorem readCI_bits (f : CI) : readCI (h ++ bitsCI f) = f := by
  simp (disch := decide) only [readCI, bitsCI, extractLsb'_append_eq_of_add_le, extractLsb'_append_eq_of_le]; simp
@[simp] theorem readCS_bits (f : CS) : readCS (h ++ bitsCS f) = f := by
  simp (disch := decide) only [readCS, bitsCS, extractLsb'_append_eq_of_add_le, extractLsb'_append_eq_of_le]; simp
@[simp] theorem readCB_bits (f : CB) : readCB (h ++ bitsCB f) = f := by
  simp (disch := decide) only [readCB, bitsCB, extractLsb'_append_eq_of_add_le, extractLsb'_append_eq_of_le]; simp
@[simp] theorem readCU_bits (f : CU) : readCU (h ++ bitsCU f) = f := by
  simp (disch := decide) only [readCU, bitsCU, extractLsb'_append_eq_of_add_le, extractLsb'_append_eq_of_le]; simp
@[simp] theorem readCJ_bits (f : CJ) : readCJ (h ++ bitsCJ f) = f := by
  simp (disch := decide) only [readCJ, bitsCJ, extractLsb'_append_eq_of_add_le, extractLsb'_append_eq_of_le]; simp
@[simp] theorem readCP_bits (f : CP) : readCP (h ++ bitsCP f) = f := by
  simp (disch := decide) only [readCP, bitsCP, extractLsb'_append_eq_of_add_le, extractLsb'_append_eq_of_le]; simp
@[simp] theorem readCL_bits (f : CL) : readCL (h ++ bitsCL f) = f := by
  simp (disch := decide) only [readCL, bitsCL, extractLsb'_append_eq_of_add_le, extractLsb'_append_eq_of_le]; simp
@[simp] theorem readCC_bits (f : CC) : readCC (h ++ bitsCC f) = f := by
  simp (disch := decide) only [readCC, bitsCC, extractLsb'_append_eq_of_add_le, extractLsb'_append_eq_of_le]; simp
@[simp] theorem readCA_bits (f : CA) : readCA (h ++ bitsCA f) = f := by
  simp (disch := decide) only [readCA, bitsCA, extractLsb'_append_eq_of_add_le, extractLsb'_append_eq_of_le]; simp
@[simp] theorem readCH_bits (f : CH) : readCH (h ++ bitsCH f) = f := by
  simp (disch := decide) only [readCH, bitsCH, extractLsb'_append_eq_of_add_le, extractLsb'_append_eq_of_le]; simp
@[simp] theorem readCO_bits (f : CO) : readCO (h ++ bitsCO f) = f := by
  simp (disch := decide) only [readCO, bitsCO, extractLsb'_append_eq_of_add_le, extractLsb'_append_eq_of_le]; simp
@[simp] theorem readVR_bits (f : VR) : readVR (h ++ bitsVR f) = f := by
  simp (disch := decide) only [readVR, bitsVR, extractLsb'_append_eq_of_add_le, extractLsb'_append_eq_of_le]; simp
@[simp] theorem readVM_bits (f : VM) : readVM (h ++ bitsVM f) = f := by
  simp (disch := decide) only [readVM, bitsVM, extractLsb'_append_eq_of_add_le, extractLsb'_append_eq_of_le]; simp
@[simp] theorem readVX_bits (f : VX) : readVX (h ++ bitsVX f) = f := by
  simp (disch := decide) only [readVX, bitsVX, extractLsb'_append_eq_of_add_le, extractLsb'_append_eq_of_le]; simp
@[simp] theorem readVC_bits (f : VC) : readVC (h ++ bitsVC f) = f := by
  simp (disch := decide) only [readVC, bitsVC, extractLsb'_append_eq_of_add_le, extractLsb'_append_eq_of_le]; simp
@[simp] theorem readVV_bits (f : VV) : readVV (h ++ bitsVV f) = f := by
  simp (disch := decide) only [readVV, bitsVV, extractLsb'_append_eq_of_add_le, extractLsb'_append_eq_of_le]; simp
@[simp] theorem readVS_bits (f : VS) : readVS (h ++ bitsVS f) = f := by
  simp (disch := decide) only [readVS, bitsVS, extractLsb'_append_eq_of_add_le, extractLsb'_append_eq_of_le]; simp
@[simp] theorem readMM_bits (f : MM) : readMM (h ++ bitsMM f) = f := by
  simp (disch := decide) only [readMM, bitsMM, extractLsb'_append_eq_of_add_le, extractLsb'_append_eq_of_le, getLsbD_append_low, getLsbD_append_high]; simp
@[simp] theorem readML_bits (f : ML) : readML (h ++ bitsML f) = f := by
  simp (disch := decide) only [readML, bitsML, extractLsb'_append_eq_of_add_le, extractLsb'_append_eq_of_le]; simp
@[simp] theorem readMO_bits (f : MO) : readMO (h ++ bitsMO f) = f := by
  simp (disch := decide) only [readMO, bitsMO, extractLsb'_append_eq_of_add_le, extractLsb'_append_eq_of_le, getLsbD_append_low, getLsbD_append_high]; simp
@[simp] theorem readMD_bits (f : MD) : readMD (h ++ bitsMD f) = f := by
  simp (disch := decide) only [readMD, bitsMD, extractLsb'_append_eq_of_add_le, extractLsb'_append_eq_of_le, getLsbD_append_low, getLsbD_append_high]; simp
@[simp] theorem readMW_bits (f : MW) : readMW (h ++ bitsMW f) = f := by
  simp (disch := decide) only [readMW, bitsMW, extractLsb'_append_eq_of_add_le, extractLsb'_append_eq_of_le, getLsbD_append_low, getLsbD_append_high]; simp
@[simp] theorem readXP_bits (f : XP) : readXP (h ++ bitsXP f) = f := by
  simp (disch := decide) only [readXP, bitsXP, extractLsb'_append_eq_of_add_le, extractLsb'_append_eq_of_le]; simp
@[simp] theorem readXC_bits (f : XC) : readXC (h ++ bitsXC f) = f := by
  simp (disch := decide) only [readXC, bitsXC, extractLsb'_append_eq_of_add_le, extractLsb'_append_eq_of_le]; simp
@[simp] theorem readXT_bits (f : XT) : readXT (h ++ bitsXT f) = f := by
  simp (disch := decide) only [readXT, bitsXT, extractLsb'_append_eq_of_add_le, extractLsb'_append_eq_of_le]; simp
@[simp] theorem readXH_bits (f : XH) : readXH (h ++ bitsXH f) = f := by
  simp (disch := decide) only [readXH, bitsXH, extractLsb'_append_eq_of_add_le, extractLsb'_append_eq_of_le]; simp

end formats

/-! ### Headers (Table 3-6) -/

/-- The 11 bits above the operands of a slot's word. -/
def header (i : SlotInst) : BitVec 11 := i.op.code ++ BitVec.ofBool i.pn ++ i.pred

theorem wordOf_eq (i : SlotInst) : wordOf i = header i ++ i.op.bits := rfl

theorem wordOf_code (i : SlotInst) : (wordOf i).extractLsb' 25 7 = i.op.code := by
  simp (disch := decide) only [wordOf, extractLsb'_append_eq_of_le]; simp

theorem wordOf_pn (i : SlotInst) : (wordOf i).getLsbD 24 = i.pn := by
  simp (disch := decide) only [wordOf, getLsbD_append_low, getLsbD_append_high]; simp

theorem wordOf_pred (i : SlotInst) : (wordOf i).extractLsb' 21 3 = i.pred := by
  simp (disch := decide) only [wordOf, extractLsb'_append_eq_of_le, extractLsb'_append_eq_of_add_le]; simp

/-! ### Instructions (Tables 3-8 to 3-12) -/

/-- What a slot decodes from an OP code and a word. -/
def decodeOp (sl : Slot) (op : BitVec 7) (w : W32) : SlotOp :=
  match sl with
  | .c => decodeC op w
  | .v => decodeV op w
  | .m => decodeM op w
  | .x => decodeX op w

theorem decodeSlot_eq (sl : Slot) (w : W32) :
    decodeSlot sl w = ⟨decodeOp sl (w.extractLsb' 25 7) w, w.getLsbD 24, w.extractLsb' 21 3⟩ := by
  cases sl <;> rfl

/-- An instruction of a slot is read back from its OP code and its operand bits, whatever the header. -/
theorem decodeOp_code {sl : Slot} {o : SlotOp} (h : BitVec 11) (ho : o.slot = some sl ∨ o = .nop ∨ o = .trap) :
    decodeOp sl o.code (h ++ o.bits) = o := by
  rcases ho with ho | rfl | rfl
  · cases o <;> cases ho <;> simp [decodeOp, decodeC, decodeV, decodeM, decodeX, SlotOp.code, SlotOp.bits]
  · cases sl <;> rfl
  · cases sl <;> rfl

/-- Settles O3: the header's fields are read back from the word, and below them the operands of the instruction's format. -/
theorem slotWordsDecodeToTheirInstruction : Obligations.SlotWordsDecodeToTheirInstruction := by
  unfold Obligations.SlotWordsDecodeToTheirInstruction
  intro sl i ho
  rw [decodeSlot_eq, wordOf_code, wordOf_pn, wordOf_pred, wordOf_eq, decodeOp_code _ ho]

end Sys2Proof.SlotWords
end

section
/-! The C slot (Table 3-8): what the command of one of its instructions does once the instruction's effect is known, and the compares that
PCMP and BRC share. -/
namespace Sys2Proof.CSlot

open Sys2Proof.Machine Sys2Proof.Claims

/-! ### A command of the C slot -/

section command
variable {s : State} {w : Issue} {op : SlotOp}

/-- An effect on the issuing core alone acts on what issuing leaves. -/
theorem issue_core (h : Fires s w .c op) (hs : op.slot = some .c) {g : Core → Core}
    (he : effC s w.core ⟨op, w.pn, w.pred⟩ = effCore w.core g) :
    issue w .c op s = .next ((issued s w .c op).modCore w.core g) := by
  rw [issue_c h.1 (.inl hs), he]; rfl

/-- An instruction without an effect of its own only lets its bundle issue. -/
theorem issue_none (h : Fires s w .c op) (hs : op.slot = some .c) (he : effC s w.core ⟨op, w.pn, w.pred⟩ = effNone) :
    issue w .c op s = .next (issued s w .c op) := by
  rw [issue_c h.1 (.inl hs), he]; rfl

/-- An instruction that raises an exception other than 0x05 changes nothing else. -/
theorem issue_raises (h : Fires s w .c op) (hs : op.slot = some .c) {e : Exc} (he : effC s w.core ⟨op, w.pn, w.pred⟩ = .error e)
    (hc : e.code ≠ 0x05) : issue w .c op s = .next (s.coreException w.core e) := by
  rw [issue_c h.1 (.inl hs), he]
  simp only [slotException, if_neg hc]

/-- A read that meets a poisoned row records it on the way (R164). -/
theorem issue_poisoned (h : Fires s w .c op) (hs : op.slot = some .c) {r : Nat}
    (he : effC s w.core ⟨op, w.pn, w.pred⟩ = .error (excEcc 0 r)) :
    issue w .c op s = .next ((s.modCore w.core (fun d => d.engineRead (readWords (s.core w.core) op))).coreException w.core
      ⟨0x05, 0, BitVec.ofNat 16 (r / 2048)⟩) := by
  rw [issue_c h.1 (.inl hs), he]; rfl

end command

/-! ### Compares of scalars (Table 3-8) -/

theorem allOnes_eq (b : Bool) : allOnes b = if b then BitVec.allOnes 64 else 0 := by cases b <;> rfl

section compares
variable (a b : W64)

theorem condX_eq : condX 0 a b = true ↔ a = b := by simp [condX]
theorem condX_ne : condX 1 a b = true ↔ a ≠ b := by simp [condX]
theorem condX_lt : condX 2 a b = true ↔ a.toInt < b.toInt := by simp [condX]
theorem condX_ge : condX 3 a b = true ↔ b.toInt ≤ a.toInt := by simp [condX]
theorem condX_ltu : condX 4 a b = true ↔ a.toNat < b.toNat := by simp [condX, BitVec.lt_def]
theorem condX_geu : condX 5 a b = true ↔ b.toNat ≤ a.toNat := by simp [condX, BitVec.le_def]

end compares

/-! ### Fixed registers and predicates (Table 3-3, R70) -/

/-- A write to a register other than x0 is read back and leaves the other registers. -/
theorem getX_setX_of_ne_zero (c : Core) {i : BitVec 5} (hi : i ≠ 0) (j : BitVec 5) (v : W64) :
    (c.setX i v).getX j = if j = i then v else c.getX j := by
  rw [Core.getX_setX]
  by_cases hj : j = 0
  · subst hj
    rw [if_pos rfl, if_neg (Ne.symm hi)]; rfl
  · rw [if_neg hj]

/-- A write to a register other than p0 is read back and leaves the other registers. -/
theorem getP_setP_of_ne_zero (c : Core) {i : BitVec 3} (hi : i ≠ 0) (j : BitVec 3) (v : W64) :
    (c.setP i v).getP j = if j = i then v else c.getP j := by
  rw [Core.getP_setP]
  by_cases hj : j = 0
  · subst hj
    rw [if_pos rfl, if_neg (Ne.symm hi)]; rfl
  · rw [if_neg hj]

/-- PLOG's function of two predicates. -/
def plogFn (fn : BitVec 2) (a b : W64) : W64 :=
  if fn = 0 then a &&& b else if fn = 1 then a ||| b else if fn = 2 then a ^^^ b else a &&& ~~~b

/-- Settles O4: the fixed registers by the rules of the register files, the predicate instructions by their effect on the core. -/
theorem predicatesAndFixedRegistersHold : Obligations.PredicatesAndFixedRegistersHold := by
  unfold Obligations.PredicatesAndFixedRegistersHold
  refine ⟨fun c v => ⟨rfl, rfl, rfl, rfl, fun i j hi => getX_setX_of_ne_zero c hi j v, fun i j hi => getP_setP_of_ne_zero c hi j v⟩,
    fun s w => ⟨fun f h => ?_, fun f => ⟨fun h => ?_, fun h => ?_, fun h => ?_⟩⟩⟩
  · refine ⟨condX f.cond ((s.core w.core).getX f.xs1) ((s.core w.core).getX f.xs2), ?_, fun e => ?_, fun e => ?_, fun e => ?_,
      fun e => ?_, fun e => ?_, fun e => ?_⟩
    · exact issue_core h rfl (by simp [effC, h.2, effPcmp, allOnes_eq])
    · rw [e]; exact condX_eq _ _
    · rw [e]; exact condX_ne _ _
    · rw [e]; exact condX_lt _ _
    · rw [e]; exact condX_ge _ _
    · rw [e]; exact condX_ltu _ _
    · rw [e]; exact condX_geu _ _
  · refine ⟨plogFn f.fn ((s.core w.core).getP f.pa) ((s.core w.core).getP f.pb), ?_, fun e => ?_, fun e => ?_, fun e => ?_, fun e => ?_⟩
    · exact issue_core h rfl (by simp [effC, h.2, effPlog, plogFn])
    all_goals simp [plogFn, e]
  · exact issue_core h rfl (by simp [effC, h.2, effPset])
  · exact issue_core h rfl (by simp [effC, h.2, effPget])

end Sys2Proof.CSlot
end

section
/-! The ALU and the immediate instructions (Tables 3-8 and 3-9): the value of each function, and the fields that decode accepts. -/
namespace Sys2Proof.CSlot

open Sys2Proof.Machine Sys2Proof.Claims

/-! ### Accepted fields (R452) -/

/-- An instruction whose encoding is accepted has no reserved bit set and no field that fails. -/
theorem fields_of_accepted {i : SlotInst} (h : encodingBad i = none) (hs : i.op.slot.isSome = true) :
    i.op.rsvBad = false ∧ i.op.fnBad = none ∧ i.op.fmtBad = none ∧ i.op.operandBad = none := by
  unfold encodingBad at h
  split at h
  · next e => simp [e, SlotOp.slot] at hs
  · next e => simp [e, SlotOp.slot] at hs
  · next e => simp [e, SlotOp.slot] at hs
  · split at h
    · cases h
    · split at h
      · cases h
      · next hr => simpa [hr, and_assoc] using h

/-! ### Counts of leading bits -/

/-- The length of the run of false bits at the front of n bits: within it every bit is false, and behind it, if anything stands there,
comes a true bit. -/
theorem falseRun_spec (n : Nat) (p : Nat → Bool) :
    let k := (((List.range n).map p).takeWhile (fun x => !x)).length
    k ≤ n ∧ (∀ i < k, p i = false) ∧ (k < n → p k = true) := by
  intro k
  have hlen := List.findIdx_le_length (xs := (List.range n).map p) (p := id)
  have hk : k = ((List.range n).map p).findIdx id := by
    simp only [k, List.takeWhile_eq_take_findIdx_not, Bool.not_not, List.length_take]
    exact Nat.min_eq_left hlen
  have hle : k ≤ n := by simpa [hk] using hlen
  refine ⟨hle, fun i hi => ?_, fun h => ?_⟩
  · have := List.not_of_lt_findIdx (hk ▸ hi)
    simpa using this
  · have := List.findIdx_getElem (xs := (List.range n).map p) (p := id) (w := by simpa [← hk] using h)
    simpa [← hk] using this

/-- The length of such a run of 64 bits as a register's value. -/
theorem falseRun_toNat (p : Nat → Bool) :
    (BitVec.ofNat 64 (((List.range 64).map p).takeWhile (fun x => !x)).length).toNat =
      (((List.range 64).map p).takeWhile (fun x => !x)).length := by
  have := (falseRun_spec 64 p).1
  rw [BitVec.toNat_ofNat, Nat.mod_eq_of_lt (by omega)]

/-! ### The functions of Table 3-9 -/

section functions
variable (a b : W64)

theorem aluFn_sll : (aluFn 0x05 a b).toNat = a.toNat * 2 ^ (b.toNat % 64) % 2 ^ 64 := by
  simp [aluFn, Nat.shiftLeft_eq]

theorem aluFn_srl : (aluFn 0x06 a b).toNat = a.toNat / 2 ^ (b.toNat % 64) := by
  simp [aluFn, Nat.shiftRight_eq_div_pow]

theorem aluFn_sra : (aluFn 0x07 a b).toInt = a.toInt / 2 ^ (b.toNat % 64) := by
  simp [aluFn, BitVec.toInt_sshiftRight, Int.shiftRight_eq_div_pow]

theorem aluFn_sltu : aluFn 0x09 a b = if a.toNat < b.toNat then 1 else 0 := rfl

theorem aluFn_min : (aluFn 0x0A a b).toInt = min a.toInt b.toInt := by
  simp only [aluFn]; split <;> omega

theorem aluFn_max : (aluFn 0x0B a b).toInt = max a.toInt b.toInt := by
  simp only [aluFn]; split <;> omega

theorem aluFn_minu : (aluFn 0x0C a b).toNat = min a.toNat b.toNat := by
  simp only [aluFn, BitVec.le_def]; split <;> omega

theorem aluFn_maxu : (aluFn 0x0D a b).toNat = max a.toNat b.toNat := by
  simp only [aluFn, BitVec.le_def]; split <;> omega

theorem aluFn_mulhu : (aluFn 0x0F a b).toNat = a.toNat * b.toNat / 2 ^ 64 := by
  have h : a.toNat * b.toNat < 2 ^ 64 * 2 ^ 64 := Nat.mul_lt_mul'' a.isLt b.isLt
  simp only [aluFn, BitVec.toNat_ofNat]
  exact Nat.mod_eq_of_lt (Nat.div_lt_of_lt_mul h)

theorem aluFn_mulh : (aluFn 0x10 a b).toInt = a.toInt * b.toInt / 2 ^ 64 := by
  have hab : |a.toInt * b.toInt| ≤ 2 ^ 63 * 2 ^ 63 := by
    rw [abs_mul]
    exact mul_le_mul (abs_le.mpr ⟨a.le_toInt, a.toInt_lt.le⟩) (abs_le.mpr ⟨b.le_toInt, b.toInt_lt.le⟩) (abs_nonneg _) (by decide)
  obtain ⟨hlo, hhi⟩ := abs_le.mp hab
  exact BitVec.toInt_ofInt_eq_self (w := 64) (n := a.toInt * b.toInt / (2 ^ 64 : Nat)) (by decide) (by omega) (by omega)

theorem aluFn_popcount : (aluFn 0x11 a b).toNat = ((List.range 64).filter (fun i => a.getLsbD i)).length := by
  have h := (List.range 64).length_filter_le (fun i => a.getLsbD i)
  rw [List.length_range] at h
  simp only [aluFn, BitVec.toNat_ofNat]
  exact Nat.mod_eq_of_lt (by omega)

theorem aluFn_clz : (aluFn 0x12 a b).toNat ≤ 64 ∧ (∀ i < (aluFn 0x12 a b).toNat, a.getLsbD (63 - i) = false) ∧
    ((aluFn 0x12 a b).toNat < 64 → a.getLsbD (63 - (aluFn 0x12 a b).toNat) = true) := by
  rw [show (aluFn 0x12 a b).toNat = _ from falseRun_toNat _]
  exact falseRun_spec 64 _

theorem aluFn_ctz : (aluFn 0x13 a b).toNat ≤ 64 ∧ (∀ i < (aluFn 0x13 a b).toNat, a.getLsbD i = false) ∧
    ((aluFn 0x13 a b).toNat < 64 → a.getLsbD (aluFn 0x13 a b).toNat = true) := by
  rw [show (aluFn 0x13 a b).toNat = _ from falseRun_toNat _]
  exact falseRun_spec 64 _

end functions

/-! ### Immediates (Table 3-8) -/

/-- A shift count that decode accepts is below 64, so its sign extension is itself modulo 64. -/
theorem shiftCount_of_accepted {imm : BitVec 11} (h : imm.toNat / 64 = 0) : (imm.signExtend 64).toNat % 64 = imm.toNat := by
  have hlt : imm.toNat < 64 := by omega
  rw [BitVec.signExtend_eq_setWidth_of_msb_false (by rw [BitVec.msb_eq_false_iff_two_mul_lt]; omega), BitVec.toNat_setWidth]
  omega

/-- Bit i of a register whose 16 bits from bit lo on are replaced. -/
theorem getLsbD_insert (old : W64) (imm : BitVec 16) (lo i : Nat) (hi : i < 64) :
    ((old &&& ~~~BitVec.ofNat 64 (0xFFFF * 2 ^ lo)) ||| BitVec.ofNat 64 (imm.toNat * 2 ^ lo)).getLsbD i =
      if lo ≤ i ∧ i < lo + 16 then imm.getLsbD (i - lo) else old.getLsbD i := by
  have hmask : Nat.testBit 0xFFFF (i - lo) = decide (i - lo < 16) := Nat.testBit_two_pow_sub_one 16 (i - lo)
  rw [Nat.mul_comm _ (2 ^ lo), Nat.mul_comm _ (2 ^ lo)]
  simp only [BitVec.getLsbD_or, BitVec.getLsbD_and, BitVec.getLsbD_not, BitVec.getLsbD_ofNat, Nat.testBit_two_pow_mul, hi, hmask,
    BitVec.testBit_toNat]
  by_cases h1 : lo ≤ i
  · by_cases h2 : i < lo + 16
    · simp [h1, h2, show i - lo < 16 by omega]
    · simp [h1, h2, show ¬ i - lo < 16 by omega, BitVec.getLsbD_of_ge imm (i - lo) (by omega)]
  · simp [h1]

section insert
variable (old : W64) (imm : BitVec 16)

theorem insert_at_16 : (old &&& ~~~BitVec.ofNat 64 (0xFFFF * 2 ^ 16)) ||| BitVec.ofNat 64 (imm.toNat * 2 ^ 16) =
    old.extractLsb' 32 32 ++ imm ++ old.extractLsb' 0 16 := by
  refine BitVec.eq_of_getLsbD_eq fun i hi => ?_
  rw [getLsbD_insert _ _ _ _ hi]
  simp only [BitVec.getLsbD_append, BitVec.getLsbD_extractLsb']
  grind

theorem insert_at_32 : (old &&& ~~~BitVec.ofNat 64 (0xFFFF * 2 ^ 32)) ||| BitVec.ofNat 64 (imm.toNat * 2 ^ 32) =
    old.extractLsb' 48 16 ++ imm ++ old.extractLsb' 0 32 := by
  refine BitVec.eq_of_getLsbD_eq fun i hi => ?_
  rw [getLsbD_insert _ _ _ _ hi]
  simp only [BitVec.getLsbD_append, BitVec.getLsbD_extractLsb']
  grind

theorem insert_at_48 : (old &&& ~~~BitVec.ofNat 64 (0xFFFF * 2 ^ 48)) ||| BitVec.ofNat 64 (imm.toNat * 2 ^ 48) =
    imm ++ old.extractLsb' 0 48 := by
  refine BitVec.eq_of_getLsbD_eq fun i hi => ?_
  rw [getLsbD_insert _ _ _ _ hi]
  simp only [BitVec.getLsbD_append, BitVec.getLsbD_extractLsb']
  grind

end insert

/-! ### The statement -/

/-- Settles O6: each instruction is one write of xd, by the function of Table 3-9 or of its immediate. -/
theorem arithmeticWritesItsFunction : Obligations.ArithmeticWritesItsFunction := by
  unfold Obligations.ArithmeticWritesItsFunction
  refine ⟨fun s w f h => ?_, fun s w => ?_⟩
  · intro a b n
    refine ⟨aluFn f.fn.toNat a b, issue_core h rfl (by simp [effC, h.2, effAlu, a, b]), ?_⟩
    refine ⟨?_, ?_, ?_, ?_, ?_, ?_, ?_, ?_, ?_, ?_, ?_, ?_, ?_, ?_, ?_, ?_, ?_, ?_, ?_, ?_⟩ <;> intro e <;> rw [e]
    · rfl
    · rfl
    · rfl
    · rfl
    · rfl
    · exact aluFn_sll a b
    · exact aluFn_srl a b
    · exact aluFn_sra a b
    · rfl
    · exact aluFn_sltu a b
    · exact aluFn_min a b
    · exact aluFn_max a b
    · exact aluFn_minu a b
    · exact aluFn_maxu a b
    · rfl
    · exact aluFn_mulhu a b
    · exact aluFn_mulh a b
    · exact aluFn_popcount a b
    · exact aluFn_clz a b
    · exact aluFn_ctz a b
  · intro wrote get
    have operand {op : SlotOp} (h : Fires s w .c op) (hs : op.slot = some .c) : op.operandBad = none :=
      (fields_of_accepted h.1.1.2.2.2 (by simp [hs])).2.2.2
    have count {op : SlotOp} {imm : BitVec 11} (h : Fires s w .c op) (hs : op.slot = some .c)
        (ho : op.operandBad = if imm.toNat / 64 ≠ 0 then some 0 else none) : (imm.signExtend 64).toNat % 64 = imm.toNat :=
      shiftCount_of_accepted (by simpa [ho] using operand h hs)
    refine ⟨fun f => ?_, fun f => ?_⟩
    · refine ⟨fun h => ?_, fun h => ?_, fun h => ?_, fun h => ?_, fun h => ?_, fun h => ?_, fun h => ?_, fun h => ?_⟩
      · exact issue_core h rfl (by simp [effC, h.2, effAddi, immOp, get])
      · exact issue_core h rfl (by simp [effC, h.2, effAndi, immOp, get])
      · exact issue_core h rfl (by simp [effC, h.2, effOri, immOp, get])
      · exact issue_core h rfl (by simp [effC, h.2, effXori, immOp, get])
      · exact issue_core h rfl (by simp [effC, h.2, effSlli, immOp, get, count h rfl rfl])
      · exact issue_core h rfl (by simp [effC, h.2, effSrli, immOp, get, count h rfl rfl])
      · exact issue_core h rfl (by simp [effC, h.2, effSrai, immOp, get, count h rfl rfl])
      · exact issue_core h rfl (by simp [effC, h.2, effClti, immOp, get, BitVec.toInt_signExtend_of_le])
    · refine ⟨fun h => ?_, fun h => ?_, fun h => ?_, fun h => ?_⟩
      · exact issue_core h rfl (by simp [effC, h.2, effLi])
      · exact issue_core h rfl (by simp only [effC, h.2, effInsh1, insh, insert_at_16]; rfl)
      · exact issue_core h rfl (by simp only [effC, h.2, effInsh2, insh, insert_at_32]; rfl)
      · exact issue_core h rfl (by simp only [effC, h.2, effInsh3, insh, insert_at_48]; rfl)

end Sys2Proof.CSlot
end

section
/-! Branches, jumps and hardware loops (R80): where each goes, and the loops that stay active. -/
namespace Sys2Proof.CSlot

open Sys2Proof.Machine Sys2Proof.Claims

/-! ### Branches -/

section branch
variable {s : State} {w : Issue} {op : SlotOp} {cond : BitVec 3} {f : CB}

/-- A branch whose compare holds goes to its target. -/
theorem branch_taken (h : Fires s w .c op) (hs : op.slot = some .c)
    (he : effC s w.core ⟨op, w.pn, w.pred⟩ = branchIf s w.core cond f)
    (hc : condX cond ((s.core w.core).getX f.xs1) ((s.core w.core).getX f.xs2) = true) :
    issue w .c op s = .next ((issued s w .c op).modCore w.core
      (fun d => d.goTo (s.core w.core).loops ((s.core w.core).pc + f.off.signExtend 13))) :=
  issue_core h hs (by rw [he, branchIf, if_pos hc]; rfl)

/-- A branch whose compare does not hold only issues. -/
theorem branch_not_taken (h : Fires s w .c op) (hs : op.slot = some .c)
    (he : effC s w.core ⟨op, w.pn, w.pred⟩ = branchIf s w.core cond f)
    (hc : ¬ condX cond ((s.core w.core).getX f.xs1) ((s.core w.core).getX f.xs2) = true) :
    issue w .c op s = .next (issued s w .c op) :=
  issue_none h hs (by rw [he, branchIf, if_neg hc])

end branch

/-! ### Hardware loops -/

/-- Passing a bundle without a taken branch never enters a loop. -/
theorem length_loopStep_le (pc : BitVec 13) (ls : List LoopRec) : (loopStep pc ls).2.length ≤ ls.length := by
  induction ls with
  | nil => simp [loopStep]
  | cons l ls ih =>
    unfold loopStep
    split
    · split
      · simp
      · exact ih.trans (Nat.le_succ _)
    · simp

section goNext
variable {c : Core} {l : LoopRec} {ls : List LoopRec}

theorem goNext_no_loops (h : c.loops = []) : c.goNext.pc = c.pc + 1 ∧ c.goNext.loops = [] := by
  simp [Core.goNext, h, loopStep]

/-- At the last bundle of a body an iteration left goes back to the first. -/
theorem goNext_iterates (h : c.loops = l :: ls) (hpc : c.pc = l.start + BitVec.ofNat 13 l.len - 1) (hl : 1 < l.left) :
    c.goNext.pc = l.start ∧ c.goNext.loops = { l with left := l.left - 1 } :: ls := by
  simp only [Core.goNext, h, loopStep, if_pos hpc, if_pos hl, and_self]

/-- The last iteration leaves the loop, and the loops around it see the same bundle. -/
theorem goNext_leaves (h : c.loops = l :: ls) (hpc : c.pc = l.start + BitVec.ofNat 13 l.len - 1) (hl : l.left ≤ 1) :
    c.goNext = ({ c with loops := ls } : Core).goNext := by
  simp only [Core.goNext, h, loopStep, if_pos hpc, if_neg (Nat.not_lt.mpr hl)]

theorem goNext_inside (h : c.loops = l :: ls) (hpc : c.pc ≠ l.start + BitVec.ofNat 13 l.len - 1) :
    c.goNext.pc = c.pc + 1 ∧ c.goNext.loops = c.loops := by
  simp only [Core.goNext, h, loopStep, if_neg hpc, and_self]

end goNext

section loop
variable {s : State} {w : Issue} {f : CO}

/-- The count of a LOOP as the statement reads it. -/
theorem loopCount_eq (x : W64) : (x.extractLsb' 0 32).toNat = x.toNat % 2 ^ 32 := by
  simp [BitVec.extractLsb'_toNat]

theorem loop_enters (h : Fires s w .c (.loop f)) (hn : 0 < ((s.core w.core).getX f.xs1).toNat % 2 ^ 32)
    (hl : (s.core w.core).loops.length < 4) :
    issue w .c (.loop f) s = .next ((issued s w .c (.loop f)).modCore w.core (fun d =>
      { d with
        pc := (s.core w.core).pc + 1
        loops := ⟨(s.core w.core).pc + 1, f.len.toNat, ((s.core w.core).getX f.xs1).toNat % 2 ^ 32⟩ :: (s.core w.core).loops })) :=
  issue_core h rfl (by simp only [effC, h.2, effLoop, loopCount_eq, if_neg hn.ne', if_neg (Nat.not_le.mpr hl)]; rfl)

theorem loop_too_deep (h : Fires s w .c (.loop f)) (hn : 0 < ((s.core w.core).getX f.xs1).toNat % 2 ^ 32)
    (hl : 4 ≤ (s.core w.core).loops.length) :
    issue w .c (.loop f) s = .next (s.coreException w.core ⟨0x0A, 0, 0⟩) :=
  issue_raises h rfl (e := ⟨0x0A, 0, 0⟩) (by simp only [effC, h.2, effLoop, loopCount_eq, if_neg hn.ne', if_pos hl]; rfl) (by decide)

/-- A count of zero skips the body: the bundle behind it is the next. -/
theorem loop_skips (h : Fires s w .c (.loop f)) (hn : ((s.core w.core).getX f.xs1).toNat % 2 ^ 32 = 0) :
    issue w .c (.loop f) s = .next ((issued s w .c (.loop f)).modCore w.core (fun d =>
      { d with
        pc := (loopStep ((s.core w.core).pc + f.len.zeroExtend 13) (s.core w.core).loops).1
        loops := (loopStep ((s.core w.core).pc + f.len.zeroExtend 13) (s.core w.core).loops).2 })) :=
  issue_core h rfl (by simp only [effC, h.2, effLoop, loopCount_eq, if_pos hn]; rfl)

end loop

/-! ### The statement -/

/-- Settles O8: branches by their compare, jumps by their target, loops by the rules of entering, skipping and passing a body. -/
theorem branchesAndLoopsSetTheProgramCounter : Obligations.BranchesAndLoopsSetTheProgramCounter := by
  unfold Obligations.BranchesAndLoopsSetTheProgramCounter
  refine ⟨fun s w => ?_, fun s w f h => ?_, fun c l ls h => ?_, fun c h => goNext_no_loops h⟩
  · intro c kept branches jumps
    have branch {f : CB} {op : SlotOp} {i : Instr} (cond : BitVec 3) {holds : W64 → W64 → Prop} (hi : exec i s = issue w .c op s)
        (hs : op.slot = some .c) (he : Fires s w .c op → effC s w.core ⟨op, w.pn, w.pred⟩ = branchIf s w.core cond f)
        (hc : ∀ a b, condX cond a b = true ↔ holds a b) : branches f op i holds := fun h =>
      ⟨fun hh => hi.trans (branch_taken h hs (he h) ((hc _ _).mpr hh)),
        fun hh => hi.trans (branch_not_taken h hs (he h) (mt (hc _ _).mp hh))⟩
    refine ⟨fun f => ⟨?_, ?_, ?_, ?_, ?_, ?_⟩, fun f h => ?_, fun f h => ?_⟩
    · exact branch 0 rfl rfl (fun h => by simp [effC, h.2, effBrcEq]) condX_eq
    · exact branch 1 rfl rfl (fun h => by simp [effC, h.2, effBrcNe]) condX_ne
    · exact branch 2 rfl rfl (fun h => by simp [effC, h.2, effBrcLt]) condX_lt
    · exact branch 3 rfl rfl (fun h => by simp [effC, h.2, effBrcGe]) condX_ge
    · exact branch 4 rfl rfl (fun h => by simp [effC, h.2, effBrcLtu]) condX_ltu
    · exact branch 5 rfl rfl (fun h => by simp [effC, h.2, effBrcGeu]) condX_geu
    · exact issue_core h rfl (by simp only [effC, h.2, effJ]; rfl)
    · exact issue_core h rfl (by simp only [effC, h.2, effJr]; rfl)
  · intro c n
    refine ⟨loop_enters h, loop_too_deep h, fun hn => ⟨_, loop_skips h hn, fun hl => ?_, ?_⟩⟩
    · simp [show (s.core w.core).loops = [] from hl, loopStep, c]
    · simpa using length_loopStep_le _ _
  · exact ⟨goNext_iterates h, goNext_leaves h, goNext_inside h⟩

end Sys2Proof.CSlot
end

section
/-! What issuing leaves (R67, R87, R158 to R161): the core after it, written out, and every other unit as it was. -/
namespace Sys2Proof.Issued

open Sys2Proof.Machine Sys2Proof.Claims

theorem setCore_setCore (s : State) (k : Nat) (c d : Core) : (s.setCore k d).setCore k c = s.setCore k c := by
  simp [State.setCore]

/-- A core at its next bundle that has taken n values of the stochastic counter, with another core's counters of cycles and collisions
and its waiting exceptions. -/
def counted (n : Nat) (c d : Core) : Core :=
  { c with
    pc := c.goNext.pc, loops := c.goNext.loops, cycle := d.cycle, mtxOps := d.mtxOps, mtxBubbles := d.mtxBubbles, owed := d.owed
    bankcol := d.bankcol, spdColl := d.spdColl, spdRbwait := d.spdRbwait, excPend := d.excPend
    srctr := c.srctr + BitVec.ofNat 64 n, fresh := false, hold := none }

/-- The core after issuing: beside its place in the program and the stochastic counter only counters of time and the waiting exceptions
differ. -/
def After (n : Nat) (c d : Core) : Prop := d = counted n c d

section issued
variable {s : State} {w : Issue} (h : (s.core w.core).st = 3) (sl : Slot) (op : SlotOp)

/-- Requests of one cycle that meet at a running core change its counters and its waiting exceptions alone. -/
theorem meet_of_running {k : Nat} (h : (s.core k).st = 3) (reqs : List (Nat × Nat)) (own : Bool) :
    s.meet k reqs own = s ∨ ∃ b o x y z, s.meet k reqs own = s.modCore k (fun c =>
      { c with bankcol := b, owed := o, spdColl := x, spdRbwait := y, excPend := z }) := by
  unfold State.meet
  split
  · exact .inl rfl
  · exact .inr (CoreTempo.collide_of_running h reqs own)

include h

/-- Issuing at a running core sets that core and takes a free value; every other unit is as it was. -/
theorem issued_eq : issued s w sl op = s.freshen.setCore w.core ((issued s w sl op).core w.core) := by
  unfold issued contended
  rw [State.core_modCore]
  rcases meet_of_running h (asks s w sl op) (!(slotAsks s w.core (bundleOf w sl op).m).isEmpty) with e | ⟨b, o, x, y, z, e⟩
  · rw [e]; rfl
  · rw [e]
    exact setCore_setCore s.freshen w.core _ _

/-- The core after issuing. -/
theorem issued_after : After (bitN (takesCtr (s.core w.core) w op)) (s.core w.core) ((issued s w sl op).core w.core) := by
  unfold issued contended
  rw [State.core_modCore, State.freshen_core_at]
  rcases meet_of_running h (asks s w sl op) (!(slotAsks s w.core (bundleOf w sl op).m).isEmpty) with e | ⟨b, o, x, y, z, e⟩
  · rw [e]
    simp only [After, counted, Core.goNext, Core.passCycles, Core.arrayCycles, h, true_or, if_true]
  · rw [e, State.core_modCore]
    simp only [After, counted, Core.goNext, Core.passCycles, Core.arrayCycles, h, true_or, if_true]

@[simp] theorem issued_mem : (issued s w sl op).mem = s.mem := by
  rw [issued_eq h]; rfl
@[simp] theorem issued_hostMem : (issued s w sl op).hostMem = s.hostMem := by
  rw [issued_eq h]; rfl
@[simp] theorem issued_regs : (issued s w sl op).regs = s.regs := by
  rw [issued_eq h]; rfl

theorem issued_core_ne {j : Nat} (hj : j ≠ w.core.val) : (issued s w sl op).core j = s.core j := by
  rw [issued_eq h, State.core_setCore_ne _ _ hj]; rfl

end issued

/-! ### Registers and queues after issuing -/

namespace After
variable {n : Nat} {c d : Core} (h : After n c d)
include h

/-- What a function of the core gives after issuing, read off the core before. -/
theorem field {α : Type} (g : Core → α) {v : α} (hv : g (counted n c d) = v) : g d = v := (congrArg g h).trans hv

theorem getX (i : BitVec 5) : d.getX i = c.getX i := h.field (Core.getX · i) rfl
theorem getP (i : BitVec 3) : d.getP i = c.getP i := h.field (Core.getP · i) rfl
theorem getV (i : BitVec 5) : d.getV i = c.getV i := h.field (Core.getV · i) rfl
theorem getA (i : BitVec 4) : d.getA i = c.getA i := h.field (Core.getA · i) rfl
theorem getC (i : BitVec 4) : d.getC i = c.getC i := h.field (Core.getC · i) rfl
theorem st_eq : d.st = c.st := h.field Core.st rfl
theorem pc_eq : d.pc = c.goNext.pc := h.field Core.pc rfl
theorem a_eq : d.a = c.a := h.field Core.a rfl

end After

/-- Issuing leaves every file where no stochastic value is taken. -/
theorem After.sameFiles {c d : Core} (h : After 0 c d) : SameFiles c d :=
  ⟨h.field Core.x rfl, h.field Core.p rfl, h.field Core.v rfl, h.field Core.c rfl, h.field Core.fflags rfl, h.field Core.rmode rfl,
    h.field Core.srseed rfl, h.field Core.srctr (BitVec.add_zero _), h.field Core.acc rfl, h.field Core.cell rfl, h.field Core.queue rfl,
    h.field Core.active rfl, h.field Core.shadow rfl, h.field Core.mode rfl, h.field Core.w rfl, h.field Core.copies rfl,
    h.field Core.claim rfl, h.field Core.arrOut rfl⟩

/-- A write of an x register changes the x registers alone. -/
theorem setX_eq (c : Core) (i : BitVec 5) (v : W64) : c.setX i v = { c with x := (c.setX i v).x } := by
  unfold Core.setX; split <;> rfl

@[simp] theorem setX_arrHeld (c : Core) (i : BitVec 5) (v : W64) : (c.setX i v).arrHeld = c.arrHeld := by rw [setX_eq]

/-! ### Slots read before they write (R87) -/

theorem slotsClash_arr_right (g : XT) (o : SlotOp) : slotsClash o (.arr g) = false := by simp [slotsClash, SlotOp.dests, SlotOp.ags]

/-- A bundle with an ADDI and an ARR between two NOPs is legal. -/
theorem addi_arr_legal {b : Bundle} {f : CI} {g : XT} (hc : b.c.op = .addi f) (hv : b.v.op = .nop) (hm : b.m.op = .nop)
    (hx : b.x.op = .arr g) : illegalMask b = 0 := by
  simp [illegalMask, hc, hv, hm, hx, slotsClash_nop_right, slotsClash_arr_right, SlotOp.cPort]

/-- The arrival's effect and then the sum's, on what issuing leaves: both operands are read off the state before the bundle. -/
theorem addi_arr_issues {s : State} {w : Issue} {f : CI} {g : XT} {pn : Bool} {pr : BitVec 3}
    (hx : (bundleOf w .c (.addi f)).x = ⟨.arr g, pn, pr⟩) (hv : (bundleOf w .c (.addi f)).v.op = .nop)
    (hm : (bundleOf w .c (.addi f)).m.op = .nop) (hr : Ready s w.core) (hh : holdReason s w.core (bundleOf w .c (.addi f)) = none)
    (he : bundleEncodingBad (bundleOf w .c (.addi f)) = none) (hpc : (s.core w.core).predBit w.pn w.pred 0 = true)
    (hpx : (s.core w.core).predBit pn pr 0 = true) (hg : s.inGroup w.core g.g.toNat = true)
    (ha : (s.core w.core).arrOut.getLsbD g.g.toNat = false) :
    exec (.addi w f) s = .next (((issued s w .c (.addi f)).modCore w.core
      (CoreTempo.arrived ((s.core w.core).getX g.x) (s.core w.core).copySeq g.g false)).modCore w.core
        (fun d => d.setX f.xd ((s.core w.core).getX f.xs1 + f.imm.signExtend 64))) := by
  have hl : illegalMask (bundleOf w .c (.addi f)) = 0 := addi_arr_legal rfl hv hm (by rw [hx])
  have hu : ctrUsed (s.core w.core) (bundleOf w .c (.addi f)) = (0, 0) := by simp [ctrUsed, hv, hm, usesCtrV, bitN]
  have hX : effX s w.core (bundleOf w .c (.addi f)).x =
      effCore w.core (CoreTempo.arrived ((s.core w.core).getX g.x) (s.core w.core).copySeq g.g false) := by
    rw [hx, ← CoreTempo.arrival_taken hg ha]
    simp [effX, hpx, effArr]
  have hC : effC s w.core (bundleOf w .c (.addi f)).c =
      effCore w.core (fun d => d.setX f.xd ((s.core w.core).getX f.xs1 + f.imm.signExtend 64)) := by
    simp [effC, bundleOf, Bundle.put, hpc, effAddi, immOp]
  have hd : slotDenied s w.core (bundleAsks s w.core (bundleOf w .c (.addi f)) w.rivals) (bundleOf w .c (.addi f)).c 3 = false := by
    simp [slotDenied, slotAsks, bundleOf, Bundle.put, slotBanks]
  change Host.Outcome.next (issueBundle s w.core (bundleOf w .c (.addi f)) w.rivals) = _
  rw [issueBundle_ready hr hh he hl]
  unfold issueEffects
  simp only [hu, hC, hX, effV_nop _ _ _ hv, effM_nop _ _ _ _ _ hm, effCore, hd, slotDenied_nop _ _ _ _ _ hv, slotDenied_nop _ _ _ _ _ hm]
  rfl

/-- Settles O5: the core after issuing is written out by `issued_after`, and every slot's effect is read off the state before. -/
theorem issuingReadsFirstAndKeepsTheRest : Obligations.IssuingReadsFirstAndKeepsTheRest := by
  unfold Obligations.IssuingReadsFirstAndKeepsTheRest
  refine ⟨fun s w sl op hr => ?_, fun s w f g pn pr => ?_⟩
  · intro t c d
    have ha : After _ c d := issued_after hr.1 sl op
    have ht : t = _ := issued_eq hr.1 sl op
    refine ⟨ha.getX, ha.getP, ha.getV, ha.getA, ha.getC, ha.field Core.acc rfl, ha.field Core.cell rfl, ha.field Core.queue rfl,
      ha.field Core.active rfl, ha.field Core.shadow rfl, ha.field Core.fflags rfl, ha.field Core.rmode rfl, ha.field Core.srseed rfl,
      ha.st_eq.trans hr.1, ha.field Core.claim rfl, fun j hj => issued_core_ne hr.1 sl op hj, fun a => ?_, fun a => ?_,
      (congrArg State.pending ht).trans rfl, issued_regs hr.1 sl op, (congrArg State.parts ht).trans rfl,
      (congrArg State.events ht).trans rfl, (congrArg State.net ht).trans rfl⟩
    · rw [issued_mem hr.1]
    · rw [issued_hostMem hr.1]
  · intro c b hx hv hm hr hh he hpc hpx hxd hne hg hao
    have ha := issued_after hr.1 .c (.addi f)
    refine ⟨_, addi_arr_issues hx hv hm hr hh he hpc hpx hg hao, ?_, ?_⟩
    · simp [CSlot.getX_setX_of_ne_zero _ hne, c]
    · have hq : ((issued s w .c (.addi f)).core w.core).arrHeld = c.arrHeld := ha.field Core.arrHeld rfl
      simp [CoreTempo.arrived, hq, c]

end Sys2Proof.Issued
end

section
/-! Errors of scratchpad words (R162 to R164): reading and writing words changes the records of errors alone, and writing bytes changes
beside them only those bytes. -/
namespace Sys2Proof.Ecc

open Sys2Proof.Machine Sys2Proof.Claims Sys2Proof.Issued

/-- A core with another core's records of scratchpad errors. -/
def withErrors (c d : Core) : Core :=
  { c with
    eccfix := d.eccfix, poison := d.poison, spadCe := d.spadCe, spadUe := d.spadUe, spadWb := d.spadWb, spdEccCount := d.spdEccCount
    spdEccUe := d.spdEccUe, spdEccBank := d.spdEccBank, spdEccRow := d.spdEccRow, ueRows := d.ueRows }

/-- Two cores that differ in the records of scratchpad errors at most. -/
def ErrorsOnly (c d : Core) : Prop := d = withErrors c d

namespace ErrorsOnly
variable {c d e : Core}

theorem refl (c : Core) : ErrorsOnly c c := rfl

theorem trans (h : ErrorsOnly c d) (g : ErrorsOnly d e) : ErrorsOnly c e := by
  have hd : withErrors d e = withErrors (withErrors c d) e := congrArg (withErrors · e) h
  exact Eq.trans g hd

/-- What a function of the core gives that reads no record of errors. -/
theorem field {α : Type} (h : ErrorsOnly c d) (g : Core → α) {v : α} (hv : g (withErrors c d) = v) : g d = v := (congrArg g h).trans hv

theorem a_eq (h : ErrorsOnly c d) : d.a = c.a := h.field Core.a rfl
theorem pc_eq (h : ErrorsOnly c d) : d.pc = c.pc := h.field Core.pc rfl
theorem getX (h : ErrorsOnly c d) (i : BitVec 5) : d.getX i = c.getX i := h.field (Core.getX · i) rfl
theorem getV (h : ErrorsOnly c d) (i : BitVec 5) : d.getV i = c.getV i := h.field (Core.getV · i) rfl
theorem getA (h : ErrorsOnly c d) (i : BitVec 4) : d.getA i = c.getA i := h.field (Core.getA · i) rfl

theorem foldl {α : Type} {f : Core → α → Core} (hf : ∀ c a, ErrorsOnly c (f c a)) (l : List α) (c : Core) : ErrorsOnly c (l.foldl f c) := by
  induction l generalizing c with
  | nil => exact refl c
  | cons a l ih => exact (hf c a).trans (ih _)

theorem sameFiles (h : ErrorsOnly c d) : SameFiles c d :=
  ⟨h.field Core.x rfl, h.field Core.p rfl, h.field Core.v rfl, h.field Core.c rfl, h.field Core.fflags rfl, h.field Core.rmode rfl,
    h.field Core.srseed rfl, h.field Core.srctr rfl, h.field Core.acc rfl, h.field Core.cell rfl, h.field Core.queue rfl,
    h.field Core.active rfl, h.field Core.shadow rfl, h.field Core.mode rfl, h.field Core.w rfl, h.field Core.copies rfl,
    h.field Core.claim rfl, h.field Core.arrOut rfl⟩

end ErrorsOnly

/-! ### Reading and writing words -/

section words
variable (c : Core)

theorem errors_ceFound (w : Nat) (back : Bool) : ErrorsOnly c (c.ceFound w back) := rfl
theorem errors_ueFound (w : Nat) : ErrorsOnly c (c.ueFound w) := rfl
theorem errors_reported (rows : List Nat) : ErrorsOnly c (c.reported rows) := rfl
theorem errors_spadCe (l : List Nat) : ErrorsOnly c { c with spadCe := l } := rfl
theorem errors_spadUe (l : List Nat) : ErrorsOnly c { c with spadUe := l } := rfl
theorem errors_spadWb (l : List Nat) : ErrorsOnly c { c with spadWb := l } := rfl

theorem errors_eccRead (ws : List Nat) : ErrorsOnly c (c.eccRead ws) :=
  ((ErrorsOnly.foldl (fun d w => errors_ceFound d w true) _ c).trans (errors_spadUe _ _)).trans
    (ErrorsOnly.foldl errors_ueFound _ _)

theorem errors_engineRead (ws : List Nat) : ErrorsOnly c (c.engineRead ws) := by
  unfold Core.engineRead
  split
  · exact (errors_eccRead c ws).trans rfl
  · exact errors_eccRead c ws

theorem errors_eccWrite (w : Nat) (whole : Bool) : ErrorsOnly c (c.eccWrite w whole) := by
  unfold Core.eccWrite
  split
  · rfl
  · extract_lets found c1 lost c2
    have h1 : ErrorsOnly c c1 := by
      unfold c1
      split
      · exact (errors_ceFound c w false).trans (errors_spadCe _ _)
      · exact .refl c
    have h2 : ErrorsOnly c1 c2 := by
      unfold c2
      split
      · exact ((errors_ueFound c1 w).trans (errors_reported _ _)).trans (errors_spadUe _ _)
      · exact .refl c1
    exact (h1.trans h2).trans (errors_spadWb _ _)

end words

/-! ### Writing bytes -/

section write
variable (s : State) (k off : Nat) (bs : List Byte)

@[simp] theorem spadWr_mem : (s.spadWr k off bs).mem = wrN s.mem (spadAddr k off) bs := rfl
@[simp] theorem spadWr_hostMem : (s.spadWr k off bs).hostMem = s.hostMem := rfl
@[simp] theorem spadWr_regs : (s.spadWr k off bs).regs = s.regs := rfl

theorem errors_spadWr : ErrorsOnly (s.core k) ((s.spadWr k off bs).core k) := by
  unfold State.spadWr
  rw [State.core_modCore]
  exact ErrorsOnly.foldl (fun d w => errors_eccWrite d w _) _ _

theorem spadWr_core_ne {j : Nat} (hj : j ≠ k) : (s.spadWr k off bs).core j = s.core j := by
  unfold State.spadWr
  rw [State.core_modCore_ne _ _ hj]
  rfl

end write

end Sys2Proof.Ecc
end

section
/-! Scalar loads and stores (R79, R161, R164): the address, the bytes that move, and an access that is not performed. -/
namespace Sys2Proof.CSlot

open Sys2Proof.Machine Sys2Proof.Claims Sys2Proof.Issued Sys2Proof.Ecc

/-! ### Addresses (R79) -/

section address
variable {base : W64} {imm : Int} {size : Nat}

theorem scalarAddr_of_nonneg (h : 0 ≤ (base.toNat : Int) + imm * size) : scalarAddr base imm size = ((base.toNat : Int) + imm * size).toNat := by
  simp only [scalarAddr, if_neg (Int.not_lt.mpr h)]

/-- A sum below zero stands as its 64 bits. -/
theorem scalarAddr_of_neg (h : (base.toNat : Int) + imm * size < 0) (hlo : -(2 ^ 32 : Int) ≤ imm * size) :
    (scalarAddr base imm size : Int) = (base.toNat : Int) + imm * size + 2 ^ 64 := by
  simp only [scalarAddr, if_pos h]
  omega

/-- An access is accepted where its address, not reduced, lies in the scratchpad and is aligned. -/
theorem scalarOk_iff (hlo : -(2 ^ 32 : Int) ≤ imm * size) :
    scalarOk (scalarAddr base imm size) size = true ↔
      0 ≤ (base.toNat : Int) + imm * size ∧ ((base.toNat : Int) + imm * size) % size = 0 ∧ (base.toNat : Int) + imm * size ≤ 0x1FFFFF := by
  simp only [scalarOk, Bool.and_eq_true, beq_iff_eq, decide_eq_true_eq]
  by_cases h : 0 ≤ (base.toNat : Int) + imm * size
  · rw [scalarAddr_of_nonneg h]
    obtain ⟨a, ha⟩ := Int.eq_ofNat_of_zero_le h
    rw [ha, Int.toNat_natCast]
    omega
  · have hn := scalarAddr_of_neg (Int.not_le.mp h) hlo
    omega

/-- DETAIL of an address error: the address over 64, of a sum below zero too. -/
theorem scalarAddr_detail (hlo : -(2 ^ 32 : Int) ≤ imm * size) :
    BitVec.ofNat 16 (scalarAddr base imm size / 64) = BitVec.ofInt 16 (((base.toNat : Int) + imm * size) / 64) := by
  apply BitVec.eq_of_toNat_eq
  rw [BitVec.toNat_ofNat, BitVec.toNat_ofInt]
  by_cases h : 0 ≤ (base.toNat : Int) + imm * size
  · rw [scalarAddr_of_nonneg h]
    omega
  · have hn := scalarAddr_of_neg (Int.not_le.mp h) hlo
    omega

end address

/-- A scaled immediate of 11 bits. -/
theorem imm_scaled_bound (imm : BitVec 11) {size : Nat} (h : size ≤ 8) : -(2 ^ 32 : Int) ≤ imm.toInt * size := by
  have hlo : -(1024 : Int) ≤ imm.toInt := imm.le_toInt
  have hs : (size : Int) ≤ 8 := by exact_mod_cast h
  nlinarith

/-- The bytes that a read of the C slot gives, or its exception. -/
theorem scalarLoad_of_good {s : State} {k a size : Nat} (h : scalarOk a size = true) (hb : (s.core k).badRow (wordsOf a size) = none) :
    scalarLoad s k a size = .ok (rdN s.mem (spadAddr k a) size) := by
  simp [scalarLoad, h, hb, State.spadRd]

theorem scalarLoad_of_poisoned {s : State} {k a size r : Nat} (h : scalarOk a size = true)
    (hb : (s.core k).badRow (wordsOf a size) = some r) : scalarLoad s k a size = .error (excEcc 0 r) := by
  simp [scalarLoad, h, hb]

theorem scalarLoad_of_bad {s : State} {k a size : Nat} (h : ¬ scalarOk a size = true) :
    scalarLoad s k a size = .error (excAddr 0 a) := by
  simp [scalarLoad, h]

/-! ### Loads -/

/-- The value that a load makes of its bytes. -/
def loadVal (sx : Bool) (n : Nat) : W64 := if sx then (BitVec.ofNat 32 n).signExtend 64 else BitVec.ofNat 64 n

/-- LD, LWS and LWZ: the three outcomes by the address and the rows read. -/
theorem load_spec {s : State} {w : Issue} {op : SlotOp} {f : CI} {size : Nat} {sx : Bool} (h : Fires s w .c op) (hs : op.slot = some .c)
    (hz : size ≤ 8) (he : effC s w.core ⟨op, w.pn, w.pred⟩ = loadX s w.core f size sx)
    (hr : readWords (s.core w.core) op = wordsOf (scalarAddr ((s.core w.core).getX f.xs1) f.imm.toInt size) size) :
    let c := s.core w.core
    let n : Int := (c.getX f.xs1).toNat + f.imm.toInt * size
    let a := n.toNat
    let good := 0 ≤ n ∧ n % size = 0 ∧ n ≤ 0x1FFFFF
    (good → c.badRow (wordsOf a size) = none →
      issue w .c op s = .next ((issued s w .c op).modCore w.core (fun d =>
        (d.engineRead (wordsOf a size)).setX f.xd (loadVal sx (leNat (rdN s.mem (spadAddr w.core a) size)))))) ∧
    (¬ good → issue w .c op s = .next (s.coreException w.core ⟨0x04, 0, BitVec.ofInt 16 (n / 64)⟩)) ∧
    (∀ r, good → c.badRow (wordsOf a size) = some r →
      issue w .c op s = .next ((s.modCore w.core (fun d => d.engineRead (wordsOf a size))).coreException w.core
        ⟨0x05, 0, BitVec.ofNat 16 (r / 2048)⟩)) := by
  intro c n a good
  have hlo := imm_scaled_bound f.imm hz
  have hok := scalarOk_iff (base := c.getX f.xs1) hlo
  have ha (hg : good) : scalarAddr (c.getX f.xs1) f.imm.toInt size = a := scalarAddr_of_nonneg hg.1
  refine ⟨fun hg hb => ?_, fun hg => ?_, fun r hg hb => ?_⟩
  · refine issue_core h hs ?_
    have hl := scalarLoad_of_good (s := s) (hok.mpr hg) (by rw [ha hg]; exact hb)
    rw [he, loadX, hl, ha hg]
    rfl
  · refine issue_raises h hs (e := ⟨0x04, 0, BitVec.ofInt 16 (n / 64)⟩) ?_ (show (0x04 : Byte) ≠ 0x05 by decide)
    have hl := scalarLoad_of_bad (s := s) (k := w.core) (mt hok.mp hg)
    rw [he, loadX, hl, ← scalarAddr_detail hlo]
    rfl
  · have hl := scalarLoad_of_poisoned (s := s) (hok.mpr hg) (by rw [ha hg]; exact hb)
    rw [issue_poisoned h hs (by rw [he, loadX, hl]), hr, ha hg]

/-! ### Stores -/

/-- The bytes of a value, one by one. -/
theorem leBytes_getElem? (n v j : Nat) (h : j < n) : (leBytes n v)[j]? = some (BitVec.ofNat 8 (v / 2 ^ (8 * j))) := by
  induction n generalizing v j with
  | zero => omega
  | succ n ih =>
    cases j with
    | zero => simp [leBytes]
    | succ j =>
      rw [leBytes, List.getElem?_cons_succ, ih _ _ (by omega), Nat.div_div_eq_div_mul, ← Nat.pow_add 2 8 (8 * j)]
      congr 4
      omega

@[simp] theorem leBytes_length (n v : Nat) : (leBytes n v).length = n := by
  induction n generalizing v with
  | zero => rfl
  | succ n ih => simp [leBytes, ih]

theorem leBytes_getElem_word {n j : Nat} (v : W64) (h : j < (leBytes n v.toNat).length) :
    (leBytes n v.toNat)[j] = v.extractLsb' (8 * j) 8 := by
  have := leBytes_getElem? n v.toNat j (by simpa using h)
  rw [List.getElem?_eq_getElem h, Option.some.injEq] at this
  rw [this, BitVec.extractLsb', Nat.shiftRight_eq_div_pow]

/-- Two cores whose files agree with those of a third between them. -/
theorem sameFiles_trans {c d e : Core} (h : SameFiles c d) (g : SameFiles d e) : SameFiles c e := by
  simp only [SameFiles] at *
  simp only [g, h, and_self]

theorem takesCtr_of_c (c : Core) (w : Issue) {op : SlotOp} (hs : op.slot = some .c) : takesCtr c w op = false := by
  cases op <;> simp_all [takesCtr, usesCtrV, SlotOp.slot]

/-- ST and SW: the two outcomes by the address. -/
theorem store_spec {s : State} {w : Issue} {op : SlotOp} {f : CS} {size : Nat} (h : Fires s w .c op) (hs : op.slot = some .c)
    (hz : size ≤ 8) (he : effC s w.core ⟨op, w.pn, w.pred⟩ = storeX s w.core f size) :
    let c := s.core w.core
    let n : Int := (c.getX f.xs1).toNat + f.imm.toInt * size
    let good := 0 ≤ n ∧ n % size = 0 ∧ n ≤ 0x1FFFFF
    let p := spadAddr w.core n.toNat
    (good → ∃ t, issue w .c op s = .next t ∧
      (∀ j < size, rd t.mem (p + j) = (c.getX f.xs2).extractLsb' (8 * j) 8) ∧
      (∀ q, (q < p ∨ p + size ≤ q) → rd t.mem q = rd s.mem q) ∧
      SameFiles c (t.core w.core) ∧ (t.core w.core).a = c.a ∧ (t.core w.core).pc = (c.goNext).pc ∧
      (∀ j, j ≠ w.core.val → t.core j = s.core j) ∧ t.hostMem = s.hostMem ∧ t.regs = s.regs) ∧
    (¬ good → issue w .c op s = .next (s.coreException w.core ⟨0x04, 0, BitVec.ofInt 16 (n / 64)⟩)) := by
  intro c n good p
  have hlo := imm_scaled_bound f.imm hz
  have hok := scalarOk_iff (base := c.getX f.xs1) hlo
  have hr : c.st = 3 := h.1.1.1.1
  have ht := takesCtr_of_c (s.core w.core) w hs
  refine ⟨fun hg => ?_, fun hg => ?_⟩
  · have ha : After 0 c ((issued s w .c op).core w.core) := by simpa [ht, bitN] using issued_after hr .c op
    have hw := errors_spadWr (issued s w .c op) w.core n.toNat (leBytes size (c.getX f.xs2).toNat)
    refine ⟨(issued s w .c op).spadWr w.core n.toNat (leBytes size (c.getX f.xs2).toNat), ?_, fun j hj => ?_, fun q hq => ?_, ?_, ?_, ?_,
      fun j hj => ?_, ?_, ?_⟩
    · rw [issue_c h.1 (.inl hs), he, storeX, if_pos (hok.mpr hg), scalarAddr_of_nonneg hg.1]
    · rw [spadWr_mem, issued_mem hr, rd_wrN _ _ _ _ (by simpa using hj), leBytes_getElem_word]
    · rw [spadWr_mem, issued_mem hr, rd_wrN_ne _ _ _ _ (by simpa using hq)]
    · exact sameFiles_trans ha.sameFiles hw.sameFiles
    · exact hw.a_eq.trans ha.a_eq
    · exact hw.pc_eq.trans ha.pc_eq
    · rw [spadWr_core_ne _ _ _ _ hj, issued_core_ne hr _ _ hj]
    · rw [spadWr_hostMem, issued_hostMem hr]
    · rw [spadWr_regs, issued_regs hr]
  · refine issue_raises h hs (e := ⟨0x04, 0, BitVec.ofInt 16 (n / 64)⟩) ?_ (show (0x04 : Byte) ≠ 0x05 by decide)
    rw [he, storeX, if_neg (mt hok.mp hg), ← scalarAddr_detail hlo]
    rfl

/-! ### An access that loses its bank in strict mode (R161) -/

/-- The effect of an access that is not performed is left out: the bundle only issues. -/
theorem issue_denied {s : State} {w : Issue} {op : SlotOp} (h : Passes s w .c op) (hs : op.slot = some .c) (hg : ¬ Granted s w .c op)
    {e : State → State} (he : effC s w.core ⟨op, w.pn, w.pred⟩ = .ok e) : issue w .c op s = .next (issued s w .c op) := by
  obtain ⟨hr, ha, hh, hn⟩ := h
  have hv : (bundleOf w .c op).v.op = .nop := ha .v (by decide)
  have hm : (bundleOf w .c op).m.op = .nop := ha .m (by decide)
  have hx : (bundleOf w .c op).x.op = .nop := ha .x (by decide)
  have hd : slotDenied s w.core (bundleAsks s w.core (bundleOf w .c op) w.rivals) (bundleOf w .c op).c 3 = true :=
    (Bool.not_eq_false _).mp hg
  have hl : illegalMask (bundleOf w .c op) = 0 := by
    cases op <;> simp_all [illegalMask, slotsClash_nop_right, SlotOp.slot, SlotOp.vPort, SlotOp.isSet]
  have hb : bundleEncodingBad (bundleOf w .c op) = none := by
    unfold bundleEncodingBad
    rw [show encodingBad (bundleOf w .c op).c = none from hn, encodingBad_nop _ hv, encodingBad_nop _ hm, encodingBad_nop _ hx]
  have ht := takesCtr_of_c (s.core w.core) w hs
  have hc : ctrUsed (s.core w.core) (bundleOf w .c op) = (0, 0) := by simp [ctrUsed, hv, hm, usesCtrV, bitN]
  change Host.Outcome.next (issueBundle s w.core (bundleOf w .c op) w.rivals) = _
  rw [issueBundle_ready hr hh hb hl]
  unfold issueEffects
  simp only [hc, show effC s w.core (bundleOf w .c op).c = .ok e from he, effV_nop _ _ _ hv, effM_nop _ _ _ _ _ hm, effX_nop _ _ _ hx, hd,
    slotDenied_nop _ _ _ _ _ hv, slotDenied_nop _ _ _ _ _ hm]
  simp only [issued, contended, asks, ht]
  rfl

/-- Where some engine loses a bank, a loser ranks highest. -/
theorem topLoser_isSome (cl : W64) {l : List (Nat × Nat)} (h : l ≠ []) : ∃ e, topLoser cl l = some e := by
  cases l with
  | nil => exact absurd rfl h
  | cons e es =>
    unfold topLoser
    split
    · exact ⟨_, rfl⟩
    · split <;> exact ⟨_, rfl⟩

/-- Requests among which an engine other than the rank bus loses raise 0x07 at a running core of a strict program. -/
theorem collide_strict {s : State} {k : Nat} {reqs : List (Nat × Nat)} {own : Bool} (hst : (s.core k).st = 3)
    (hl : s.strictLoses k reqs 3 = true) :
    ∃ e : Exc, e.code = 0x07 ∧ ((s.collide k reqs own).core k).excPend = (s.core k).excPend ++ [e] := by
  simp only [State.strictLoses, Bool.and_eq_true, List.any_eq_true, beq_iff_eq] at hl
  obtain ⟨hg, l, hmem, h3⟩ := hl
  obtain ⟨g, hp, hs⟩ : ∃ g, s.progOf k = some g ∧ g.strict = true := by
    cases hp : s.progOf k with
    | none => simp [hp] at hg
    | some g => exact ⟨g, rfl, by simpa [hp] using hg⟩
  obtain ⟨top, ht⟩ := topLoser_isSome (s.claimsOf k) (l := (cycleLosers (s.claimsOf k) reqs).filter (fun e => e.1 != 13))
    (List.ne_nil_of_mem (List.mem_filter.mpr ⟨hmem, by simp [h3]⟩))
  refine ⟨⟨0x07, 0xF, BitVec.ofNat 16 (top.2 + 16 * top.1)⟩, rfl, ?_⟩
  unfold State.collide
  simp only [hp, ht, hs, if_true]
  rw [CoreTempo.engineExc_of_running _ (by simpa using hst)]
  simp

theorem passCycles_excPend (c : Core) (n : Nat) (b : Bool) : (c.passCycles n b).excPend = c.excPend := by
  unfold Core.passCycles Core.arrayCycles
  dsimp only
  split <;> rfl

/-- After an access that lost its bank the exception waits. -/
theorem issued_denied_excPend {s : State} {w : Issue} {sl : Slot} {op : SlotOp} (hr : Ready s w.core)
    (hl : s.strictLoses w.core (asks s w sl op) 3 = true) :
    ((issued s w sl op).core w.core).excPend.map (·.code) = [0x07] := by
  have hne : (asks s w sl op).isEmpty = false := by
    cases ha : asks s w sl op with
    | nil => rw [ha] at hl; simp [State.strictLoses, cycleLosers, bankLosers] at hl
    | cons a as => rfl
  obtain ⟨e, he, hc⟩ := collide_strict (own := !(slotAsks s w.core (bundleOf w sl op).m).isEmpty) hr.1 hl
  have : ((issued s w sl op).core w.core).excPend = (s.core w.core).excPend ++ [e] := by
    rw [← hc]
    unfold issued contended State.meet
    rw [hne, State.core_modCore]
    exact passCycles_excPend _ _ _
  simp [this, hr.2.1, he]

/-- Settles O7: loads and stores by their address and the rows read, and the access that is not performed. -/
theorem scalarLoadsAndStoresMoveTheirBytes : Obligations.ScalarLoadsAndStoresMoveTheirBytes := by
  unfold Obligations.ScalarLoadsAndStoresMoveTheirBytes
  refine ⟨fun s w f => ?_, fun s w f => ?_, fun s w => ?_⟩
  · intro c loads
    refine ⟨?_, ?_, ?_⟩ <;> intro h
    · exact load_spec (sx := false) h rfl (by decide) (by simp [effC, h.2, effLd]) rfl
    · exact load_spec (sx := true) h rfl (by decide) (by simp [effC, h.2, effLws]) rfl
    · exact load_spec (sx := false) h rfl (by decide) (by simp [effC, h.2, effLwz]) rfl
  · intro c stores
    refine ⟨?_, ?_⟩ <;> intro h
    · exact store_spec h rfl (by decide) (by simp [effC, h.2, effSt])
    · exact store_spec h rfl (by decide) (by simp [effC, h.2, effSw])
  · intro c lost
    have loses {op : SlotOp} {i : Instr} {n : Int} {size : Nat} (hi : exec i s = issue w .c op s) (hs : op.slot = some .c)
        (he : (s.core w.core).predBit w.pn w.pred 0 = true → 0 ≤ n → n % size = 0 → n ≤ 0x1FFFFF → c.badRow (wordsOf n.toNat size) = none →
          ∃ e, effC s w.core ⟨op, w.pn, w.pred⟩ = .ok e) : lost op i n size := by
      intro hp hg hq h0 h1 h2 hb
      obtain ⟨e, he⟩ := he hq h0 h1 h2 hb
      have ha := issued_after hp.1.1 .c op
      have hl : s.strictLoses w.core (asks s w .c op) 3 = true := by
        have hd : slotDenied s w.core (asks s w .c op) ⟨op, w.pn, w.pred⟩ 3 = true := (Bool.not_eq_false _).mp hg
        exact (Bool.and_eq_true _ _ ▸ hd).2
      exact ⟨_, hi.trans (issue_denied hp hs hg he), rfl, issued_mem hp.1.1 _ _, ha.getX, issued_denied_excPend hp.1 hl⟩
    have load {f : CI} {size : Nat} (sx : Bool) (hz : size ≤ 8) (h0 : 0 ≤ ((c.getX f.xs1).toNat + f.imm.toInt * size : Int))
        (h1 : ((c.getX f.xs1).toNat + f.imm.toInt * size : Int) % size = 0) (h2 : ((c.getX f.xs1).toNat + f.imm.toInt * size : Int) ≤ 0x1FFFFF)
        (hb : c.badRow (wordsOf ((c.getX f.xs1).toNat + f.imm.toInt * size : Int).toNat size) = none) :
        ∃ e, loadX s w.core f size sx = .ok e := by
      have hl := scalarLoad_of_good (s := s) ((scalarOk_iff (imm_scaled_bound f.imm hz)).mpr ⟨h0, h1, h2⟩)
        (by rw [scalarAddr_of_nonneg h0]; exact hb)
      exact ⟨_, by rw [loadX, hl]; rfl⟩
    have store {f : CS} {size : Nat} (hz : size ≤ 8) (h0 : 0 ≤ ((c.getX f.xs1).toNat + f.imm.toInt * size : Int))
        (h1 : ((c.getX f.xs1).toNat + f.imm.toInt * size : Int) % size = 0) (h2 : ((c.getX f.xs1).toNat + f.imm.toInt * size : Int) ≤ 0x1FFFFF) :
        ∃ e, storeX s w.core f size = .ok e :=
      ⟨_, if_pos ((scalarOk_iff (imm_scaled_bound f.imm hz)).mpr ⟨h0, h1, h2⟩)⟩
    refine ⟨fun f => ⟨?_, ?_, ?_⟩, fun f => ⟨?_, ?_⟩⟩
    · exact loses rfl rfl (fun hq h0 h1 h2 hb => by simpa [effC, hq, effLd] using load false (by decide) h0 h1 h2 hb)
    · exact loses rfl rfl (fun hq h0 h1 h2 hb => by simpa [effC, hq, effLws] using load true (by decide) h0 h1 h2 hb)
    · exact loses rfl rfl (fun hq h0 h1 h2 hb => by simpa [effC, hq, effLwz] using load false (by decide) h0 h1 h2 hb)
    · exact loses rfl rfl (fun hq h0 h1 h2 _ => by simpa [effC, hq, effSt] using store (by decide) h0 h1 h2)
    · exact loses rfl rfl (fun hq h0 h1 h2 _ => by simpa [effC, hq, effSw] using store (by decide) h0 h1 h2)

end Sys2Proof.CSlot
end

section
/-! CSRs, address-generator instructions and hints (R69, R72, R73, R76, R92). -/
namespace Sys2Proof.CSlot

open Sys2Proof.Machine Sys2Proof.Claims Sys2Proof.Issued

/-! ### Bits side by side -/

theorem toNat_append_eq {n m : Nat} (a : BitVec n) (b : BitVec m) : (a ++ b).toNat = a.toNat * 2 ^ m + b.toNat := by
  rw [BitVec.toNat_append, ← Nat.shiftLeft_add_eq_or_of_lt b.isLt, Nat.shiftLeft_eq]

/-- DETAIL of an illegal instruction whose failing field is a CSR number. -/
theorem illDetail_csr (op : BitVec 7) (csr : BitVec 12) : illDetail op csr.toNat = csr.extractLsb' 0 8 ++ (op.zeroExtend 8) := by
  apply BitVec.eq_of_toNat_eq
  rw [toNat_append_eq]
  have := op.isLt
  simp only [illDetail, BitVec.toNat_ofNat, BitVec.extractLsb'_toNat, BitVec.toNat_setWidth, Nat.shiftRight_zero]
  omega

/-! ### CSRR and CSRW (R76, Table 3-5) -/

section csr
variable {s : State} {w : Issue} {f : CC}

theorem csrr_gives (h : Fires s w .c (.csrr f)) {v : W64} (hv : csrValue s w.core f.csr.toNat = some v) :
    issue w .c (.csrr f) s = .next ((issued s w .c (.csrr f)).modCore w.core (fun d => d.setX f.x v)) :=
  issue_core h rfl (by simp [effC, h.2, effCsrr, hv])

theorem csrr_ill (h : Fires s w .c (.csrr f)) (hv : csrValue s w.core f.csr.toNat = none) :
    issue w .c (.csrr f) s = .next (s.coreException w.core ⟨0x02, 0, f.csr.extractLsb' 0 8 ++ (0x28 : BitVec 8)⟩) := by
  rw [issue_raises h rfl (e := excIll 0 0x28 f.csr.toNat) (by simp [effC, h.2, effCsrr, hv]) (show (0x02 : Byte) ≠ 0x05 by decide),
    excIll, illDetail_csr]
  rfl

theorem csrw_puts (h : Fires s w .c (.csrw f)) {g : Core → Core} (hg : csrUpdate s f.csr.toNat ((s.core w.core).getX f.x) = some g) :
    issue w .c (.csrw f) s = .next ((issued s w .c (.csrw f)).modCore w.core g) :=
  issue_core h rfl (by simp [effC, h.2, effCsrw, hg])

theorem csrw_ill (h : Fires s w .c (.csrw f)) (hg : csrUpdate s f.csr.toNat ((s.core w.core).getX f.x) = none) :
    issue w .c (.csrw f) s = .next (s.coreException w.core ⟨0x02, 0, f.csr.extractLsb' 0 8 ++ (0x29 : BitVec 8)⟩) := by
  rw [issue_raises h rfl (e := excIll 0 0x29 f.csr.toNat) (by simp [effC, h.2, effCsrw, hg]) (show (0x02 : Byte) ≠ 0x05 by decide),
    excIll, illDetail_csr]
  rfl

/-- Numbers between and above those of Table 3-5 name no CSR. -/
theorem csrValue_unlisted (s : State) (k : Nat) {n : Nat} (h : 0x007 < n ∧ n < 0x010 ∨ 0x013 < n ∧ n < 0x020 ∨ 0x022 < n) :
    csrValue s k n = none := by
  unfold csrValue
  split
  case h_16 => rfl
  all_goals omega

/-- LCOORD by die rank, die file, core rank and core file. -/
theorem lcoord_eq (l : Nat) : lcoord l = l / 2048 * 4096 + l / 256 % 8 * 256 + l / 16 % 16 * 16 + l % 16 := by
  unfold lcoord
  omega

theorem ofNat_toNat_eq_extract (n : Nat) (x : W64) : BitVec.ofNat n x.toNat = x.extractLsb' 0 n := by
  simp [BitVec.extractLsb']

theorem csrUpdate_fflags (s : State) {x : W64} (h : x.toNat < 32) : csrUpdate s 0x010 x = some (fun d =>
    { d with fflags := x.extractLsb' 0 5, queue := d.queue.map (fun e => { e with mute := true }) }) := by
  simp only [csrUpdate, if_pos h, Core.writeFlags, ofNat_toNat_eq_extract]

theorem csrUpdate_rmode (s : State) {x : W64} (h : x.toNat < 4 ∨ (x.toNat = 4 ∧ s.licensed 7 = true)) :
    csrUpdate s 0x011 x = some (fun d => { d with rmode := x.extractLsb' 0 3 }) := by
  have hx : x.toNat < 4 ∨ (x = 4 ∧ s.licensed 7 = true) := by
    rcases h with h | ⟨h, hl⟩
    · exact .inl h
    · exact .inr ⟨BitVec.eq_of_toNat_eq h, hl⟩
  simp only [csrUpdate, if_pos hx, ofNat_toNat_eq_extract]

/-- A number that CSRW does not write, or a value that it does not take. -/
theorem csrUpdate_none (s : State) {n : Nat} {x : W64} (h : n < 0x010 ∨ 0x013 < n ∨ (n = 0x010 ∧ 32 ≤ x.toNat) ∨
    (n = 0x011 ∧ (4 < x.toNat ∨ (x.toNat = 4 ∧ s.licensed 7 = false)))) : csrUpdate s n x = none := by
  unfold csrUpdate
  split
  · exact if_neg (by omega)
  · refine if_neg ?_
    rintro (hx | ⟨rfl, hl⟩)
    · omega
    · rcases h with h | h | h | ⟨-, h | ⟨-, h⟩⟩
      · omega
      · omega
      · omega
      · simp at h
      · simp [hl] at h
  · omega
  · omega
  · rfl

end csr

/-! ### Address generators and hints (R72, R73, R92) -/

section generators
variable {s : State} {w : Issue} {f : CA}

theorem agldAddr_eq (x : W64) (imm : BitVec 12) : scalarAddr x imm.toNat 64 = x.toNat + imm.toNat * 64 := by
  rw [scalarAddr_of_nonneg (by positivity)]
  exact Int.toNat_natCast _

theorem agldOk_iff (a : Nat) : scalarOk a 64 = true ↔ a % 64 = 0 ∧ a ≤ 0x1FFFFF := by
  simp [scalarOk]

/-- AGLD takes a descriptor that passes the check, and raises 0x02 on any other. -/
theorem agld_reads (h : Fires s w .c (.agld f)) {a : Nat} (ha : a = ((s.core w.core).getX f.x).toNat + f.imm.toNat * 64)
    (h0 : a % 64 = 0) (h1 : a ≤ 0x1FFFFF) (hb : (s.core w.core).badRow (wordsOf a 64) = none) :
    let d := BitVec.ofNat 512 (leNat (rdN s.mem (spadAddr w.core a) 64))
    (AG.ok d = true → issue w .c (.agld f) s = .next ((issued s w .c (.agld f)).modCore w.core (fun e =>
      (e.engineRead (wordsOf a 64)).setA f.an ⟨d, 0, 0⟩))) ∧
    (AG.ok d = false → issue w .c (.agld f) s = .next (s.coreException w.core ⟨0x02, 0, 0x002C⟩)) := by
  intro d
  have hl : scalarLoad s w.core (scalarAddr ((s.core w.core).getX f.x) f.imm.toNat 64) 64 = .ok (rdN s.mem (spadAddr w.core a) 64) := by
    rw [agldAddr_eq, ← ha]
    exact scalarLoad_of_good ((agldOk_iff a).mpr ⟨h0, h1⟩) hb
  refine ⟨fun hd => issue_core h rfl ?_, fun hd => issue_raises h rfl (e := ⟨0x02, 0, 0x002C⟩) ?_ (show (0x02 : Byte) ≠ 0x05 by decide)⟩
  · simp only [effC, h.2, effAgld, hl]
    rw [agldAddr_eq, ← ha]
    exact if_pos hd
  · simp only [effC, h.2, effAgld, hl]
    exact if_neg (ne_true_of_eq_false hd)

theorem agld_poisoned (h : Fires s w .c (.agld f)) {a q : Nat} (ha : a = ((s.core w.core).getX f.x).toNat + f.imm.toNat * 64)
    (h0 : a % 64 = 0) (h1 : a ≤ 0x1FFFFF) (hb : (s.core w.core).badRow (wordsOf a 64) = some q) :
    issue w .c (.agld f) s = .next ((s.modCore w.core (fun e => e.engineRead (wordsOf a 64))).coreException w.core
      ⟨0x05, 0, BitVec.ofNat 16 (q / 2048)⟩) := by
  have haddr : scalarAddr ((s.core w.core).getX f.x) f.imm.toNat 64 = a := (agldAddr_eq _ _).trans ha.symm
  have hl := scalarLoad_of_poisoned (s := s) ((agldOk_iff a).mpr ⟨h0, h1⟩) hb
  rw [issue_poisoned h rfl (r := q) (by simp [effC, h.2, effAgld, haddr, hl]), readWords, haddr]

theorem agld_refused (h : Fires s w .c (.agld f)) {a : Nat} (ha : a = ((s.core w.core).getX f.x).toNat + f.imm.toNat * 64)
    (hbad : a % 64 ≠ 0 ∨ 0x1FFFFF < a) :
    issue w .c (.agld f) s = .next (s.coreException w.core ⟨0x04, 0, BitVec.ofNat 16 (a / 64)⟩) := by
  have haddr : scalarAddr ((s.core w.core).getX f.x) f.imm.toNat 64 = a := (agldAddr_eq _ _).trans ha.symm
  have hl := scalarLoad_of_bad (s := s) (k := w.core) (a := a) (size := 64) (mt (agldOk_iff a).mp (by omega))
  exact issue_raises h rfl (by simp [effC, h.2, effAgld, haddr, hl, excAddr]) (show (0x04 : Byte) ≠ 0x05 by decide)

/-- A word whose low part is replaced. -/
theorem replaceLow_toNat (a b : Nat) (d : BitVec (a + b)) (x : BitVec a) :
    (d.extractLsb' a b ++ x).toNat = d.toNat / 2 ^ a * 2 ^ a + x.toNat := by
  have hd : d.toNat / 2 ^ a < 2 ^ b := Nat.div_lt_of_lt_mul (by rw [← Nat.pow_add]; exact d.isLt)
  rw [toNat_append_eq, BitVec.extractLsb'_toNat, Nat.shiftRight_eq_div_pow, Nat.mod_eq_of_lt hd]

/-- A descriptor with a new BASE. -/
theorem newBase_toNat (d : W512) (x : W64) :
    (d.extractLsb' 21 491 ++ x.extractLsb' 0 21 : W512).toNat = d.toNat / 2 ^ 21 * 2 ^ 21 + x.toNat % 2 ^ 21 :=
  (replaceLow_toNat 21 491 d (x.extractLsb' 0 21)).trans (by rw [BitVec.extractLsb'_toNat, Nat.shiftRight_zero])

end generators

/-! ### The statement -/

/-- Settles O9: CSRs by the value and the update of their number, address generators by what AGLD reads. -/
theorem csrsAndGeneratorsReadAndWrite : Obligations.CsrsAndGeneratorsReadAndWrite := by
  unfold Obligations.CsrsAndGeneratorsReadAndWrite
  refine ⟨fun s w f => ?_, fun s w => ?_⟩
  · intro c n x gives ill puts
    refine ⟨fun h => ?_, fun h => ?_⟩
    · have give {m : Nat} {v : W64} (hv : csrValue s w.core m = some v) : n = m → gives v :=
        fun e => csrr_gives h (by rw [show f.csr.toNat = m from e]; exact hv)
      refine ⟨give rfl, give rfl, give rfl, fun l hl => ⟨give ?_, give ?_⟩, give ?_, fun p hp => give ?_, give rfl, give rfl, give rfl,
        give rfl, give rfl, give rfl, give rfl, give rfl, fun hn => csrr_ill h (csrValue_unlisted s _ hn)⟩
      · simp [csrValue, hl]
      · simp [csrValue, hl, lcoord_eq]
      · simp [csrValue, State.regF, field]
      · simp [csrValue, hp]
    · have put {m : Nat} {g : Core → Core} (hg : csrUpdate s m x = some g) : n = m → puts g :=
        fun e => csrw_puts h (by rw [show f.csr.toNat = m from e]; exact hg)
      exact ⟨fun e hx => put (csrUpdate_fflags s hx) e, fun e hx => put (csrUpdate_rmode s hx) e, put rfl, put rfl,
        fun hn => csrw_ill h (csrUpdate_none s hn)⟩
  · intro c
    refine ⟨fun f => ?_, fun f h => ?_⟩
    · intro a d r
      refine ⟨fun h => ⟨agld_reads h rfl, fun q => agld_poisoned h rfl, agld_refused h rfl⟩, fun h => ?_, fun h => ⟨_, ?_, newBase_toNat _ _⟩,
        fun h => ?_⟩
      · exact issue_core h rfl (by simp [effC, h.2, effAgrst, r, c])
      · exact issue_core h rfl (by simp only [effC, h.2, effAgbase]; rfl)
      · exact issue_core h rfl (by simp [effC, h.2, effAgpos, r, c])
    · have hlead : max 125 f.lead.toNat = if f.lead.toNat < 125 then 125 else f.lead.toNat := by split <;> omega
      exact issue_core h rfl (by simp [effC, h.2, effLoadhint, hlead])

end Sys2Proof.CSlot
end

section
/-! Lanes of a vector register (R70, R81): values packed side by side and read back, the lanes that a predicate selects, and the flags
that join. -/
namespace Sys2Proof.Lanes

open Sys2Proof.Machine Sys2Proof.Claims

/-! ### Values packed side by side -/

/-- Values of w bits side by side, the first at bit 0. -/
def pack (w : Nat) : List Nat → Nat
  | [] => 0
  | v :: vs => v % 2 ^ w + 2 ^ w * pack w vs

/-- The model packs by a sum over the places. -/
theorem foldl_pack (w : Nat) (l : List Nat) :
    (l.zipIdx).foldl (fun a p => a + (p.1 % 2 ^ w) * 2 ^ (w * p.2)) 0 = pack w l := by
  have gen : ∀ (l : List Nat) (k a : Nat),
      (l.zipIdx k).foldl (fun a p => a + (p.1 % 2 ^ w) * 2 ^ (w * p.2)) a = a + 2 ^ (w * k) * pack w l := by
    intro l
    induction l with
    | nil => intro k a; simp [pack]
    | cons v vs ih =>
      intro k a
      rw [List.zipIdx_cons, List.foldl_cons, ih, pack, Nat.mul_succ, Nat.pow_add]
      ring
  simpa using gen l 0 0

theorem pack_lt (w : Nat) (l : List Nat) : pack w l < 2 ^ (w * l.length) := by
  induction l with
  | nil => simp [pack]
  | cons v vs ih =>
    rw [pack, List.length_cons, Nat.mul_succ, Nat.pow_add, Nat.mul_comm (2 ^ (w * _))]
    have hv : v % 2 ^ w < 2 ^ w := Nat.mod_lt _ (Nat.two_pow_pos w)
    calc v % 2 ^ w + 2 ^ w * pack w vs < 2 ^ w + 2 ^ w * pack w vs := by omega
      _ = 2 ^ w * (pack w vs + 1) := by ring
      _ ≤ 2 ^ w * 2 ^ (w * vs.length) := Nat.mul_le_mul_left _ ih

theorem toNat_ofNat_pack {w m : Nat} {l : List Nat} (h : w * l.length ≤ m) : (BitVec.ofNat m (pack w l)).toNat = pack w l := by
  rw [BitVec.toNat_ofNat]
  exact Nat.mod_eq_of_lt ((pack_lt w l).trans_le (Nat.pow_le_pow_right (by decide) h))

/-- A packed value is read back at its place; behind the last one stand zeros. -/
theorem field_pack (w : Nat) (l : List Nat) (j : Nat) : field (pack w l) (w * j) w = l.getD j 0 % 2 ^ w := by
  induction l generalizing j with
  | nil => simp [pack, field]
  | cons v vs ih =>
    cases j with
    | zero => simp [pack, field]
    | succ j =>
      rw [List.getD_cons_succ, ← ih j, field, field, Nat.mul_succ, Nat.add_comm, Nat.pow_add, ← Nat.div_div_eq_div_mul, pack,
        Nat.add_mul_div_left _ _ (Nat.two_pow_pos w), Nat.div_eq_of_lt (Nat.mod_lt _ (Nat.two_pow_pos w)), Nat.zero_add]

/-! ### Lanes -/

theorem lane_eq_field (v : W512) (w j : Nat) : lane v w j = field v.toNat (w * j) w := by
  rw [lane, BitVec.extractLsb'_toNat, Nat.shiftRight_eq_div_pow, field, Nat.mul_comm]

theorem lane_lt (v : W512) (w j : Nat) : lane v w j < 2 ^ w := BitVec.isLt _

theorem lane_ofLanes {w : Nat} {l : List Nat} (h : w * l.length ≤ 512) (j : Nat) : lane (ofLanes w l) w j = l.getD j 0 % 2 ^ w := by
  rw [lane_eq_field, ofLanes, foldl_pack, toNat_ofNat_pack h, field_pack]

/-- The lanes of a format fill a register. -/
theorem laneBits_mul_lanesOf (f : BitVec 4) : laneBits f * lanesOf f = 512 := by
  unfold laneBits lanesOf
  split
  · rfl
  · split <;> rfl

/-! ### Lanes that a predicate selects (R70) -/

section write
variable (old : W512) (w n : Nat) (sel : Nat → Bool) (res : Nat → Nat × Flags)

/-- A selected lane takes its result, any other keeps its bits. -/
theorem lane_writeLanes (h : w * n ≤ 512) {j : Nat} (hj : j < n) :
    lane (writeLanes old w n sel res).1 w j = if sel j = true then (res j).1 % 2 ^ w else lane old w j := by
  rw [writeLanes, lane_ofLanes (by simpa using h)]
  simp only [List.map_map, List.getD_eq_getElem?_getD, List.getElem?_map, List.getElem?_range hj, Option.map_some, Option.getD_some,
    Function.comp_apply]
  split
  · rfl
  · exact Nat.mod_eq_of_lt (lane_lt old w j)

/-- Flags that join along a list. -/
theorem getLsbD_joinFlags {α : Type} (g : α → Flags) (l : List α) (q : Nat) :
    (l.foldl (fun f r => f ||| g r) 0).getLsbD q = true ↔ ∃ r ∈ l, (g r).getLsbD q = true := by
  have gen : ∀ (l : List α) (z : Flags),
      (l.foldl (fun f r => f ||| g r) z).getLsbD q = true ↔ z.getLsbD q = true ∨ ∃ r ∈ l, (g r).getLsbD q = true := by
    intro l
    induction l with
    | nil => simp
    | cons a l ih => intro z; simp [ih, or_assoc]
  simpa using gen l 0

/-- The flags of the selected lanes join. -/
theorem getLsbD_writeLanes (q : Nat) :
    (writeLanes old w n sel res).2.getLsbD q = true ↔ ∃ j < n, sel j = true ∧ (res j).2.getLsbD q = true := by
  rw [writeLanes, getLsbD_joinFlags]
  simp only [List.mem_map, List.mem_range]
  constructor
  · rintro ⟨_, ⟨j, hj, rfl⟩, hq⟩
    cases hs : sel j with
    | true => exact ⟨j, hj, hs, by simpa [hs] using hq⟩
    | false => simp [hs] at hq
  · rintro ⟨j, hj, hs, hq⟩
    exact ⟨_, ⟨j, hj, rfl⟩, by simpa [hs] using hq⟩

end write

end Sys2Proof.Lanes
end

section
/-! The V slot's lane-wise arithmetic (R70, R81, R132): what a command of the slot does once its effect is known, and the effect of an
operation on each selected lane. -/
namespace Sys2Proof.VSlot

open Sys2Proof.Machine Sys2Proof.Claims Sys2Proof.Lanes

/-! ### A command of the V slot -/

section command
variable {s : State} {w : Issue} {op : SlotOp}

/-- An effect on the issuing core alone acts on what issuing leaves. -/
theorem issue_core (h : Issues s w .v op) (hs : op.slot = some .v) {g : Core → Core}
    (he : effV s w.core ⟨op, w.pn, w.pred⟩ = effCore w.core g) :
    issue w .v op s = .next ((issued s w .v op).modCore w.core g) := by
  rw [issue_v h (.inl hs), he]; rfl

/-- An instruction without an effect of its own only lets its bundle issue. -/
theorem issue_none (h : Issues s w .v op) (hs : op.slot = some .v) (he : effV s w.core ⟨op, w.pn, w.pred⟩ = effNone) :
    issue w .v op s = .next (issued s w .v op) := by
  rw [issue_v h (.inl hs), he]; rfl

/-- An instruction that raises an exception other than 0x05 changes nothing else. -/
theorem issue_raises (h : Issues s w .v op) (hs : op.slot = some .v) {e : Exc} (he : effV s w.core ⟨op, w.pn, w.pred⟩ = .error e)
    (hc : e.code ≠ 0x05) : issue w .v op s = .next (s.coreException w.core e) := by
  rw [issue_v h (.inl hs), he]
  simp only [slotException, if_neg hc]

/-- An instruction that names a format without a licence shows the format in DETAIL. -/
theorem issue_unlicensed (h : Issues s w .v op) (hs : op.slot = some .v) {fmt : BitVec 4}
    (he : effV s w.core ⟨op, w.pn, w.pred⟩ = .error (excIll 1 op.code fmt.toNat)) :
    issue w .v op s = .next (s.coreException w.core ⟨0x02, 1, BitVec.ofNat 16 (op.code.toNat + 256 * fmt.toNat)⟩) := by
  have hf := fmt.isLt
  rw [issue_raises h hs he (show (0x02 : Byte) ≠ 0x05 by decide), excIll, illDetail, Nat.mod_eq_of_lt (by omega), Nat.mul_comm fmt.toNat]
  rfl

/-- An effect that reads no more than the state before acts on what issuing leaves. -/
theorem issue_ok (h : Issues s w .v op) (hs : op.slot = some .v) {g : State → State}
    (he : effV s w.core ⟨op, w.pn, w.pred⟩ = .ok g) : issue w .v op s = .next (g (issued s w .v op)) := by
  rw [issue_v h (.inl hs), he]

/-- A read that meets a poisoned row records it on the way (R164). -/
theorem issue_poisoned (h : Issues s w .v op) (hs : op.slot = some .v) {r : Nat}
    (he : effV s w.core ⟨op, w.pn, w.pred⟩ = .error (excEcc 1 r)) :
    issue w .v op s = .next ((s.modCore w.core (fun d => d.engineRead (readWords (s.core w.core) op))).coreException w.core
      ⟨0x05, 1, BitVec.ofNat 16 (r / 2048)⟩) := by
  rw [issue_v h (.inl hs), he]; rfl

end command

/-! ### Lane-wise operations -/

/-- An operation on each selected lane: the lanes and the flags that join, or the licence's exception. -/
theorem lanewise_spec {s : State} {w : Issue} {op : SlotOp} {f : VR} {fl : Fp → Rnd → Nat → Nat → Nat → Nat × Flags}
    {it : Nat → Nat → Nat → Nat} {res : Nat → Nat × Flags} (h : Issues s w .v op) (hs : op.slot = some .v)
    (he : effV s w.core ⟨op, w.pn, w.pred⟩ = lanewise s w.core ⟨op, w.pn, w.pred⟩ f fl it)
    (hF : ∀ F, fpOf f.fmt = some F → ∀ j, res j = fl F (laneRnd (s.core w.core) j) (lane ((s.core w.core).getV f.vd) (laneBits f.fmt) j)
      (lane ((s.core w.core).getV f.vs1) (laneBits f.fmt) j) (lane ((s.core w.core).getV f.vs2) (laneBits f.fmt) j))
    (hI : fpOf f.fmt = none → ∀ j, res j = (it (lane ((s.core w.core).getV f.vd) (laneBits f.fmt) j)
      (lane ((s.core w.core).getV f.vs1) (laneBits f.fmt) j) (lane ((s.core w.core).getV f.vs2) (laneBits f.fmt) j), 0)) :
    (s.fmtOk f.fmt = true → ∃ (r : W512) (g : Flags),
      issue w .v op s = .next ((issued s w .v op).modCore w.core (fun e => ({ e.setV f.vd r with fflags := e.fflags ||| g } : Core))) ∧
      (∀ j < lanesOf f.fmt, lane r (laneBits f.fmt) j =
        if (s.core w.core).predBit w.pn w.pred j = true then (res j).1 % 2 ^ laneBits f.fmt
        else lane ((s.core w.core).getV f.vd) (laneBits f.fmt) j) ∧
      (∀ q, g.getLsbD q = true ↔ ∃ j < lanesOf f.fmt, (s.core w.core).predBit w.pn w.pred j = true ∧ (res j).2.getLsbD q = true)) ∧
    (s.fmtOk f.fmt = false →
      issue w .v op s = .next (s.coreException w.core ⟨0x02, 1, BitVec.ofNat 16 (op.code.toNat + 256 * f.fmt.toNat)⟩)) := by
  refine ⟨fun hl => ?_, fun hl => issue_unlicensed h hs (he.trans (if_pos (by simp [hl])))⟩
  have hres : lanewise s w.core ⟨op, w.pn, w.pred⟩ f fl it = effCore w.core (fun e =>
      { e.setV f.vd (writeLanes ((s.core w.core).getV f.vd) (laneBits f.fmt) (lanesOf f.fmt) ((s.core w.core).predBit w.pn w.pred) res).1 with
        fflags := e.fflags ||| (writeLanes ((s.core w.core).getV f.vd) (laneBits f.fmt) (lanesOf f.fmt)
          ((s.core w.core).predBit w.pn w.pred) res).2 }) := by
    unfold lanewise
    rw [if_neg (by simp [hl])]
    cases hf : fpOf f.fmt with
    | some F => rw [show res = _ from funext (hF F hf)]
    | none => rw [show res = _ from funext (hI hf)]
  exact ⟨_, _, issue_core h hs (he.trans hres), fun j hj => lane_writeLanes _ _ _ _ _ (laneBits_mul_lanesOf f.fmt).le hj,
    fun q => getLsbD_writeLanes _ _ _ _ _ q⟩

/-! ### INT8 lanes -/

/-- An accepted format without a floating-point element is INT8. -/
theorem laneBits_of_int {f : VR} (hv : vFmtOk f.fmt = true) (h : fpOf f.fmt = none) : laneBits f.fmt = 8 := by
  have key : ∀ b : BitVec 4, vFmtOk b = true → fpOf b = none → laneBits b = 8 := by decide
  exact key _ hv h

theorem wrap8_eq (x : Int) : wrap8 x = (x % 256).toNat := rfl

/-- The signed value of a byte wraps back to the byte. -/
theorem wrap_sgn {x : Nat} (h : x < 2 ^ 8) : (sgn 8 x % 256).toNat = x := by
  unfold sgn
  dsimp only
  split <;> omega

/-- The greater of two bytes, taken as signed numbers. -/
theorem wrap_max {x y : Nat} (hx : x < 2 ^ 8) (hy : y < 2 ^ 8) :
    (max (sgn 8 x) (sgn 8 y) % 256).toNat = if sgn 8 x < sgn 8 y then y else x := by
  split
  · rw [max_eq_right (by omega), wrap_sgn hy]
  · rw [max_eq_left (by omega), wrap_sgn hx]

/-- The lesser of two bytes, taken as signed numbers. -/
theorem wrap_min {x y : Nat} (hx : x < 2 ^ 8) (hy : y < 2 ^ 8) :
    (min (sgn 8 x) (sgn 8 y) % 256).toNat = if sgn 8 y < sgn 8 x then y else x := by
  split
  · rw [min_eq_right (by omega), wrap_sgn hy]
  · rw [min_eq_left (by omega), wrap_sgn hx]

theorem wrap_abs (x : Nat) : (max (sgn 8 x) (-sgn 8 x) % 256).toNat = wrap8 (sgn 8 x).natAbs := by
  rw [wrap8_eq, Int.natCast_natAbs, abs_eq_max_neg]

/-- The result of a lane: in the format's element, or an integer modulo 2^8. -/
def laneResult (fmt : BitVec 4) (fl : Fp → Nat → Nat × Flags) (it : Nat → Int) (j : Nat) : Nat × Flags :=
  match fpOf fmt with
  | some F => fl F j
  | none => ((it j % 256).toNat, 0)

/-- Settles O10: each instruction is one operation on the selected lanes, in the format's element or modulo 2^8. -/
theorem vectorLanesTakeTheirResult : Obligations.VectorLanesTakeTheirResult := by
  unfold Obligations.VectorLanesTakeTheirResult
  intro s w f c n b d x y m on lanes
  have spec {op : SlotOp} {i : Instr} {fl : Fp → Nat → Nat × Flags} {it : Nat → Int} {fl' : Fp → Rnd → Nat → Nat → Nat → Nat × Flags}
      {it' : Nat → Nat → Nat → Nat} (hi : exec i s = issue w .v op s) (hs : op.slot = some .v)
      (hb : op.fmtBad = if vFmtOk f.fmt then none else some f.fmt.toNat)
      (he : effV s w.core ⟨op, w.pn, w.pred⟩ = lanewise s w.core ⟨op, w.pn, w.pred⟩ f fl' it')
      (hF : ∀ F j, fl F j = fl' F (m j) (d j) (x j) (y j))
      (hI : ∀ j, x j < 2 ^ 8 → y j < 2 ^ 8 → (it j % 256).toNat = it' (d j) (x j) (y j)) : lanes op i fl it := by
    intro h
    have hv : vFmtOk f.fmt = true := by
      have := (CSlot.fields_of_accepted h.1.2.2.2 (by simp [hs])).2.2.1
      simpa [hb] using this
    rw [hi]
    refine lanewise_spec (res := laneResult f.fmt fl it) h hs he (fun F hf j => ?_) (fun hf j => ?_)
    · simp only [laneResult, hf, hF]
      rfl
    · have hw : b = 8 := laneBits_of_int hv hf
      simp only [laneResult, hf, hI j (hw ▸ lane_lt _ b j) (hw ▸ lane_lt _ b j)]
      rfl
  refine ⟨spec rfl rfl rfl (show _ = effVadd s w.core ⟨_, _, _⟩ f from rfl) (fun _ _ => rfl) (fun _ _ _ => rfl),
    spec rfl rfl rfl (show _ = effVsub s w.core ⟨_, _, _⟩ f from rfl) (fun _ _ => rfl) (fun _ _ _ => rfl),
    spec rfl rfl rfl (show _ = effVmul s w.core ⟨_, _, _⟩ f from rfl) (fun _ _ => rfl) (fun _ _ _ => rfl),
    spec rfl rfl rfl (show _ = effVfma s w.core ⟨_, _, _⟩ f from rfl) (fun _ _ => rfl) (fun _ _ _ => rfl),
    spec rfl rfl rfl (show _ = effVfms s w.core ⟨_, _, _⟩ f from rfl) (fun _ _ => rfl) (fun _ _ _ => rfl),
    spec rfl rfl rfl (show _ = effVmax s w.core ⟨_, _, _⟩ f from rfl) (fun _ _ => rfl) (fun j hx hy => wrap_max hx hy),
    spec rfl rfl rfl (show _ = effVmin s w.core ⟨_, _, _⟩ f from rfl) (fun _ _ => rfl) (fun j hx hy => wrap_min hx hy),
    spec rfl rfl rfl (show _ = effVabs s w.core ⟨_, _, _⟩ f from rfl) (fun _ _ => rfl) (fun j _ _ => wrap_abs (x j)),
    spec rfl rfl rfl (show _ = effVneg s w.core ⟨_, _, _⟩ f from rfl) (fun _ _ => rfl) (fun _ _ _ => rfl),
    spec rfl rfl rfl (show _ = effVmov s w.core ⟨_, _, _⟩ f from rfl) (fun _ _ => rfl) (fun j hx _ => wrap_sgn hx)⟩

end Sys2Proof.VSlot
end

section
/-! Bits, elements and compares of vector registers (R70, Table 3-10). -/
namespace Sys2Proof.VBits

open Sys2Proof.Machine Sys2Proof.Claims Sys2Proof.Lanes Sys2Proof.VSlot

/-- An accepted instruction of the V slot names a format that its slot takes. -/
theorem fmtBad_of_issues {s : State} {w : Issue} {op : SlotOp} (h : Issues s w .v op) (hs : op.slot = some .v) : op.fmtBad = none := by
  obtain ⟨⟨_, _, _, hok⟩, _⟩ := h
  exact (CSlot.fields_of_accepted hok (by simp [hs])).2.2.1

/-! ### Lanes moved as they are -/

/-- A result per lane that no flag follows: selected lanes take it, the others keep their bits. -/
theorem lane_write {old : W512} {fmt : BitVec 4} {sel : Nat → Bool} {res : Nat → Nat} (hr : ∀ j, res j < 2 ^ laneBits fmt) {j : Nat}
    (hj : j < lanesOf fmt) :
    lane (writeLanes old (laneBits fmt) (lanesOf fmt) sel (fun j => (res j, 0))).1 (laneBits fmt) j =
      if sel j = true then res j else lane old (laneBits fmt) j := by
  rw [lane_writeLanes _ _ _ _ _ (laneBits_mul_lanesOf fmt).le hj]
  simp only [Nat.mod_eq_of_lt (hr j)]

/-- VAND, VOR and VXOR: the selected lanes take those of the bitwise result. -/
theorem bitwise_spec {s : State} {w : Issue} {op : SlotOp} {f : VR} {g : W512 → W512 → W512} (h : Issues s w .v op)
    (hs : op.slot = some .v) (he : effV s w.core ⟨op, w.pn, w.pred⟩ = bitwise s w.core ⟨op, w.pn, w.pred⟩ f g)
    (hl : s.fmtOk f.fmt = true) : ∃ r : W512,
      issue w .v op s = .next ((issued s w .v op).modCore w.core (fun e => e.setV f.vd r)) ∧
      ∀ j < lanesOf f.fmt, lane r (laneBits f.fmt) j = if (s.core w.core).predBit w.pn w.pred j = true then
        lane (g ((s.core w.core).getV f.vs1) (if f.fn = 1 then ~~~ (s.core w.core).getV f.vs2 else (s.core w.core).getV f.vs2))
          (laneBits f.fmt) j else lane ((s.core w.core).getV f.vd) (laneBits f.fmt) j :=
  ⟨_, issue_core h hs (he.trans (if_neg (by simp [hl]))), fun _ hj => lane_write (fun _ => lane_lt _ _ _) hj⟩

/-- The signed value of a lane fits a register. -/
theorem toInt_sgn (fmt : BitVec 4) (x : Nat) : (BitVec.ofInt 64 (sgn (laneBits fmt) x)).toInt = sgn (laneBits fmt) x := by
  have hb : laneBits fmt = 8 ∨ laneBits fmt = 16 ∨ laneBits fmt = 32 := by
    have key : ∀ b : BitVec 4, laneBits b = 8 ∨ laneBits b = 16 ∨ laneBits b = 32 := by decide
    exact key fmt
  have hsgn : -2 ^ 31 ≤ sgn (laneBits fmt) x ∧ sgn (laneBits fmt) x < 2 ^ 31 := by
    unfold sgn
    rcases hb with hb | hb | hb <;> rw [hb] <;> dsimp only <;> split <;> omega
  exact BitVec.toInt_ofInt_eq_self (by decide) (by omega) (by omega)

/-! ### Compares -/

theorem testBit_maskOf (l : List Bool) (j : Nat) : (maskOf l).testBit j = l.getD j false := by
  induction l generalizing j with
  | nil => simp [maskOf]
  | cons b l ih =>
    cases j with
    | zero => cases b <;> simp [maskOf, bitN]
    | succ j =>
      have hb : bitN b < 2 := by cases b <;> decide
      rw [maskOf, Nat.testBit_succ, List.getD_cons_succ, ← ih, Nat.add_mul_div_left _ _ (by decide), Nat.div_eq_of_lt hb, Nat.zero_add]

/-- Bits listed from bit 0 on, zeros behind them. -/
theorem getLsbD_maskOf_range {n j : Nat} (p : Nat → Bool) (hj : j < 64) :
    (BitVec.ofNat 64 (maskOf ((List.range n).map p))).getLsbD j = (decide (j < n) && p j) := by
  rw [BitVec.getLsbD_ofNat, testBit_maskOf, List.getD_eq_getElem?_getD, List.getElem?_map]
  by_cases h : j < n
  · simp [h, hj]
  · simp [h]

/-- Integers are ordered as their exact values are. -/
theorem cmp_ofInt (x y : Int) : FV.cmp (FV.ofInt x 0) (FV.ofInt y 0) = if x < y then -1 else if x = y then 0 else 1 := by
  have hv (x : Int) : finInt (decide (x < 0)) x.natAbs 0 (min 0 0) = x := by
    rcases lt_or_ge x 0 with h | h
    · simp [finInt, h, abs_of_neg]
    · simp [finInt, h, abs_of_nonneg]
  simp only [FV.cmp, FV.ofInt, hv]
  split
  · rw [if_pos (by omega)]
  · split
    · rw [if_neg (by omega), if_pos (by omega)]
    · rw [if_neg (by omega), if_neg (by omega)]

/-- A signed or IEEE compare, from the order of the values. -/
def condHolds (cond : BitVec 3) (o : Int) : Bool :=
  match cond with
  | 0 => o == 0
  | 1 => o != 0
  | 2 => decide (o < 0)
  | _ => decide (0 ≤ o)

/-- The value of a lane that a compare orders by. -/
def condVal (fmt : BitVec 4) (x : Nat) : FV := if fmt = 0xB then FV.ofInt (sgn 8 x) 0 else elemVal fmt x

section compare
variable {fmt : BitVec 4} {cond : BitVec 3} {x y : Nat}

/-- LTU and GEU compare raw bits. -/
theorem condLane_ltu : condLane fmt 4 x y = decide (x < y) := rfl

theorem condLane_geu : condLane fmt 5 x y = decide (y ≤ x) := rfl

/-- Below LTU a NaN makes every compare false but NE. -/
theorem condLane_nan (hc : cond.toNat < 4) (h : condVal fmt x = .nan ∨ condVal fmt y = .nan) :
    condLane fmt cond x y = (cond == 1) := by
  have h4 : cond ≠ 4 := by rintro rfl; exact absurd hc (by decide)
  have h5 : cond ≠ 5 := by rintro rfl; exact absurd hc (by decide)
  rw [condLane, if_neg h4, if_neg h5]
  change (match condVal fmt x, condVal fmt y with
    | .nan, _ => cond == 1
    | _, .nan => cond == 1
    | x, y => condHolds cond (FV.cmp x y)) = _
  rcases h with h | h <;> rw [h]
  cases condVal fmt x <;> rfl

/-- Below LTU other values compare by their order. -/
theorem condLane_eq (hc : cond.toNat < 4) (hx : condVal fmt x ≠ .nan) (hy : condVal fmt y ≠ .nan) :
    condLane fmt cond x y = condHolds cond (FV.cmp (condVal fmt x) (condVal fmt y)) := by
  have h4 : cond ≠ 4 := by rintro rfl; exact absurd hc (by decide)
  have h5 : cond ≠ 5 := by rintro rfl; exact absurd hc (by decide)
  rw [condLane, if_neg h4, if_neg h5]
  change (match condVal fmt x, condVal fmt y with
    | .nan, _ => cond == 1
    | _, .nan => cond == 1
    | x, y => condHolds cond (FV.cmp x y)) = _
  split
  · exact absurd ‹_› hx
  · exact absurd ‹_› hy
  · rfl

/-- INT8 lanes compare as signed numbers. -/
theorem condLane_int (hc : cond.toNat < 4) :
    condLane 0xB cond x y = condHolds cond (if sgn 8 x < sgn 8 y then -1 else if sgn 8 x = sgn 8 y then 0 else 1) := by
  rw [← cmp_ofInt]
  exact condLane_eq hc (by simp [condVal, FV.ofInt]) (by simp [condVal, FV.ofInt])

end compare

theorem condHolds_eq (o : Int) : condHolds 0 o = true ↔ o = 0 := beq_iff_eq

theorem condHolds_ne (o : Int) : condHolds 1 o = true ↔ o ≠ 0 := bne_iff_ne

theorem condHolds_lt (o : Int) : condHolds 2 o = true ↔ o < 0 := decide_eq_true_iff

theorem condHolds_ge (o : Int) : condHolds 3 o = true ↔ 0 ≤ o := decide_eq_true_iff

/-- Settles O11: the bitwise results and the broadcast by lane, the extracted lane as a signed number, and each compare by the
values that it orders. -/
theorem vectorBitsElementsAndCompares : Obligations.VectorBitsElementsAndCompares := by
  unfold Obligations.VectorBitsElementsAndCompares
  refine ⟨?_, ?_⟩
  · intro s w c on wrote
    refine ⟨?_, fun f => ⟨?_, fun h hl => ?_⟩⟩
    · intro f a b
      exact ⟨fun h hl => bitwise_spec h rfl (show _ = effVand s w.core ⟨_, _, _⟩ f from rfl) hl,
        fun h hl => bitwise_spec h rfl (show _ = effVor s w.core ⟨_, _, _⟩ f from rfl) hl,
        fun h hl => bitwise_spec h rfl (show _ = effVxor s w.core ⟨_, _, _⟩ f from rfl) hl⟩
    · exact fun h hl => ⟨_, issue_core h rfl ((show _ = effVbcast s w.core ⟨_, _, _⟩ f from rfl).trans (if_neg (by simp [hl]))),
        fun j hj => lane_write (fun _ => Nat.mod_lt _ (Nat.two_pow_pos _)) hj⟩
    · obtain ⟨hi, hp⟩ := h
      have he : effV s w.core ⟨.vext f, w.pn, w.pred⟩ = effVext s w.core ⟨.vext f, w.pn, w.pred⟩ f := if_pos hp
      exact ⟨_, issue_core hi rfl (he.trans (if_neg (by simp [hl]))), toInt_sgn _ _⟩
  · intro s w f h hl c b x y
    have hbit {j : Nat} (hj : j < 64) := getLsbD_maskOf_range (n := lanesOf f.fmt)
      (fun j => if c.predBit w.pn w.pred j = true then condLane f.fmt f.cond (x j) (y j) else (c.getP f.pd).getLsbD j) hj
    have h64 : lanesOf f.fmt ≤ 64 := by
      have key : ∀ b : BitVec 4, lanesOf b ≤ 64 := by decide
      exact key _
    refine ⟨_, issue_core h rfl ((show _ = effVcmp s w.core ⟨_, _, _⟩ f from rfl).trans (if_neg (by simp [hl]))), ?_, ?_, ?_⟩
    · intro j hj hn
      rw [hbit hj]
      simp [hn]
    · intro j hj hp
      rw [hbit (by omega)]
      simp [hj, hp]
    · intro j hj hp
      rw [hbit (by omega)]
      simp only [hj, hp, decide_true, Bool.true_and, if_true]
      refine ⟨fun hc => ?_, fun hc => ?_, fun hf => ?_, fun hf hc hn => ?_, fun hf hx hy => ?_⟩
      · rw [hc, condLane_ltu, decide_eq_true_iff]
      · rw [hc, condLane_geu, decide_eq_true_iff]
      · rw [hf]
        refine ⟨fun hc => ?_, fun hc => ?_, fun hc => ?_, fun hc => ?_⟩ <;> rw [hc, condLane_int (by decide)]
        · rw [condHolds_eq]; grind
        · rw [condHolds_ne]; grind
        · rw [condHolds_lt]; grind
        · rw [condHolds_ge]; grind
      · rw [condLane_nan hc (by simpa only [condVal, if_neg hf] using hn), beq_iff_eq]
      · have hv (q : Nat) : condVal f.fmt q = elemVal f.fmt q := if_neg hf
        rw [← hv] at hx hy
        refine ⟨fun hc => ?_, fun hc => ?_, fun hc => ?_, fun hc => ?_⟩ <;> rw [hc, condLane_eq (by decide) hx hy, hv, hv]
        · exact condHolds_eq _
        · exact condHolds_ne _
        · exact condHolds_lt _
        · exact condHolds_ge _

end Sys2Proof.VBits
end

section
/-! Vector functions, row statistics and conversions (R81, R82, R137 to R139, R150). -/
namespace Sys2Proof.VFuncs

open Sys2Proof.Machine Sys2Proof.Claims Sys2Proof.Lanes Sys2Proof.VSlot

/-! ### The special functions and the row statistics -/

/-- The result of a function on a lane: rounded to FP32, in BF16 rounded again. -/
def special (fmt : BitVec 4) (fn x : Nat) : Nat × Flags :=
  if fmt = 0 then special32 fn (fp32.decode x)
  else
    let y := special32 fn (bf16.decode x)
    let z := roundFp bf16 false .rne (fp32.decode y.1)
    (z.1, y.2 ||| z.2)

/-- FP32 and BF16 are the formats of the functions. -/
theorem fpOf_of_le_one {fmt : BitVec 4} (h : fmt.toNat ≤ 1) : fpOf fmt = if fmt = 0 then some fp32 else some bf16 := by
  have key : ∀ b : BitVec 4, b.toNat ≤ 1 → b = 0 ∨ b = 1 := by decide
  rcases key fmt h with rfl | rfl <;> rfl

section functions
variable {s : State} {w : Issue} {op : SlotOp} {f : VR} {fn : Nat}

/-- VEXP, VLOG, VRCP and VRSQRT: the licence's exception, or the function on each selected lane. -/
theorem specialLanes_spec (h : Issues s w .v op) (hs : op.slot = some .v)
    (hb : op.fmtBad = if f.fmt.toNat ≤ 1 then none else some f.fmt.toNat)
    (he : effV s w.core ⟨op, w.pn, w.pred⟩ = specialLanes s w.core ⟨op, w.pn, w.pred⟩ f fn) :
    (s.fmtOk f.fmt = false →
      issue w .v op s = .next (s.coreException w.core ⟨0x02, 1, BitVec.ofNat 16 (op.code.toNat + 256 * f.fmt.toNat)⟩)) ∧
    (s.fmtOk f.fmt = true → ∃ (r : W512) (g : Flags),
      issue w .v op s = .next ((issued s w .v op).modCore w.core (fun e => ({ e.setV f.vd r with fflags := e.fflags ||| g } : Core))) ∧
      (∀ j < lanesOf f.fmt, lane r (laneBits f.fmt) j = if (s.core w.core).predBit w.pn w.pred j = true then
        (special f.fmt fn (lane ((s.core w.core).getV f.vs1) (laneBits f.fmt) j)).1 % 2 ^ laneBits f.fmt
        else lane ((s.core w.core).getV f.vd) (laneBits f.fmt) j) ∧
      (∀ q, g.getLsbD q = true ↔ ∃ j < lanesOf f.fmt, (s.core w.core).predBit w.pn w.pred j = true ∧
        (special f.fmt fn (lane ((s.core w.core).getV f.vs1) (laneBits f.fmt) j)).2.getLsbD q = true)) := by
  have hf := VBits.fmtBad_of_issues h hs
  rw [hb] at hf
  have hp := fpOf_of_le_one (fmt := f.fmt) (by by_contra hc; simp [hc] at hf)
  refine (lanewise_spec (res := fun j => special f.fmt fn (lane ((s.core w.core).getV f.vs1) (laneBits f.fmt) j)) h hs he
    (fun F hF j => ?_) (fun hF => ?_)).symm
  · rw [hp] at hF
    unfold special
    split at hF <;> rename_i h0 <;> obtain rfl := Option.some.inj hF
    · rw [if_pos h0, if_pos rfl]
    · rw [if_neg h0, if_neg (by decide)]
  · rw [hp] at hF
    split at hF <;> cases hF

end functions

/-! ### Conversions -/

/-- Bits far above a field do not reach it. -/
theorem field_add_high {lo len m : Nat} (h : lo + len ≤ m) (x t : Nat) : field (x + 2 ^ m * t) lo len = field x lo len := by
  obtain ⟨k, rfl⟩ := Nat.exists_eq_add_of_le h
  have : x + 2 ^ (lo + len + k) * t = x + 2 ^ lo * (2 ^ len * (2 ^ k * t)) := by ring
  rw [field, field, this, Nat.add_mul_div_left _ _ (Nat.two_pow_pos lo), Nat.add_mul_mod_self_left]

theorem field_lt (v lo len : Nat) : field v lo len < 2 ^ len := Nat.mod_lt _ (Nat.two_pow_pos len)

/-- The elements of a pair fill the destination group, or half of one register in INT4. -/
theorem elems_fit {fin fout : BitVec 4} (h : (cvtShape fin fout).isSome = true) (hb : isBlock fout = false) :
    elemBits fout * cvtElems fin fout ≤ 512 * ((cvtShape fin fout).getD (1, 1)).2 ∧
      (fout = 0xC → elemBits fout * cvtElems fin fout = 256 ∧ ((cvtShape fin fout).getD (1, 1)).2 = 1) := by
  have key : ∀ fin fout : BitVec 4, (cvtShape fin fout).isSome = true → isBlock fout = false →
      elemBits fout * cvtElems fin fout ≤ 512 * ((cvtShape fin fout).getD (1, 1)).2 ∧
      (fout = 0xC → elemBits fout * cvtElems fin fout = 256 ∧ ((cvtShape fin fout).getD (1, 1)).2 = 1) := by decide
  exact key fin fout h hb

/-- A block record has the elements of its pair. -/
theorem cvtElems_of_block {fin fout : BitVec 4} (h : (cvtShape fin fout).isSome = true) (hb : isBlock fin = true) :
    cvtElems fin fout = 32 := by
  have key : ∀ fin fout : BitVec 4, (cvtShape fin fout).isSome = true → isBlock fin = true → cvtElems fin fout = 32 := by decide
  exact key fin fout h hb

theorem length_recordVals (fmt : BitVec 4) (r : Nat) : (recordVals fmt r).length = 32 := by
  unfold recordVals
  split <;> simp

/-- A conversion reads as many inputs as its pair has elements. -/
theorem length_cvtInputs (c : Core) {f : VV} (h : (cvtShape f.fmtIn f.fmtOut).isSome = true) :
    (cvtInputs c f (cvtElems f.fmtIn f.fmtOut)).length = cvtElems f.fmtIn f.fmtOut := by
  unfold cvtInputs
  dsimp only
  split
  · simp
  · split
    · rw [length_recordVals, cvtElems_of_block h ‹_›]
    · simp

/-- The elements of a conversion: the input's result where the predicate selects it, else the bits that stand there. -/
def converted (vs : List FV) (sel : Nat → Bool) (o : FV → Nat → Nat × Flags) (keep : Nat → Nat) : List (Nat × Flags) :=
  (vs.zipIdx).map (fun p => if sel p.2 then o p.1 p.2 else (keep p.2, 0))

section converted
variable {vs : List FV} {sel : Nat → Bool} {o : FV → Nat → Nat × Flags} {keep : Nat → Nat}

theorem length_converted : (converted vs sel o keep).length = vs.length := by simp [converted]

theorem converted_getElem? {j : Nat} (hj : j < vs.length) :
    (converted vs sel o keep)[j]? = some (if sel j = true then o (vs.getD j .nan) j else (keep j, 0)) := by
  simp [converted, hj]

/-- The elements' bits, side by side. -/
theorem foldl_converted (w : Nat) (rs : List (Nat × Flags)) :
    (rs.zipIdx).foldl (fun a p => a + (p.1.1 % 2 ^ w) * 2 ^ (w * p.2)) 0 = pack w (rs.map (·.1)) := by
  rw [← foldl_pack, List.zipIdx_map, List.foldl_map]
  rfl

/-- An element's field holds its result, or the bits that stood there. -/
theorem field_converted {w j : Nat} (hj : j < vs.length) (hk : keep j < 2 ^ w) :
    field (pack w ((converted vs sel o keep).map (·.1))) (w * j) w =
      if sel j = true then (o (vs.getD j .nan) j).1 % 2 ^ w else keep j := by
  rw [field_pack, List.getD_eq_getElem?_getD, List.getElem?_map, converted_getElem? hj]
  simp only [Option.map_some, Option.getD_some]
  split
  · rfl
  · exact Nat.mod_eq_of_lt hk

/-- The flags of the written elements join. -/
theorem flags_converted (q : Nat) :
    ((converted vs sel o keep).foldl (fun a (r : Nat × Flags) => a ||| r.2) 0).getLsbD q = true ↔
      ∃ j < vs.length, sel j = true ∧ (o (vs.getD j .nan) j).2.getLsbD q = true := by
  rw [getLsbD_joinFlags]
  constructor
  · rintro ⟨r, hr, hq⟩
    obtain ⟨j, hj, rfl⟩ := List.mem_iff_getElem.mp hr
    have hj' : j < vs.length := length_converted ▸ hj
    have he := converted_getElem? (sel := sel) (o := o) (keep := keep) hj'
    rw [List.getElem?_eq_getElem hj, Option.some.injEq] at he
    rw [he] at hq
    cases hs : sel j with
    | true => exact ⟨j, hj', hs, by simpa only [hs, if_true] using hq⟩
    | false => simp [hs] at hq
  · rintro ⟨j, hj, hs, hq⟩
    exact ⟨_, List.mem_of_getElem? (converted_getElem? hj), by simpa only [hs, if_true] using hq⟩

end converted

/-- Elements below half a register, with the register's other half behind them. -/
theorem add_tail {m x t : Nat} (hx : x < 2 ^ m) (ht : t < 2 ^ m) : x + 2 ^ m * t < 2 ^ (m + m) := by
  rw [Nat.pow_add]
  calc x + 2 ^ m * t < 2 ^ m + 2 ^ m * t := by omega
    _ = 2 ^ m * (t + 1) := by ring
    _ ≤ 2 ^ m * 2 ^ m := Nat.mul_le_mul_left _ ht

section cvt
variable (c : Core) (f : VV) (sel : Nat → Bool)

/-- The elements of a conversion to elements, and their flags. -/
def cvtElements : List (Nat × Flags) :=
  converted (cvtInputs c f (cvtElems f.fmtIn f.fmtOut)) sel (fun v j => cvtOut c f (rndOf f.rnd c.srseed c.srctr j) v)
    (fun j => field (groupBits c f.vd ((cvtShape f.fmtIn f.fmtOut).getD (1, 1)).2) (elemBits f.fmtOut * j) (elemBits f.fmtOut))

/-- The half of the register above the INT4 elements, kept where bit 0 of the predicate is 0. -/
def cvtTail : Nat :=
  if f.fmtOut = 0xC ∧ sel 0 = false then
    field (groupBits c f.vd ((cvtShape f.fmtIn f.fmtOut).getD (1, 1)).2) 256 256 else 0

/-- The group that a conversion to elements leaves, as one number. -/
def cvtGroup : Nat := pack (elemBits f.fmtOut) ((cvtElements c f sel).map (·.1)) + 2 ^ 256 * cvtTail c f sel

variable {c f sel}

theorem cvtTail_lt : cvtTail c f sel < 2 ^ 256 := by
  unfold cvtTail
  split
  · exact field_lt _ _ _
  · exact Nat.two_pow_pos _

theorem cvtTail_eq_zero (h : f.fmtOut ≠ 0xC) : cvtTail c f sel = 0 := if_neg (fun hf => h hf.1)

variable (hc : (cvtShape f.fmtIn f.fmtOut).isSome = true) (hb : isBlock f.fmtOut = false)
include hc

theorem length_cvtElements : (cvtElements c f sel).length = cvtElems f.fmtIn f.fmtOut := by
  rw [cvtElements, length_converted, length_cvtInputs c hc]

include hb

theorem cvtGroup_lt : cvtGroup c f sel < 2 ^ (512 * ((cvtShape f.fmtIn f.fmtOut).getD (1, 1)).2) := by
  obtain ⟨hfit, hint⟩ := elems_fit hc hb
  have hp := pack_lt (elemBits f.fmtOut) ((cvtElements c f sel).map (·.1))
  rw [List.length_map, length_cvtElements hc] at hp
  unfold cvtGroup
  by_cases hf : f.fmtOut = 0xC
  · obtain ⟨h256, h1⟩ := hint hf
    rw [h256] at hp
    rw [show 512 * ((cvtShape f.fmtIn f.fmtOut).getD (1, 1)).2 = 256 + 256 by rw [h1]]
    exact add_tail hp cvtTail_lt
  · rw [cvtTail_eq_zero hf]
    exact hp.trans_le (Nat.pow_le_pow_right (by decide) hfit)

/-- Each element of the group is its result, or the bits that stood there. -/
theorem field_cvtGroup {j : Nat} (hj : j < cvtElems f.fmtIn f.fmtOut) :
    field (cvtGroup c f sel) (elemBits f.fmtOut * j) (elemBits f.fmtOut) =
      if sel j = true then (cvtOut c f (rndOf f.rnd c.srseed c.srctr j)
        ((cvtInputs c f (cvtElems f.fmtIn f.fmtOut)).getD j .nan)).1 % 2 ^ elemBits f.fmtOut
      else field (groupBits c f.vd ((cvtShape f.fmtIn f.fmtOut).getD (1, 1)).2) (elemBits f.fmtOut * j) (elemBits f.fmtOut) := by
  have hbody := field_converted (sel := sel) (o := fun v j => cvtOut c f (rndOf f.rnd c.srseed c.srctr j) v)
    (keep := fun j => field (groupBits c f.vd ((cvtShape f.fmtIn f.fmtOut).getD (1, 1)).2) (elemBits f.fmtOut * j) (elemBits f.fmtOut))
    (by rw [length_cvtInputs c hc]; exact hj) (field_lt _ _ _)
  rw [← hbody, cvtGroup]
  by_cases hf : f.fmtOut = 0xC
  · obtain ⟨h256, -⟩ := (elems_fit hc hb).2 hf
    refine field_add_high ?_ _ _
    rw [← h256, ← Nat.mul_succ]
    exact Nat.mul_le_mul_left _ hj
  · rw [cvtTail_eq_zero hf]
    rfl

end cvt

section conversion
variable {s : State} {w : Issue} {f : VV}

/-- A conversion to elements writes its group and joins the elements' flags. -/
theorem effVcvt_elements (hi : s.fmtOk f.fmtIn = true) (ho : s.fmtOk f.fmtOut = true) (hr : f.rnd = 4 → s.licensed 7 = true)
    (hb : isBlock f.fmtOut = false) :
    effVcvt s w.core ⟨.vcvt f, w.pn, w.pred⟩ f = effCore w.core (fun q =>
      ({ setGroup q f.vd ((cvtShape f.fmtIn f.fmtOut).getD (1, 1)).2 (cvtGroup (s.core w.core) f ((s.core w.core).predBit w.pn w.pred)) with
        fflags := q.fflags ||| (cvtElements (s.core w.core) f ((s.core w.core).predBit w.pn w.pred)).foldl (fun a r => a ||| r.2) 0 } :
        Core)) := by
  have htail (p : Prop) [Decidable p] (a : Nat) : (if p then a * 2 ^ 256 else 0) = 2 ^ 256 * (if p then a else 0) := by
    split
    · exact Nat.mul_comm _ _
    · rfl
  rw [effVcvt, if_neg (by simp [hi]), if_neg (by simp [ho]), if_neg (fun h => absurd (hr h.1) (by simp [h.2]))]
  dsimp only
  rw [if_neg (by simp [hb]), foldl_converted, htail]
  rfl

/-- A conversion to a block format writes the whole record where bit 0 selects it. -/
theorem effVcvt_block (hi : s.fmtOk f.fmtIn = true) (ho : s.fmtOk f.fmtOut = true) (hr : f.rnd = 4 → s.licensed 7 = true)
    (hb : isBlock f.fmtOut = true) :
    effVcvt s w.core ⟨.vcvt f, w.pn, w.pred⟩ f =
      let bl := toBlock f.fmtOut (fun j => rndOf f.rnd (s.core w.core).srseed (s.core w.core).srctr j)
        (cvtInputs (s.core w.core) f (cvtElems f.fmtIn f.fmtOut))
      if (s.core w.core).predBit w.pn w.pred 0 = true then effCore w.core (fun q =>
        ({ q.setV f.vd (BitVec.ofNat 512 (recordOf f.fmtOut bl.1)) with fflags := q.fflags ||| bl.2 } : Core)) else effNone := by
  rw [effVcvt, if_neg (by simp [hi]), if_neg (by simp [ho]), if_neg (fun h => absurd (hr h.1) (by simp [h.2]))]
  dsimp only
  rw [if_pos hb]

end conversion

/-- Settles O12: the functions lane by lane, the row statistics in two lanes, and each conversion by what its output format is. -/
theorem vectorFunctionsAndConversionsRound : Obligations.VectorFunctionsAndConversionsRound := by
  unfold Obligations.VectorFunctionsAndConversionsRound
  refine ⟨?_, ?_⟩
  · intro s w f c n b on x ill fns
    refine ⟨fun h => specialLanes_spec h rfl rfl (show _ = effVexp s w.core ⟨_, _, _⟩ f from rfl),
      fun h => specialLanes_spec h rfl rfl (show _ = effVlog s w.core ⟨_, _, _⟩ f from rfl),
      fun h => specialLanes_spec h rfl rfl (show _ = effVrcp s w.core ⟨_, _, _⟩ f from rfl),
      fun h => specialLanes_spec h rfl rfl (show _ = effVrsqrt s w.core ⟨_, _, _⟩ f from rfl), ?_⟩
    intro h ms ss xs
    have he : effV s w.core ⟨.vrowstat f, w.pn, w.pred⟩ = effVrowstat s w.core ⟨.vrowstat f, w.pn, w.pred⟩ f := rfl
    refine ⟨fun hl => issue_unlicensed h rfl (he.trans (if_pos (by simp [hl]))), fun hl => ?_⟩
    obtain ⟨r, hr⟩ : ∃ r, r = if f.fn = 0 then rowMax ms ss xs else rowSum ms ss xs := ⟨_, rfl⟩
    have hgo : effV s w.core ⟨.vrowstat f, w.pn, w.pred⟩ = effCore w.core (fun e =>
        { e.setV f.vd (ofLanes 32 [r.1, r.2.1]) with fflags := e.fflags ||| r.2.2 }) := by
      rw [hr]
      exact he.trans (if_neg (by simp [hl]))
    have hlane (j : Nat) : lane (ofLanes 32 [r.1, r.2.1]) 32 j = [r.1, r.2.1].getD j 0 % 2 ^ 32 := lane_ofLanes (by simp) j
    refine ⟨_, _, issue_core h rfl hgo, fun j _ hj => ?_, fun hf => ?_, fun hf => ?_⟩
    · rw [hlane, List.getD_eq_default _ _ (by simpa using hj), Nat.zero_mod]
    · rw [if_pos hf] at hr
      rw [hlane, hlane, hr]
      exact ⟨rfl, rfl, rfl⟩
    · rw [if_neg (by rw [hf]; decide)] at hr
      rw [hlane, hlane, hr]
      exact ⟨rfl, rfl, rfl⟩
  · intro s w f h c sh n vs e go out on
    have hc : (cvtShape f.fmtIn f.fmtOut).isSome = true := by
      by_contra hc
      simpa [SlotOp.fmtBad, hc] using VBits.fmtBad_of_issues h rfl
    have he : effV s w.core ⟨.vcvt f, w.pn, w.pred⟩ = effVcvt s w.core ⟨.vcvt f, w.pn, w.pred⟩ f := rfl
    refine ⟨fun hgo hb => ?_, fun hgo hb hp => ?_, fun hgo hb hp => ?_, fun hi => ?_, fun hi ho => ?_, fun hi ho hr hl => ?_⟩
    · obtain ⟨hi, ho, hr⟩ := hgo
      refine ⟨_, _, issue_core h rfl (he.trans (effVcvt_elements hi ho hr hb)), cvtGroup_lt hc hb,
        fun j hj => field_cvtGroup hc hb hj, fun q => ?_⟩
      rw [show n = vs.length from (length_cvtInputs c hc).symm]
      exact flags_converted q
    · obtain ⟨hi, ho, hr⟩ := hgo
      exact issue_none h rfl (he.trans ((effVcvt_block hi ho hr hb).trans (if_neg (by rw [hp]; decide))))
    · obtain ⟨hi, ho, hr⟩ := hgo
      exact issue_core h rfl (he.trans ((effVcvt_block hi ho hr hb).trans (if_pos hp)))
    · exact issue_unlicensed h rfl (he.trans (if_pos (by simp [hi])))
    · exact issue_unlicensed h rfl (he.trans ((if_neg (by simp [hi])).trans (if_pos (by simp [ho]))))
    · exact issue_unlicensed (fmt := 0) h rfl (he.trans ((if_neg (by simp [hi])).trans ((if_neg (by simp [ho])).trans (if_pos ⟨hr, hl⟩))))

end Sys2Proof.VFuncs
end

section
/-! Walks of an address generator (R73, R74): the elements of an access, their alignment and their bytes. -/
namespace Sys2Proof.Walk

open Sys2Proof.Machine Sys2Proof.Claims Sys2Proof.Lanes

/-! ### The elements of an access -/

/-- The step that element j of an access stands at. -/
def stepAt (d : W512) (t j : Nat) : Nat := (AG.succ d)^[j] t

/-- Where element j of an access lies; nowhere for a padding element. -/
def target (d : W512) (t j : Nat) : Option Nat := if AG.padded d (stepAt d t j) = true then none else some (AG.addr d (stepAt d t j))

theorem steps_eq (d : W512) (n t : Nat) : AG.steps d n t = (List.range n).map (stepAt d t) := by
  induction n generalizing t with
  | zero => rfl
  | succ n ih =>
    rw [AG.steps, ih, List.range_succ_eq_map, List.map_cons, List.map_map]
    rfl

theorem targets_eq (r : AGReg) (n : Nat) :
    AG.targets r n = (List.range (n / 2 ^ AG.esize r.desc)).map (target r.desc (r.cur % AG.total r.desc)) := by
  rw [AG.targets, AG.elems, steps_eq, List.map_map]
  rfl

theorem target_eq_some {d : W512} {t j a : Nat} :
    target d t j = some a ↔ AG.padded d (stepAt d t j) = false ∧ AG.addr d (stepAt d t j) = a := by
  unfold target
  split
  · simp [*]
  · simp [*]

/-- The first misaligned element of an access is the one reported. -/
theorem badTarget_targets (r : AGReg) (n : Nat) :
    AG.badTarget r.desc (AG.targets r n) = ((List.range (n / 2 ^ AG.esize r.desc)).find? (fun j =>
      (target r.desc (r.cur % AG.total r.desc) j).any (fun a => a % 2 ^ AG.esize r.desc != 0))).bind
        (target r.desc (r.cur % AG.total r.desc)) := by
  rw [AG.badTarget, targets_eq, List.filterMap_map, List.find?_filterMap]
  rfl

/-- The elements of an access lie in the vector's lanes. -/
theorem esize_le {d : W512} (h : AG.ok d = true) : AG.esize d ≤ 6 := by
  have h8 : AG.esize d < 8 := BitVec.isLt _
  have h7 : AG.esize d ≠ 7 := by
    intro h7
    simp [AG.ok, h7] at h
  omega

theorem size_mul_elems {d : W512} (h : AG.ok d = true) : 2 ^ AG.esize d * (64 / 2 ^ AG.esize d) = 64 :=
  Nat.mul_div_cancel' (Nat.pow_dvd_pow 2 (esize_le h))

section check
variable {slot : Nat} {code : BitVec 7} {r : AGReg} (h : AG.ok r.desc = true)
include h

/-- An access whose elements are aligned passes. -/
theorem agCheck_of_aligned (ha : ∀ j < 64 / 2 ^ AG.esize r.desc, ∀ a, target r.desc (r.cur % AG.total r.desc) j = some a →
    a % 2 ^ AG.esize r.desc = 0) : agCheck slot code r 64 = .ok (AG.targets r 64) := by
  have hb : AG.badTarget r.desc (AG.targets r 64) = none := by
    rw [badTarget_targets, List.find?_eq_none.mpr]
    · rfl
    · intro j hj
      cases ht : target r.desc (r.cur % AG.total r.desc) j with
      | none => simp
      | some a => simpa using ha j (List.mem_range.mp hj) a ht
  rw [agCheck, if_neg (by have := Nat.pow_le_pow_right (n := 2) (by decide) (esize_le h); omega)]
  simp only [hb]

/-- The first misaligned element raises 0x04 with its address. -/
theorem agCheck_of_misaligned {j a : Nat} (hj : j < 64 / 2 ^ AG.esize r.desc)
    (ht : target r.desc (r.cur % AG.total r.desc) j = some a) (hm : a % 2 ^ AG.esize r.desc ≠ 0)
    (hlt : ∀ i < j, ∀ b, target r.desc (r.cur % AG.total r.desc) i = some b → b % 2 ^ AG.esize r.desc = 0) :
    agCheck slot code r 64 = .error (excAddr slot a) := by
  have hb : AG.badTarget r.desc (AG.targets r 64) = some a := by
    rw [badTarget_targets, List.find?_range_eq_some.mpr ⟨by simp [ht, hm], List.mem_range.mpr hj, fun i hi => ?_⟩]
    · exact ht
    · cases hb : target r.desc (r.cur % AG.total r.desc) i with
      | none => simp
      | some b => simpa using hlt i hi b hb
  rw [agCheck, if_neg (by have := Nat.pow_le_pow_right (n := 2) (by decide) (esize_le h); omega)]
  simp only [hb]

end check

/-! ### Bytes side by side -/

theorem leNat_append (a b : List Byte) : leNat (a ++ b) = leNat a + 256 ^ a.length * leNat b := by
  induction a with
  | nil => simp [leNat]
  | cons x a ih => rw [List.cons_append, leNat, leNat, ih, List.length_cons, Nat.pow_succ]; ring

theorem leNat_lt {n : Nat} {bs : List Byte} (h : bs.length = n) : leNat bs < 2 ^ (8 * n) := by
  rw [← h, Nat.pow_mul]
  exact LaunchTree.leNat_lt bs

/-- Chunks of n bytes are values of 8 × n bits side by side. -/
theorem leNat_flatMap {α : Type} {n : Nat} {g : α → List Byte} (l : List α) (h : ∀ x ∈ l, (g x).length = n) :
    leNat (l.flatMap g) = pack (8 * n) (l.map (fun x => leNat (g x))) := by
  induction l with
  | nil => rfl
  | cons x l ih =>
    have hx : (g x).length = n := h x List.mem_cons_self
    rw [List.flatMap_cons, leNat_append, ih (fun y hy => h y (List.mem_cons_of_mem _ hy)), List.map_cons, pack, hx,
      Nat.mod_eq_of_lt (leNat_lt hx), show (256 : Nat) = 2 ^ 8 from rfl, ← Nat.pow_mul]

/-- A chunk of a vector's bytes is a lane's bytes. -/
theorem vecBytes_chunk (v : W512) {n j : Nat} (h : n * (j + 1) ≤ 64) :
    ((vecBytes v).drop (j * n)).take n = leBytes n (lane v (8 * n) j) := by
  refine List.ext_getElem? fun i => ?_
  by_cases hi : i < n
  · have hlt : j * n + i < 64 := by rw [Nat.mul_succ, Nat.mul_comm] at h; omega
    rw [List.getElem?_take, if_pos hi, List.getElem?_drop, vecBytes, CSlot.leBytes_getElem? _ _ _ hlt, CSlot.leBytes_getElem? _ _ _ hi,
      lane_eq_field, field]
    refine congrArg some (BitVec.eq_of_toNat_eq (Nat.eq_of_testBit_eq fun q => ?_))
    by_cases hq : q < 8
    · have h1 : q + 8 * i < 8 * n := by omega
      simp only [BitVec.toNat_ofNat, Nat.testBit_mod_two_pow, Nat.testBit_div_two_pow, hq, h1, decide_true, Bool.true_and]
      congr 1
      ring
    · simp only [BitVec.toNat_ofNat, Nat.testBit_mod_two_pow, hq, decide_false, Bool.false_and]
  · rw [List.getElem?_eq_none (by simp [Nat.le_of_not_lt hi]), List.getElem?_eq_none (by simpa using hi)]

end Sys2Proof.Walk
end

section
/-! Vector loads and stores through an address generator (R70, R73, R74). -/
namespace Sys2Proof.VMem

open Sys2Proof.Machine Sys2Proof.Claims Sys2Proof.Lanes Sys2Proof.Issued Sys2Proof.Ecc Sys2Proof.Walk Sys2Proof.VSlot

/-! ### Storing elements one after the other -/

section store
variable {k : Nat}

/-- An element that is stored lies beside an address. -/
def Beside (k a : Nat) (e : Option Nat × List Byte × Bool) : Prop :=
  ∀ b, e.1 = some b → e.2.2 = true → a < spadAddr k b ∨ spadAddr k b + e.2.1.length ≤ a

theorem storeElems_cons_stored (b : Nat) (bs : List Byte) (l : List (Option Nat × List Byte × Bool)) (s : State) :
    storeElems k ((some b, bs, true) :: l) s = storeElems k l (s.spadWr k b bs) := rfl

theorem storeElems_append (l r : List (Option Nat × List Byte × Bool)) (s : State) :
    storeElems k (l ++ r) s = storeElems k r (storeElems k l s) := by
  induction l generalizing s with
  | nil => rfl
  | cons e l ih =>
    obtain ⟨_ | b, bs, _ | _⟩ := e
    · exact ih s
    · exact ih s
    · exact ih s
    · exact ih _

/-- Storing elements changes the core's records of errors alone. -/
theorem errors_storeElems (l : List (Option Nat × List Byte × Bool)) (s : State) :
    ErrorsOnly (s.core k) ((storeElems k l s).core k) := by
  induction l generalizing s with
  | nil => exact .refl _
  | cons e l ih =>
    obtain ⟨_ | b, bs, _ | _⟩ := e
    · exact ih s
    · exact ih s
    · exact ih s
    · exact (errors_spadWr s k b bs).trans (ih _)

theorem storeElems_core_ne (l : List (Option Nat × List Byte × Bool)) (s : State) {j : Nat} (hj : j ≠ k) :
    (storeElems k l s).core j = s.core j := by
  induction l generalizing s with
  | nil => rfl
  | cons e l ih =>
    obtain ⟨_ | b, bs, _ | _⟩ := e
    · exact ih s
    · exact ih s
    · exact ih s
    · exact (ih _).trans (spadWr_core_ne s k b bs hj)

/-- A byte beside every stored element reads as before. -/
theorem rd_storeElems (l : List (Option Nat × List Byte × Bool)) (s : State) {a : Nat} (h : ∀ e ∈ l, Beside k a e) :
    rd (storeElems k l s).mem a = rd s.mem a := by
  induction l generalizing s with
  | nil => rfl
  | cons e l ih =>
    have hl := fun s => ih s (fun e he => h e (List.mem_cons_of_mem _ he))
    have he := h e List.mem_cons_self
    obtain ⟨_ | b, bs, _ | _⟩ := e
    · exact hl s
    · exact hl s
    · exact hl s
    · rw [storeElems_cons_stored, hl, spadWr_mem]
      exact rd_wrN_ne _ _ _ _ (he b rfl rfl)

/-- A stored element stands where no later one reaches. -/
theorem rdN_storeElems (l r : List (Option Nat × List Byte × Bool)) (s : State) {b : Nat} {bs : List Byte}
    (h : ∀ e ∈ r, ∀ i < bs.length, Beside k (spadAddr k b + i) e) :
    rdN (storeElems k (l ++ (some b, bs, true) :: r) s).mem (spadAddr k b) bs.length = bs := by
  rw [storeElems_append, storeElems_cons_stored]
  refine List.ext_getElem (rdN_length _ _ _) fun i hi hb => ?_
  refine Option.some.inj ?_
  rw [← List.getElem?_eq_getElem hi, rdN_getElem? _ _ _ _ hb, rd_storeElems r _ (fun e he => h e he i hb), spadWr_mem,
    rd_wrN _ _ _ _ hb]

end store

/-! ### The elements of a vector -/

/-- The elements of a vector store: where each lies, its bytes, and whether the predicate selects it. -/
def elements (v : W512) (sz : Nat) (tgt : Nat → Option Nat) (on : Nat → Bool) (n : Nat) : List (Option Nat × List Byte × Bool) :=
  (List.range n).map (fun j => (tgt j, leBytes sz (lane v (8 * sz) j), on j))

section elements
variable {v : W512} {sz n : Nat} {tgt : Nat → Option Nat} {on : Nat → Bool} {k : Nat}

/-- The model's list of elements. -/
theorem zipIdx_elements (h : sz * n = 64) :
    (((List.range n).map tgt).zipIdx).map (fun p => (p.1, ((vecBytes v).drop (p.2 * sz)).take sz, on p.2)) =
      elements v sz tgt on n := by
  refine List.ext_getElem (by simp [elements]) fun j hj _ => ?_
  have hlt : j < n := by simpa using hj
  have hc := vecBytes_chunk v (n := sz) (j := j) (by rw [← h]; exact Nat.mul_le_mul_left _ hlt)
  simp [elements, hc]

/-- A byte beside every selected element reads as before. -/
theorem rd_store_elements (s : State) {a : Nat}
    (h : ∀ j < n, on j = true → ∀ b, tgt j = some b → a < spadAddr k b ∨ spadAddr k b + sz ≤ a) :
    rd (storeElems k (elements v sz tgt on n) s).mem a = rd s.mem a := by
  refine rd_storeElems _ _ fun e he => ?_
  obtain ⟨j, hj, rfl⟩ := List.mem_map.mp he
  intro b hb hon
  rw [CSlot.leBytes_length]
  exact h j (List.mem_range.mp hj) hon b hb

/-- The last selected element at an address stands there. -/
theorem rdN_store_elements (s : State) {j b : Nat} (hj : j < n) (hon : on j = true) (hb : tgt j = some b)
    (h : ∀ i < n, j < i → on i = true → ∀ a, tgt i = some a → a + sz ≤ b ∨ b + sz ≤ a) :
    rdN (storeElems k (elements v sz tgt on n) s).mem (spadAddr k b) sz = leBytes sz (lane v (8 * sz) j) := by
  have hlen : j < (elements v sz tgt on n).length := by simpa [elements] using hj
  have hsplit : elements v sz tgt on n = (elements v sz tgt on n).take j ++
      (some b, leBytes sz (lane v (8 * sz) j), true) :: (elements v sz tgt on n).drop (j + 1) := by
    conv_lhs => rw [← List.take_append_drop j (elements v sz tgt on n), List.drop_eq_getElem_cons hlen]
    simp [elements, hb, hon]
  have hl := CSlot.leBytes_length sz (lane v (8 * sz) j)
  have hgo := rdN_storeElems (k := k) ((elements v sz tgt on n).take j) ((elements v sz tgt on n).drop (j + 1)) s (b := b)
    (bs := leBytes sz (lane v (8 * sz) j)) ?_
  · rwa [← hsplit, hl] at hgo
  · intro e he q hq a ha hsel
    rw [hl] at hq
    obtain ⟨i, hi, rfl⟩ := List.mem_drop_iff_getElem.mp he
    simp only [elements, List.length_map, List.length_range, List.getElem_map, List.getElem_range] at hi ha hsel ⊢
    rw [CSlot.leBytes_length]
    have := h (j + 1 + i) (by omega) (by omega) hsel a ha
    unfold spadAddr
    omega

end elements

/-! ### VLD and VST -/

/-- A write of an address generator changes the address generators alone. -/
theorem sameFiles_setA (c : Core) (i : BitVec 4) (v : AGReg) : SameFiles c (c.setA i v) :=
  ⟨rfl, rfl, rfl, rfl, rfl, rfl, rfl, rfl, rfl, rfl, rfl, rfl, rfl, rfl, rfl, rfl, rfl, rfl⟩

/-- The value of element j of a vector load: zero in the padding, else the bytes at its address. -/
def loaded (s : State) (k : Nat) (r : AGReg) (j : Nat) : Nat :=
  if AG.padded r.desc (stepAt r.desc (r.cur % AG.total r.desc) j) = true then 0
  else leNat (rdN s.mem (spadAddr k (AG.addr r.desc (stepAt r.desc (r.cur % AG.total r.desc) j))) (2 ^ AG.esize r.desc))

theorem loaded_lt (s : State) (k : Nat) (r : AGReg) (j : Nat) : loaded s k r j < 2 ^ (8 * 2 ^ AG.esize r.desc) := by
  unfold loaded
  split
  · exact Nat.two_pow_pos _
  · exact leNat_lt (rdN_length _ _ _)

theorem leNat_zeros (n : Nat) : leNat (List.replicate n 0) = 0 := by
  induction n with
  | zero => rfl
  | succ n ih => rw [List.replicate_succ, leNat, ih]; rfl

/-- The bytes of an access are its elements' values side by side. -/
theorem leNat_fetch (s : State) (k : Nat) (r : AGReg) :
    leNat (AG.fetch s k r.desc (AG.targets r 64)) =
      pack (8 * 2 ^ AG.esize r.desc) ((List.range (64 / 2 ^ AG.esize r.desc)).map (loaded s k r)) := by
  rw [AG.fetch, targets_eq, List.flatMap_map, leNat_flatMap]
  · congr 1
    refine List.map_congr_left fun j _ => ?_
    by_cases hp : AG.padded r.desc (stepAt r.desc (r.cur % AG.total r.desc) j) = true
    · simp only [loaded, target, hp, if_true, leNat_zeros]
    · simp only [loaded, target, if_neg hp]
      rfl
  · intro j _
    unfold target
    split
    · simp
    · exact rdN_length _ _ _

/-- A lane of the fetched vector is its element's value. -/
theorem lane_fetch (s : State) (k : Nat) {r : AGReg} (h : AG.ok r.desc = true) {j : Nat} (hj : j < 64 / 2 ^ AG.esize r.desc) :
    lane (BitVec.ofNat 512 (leNat (AG.fetch s k r.desc (AG.targets r 64)))) (8 * 2 ^ AG.esize r.desc) j = loaded s k r j := by
  have hs := size_mul_elems h
  rw [leNat_fetch, lane_eq_field, toNat_ofNat_pack (by rw [List.length_map, List.length_range, Nat.mul_assoc, hs]), field_pack,
    List.getD_eq_getElem?_getD, List.getElem?_map, List.getElem?_range hj]
  exact Nat.mod_eq_of_lt (loaded_lt s k r j)

section access
variable {s : State} {w : Issue} {f : VM}

theorem effVld_of_good {r : AGReg} (hr : (s.core w.core).getA f.an = r)
    (hc : agCheck 1 (SlotOp.code (.vld f)) r 64 = .ok (AG.targets r 64))
    (hb : (s.core w.core).badRow (AG.words r.desc (AG.targets r 64)) = none) :
    effVld s w.core ⟨.vld f, w.pn, w.pred⟩ f = effCore w.core (fun e =>
      ((e.engineRead (AG.words r.desc (AG.targets r 64))).setV f.v (writeLanes ((s.core w.core).getV f.v) (8 * 2 ^ AG.esize r.desc)
        (512 / (8 * 2 ^ AG.esize r.desc)) ((s.core w.core).predBit w.pn w.pred)
        (fun j => (lane (BitVec.ofNat 512 (leNat (AG.fetch s w.core r.desc (AG.targets r 64)))) (8 * 2 ^ AG.esize r.desc) j, 0))).1).setA f.an
          (AG.advance r (512 / (8 * 2 ^ AG.esize r.desc)))) := by
  subst hr
  rw [effVld]
  simp only [hc, hb]
  rfl

theorem effVld_of_poisoned {r : AGReg} (hr : (s.core w.core).getA f.an = r)
    (hc : agCheck 1 (SlotOp.code (.vld f)) r 64 = .ok (AG.targets r 64)) {q : Nat}
    (hb : (s.core w.core).badRow (AG.words r.desc (AG.targets r 64)) = some q) :
    effVld s w.core ⟨.vld f, w.pn, w.pred⟩ f = .error (excEcc 1 q) := by
  subst hr
  rw [effVld]
  simp only [hc, hb]

theorem effVst_of_good {r : AGReg} (hr : (s.core w.core).getA f.an = r) (h : AG.ok r.desc = true)
    (hc : agCheck 1 (SlotOp.code (.vst f)) r 64 = .ok (AG.targets r 64)) :
    effVst s w.core ⟨.vst f, w.pn, w.pred⟩ f = .ok (fun t => (storeElems w.core (elements ((s.core w.core).getV f.v) (2 ^ AG.esize r.desc)
      (target r.desc (r.cur % AG.total r.desc)) ((s.core w.core).predBit w.pn w.pred) (64 / 2 ^ AG.esize r.desc)) t).modCore w.core
        (fun e => e.setA f.an (AG.advance r (64 / 2 ^ AG.esize r.desc)))) := by
  subst hr
  rw [effVst, ← zipIdx_elements (size_mul_elems h), ← targets_eq]
  simp only [hc]

theorem effVld_of_misaligned {r : AGReg} {e : Exc} (hr : (s.core w.core).getA f.an = r)
    (hc : agCheck 1 (SlotOp.code (.vld f)) r 64 = .error e) : effVld s w.core ⟨.vld f, w.pn, w.pred⟩ f = .error e := by
  subst hr
  rw [effVld]
  simp only [hc]

theorem effVst_of_misaligned {r : AGReg} {e : Exc} (hr : (s.core w.core).getA f.an = r)
    (hc : agCheck 1 (SlotOp.code (.vst f)) r 64 = .error e) : effVst s w.core ⟨.vst f, w.pn, w.pred⟩ f = .error e := by
  subst hr
  rw [effVst]
  simp only [hc]

end access

/-- Two aligned elements lie apart or at one address. -/
theorem aligned_apart {a b sz : Nat} (ha : a % sz = 0) (hb : b % sz = 0) (h : a ≠ b) : a + sz ≤ b ∨ b + sz ≤ a := by
  obtain ⟨x, rfl⟩ := Nat.dvd_of_mod_eq_zero ha
  obtain ⟨y, rfl⟩ := Nat.dvd_of_mod_eq_zero hb
  rcases Nat.lt_trichotomy x y with hlt | rfl | hlt
  · exact .inl (by rw [← Nat.mul_succ]; exact Nat.mul_le_mul_left _ hlt)
  · exact absurd rfl h
  · exact .inr (by rw [← Nat.mul_succ]; exact Nat.mul_le_mul_left _ hlt)

/-- Settles O13: the elements' values are the vector's lanes side by side, and a store puts the selected ones in order. -/
theorem vectorLoadsAndStoresWalk : Obligations.VectorLoadsAndStoresWalk := by
  unfold Obligations.VectorLoadsAndStoresWalk
  intro s w f c r sz n t at_ bad on
  have hld : effV s w.core ⟨.vld f, w.pn, w.pred⟩ = effVld s w.core ⟨.vld f, w.pn, w.pred⟩ f := rfl
  have hst : effV s w.core ⟨.vst f, w.pn, w.pred⟩ = effVst s w.core ⟨.vst f, w.pn, w.pred⟩ f := rfl
  have aligned (hb : ¬ bad) (j : Nat) (hj : j < n) (a : Nat) (ha : target r.desc t j = some a) : a % sz = 0 := by
    obtain ⟨hp, rfl⟩ := target_eq_some.mp ha
    by_contra hm
    exact hb ⟨j, hj, hp, hm⟩
  refine ⟨fun hi hok hb hrow => ?_, fun hi hok hb => ?_, fun q hi hok hb hrow => ?_, fun j hj hok hp hm hlt => ?_⟩
  · have he := effVld_of_good (w := w) (f := f) rfl (agCheck_of_aligned hok (aligned hb)) hrow
    have hn : 512 / (8 * 2 ^ AG.esize r.desc) = n := Nat.mul_div_mul_left (m := 8) 64 _ (by decide)
    rw [hn] at he
    refine ⟨_, issue_core hi rfl (hld.trans he), fun j hj => ?_⟩
    have hfill : 8 * sz * n ≤ 512 := by rw [Nat.mul_assoc, size_mul_elems hok]
    rw [lane_writeLanes _ _ _ _ _ hfill hj, lane_fetch s w.core hok hj, Nat.mod_eq_of_lt (loaded_lt _ _ _ _)]
    rfl
  · have he := effVst_of_good (w := w) (f := f) rfl hok (agCheck_of_aligned hok (aligned hb))
    have hr3 : c.st = 3 := hi.1.1.1
    have ha : After 0 c ((issued s w .v (.vst f)).core w.core) := issued_after hr3 .v (.vst f)
    have hw := errors_storeElems (k := w.core) (elements (c.getV f.v) sz (target r.desc t) on n) (issued s w .v (.vst f))
    refine ⟨_, issue_ok hi rfl (hst.trans he), ?_, fun i hne => ?_, ?_, fun i hne => ?_, fun a hout => ?_, fun j hj hon hp hlast => ?_⟩
    · rw [State.core_modCore, Core.getA_setA, if_pos rfl]
    · rw [State.core_modCore, Core.getA_setA, if_neg hne, hw.getA, ha.getA]
    · rw [State.core_modCore]
      exact CSlot.sameFiles_trans (CSlot.sameFiles_trans ha.sameFiles hw.sameFiles) (sameFiles_setA _ _ _)
    · rw [State.core_modCore_ne _ _ hne, storeElems_core_ne _ _ hne, issued_core_ne hr3 _ _ hne]
    · refine (rd_store_elements _ fun j hj hon b hb => ?_).trans (by rw [issued_mem hr3])
      obtain ⟨hp, rfl⟩ := target_eq_some.mp hb
      exact hout j hj hon hp
    · refine rdN_store_elements _ hj hon (target_eq_some.mpr ⟨hp, rfl⟩) fun i hi' hlt hon' a ht => ?_
      have haligned := aligned hb
      have h1 := haligned i hi' a ht
      have h2 := haligned j hj _ (target_eq_some.mpr ⟨hp, rfl⟩)
      obtain ⟨hp', rfl⟩ := target_eq_some.mp ht
      exact aligned_apart h1 h2 (hlast i hi' hlt hon' hp')
  · exact issue_poisoned hi rfl (hld.trans (effVld_of_poisoned rfl (agCheck_of_aligned hok (aligned hb)) hrow))
  · intro a
    have hc (code : BitVec 7) : agCheck 1 code r 64 = .error ⟨0x04, 1, a⟩ :=
      agCheck_of_misaligned hok hj (target_eq_some.mpr ⟨hp, rfl⟩) hm fun i hi b hb => by
        obtain ⟨hpi, rfl⟩ := target_eq_some.mp hb
        exact (hlt i hi).resolve_left (ne_true_of_eq_false hpi)
    exact ⟨fun hi => issue_raises hi rfl (hld.trans (effVld_of_misaligned rfl (hc _))) (show (0x04 : Byte) ≠ 0x05 by decide),
      fun hi => issue_raises hi rfl (hst.trans (effVst_of_misaligned rfl (hc _))) (show (0x04 : Byte) ≠ 0x05 by decide)⟩

end Sys2Proof.VMem
end

section
/-! The end of a set instruction with none running (R230, R238), in a state whose map of cores lists a core at its reset value. -/
namespace Sys2Proof.Sets

open Sys2Proof.Machine Sys2Proof.Claims

/-- The machine after reset, with core 0 listed in the map of cores at the value that an unlisted core has. -/
def listed : State := { State.reset with cores := [(0, Core.reset)] }

/-- SET_ENGINE_DONE puts the core back into the map, which drops the entry. -/
theorem setEngineDone_listed : exec (.setEngineDone 0) listed = .next State.reset := by
  have hput (c : Core) (h : c = Core.reset) : listed.setCore 0 c = State.reset := by
    subst h
    simp [State.setCore, listed, sput, sdel, State.reset]
  exact congrArg Host.Outcome.next (hput _ rfl)

/-- Refutes O14: in `listed` no set instruction runs at core 0, and SET_ENGINE_DONE leaves a state whose map of cores is empty. Every
core reads as before, but the state is another one. -/
theorem not_sortsFinishAndMergeInOrder : ¬ Obligations.SortsFinishAndMergeInOrder := by
  unfold Obligations.SortsFinishAndMergeInOrder
  rintro ⟨-, finishes, -⟩
  have idle : exec (.setEngineDone 0) listed = .next listed := (finishes listed 0).1 rfl
  rw [setEngineDone_listed] at idle
  have hcores : State.reset.cores = listed.cores := congrArg State.cores (Host.Outcome.next.inj idle)
  exact absurd hcores (List.cons_ne_nil _ _).symm

end Sys2Proof.Sets
end

section
/-! A bundle presented at a core (R86, R94, R97, R98, R452): what the core does in the order of its checks. -/
namespace Sys2Proof.Present

open Sys2Proof.Machine Sys2Proof.Claims

/-- The command of an instruction presents the bundle that holds it. -/
theorem exec_commandOf {s : State} {w : Issue} {sl : Slot} {op : SlotOp} {i : Instr} (h : fits op sl) (hc : commandOf w sl op = some i) :
    exec i s = issue w sl op s := by
  cases op with
  | nop => cases hc; rfl
  | trap => cases hc; rfl
  | reserved _ => cases hc
  | _ =>
    obtain rfl := Option.some.inj hc
    rcases h with h | h | h
    · obtain rfl := Option.some.inj h
      rfl
    · cases h
    · cases h

/-- The exception that a boundary takes is one that waits, of the lowest code. -/
theorem firstExc_lowest {l : List Exc} (h : l ≠ []) : ∃ e ∈ l, firstExc l = some e ∧ ∀ e' ∈ l, e.code.toNat ≤ e'.code.toNat := by
  induction l with
  | nil => exact absurd rfl h
  | cons a l ih =>
    cases l with
    | nil => exact ⟨a, List.mem_cons_self, rfl, by simp⟩
    | cons b l =>
      obtain ⟨f, hf, hfirst, hle⟩ := ih (List.cons_ne_nil _ _)
      have hstep : firstExc (a :: b :: l) = if f.code < a.code then some f else some a := by
        rw [firstExc, hfirst]
      by_cases hlt : f.code < a.code
      · refine ⟨f, List.mem_cons_of_mem _ hf, by rw [hstep, if_pos hlt], fun e he => ?_⟩
        rcases List.mem_cons.mp he with rfl | he
        · exact Nat.le_of_lt hlt
        · exact hle e he
      · refine ⟨a, List.mem_cons_self, by rw [hstep, if_neg hlt], fun e he => ?_⟩
        rcases List.mem_cons.mp he with rfl | he
        · exact Nat.le_refl _
        · exact (Nat.le_of_not_lt hlt).trans (hle e he)

/-! ### The checks in their order -/

section checks
variable {s : State} {k : Nat} {b : Bundle} {l : List Rival}

theorem issueBundle_stopped (h3 : (s.core k).st ≠ 3) (h4 : (s.core k).st ≠ 4) : issueBundle s k b l = s := if_pos ⟨h3, h4⟩

theorem issueBundle_excepted (h : (s.core k).st = 3 ∨ (s.core k).st = 4) {e : Exc} (he : firstExc (s.core k).excPend = some e) :
    issueBundle s k b l = s.coreException k e := by
  unfold issueBundle
  rw [if_neg (by tauto)]
  simp only [he]

theorem issueBundle_atRelease (h : (s.core k).st = 4) (he : (s.core k).excPend = []) :
    issueBundle s k b l = s.modCore k (fun d => { d with hold := some .release }) := by
  unfold issueBundle
  rw [if_neg (by simp [h])]
  simp only [he, firstExc, h, if_true]

theorem issueBundle_istoreUe (h : (s.core k).st = 3) (he : (s.core k).excPend = []) (hu : ∃ q ∈ halves (s.core k).pc, q ∈ (s.core k).istoreUe) :
    issueBundle s k b l = s.coreException k ⟨0x06, 0xF, 0⟩ := by
  have hu' : (halves (s.core k).pc).any (s.core k).istoreUe.contains = true := by simpa [List.any_eq_true] using hu
  unfold issueBundle
  rw [if_neg (by simp [h])]
  simp only [he, firstExc, hu', if_true]
  rw [if_neg (by rw [h]; decide)]

/-- The state after a fetch has corrected and counted the single-bit errors of the bundle's halves (R97). -/
def corrected (s : State) (k : Nat) : State :=
  if ((halves (s.core k).pc).filter (s.core k).istoreCe.contains).length = 0 then s
  else s.modCore k (fun d =>
    { d with eccfix := d.eccfix + BitVec.ofNat 64 ((halves (s.core k).pc).filter (s.core k).istoreCe.contains).length })

/-- A fetch counts each half that it corrects and changes nothing else. -/
theorem corrected_core (s : State) (k : Nat) : (corrected s k).core k =
    { s.core k with
      eccfix := (s.core k).eccfix + BitVec.ofNat 64 ((halves (s.core k).pc).filter (s.core k).istoreCe.contains).length } := by
  unfold corrected
  split
  · rename_i h
    rw [h, BitVec.add_zero]
  · rw [State.core_modCore]

theorem corrected_mem (s : State) (k : Nat) : (corrected s k).mem = s.mem := by
  unfold corrected
  split <;> rfl

theorem corrected_of_ready (h : Ready s k) : corrected s k = s := by
  obtain ⟨-, -, hh⟩ := h
  refine if_pos (List.length_eq_zero_iff.mpr (List.filter_eq_nil_iff.mpr fun q hq => ?_))
  simpa using (hh q hq).2

/-- A fetched bundle: its holds, its encodings and its slots are looked at in this order, on the corrected state. -/
theorem issueBundle_fetched (h : (s.core k).st = 3) (he : (s.core k).excPend = [])
    (hu : ∀ q ∈ halves (s.core k).pc, q ∉ (s.core k).istoreUe) :
    (∀ x, holdReason (corrected s k) k b = some x →
      issueBundle s k b l = (corrected s k).modCore k (fun d => { d with hold := some x })) ∧
    (holdReason (corrected s k) k b = none →
      (∀ n o x, bundleEncodingBad b = some (n, o, x) → issueBundle s k b l = (corrected s k).coreException k (excIll n o x)) ∧
      (bundleEncodingBad b = none → illegalMask b ≠ 0 →
        issueBundle s k b l = (corrected s k).coreException k ⟨0x03, 0xF, BitVec.ofNat 16 (illegalMask b)⟩) ∧
      (bundleEncodingBad b = none → illegalMask b = 0 → issueBundle s k b l = issueEffects (corrected s k) k b l)) := by
  have hu' : ¬ (halves (s.core k).pc).any (s.core k).istoreUe.contains = true := by
    simpa [List.any_eq_true] using hu
  have h4 : ¬ (s.core k).st = 4 := by rw [h]; decide
  have hc : (if ((halves (s.core k).pc).filter (s.core k).istoreCe.contains).length = 0 then s
      else s.modCore k (fun d =>
        { d with eccfix := d.eccfix + BitVec.ofNat 64 ((halves (s.core k).pc).filter (s.core k).istoreCe.contains).length })) =
      corrected s k := rfl
  unfold issueBundle
  rw [if_neg (by simp [h])]
  simp only [he, firstExc, if_neg h4, if_neg hu', hc]
  refine ⟨fun x hx => ?_, fun hn => ⟨fun n o x hb => ?_, fun hb hm => ?_, fun hb hm => ?_⟩⟩
  · simp only [hx]
  · simp only [hn, hb]
  · simp only [hn, hb, if_pos hm]
  · simp only [hn, hb, hm, ne_eq, not_true, if_false]

/-- At a ready core the fetch corrects nothing. -/
theorem issueBundle_of_ready (h : Ready s k) :
    (∀ x, holdReason s k b = some x → issueBundle s k b l = s.modCore k (fun d => { d with hold := some x })) ∧
    (holdReason s k b = none →
      (∀ n o x, bundleEncodingBad b = some (n, o, x) → issueBundle s k b l = s.coreException k (excIll n o x)) ∧
      (bundleEncodingBad b = none → illegalMask b ≠ 0 →
        issueBundle s k b l = s.coreException k ⟨0x03, 0xF, BitVec.ofNat 16 (illegalMask b)⟩)) := by
  obtain ⟨h3, he, hh⟩ := id h
  obtain ⟨hheld, hpass⟩ := issueBundle_fetched (b := b) (l := l) h3 he (fun q hq => (hh q hq).1)
  rw [corrected_of_ready h] at hheld hpass
  exact ⟨hheld, fun hn => ⟨(hpass hn).1, (hpass hn).2.1⟩⟩

end checks

/-! ### Bundles of NOPs, and one instruction of the X slot among them -/

/-- Beside three NOPs only the X slot's own reasons hold a bundle whose X slot names no address generator and reaches no bank. -/
theorem holdReason_x {s : State} {k : Nat} {b : Bundle} (hc : b.c.op = .nop) (hv : b.v.op = .nop) (hm : b.m.op = .nop)
    (ha : b.x.op.ags = []) (hb : slotBanks s k b.x.op = []) : holdReason s k b = holdX (s.core k) b.x.op := by
  have hn : (SlotOp.nop).ags = [] := rfl
  have hr : (SlotOp.nop).vregs = [] := rfl
  unfold holdReason
  simp only [hc, hv, hm, List.flatMap_cons, List.flatMap_nil, List.any_cons, List.any_nil, ha, hb, hn, hr, slotBanks_nop,
    SlotOp.isSet, isMatrix]
  cases (s.core k).setRun <;> simp

theorem illegalMask_nops {b : Bundle} (hc : b.c.op = .nop) (hv : b.v.op = .nop) (hm : b.m.op = .nop) (hx : b.x.op = .nop) :
    illegalMask b = 0 := by
  simp [illegalMask, hc, hv, hm, hx, slotsClash_nop_right, SlotOp.cPort]

theorem bundleEncodingBad_nops {b : Bundle} (hc : b.c.op = .nop) (hv : b.v.op = .nop) (hm : b.m.op = .nop) (hx : b.x.op = .nop) :
    bundleEncodingBad b = none := by
  simp only [bundleEncodingBad, encodingBad_nop _ hc, encodingBad_nop _ hv, encodingBad_nop _ hm, encodingBad_nop _ hx]

/-- Four NOPs only let their bundle issue. -/
theorem issueEffects_nops {s : State} {w : Issue} {sl : Slot} (hc : (bundleOf w sl .nop).c.op = .nop) (hv : (bundleOf w sl .nop).v.op = .nop)
    (hm : (bundleOf w sl .nop).m.op = .nop) (hx : (bundleOf w sl .nop).x.op = .nop) :
    issueEffects s w.core (bundleOf w sl .nop) w.rivals = issued s w sl .nop := by
  have hn : ctrUsed (s.core w.core) (bundleOf w sl .nop) = (0, 0) := by simp [ctrUsed, hv, hm, usesCtrV, bitN]
  unfold issueEffects
  simp only [hn, effC_nop _ _ _ hc, effV_nop _ _ _ hv, effM_nop _ _ _ _ _ hm, effX_nop _ _ _ hx, slotDenied_nop _ _ _ _ _ hc,
    slotDenied_nop _ _ _ _ _ hv, slotDenied_nop _ _ _ _ _ hm]
  rfl

/-! ### Taking an exception (R94, R96) -/

section exception
variable (s : State) (k : Nat) (e : Exc)

/-- The state with the core stopped and CORE_FAULT posted, before the halt of the partition. -/
def faulted : State :=
  (s.modCore k (fun c => { c with st := 0x5, fault := e, fmove := c.move, fflagsReg := c.fflags, hold := none, excPend := [] })).raise
    0x0010 ((s.partOfCore k).getD 0) (leBytes 4 e.word.toNat ++ leBytes 2 (dieOf k) ++ leBytes 2 (siteOf k))

theorem coreException_eq : s.coreException k e = (faulted s k e).haltRank (rankOfDie (dieOf k)) .abort (.core (Fin.ofNat _ k)) := rfl

theorem haltRank_spec (t : State) (r : Nat) (kind : HaltKind) (src : HaltSrc) :
    (t.haltRank r kind src).cores = t.cores ∧ (t.haltRank r kind src).mem = t.mem ∧ (t.haltRank r kind src).events = t.events := by
  unfold State.haltRank
  split <;> exact ⟨rfl, rfl, rfl⟩

theorem coreException_core (j : Nat) : (s.coreException k e).core j = (s.modCore k (fun c =>
    { c with st := 0x5, fault := e, fmove := c.move, fflagsReg := c.fflags, hold := none, excPend := [] })).core j := by
  rw [coreException_eq, State.core, (haltRank_spec ..).1, faulted, State.raise_cores]
  rfl

/-- A posted event stands at the end of the list that has room for it. -/
theorem raise_events {t : State} {type p : Nat} {d : List Byte} (h : t.host.started = true ∨ t.events.length < 256) :
    (t.raise type p d).events = t.events ++ [⟨BitVec.ofNat 16 type, p, (t.part p).move, bytesAt d 0 16⟩] := by
  have hroom : ¬ (t.host.started = false ∧ 256 ≤ t.events.length) := by
    rintro ⟨h1, h2⟩
    rcases h with h | h
    · rw [h1] at h; cases h
    · omega
  unfold State.raise
  simp only [if_neg hroom]
  split <;> rfl

end exception

end Sys2Proof.Present
end

section
/-! Whole bundles (R70, R78, R86, R94): what the commands of the X slot do once their effect is known, instructions whose predicate is
false, and traps. -/
namespace Sys2Proof.Whole

open Sys2Proof.Machine Sys2Proof.Claims Sys2Proof.Present Sys2Proof.Issued

/-! ### A command of the X slot -/

section command
variable {s : State} {w : Issue} {op : SlotOp}

theorem issue_ok (h : Issues s w .x op) (hf : fits op .x) {g : State → State} (he : effX s w.core ⟨op, w.pn, w.pred⟩ = .ok g) :
    issue w .x op s = .next (g (issued s w .x op)) := by
  rw [issue_x h hf, he]

/-- An instruction that raises an exception other than 0x09 changes nothing else. -/
theorem issue_raises (h : Issues s w .x op) (hf : fits op .x) {e : Exc} (he : effX s w.core ⟨op, w.pn, w.pred⟩ = .error e)
    (hc : e.code ≠ 0x09) : issue w .x op s = .next (s.coreException w.core e) := by
  rw [issue_x h hf, he]
  simp only [if_neg hc]

end command

/-! ### A false predicate (R70) -/

/-- Outside the V slot an instruction whose predicate's bit 0 is 0 only lets its bundle issue. -/
theorem issue_of_predicate_false {s : State} {w : Issue} {sl : Slot} {op : SlotOp} (h : Issues s w sl op) (hf : fits op sl) (hv : sl ≠ .v)
    (hp : (s.core w.core).predBit w.pn w.pred 0 = false) : issue w sl op s = .next (issued s w sl op) := by
  cases sl with
  | c => rw [issue_c h hf, effC, if_pos (by simp [hp])]; rfl
  | v => exact absurd rfl hv
  | m => rw [issue_m h hf, effM, if_pos (by simp [hp])]; rfl
  | x => rw [issue_x h hf, effX, if_pos (by simp [hp])]; rfl

/-- An instruction of the X slot that has no effect of its own only lets its bundle issue, whatever its predicate. -/
theorem issue_x_none {s : State} {w : Issue} {op : SlotOp} (h : Issues s w .x op) (hf : fits op .x)
    (he : (s.core w.core).predBit w.pn w.pred 0 = true → effX s w.core ⟨op, w.pn, w.pred⟩ = effNone) :
    issue w .x op s = .next (issued s w .x op) := by
  cases hp : (s.core w.core).predBit w.pn w.pred 0 with
  | true => exact issue_ok h hf (he hp)
  | false => exact issue_of_predicate_false h hf (by decide) hp

/-! ### Holds of the X slot (R86) -/

/-- A ready core with an instruction of the X slot alone, which that slot holds. -/
theorem issue_x_held {s : State} {w : Issue} {op : SlotOp} (h : Ready s w.core) (ha : Alone w .x) (hags : op.ags = [])
    (hb : slotBanks s w.core op = []) {x : Hold} (hx : holdX (s.core w.core) op = some x) :
    issue w .x op s = .next (s.modCore w.core (fun d => { d with hold := some x })) := by
  have hheld := (issueBundle_of_ready (b := bundleOf w .x op) (l := w.rivals) h).1 x
  rw [holdReason_x (b := bundleOf w .x op) (ha .c (by decide)) (ha .v (by decide)) (ha .m (by decide)) hags hb] at hheld
  exact congrArg Host.Outcome.next (hheld hx)

/-! ### TRAP (R78) -/

/-- The number of a slot in an exception. -/
def slotNumber : Slot → BitVec 4
  | .c => 0
  | .v => 1
  | .m => 2
  | .x => 3

theorem issue_trap {s : State} {w : Issue} {sl : Slot} (h : Fires s w sl .trap) :
    issue w sl .trap s = .next (s.coreException w.core ⟨0x01, slotNumber sl, 0⟩) := by
  obtain ⟨hi, hp⟩ := h
  have hf : fits .trap sl := .inr (.inr rfl)
  cases sl with
  | c => rw [issue_c hi hf, effC, if_neg (by simp [hp])]; rfl
  | v =>
    have he : effV s w.core ⟨.trap, w.pn, w.pred⟩ = .error (excTrap 1) := if_pos hp
    rw [issue_v hi hf, he]; rfl
  | m => rw [issue_m hi hf, effM, if_neg (by simp [hp])]; rfl
  | x => rw [issue_x hi hf, effX, if_neg (by simp [hp])]; rfl

/-- A NOP alone stands in a bundle of four. -/
theorem nops_of_alone {w : Issue} {sl : Slot} (h : Alone w sl) :
    (bundleOf w sl .nop).c.op = .nop ∧ (bundleOf w sl .nop).v.op = .nop ∧ (bundleOf w sl .nop).m.op = .nop ∧
      (bundleOf w sl .nop).x.op = .nop := by
  cases sl with
  | c => exact ⟨rfl, h .v (by decide), h .m (by decide), h .x (by decide)⟩
  | v => exact ⟨h .c (by decide), rfl, h .m (by decide), h .x (by decide)⟩
  | m => exact ⟨h .c (by decide), h .v (by decide), rfl, h .x (by decide)⟩
  | x => exact ⟨h .c (by decide), h .v (by decide), h .m (by decide), rfl⟩

/-- At a core that runs and has no error to take, a bundle of four NOPs issues on the corrected state. -/
theorem issue_nops {s : State} {w : Issue} {sl : Slot} (h3 : (s.core w.core).st = 3) (he : (s.core w.core).excPend = [])
    (hu : ∀ q ∈ halves (s.core w.core).pc, q ∉ (s.core w.core).istoreUe) (ha : Alone w sl) :
    issue w sl .nop s = .next (issued (corrected s w.core) w sl .nop) := by
  obtain ⟨hc, hv, hm, hx⟩ := nops_of_alone ha
  obtain ⟨-, hpass⟩ := issueBundle_fetched (b := bundleOf w sl .nop) (l := w.rivals) h3 he hu
  have hhold : holdReason (corrected s w.core) w.core (bundleOf w sl .nop) = none := by
    rw [holdReason_x hc hv hm (by rw [hx]; rfl) (by rw [hx]; rfl), hx]
    rfl
  rw [← issueEffects_nops hc hv hm hx]
  exact congrArg Host.Outcome.next ((hpass hhold).2.2 (bundleEncodingBad_nops hc hv hm hx) (illegalMask_nops hc hv hm hx))

/-- Settles O16: the checks of a presented bundle in their order, the bundles that only issue, the holds of the X slot, and what a taken
exception leaves. -/
theorem bundlesIssueWholeOrNotAtAll : Obligations.BundlesIssueWholeOrNotAtAll := by
  unfold Obligations.BundlesIssueWholeOrNotAtAll
  refine ⟨fun s w sl op i hf hc => ?_, fun s w sl op i hf hv hc h hp => ?_, fun s w => ?_, ?_, ?_, ?_⟩
  · intro k c b raises
    have hexec : exec i s = .next (issueBundle s k b w.rivals) := exec_commandOf hf hc
    rw [show raises = fun e => exec i s = .next (s.coreException k e) from rfl, hexec]
    refine ⟨fun h3 h4 => ?_, fun h4 he => ?_, fun h he => ?_, fun h3 he hu => ?_, fun hr x hx => ?_,
      fun hr hn => ⟨fun n o x hb => ?_, fun hb hm => ?_⟩⟩
    · rw [issueBundle_stopped h3 h4]
    · rw [issueBundle_atRelease h4 he]
    · obtain ⟨e, hmem, hfirst, hle⟩ := firstExc_lowest he
      exact ⟨e, hmem, by rw [issueBundle_excepted h hfirst], hle⟩
    · rw [issueBundle_istoreUe h3 he hu]
    · rw [(issueBundle_of_ready hr).1 x hx]
    · obtain ⟨-, hpass⟩ := issueBundle_of_ready (l := w.rivals) hr
      rw [(hpass hn).1 n o x hb, excIll, illDetail]
    · obtain ⟨-, hpass⟩ := issueBundle_of_ready (l := w.rivals) hr
      rw [(hpass hn).2 hb hm]
  · rw [exec_commandOf hf hc]
    exact issue_of_predicate_false h hf hv hp
  · intro c held
    refine ⟨fun sl h => ?_, fun sl h3 he hu ha => ?_, fun f h => ?_, fun f h => ?_, fun f h => ?_,
      fun hr ha => ⟨fun f hlt => ?_, fun f hg => ?_, fun f hl => ?_, fun f hb => ?_⟩⟩
    · obtain ⟨⟨hr, ha, -, -⟩, -⟩ := h
      obtain ⟨h3, he, hh⟩ := id hr
      have hi := issue_nops h3 he (fun q hq => (hh q hq).1) ha
      rwa [corrected_of_ready hr] at hi
    · have hcore := corrected_core s w.core
      have h3' : ((corrected s w.core).core w.core).st = 3 := by rw [hcore]; exact h3
      have hafter := issued_after h3' sl .nop
      rw [hcore] at hafter
      refine ⟨_, issue_nops h3 he hu ha, hafter.pc_eq, ?_, hafter.getX, ?_⟩
      · rw [issued_mem h3', corrected_mem]
      · have hmem : (fun q => decide (q ∈ c.istoreCe)) = c.istoreCe.contains := by funext q; simp
        rw [hmem]
        exact hafter.field Core.eccfix rfl
    · exact issue_x_none h (.inl rfl) fun hp => if_neg (by simp [hp])
    · exact issue_x_none h (.inl rfl) fun hp => if_neg (by simp [hp])
    · exact issue_x_none h (.inl rfl) fun hp => if_neg (by simp [hp])
    · exact issue_x_held hr ha rfl rfl (if_pos hlt)
    · exact ⟨issue_x_held hr ha rfl rfl (if_pos hg), issue_x_held hr ha rfl rfl (if_pos hg), issue_x_held hr ha rfl rfl (if_pos hg)⟩
    · exact issue_x_held hr ha rfl rfl (if_pos hl)
    · exact issue_x_held hr ha rfl rfl (if_pos (by simpa using hb))
  · exact fun s w sl h => issue_trap h
  · exact fun s w f h => issue_raises h.1 (.inl rfl) (if_neg (by simp [h.2])) (show (0x0B : Byte) ≠ 0x09 by decide)
  · intro s k e t c d
    have hcore : d = { c with st := 0x5, fault := e, fmove := c.move, fflagsReg := c.fflags, hold := none, excPend := [] } := by
      rw [show d = _ from coreException_core s k e k, State.core_modCore]
    obtain ⟨-, hmem, hev⟩ := haltRank_spec (faulted s k e) (rankOfDie (dieOf k)) .abort (.core (Fin.ofNat _ k))
    rw [← coreException_eq] at hmem hev
    rw [hcore]
    refine ⟨rfl, rfl, rfl, rfl, rfl, rfl, rfl, rfl, rfl, rfl, rfl, rfl, ?_, fun j hj => ?_, fun hroom => ?_, fun p hp hn => ?_⟩
    · rw [show t.mem = _ from hmem, faulted, State.raise_mem]
      rfl
    · rw [show t.core j = _ from coreException_core s k e j, State.core_modCore_ne _ _ hj]
    · exact ⟨_, hev.trans (raise_events hroom), rfl⟩
    · have hparts : (faulted s k e).parts = s.parts := by
        rw [faulted, State.raise_parts]
        rfl
      have hrank : (faulted s k e).partOfRank (rankOfDie (dieOf k)) = some p := by
        rw [State.partOfRank, hparts]
        exact hp
      have hpart : (faulted s k e).part p = s.part p := by
        rw [State.part, hparts]
        rfl
      rw [show t = _ from coreException_eq s k e, State.haltRank, hrank]
      simp only [State.raiseHalt, State.part_modPart, hpart, hn]

end Sys2Proof.Whole
end

section
/-! The M slot (R88, R108, R113, R115, R118, R123): an instruction joins the feed queue with the operands that it latched. -/
namespace Sys2Proof.Feed

open Sys2Proof.Machine Sys2Proof.Claims Sys2Proof.Issued Sys2Proof.Ecc

/-! ### Writing address generators -/

/-- A core with address generators written one after the other. -/
def withAgs (c : Core) (ags : List (BitVec 4 × AGReg)) : Core := ags.foldl (fun d p => d.setA p.1 p.2) c

section ags
variable (c : Core) (ags : List (BitVec 4 × AGReg))

theorem withAgs_eq : withAgs c ags = { c with a := (withAgs c ags).a } := by
  induction ags generalizing c with
  | nil => rfl
  | cons p l ih =>
    have h := ih (c.setA p.1 p.2)
    exact h

theorem withAgs_getA_ne {i : BitVec 4} (h : ∀ p ∈ ags, p.1 ≠ i) : (withAgs c ags).getA i = c.getA i := by
  induction ags generalizing c with
  | nil => rfl
  | cons p l ih =>
    rw [withAgs, List.foldl_cons]
    refine (ih (c.setA p.1 p.2) fun q hq => h q (List.mem_cons_of_mem _ hq)).trans ?_
    rw [Core.getA_setA, if_neg (h p List.mem_cons_self).symm]

/-- Of distinct registers each holds what was written to it. -/
theorem withAgs_getA (hd : ags.Pairwise (fun p q => p.1 ≠ q.1)) : ∀ p ∈ ags, (withAgs c ags).getA p.1 = p.2 := by
  induction ags generalizing c with
  | nil => exact fun p hp => absurd hp List.not_mem_nil
  | cons a l ih =>
    obtain ⟨ha, hl⟩ := List.pairwise_cons.mp hd
    intro p hp
    rcases List.mem_cons.mp hp with rfl | hp
    · refine (withAgs_getA_ne (c.setA p.1 p.2) l fun q hq => (ha q hq).symm).trans ?_
      rw [Core.getA_setA, if_pos rfl]
    · exact ih (c.setA a.1 a.2) hl p hp

end ags

/-! ### Joining the queue -/

/-- A core whose queue has taken an entry, after issuing and the reads of the operands. -/
theorem fed_spec {n : Nat} {c d d' u : Core} {e : FeedEntry} {ags : List (BitVec 4 × AGReg)} (ha : After n c d) (hw : ErrorsOnly d d')
    (hd : ags.Pairwise (fun p q => p.1 ≠ q.1)) (hu : u = withAgs (d'.feed e) ags) :
    u.queue = c.queue ++ [e] ∧ u.active = c.active ∧ u.shadow = c.shadow ∧ u.acc = c.acc ∧ u.cell = c.cell ∧
      u.mtxQmax.toNat = max c.mtxQmax.toNat (min 17 (c.queue.length + 1)) ∧ (∀ p ∈ ags, u.getA p.1 = p.2) ∧
      ∀ i, (∀ p ∈ ags, p.1 ≠ i) → u.getA i = c.getA i := by
  have hq : d'.queue = c.queue := (hw.field Core.queue rfl).trans (ha.field Core.queue rfl)
  have hmax : d'.mtxQmax = c.mtxQmax := (hw.field Core.mtxQmax rfl).trans (ha.field Core.mtxQmax rfl)
  have heq := withAgs_eq (d'.feed e) ags
  rw [← hu] at heq
  refine ⟨(congrArg Core.queue heq).trans (congrArg (· ++ [e]) hq),
    (congrArg Core.active heq).trans ((hw.field Core.active rfl).trans (ha.field Core.active rfl)),
    (congrArg Core.shadow heq).trans ((hw.field Core.shadow rfl).trans (ha.field Core.shadow rfl)),
    (congrArg Core.acc heq).trans ((hw.field Core.acc rfl).trans (ha.field Core.acc rfl)),
    (congrArg Core.cell heq).trans ((hw.field Core.cell rfl).trans (ha.field Core.cell rfl)), ?_, hu ▸ withAgs_getA _ _ hd, fun i hne => ?_⟩
  · have hlt := c.mtxQmax.isLt
    rw [heq]
    change (BitVec.ofNat 5 (max d'.mtxQmax.toNat (min 17 (d'.queue ++ [e]).length))).toNat = _
    rw [hq, hmax, List.length_append, List.length_singleton, BitVec.toNat_ofNat, Nat.mod_eq_of_lt (by omega)]
  · rw [hu, withAgs_getA_ne _ _ hne]
    exact (hw.getA i).trans (ha.getA i)

section joins
variable {s : State} {w : Issue} {op : SlotOp} {e : FeedEntry} {ags : List (BitVec 4 × AGReg)} {g : Core → Core}

/-- An effect that touches words and queues an entry: the queue, the frame, the occupancy and the advanced registers. -/
theorem joins_of_effect (h : Fires s w .m op) (hs : op.slot = some .m) (hg : ∀ d, ErrorsOnly d (g d))
    (hd : ags.Pairwise (fun p q => p.1 ≠ q.1))
    (he : effM s w.core ⟨op, w.pn, w.pred⟩ (s.core w.core).srctr (s.lostBanks w.core (asks s w .m op) 1) =
      effCore w.core (fun d => withAgs ((g d).feed e) ags)) :
    ∃ t, issue w .m op s = .next t ∧ (t.core w.core).queue = (s.core w.core).queue ++ [e] ∧
      (t.core w.core).active = (s.core w.core).active ∧ (t.core w.core).shadow = (s.core w.core).shadow ∧
      (t.core w.core).acc = (s.core w.core).acc ∧ (t.core w.core).cell = (s.core w.core).cell ∧ t.mem = s.mem ∧
      (t.core w.core).mtxQmax.toNat = max (s.core w.core).mtxQmax.toNat (min 17 ((s.core w.core).queue.length + 1)) ∧
      (∀ p ∈ ags, (t.core w.core).getA p.1 = p.2) ∧
      (∀ i, (∀ p ∈ ags, p.1 ≠ i) → (t.core w.core).getA i = (s.core w.core).getA i) := by
  obtain ⟨hi, -⟩ := h
  have h3 : (s.core w.core).st = 3 := hi.1.1.1
  have ht : issue w .m op s = .next ((issued s w .m op).modCore w.core (fun d => withAgs ((g d).feed e) ags)) := by
    rw [issue_m hi (.inl hs), he]
    rfl
  have hu := State.core_modCore (issued s w .m op) w.core (fun d => withAgs ((g d).feed e) ags)
  obtain ⟨hq, hact, hsh, hacc, hcell, hmax, hset, hframe⟩ := fed_spec (issued_after h3 .m op) (hg _) hd hu
  exact ⟨_, ht, hq, hact, hsh, hacc, hcell, (State.modCore_mem ..).trans (issued_mem h3 .m op), hmax, hset, hframe⟩

end joins

/-! ### The effects of the matrix instructions -/

/-- An operand that the feeder reads in words of good rows. -/
theorem feederRead_of_ok {s : State} {k : Nat} {code : BitVec 7} {an : BitVec 4} {n : Nat} {r : AGReg} {ts : List (Option Nat)}
    (hr : (s.core k).getA an = r) (hc : agCheck 2 code r n = .ok ts) :
    feederRead s k code an n =
      .ok (AG.fetch s k r.desc ts, AG.words r.desc ts, AG.rows r.desc ts, AG.advance r (AG.elems r.desc n)) := by
  subst hr
  rw [feederRead]
  simp only [hc]

/-- An entry whose words are good joins once they are touched, and its registers advance. -/
theorem feedOrFault_of_good {k : Nat} {c : Core} {ws : List Nat} (hb : c.badRow ws = none) (e : FeedEntry) (f : Core → Core) :
    (fun t => (feedOrFault k c ws e t).modCore k f) = fun t => t.modCore k (fun d => f ((eccTouch ws d).feed e)) := by
  funext t
  simp only [feedOrFault, hb, State.modCore_modCore]

section effects
variable {s : State} {w : Issue} {lost : List Nat} {ctr : W64}

/-- Bit 0 of the predicate holds: the M slot's instruction acts. -/
theorem effM_mmul {f : MM} {ts : List (Option Nat)} {r : AGReg} (hp : (s.core w.core).predBit w.pn w.pred 0 = true)
    (hr : (s.core w.core).getA f.aS = r) (hl : s.fmtOk f.fmt = true)
    (hv : (if f.sw then (marksAfter (s.core w.core)).2 else (marksAfter (s.core w.core)).1).1 = true)
    (hgrp : grpOf (if f.sw then (marksAfter (s.core w.core)).2 else (marksAfter (s.core w.core)).1).2 = grpOf f.fmt)
    (hc : agCheck 2 0x01 r (streamWidth f.fmt f.t) = .ok ts) (hb : (s.core w.core).badRow (AG.words r.desc ts) = none) :
    effM s w.core ⟨.mmul f, w.pn, w.pred⟩ ctr lost = effCore w.core (fun d => withAgs ((eccTouch (AG.words r.desc ts) d).feed
      ⟨.mmul f ((f.acc.toNat + rowIndex r (streamWidth f.fmt f.t)) % 256) (AG.fetch s w.core r.desc ts), [f.aS],
        extraCycles (AG.rows r.desc ts) lost + twoCycles (s.core w.core) f.fmt, [], false⟩)
      [(f.aS, AG.advance r (AG.elems r.desc (streamWidth f.fmt f.t)))]) := by
  rw [effM, if_neg (by simp [hp])]
  change effMmul s w.core f lost = _
  rw [effMmul, if_neg (by simp [hl])]
  dsimp only
  rw [if_neg (by simp [hv, hgrp]), feederRead_of_ok hr hc, hr]
  dsimp only
  rw [feedOrFault_of_good hb]
  rfl

theorem effM_mload {f : ML} {ts : List (Option Nat)} {r : AGReg} (hp : (s.core w.core).predBit w.pn w.pred 0 = true)
    (hr : (s.core w.core).getA f.aS = r) (hl : s.fmtOk f.fmt = true) (hc : agCheck 2 0x02 r (mloadWidth f.fmt) = .ok ts)
    (hb : (s.core w.core).badRow (AG.words r.desc ts) = none) :
    effM s w.core ⟨.mload f, w.pn, w.pred⟩ ctr lost = effCore w.core (fun d => withAgs ((eccTouch (AG.words r.desc ts) d).feed
      ⟨.mload f.fmt (AG.fetch s w.core r.desc ts), [f.aS], extraCycles (AG.rows r.desc ts) lost, [], false⟩)
      [(f.aS, AG.advance r (AG.elems r.desc (mloadWidth f.fmt)))]) := by
  rw [effM, if_neg (by simp [hp])]
  change effMload s w.core f lost = _
  rw [effMload, if_neg (by simp [hl]), feederRead_of_ok hr hc]
  dsimp only
  rw [feedOrFault_of_good hb]
  rfl

theorem effM_mouter {f : MO} {xs ys : List (Option Nat)} {rx ry : AGReg} (hp : (s.core w.core).predBit w.pn w.pred 0 = true)
    (hrx : (s.core w.core).getA f.aX = rx) (hry : (s.core w.core).getA f.aY = ry) (hl : s.fmtOk f.fmt = true)
    (hcx : agCheck 2 0x04 rx (streamWidth f.fmt false) = .ok xs) (hcy : agCheck 2 0x04 ry (streamWidth f.fmt true) = .ok ys)
    (hb : (s.core w.core).badRow (AG.words rx.desc xs ++ AG.words ry.desc ys).eraseDups = none) :
    effM s w.core ⟨.mouter f, w.pn, w.pred⟩ ctr lost = effCore w.core (fun d => withAgs
      ((eccTouch (AG.words rx.desc xs ++ AG.words ry.desc ys).eraseDups d).feed
        ⟨.mouter f.fmt f.z (AG.fetch s w.core rx.desc xs) (AG.fetch s w.core ry.desc ys), [f.aX, f.aY],
          extraCycles (AG.rows rx.desc xs ++ AG.rows ry.desc ys).eraseDups lost + twoCycles (s.core w.core) f.fmt, [], false⟩)
      [(f.aX, AG.advance rx (AG.elems rx.desc (streamWidth f.fmt false))),
        (f.aY, AG.advance ry (AG.elems ry.desc (streamWidth f.fmt true)))]) := by
  rw [effM, if_neg (by simp [hp])]
  change effMouter s w.core f lost = _
  rw [effMouter, if_neg (by simp [hl]), feederRead_of_ok hrx hcx, feederRead_of_ok hry hcy]
  dsimp only
  rw [feedOrFault_of_good hb]
  rfl

theorem effM_mdrain {f : MD} {ts : List (Option Nat)} {r : AGReg} (hp : (s.core w.core).predBit w.pn w.pred 0 = true)
    (hr : (s.core w.core).getA f.aD = r) (hl : s.fmtOk f.fmt = true) (hm : f.fmt = 0xE → (s.core w.core).mode = true)
    (hrnd : f.rnd = 4 → s.licensed 7 = true) (hc : agCheck 2 0x05 r (drainWidth f.fmt) = .ok ts) :
    effM s w.core ⟨.mdrain f, w.pn, w.pred⟩ ctr lost = effCore w.core (fun d => withAgs (d.feed
      ⟨.mdrain f (drainTarget (s.core w.core) f) (s.core w.core).srseed ctr ts, [f.aD], extraCycles (AG.rows r.desc ts) [],
        banksOf (AG.rows r.desc ts), false⟩) [(f.aD, AG.advance r (AG.elems r.desc (drainWidth f.fmt)))]) := by
  subst hr
  rw [effM, if_neg (by simp [hp])]
  change effMdrain s w.core f ctr = _
  rw [effMdrain, if_neg (by simp [hl]), if_neg (fun h => absurd (hm h.1) (by simp [h.2])),
    if_neg (fun h => absurd (hrnd h.1) (by simp [h.2]))]
  simp only [hc]
  rfl

theorem effM_mcfg {f : MW} (hp : (s.core w.core).predBit w.pn w.pred 0 = true) (hm : f.mode = true → s.licensed 3 = true) :
    effM s w.core ⟨.mcfg f, w.pn, w.pred⟩ ctr lost =
      effCore w.core (fun d => withAgs (d.feed ⟨.mcfg f.mode f.w, [], 0, [], false⟩) []) := by
  rw [effM, if_neg (by simp [hp])]
  change effMcfg s w.core f = _
  rw [effMcfg, if_neg (fun h => absurd (hm h.1) (by simp [h.2]))]
  rfl

end effects

/-- Settles O17: each instruction's effect touches the words that it read and queues its entry. -/
theorem matrixInstructionsJoinTheQueue : Obligations.MatrixInstructionsJoinTheQueue := by
  unfold Obligations.MatrixInstructionsJoinTheQueue
  intro s w c lost joins
  have touches (ws : List Nat) (d : Core) : ErrorsOnly d (eccTouch ws d) := errors_engineRead d ws
  refine ⟨fun f ts => ?_, fun f ts => ?_, fun f xs ys => ?_, fun f ts => ?_, fun f h hm => ?_⟩
  · intro r n mk h hl hv hg hc hb
    exact joins_of_effect h rfl (touches _) (List.pairwise_singleton _ _) (effM_mmul h.2 rfl hl hv hg hc hb)
  · intro r n h hl hc hb
    exact joins_of_effect h rfl (touches _) (List.pairwise_singleton _ _) (effM_mload h.2 rfl hl hc hb)
  · intro rx ry nx ny h hl hcx hcy hb
    have hne : f.aX ≠ f.aY := by
      obtain ⟨⟨⟨-, -, -, hok⟩, -⟩, -⟩ := id h
      obtain ⟨-, -, -, hop⟩ := CSlot.fields_of_accepted hok rfl
      exact fun heq => by simp [SlotOp.operandBad, heq] at hop
    exact joins_of_effect h rfl (touches _) (List.pairwise_pair.mpr hne) (effM_mouter h.2 rfl rfl hl hcx hcy hb)
  · intro r n h hl hm hrnd hc
    exact joins_of_effect h rfl ErrorsOnly.refl (List.pairwise_singleton _ _) (effM_mdrain h.2 rfl hl hm hrnd hc)
  · exact joins_of_effect h rfl ErrorsOnly.refl .nil (effM_mcfg h.2 hm)

end Sys2Proof.Feed
end

section
/-! Exchange, copy and claim instructions of the X slot (R85, R89, R93, R176, R192). -/
namespace Sys2Proof.Exchange

open Sys2Proof.Machine Sys2Proof.Claims Sys2Proof.Issued Sys2Proof.Whole

/-! ### The effects where bit 0 of the predicate holds -/

section effects
variable {s : State} {k : Nat} {pn : Bool} {pred : BitVec 3} (hp : (s.core k).predBit pn pred 0 = true)
include hp

theorem effX_xply (f : XP) : effX s k ⟨.xply f, pn, pred⟩ = effXply s k f := if_neg (by simp [hp])

theorem effX_cpy (f : XC) : effX s k ⟨.cpy f, pn, pred⟩ = effCpy s k f := if_neg (by simp [hp])

theorem effX_crd (f : XC) : effX s k ⟨.crd f, pn, pred⟩ = effCrd s k f := if_neg (by simp [hp])

theorem effX_bclm (f : XP) : effX s k ⟨.bclm f, pn, pred⟩ = effBclm s k f := if_neg (by simp [hp])

end effects

/-- The exchange set of a core's class that an XPLY names. -/
def setOf (s : State) (k : Nat) (f : XP) : Option XSet :=
  ((s.classOf k).bind (fun r => r.exch)).bind (fun e => e.sets[f.set.toNat]?)

/-- Does the program overlap the set that an XPLY names? -/
def lapped (s : State) (k : Nat) (f : XP) : Bool := ((s.progOf k).map (fun g => g.overlap.getLsbD f.set.toNat)).getD false

section xply
variable {s : State} {k : Nat} {f : XP}

theorem effXply_of_none (h : setOf s k f = none) : effXply s k f = .error ⟨0x02, 3, 0x0001⟩ := by
  unfold setOf at h
  unfold effXply
  cases he : (s.classOf k).bind (fun r => r.exch) with
  | none => rfl
  | some e =>
    rw [he, Option.bind_some] at h
    simp only [h]
    rfl

/-- The exchange ply of a set starts: its cross-connect is in force and every list is at its beginning. -/
def plied (f : XP) (x : XSet) (c d : Core) : Core :=
  { d with
    xplyDone := true
    sw := { d.sw with
      set := f.set, active := true, standing := false, xc := x.xc, outSent := [], inTaken := [], unack := [],
      routes := [], drains := drainsQueued c.queue, setWait := c.setRun.isSome } }

/-- Of an XPLY whose set the class has: a second one, one that comes too late, or the start of the ply. -/
theorem effXply_of_some {x : XSet} (h : setOf s k f = some x) :
    effXply s k f =
      if (s.core k).xplyDone then .error (excTempo 0x100)
      else if lapped s k f && !(s.core k).fresh then .error (excTempo 0x200)
      else .ok (fun t => (t.modCore k (plied f x (s.core k))).runSwitch k) := by
  obtain ⟨e, he, hx⟩ := Option.bind_eq_some_iff.mp h
  unfold effXply
  simp only [he, hx]
  rfl

end xply

/-- A copy joins the outstanding ones: it has not started, and waits for the drains in the feed queue. -/
def copied (cn : BitVec 4) (a : Nat) (d : Core) : Core :=
  { d with
    copies := d.copies ++ [{ cn := cn, addr := a, started := false, local2 := false, failed := false, id := d.copySeq,
                             desc := 0, reqs := [], bytes := 0, drains := drainsQueued d.queue }]
    copySeq := d.copySeq + 1 }

/-- After issuing the copy stands behind those that were outstanding before. -/
theorem copied_spec {n : Nat} {c d u : Core} (h : After n c d) {cn : BitVec 4} {a : Nat} (hu : u = copied cn a d) :
    (∃ y : Copy, u.copies = c.copies ++ [y] ∧ y.cn = cn ∧ y.addr = a ∧ y.started = false ∧ y.id = c.copySeq ∧
      y.drains = drainsQueued c.queue) ∧ u.copySeq = c.copySeq + 1 ∧ ∀ i, u.getC i = c.getC i := by
  have hcopies : d.copies = c.copies := h.field Core.copies rfl
  have hseq : d.copySeq = c.copySeq := h.field Core.copySeq rfl
  have hqueue : d.queue = c.queue := h.field Core.queue rfl
  subst hu
  exact ⟨⟨_, congrArg (· ++ _) hcopies, rfl, rfl, rfl, hseq, congrArg drainsQueued hqueue⟩, congrArg (· + 1) hseq, h.getC⟩

/-- The bad address of a descriptor is noted and raises 0x09. -/
theorem issue_bad_descriptor {s : State} {w : Issue} {op : SlotOp} (h : Issues s w .x op) (hf : fits op .x)
    (he : effX s w.core ⟨op, w.pn, w.pred⟩ = .error ⟨0x09, 3, 0x0001⟩) :
    issue w .x op s = .next ((s.modCore w.core (fun d => { d with copyCause := 0x01 })).coreException w.core ⟨0x09, 3, 0x0001⟩) := by
  rw [issue_x h hf, he]
  rfl

theorem effBclm_of_none {s : State} {k : Nat} (h : s.classOf k = none) (f : XP) : effBclm s k f = .error (excIll 3 0x06 0) := by
  rw [effBclm]
  simp only [h]

theorem effBclm_of_some {s : State} {k : Nat} {r : ClassRec} (h : s.classOf k = some r) (f : XP) :
    effBclm s k f =
      if f.set.toNat < r.claims.length then effCore k (fun d => { d with claim := f.set }) else .error (excIll 3 0x06 0) := by
  rw [effBclm]
  simp only [h]

/-- Settles O20: each effect by its cases, on what issuing leaves. -/
theorem exchangeCopyAndClaimInstructions : Obligations.ExchangeCopyAndClaimInstructions := by
  unfold Obligations.ExchangeCopyAndClaimInstructions
  intro s w k c raises
  have h2 : (0x02 : Byte) ≠ 0x09 := by decide
  have h8 : (0x08 : Byte) ≠ 0x09 := by decide
  refine ⟨fun f h => ?_, fun f => ?_, fun f h => ?_⟩
  · intro set lap
    obtain ⟨hi, hp⟩ := h
    have he := effX_xply hp f
    refine ⟨fun hn => issue_raises hi (.inl rfl) (he.trans (effXply_of_none hn)) h2, fun hs hd => ?_, fun hs hd hl hf => ?_,
      fun x hx hd hl => issue_ok (g := fun t => (t.modCore k (plied f x c)).runSwitch k) hi (.inl rfl) (he.trans ?_)⟩
    · obtain ⟨x, hx⟩ := Option.ne_none_iff_exists'.mp hs
      exact issue_raises hi (.inl rfl) (he.trans ((effXply_of_some hx).trans (if_pos hd))) h8
    · obtain ⟨x, hx⟩ := Option.ne_none_iff_exists'.mp hs
      refine issue_raises hi (.inl rfl) (he.trans ((effXply_of_some hx).trans ((if_neg ?_).trans (if_pos ?_)))) h8
      · exact ne_true_of_eq_false hd
      · rw [show lapped s w.core f = true from hl, show (s.core w.core).fresh = false from hf]
        rfl
    · refine (effXply_of_some hx).trans ((if_neg (ne_true_of_eq_false hd)).trans (if_neg fun hb => ?_))
      obtain ⟨hlap, hfresh⟩ := Bool.and_eq_true_iff.mp hb
      rw [hl hlap] at hfresh
      cases hfresh
  · intro a
    refine ⟨fun h h0 hlt => ?_, fun h hbad => ?_, fun h => ?_⟩
    · obtain ⟨hi, hp⟩ := h
      have h3 : c.st = 3 := hi.1.1.1
      have he : effX s k ⟨.cpy f, w.pn, w.pred⟩ = effCore k (copied f.cn a) := (effX_cpy hp f).trans (if_neg fun hbad =>
        hbad.elim (fun hne => hne h0) (fun hle => absurd hlt (Nat.not_lt.mpr hle)))
      obtain ⟨hy, hseq, hctr⟩ := copied_spec (issued_after h3 .x (.cpy f)) (State.core_modCore (issued s w .x (.cpy f)) k (copied f.cn a))
      exact ⟨_, issue_ok hi (.inl rfl) he, hy, hseq, hctr, (State.modCore_mem ..).trans (issued_mem h3 .x (.cpy f))⟩
    · exact issue_bad_descriptor h.1 (.inl rfl) ((effX_cpy h.2 f).trans (if_pos hbad))
    · exact issue_ok h.1 (.inl rfl) (effX_crd h.2 f)
  · intro n
    obtain ⟨hi, hp⟩ := h
    have he := effX_bclm hp f
    cases hr : s.classOf k with
    | none =>
      have hn : n = 0 := by simp [n, hr]
      exact ⟨fun hlt => absurd hlt (by omega), fun _ => issue_raises hi (.inl rfl) (he.trans (effBclm_of_none hr f)) h2⟩
    | some r =>
      have hn : n = r.claims.length := by simp [n, hr]
      exact ⟨fun hlt => issue_ok hi (.inl rfl) (he.trans ((effBclm_of_some hr f).trans (if_pos (hn ▸ hlt)))),
        fun hle => issue_raises hi (.inl rfl) (he.trans ((effBclm_of_some hr f).trans (if_neg (Nat.not_lt.mpr (hn ▸ hle))))) h2⟩

end Sys2Proof.Exchange
end

section
/-! The matrix array (R84, R113 to R127): what the head of the feed queue does to tiles, accumulator file and memory, and the end of the
zeroing. -/
namespace Sys2Proof.ArrayActs

open Sys2Proof.Machine Sys2Proof.CoreTempo Sys2Proof.Ecc Sys2Proof.VMem

/-! ### Results put into a file -/

/-- The entry of a file that a result is for. -/
def resultKey (e : Nat × Nat × List FV) : Nat := accKey e.1 e.2.1

/-- Two results for different entries. -/
def ResultsApart (a b : Nat × Nat × List FV) : Prop := resultKey a ≠ resultKey b

/-- A file with one result put into its entry. -/
def withResult (mode : Bool) (w : BitVec 10) (z : Bool) (m : SMap Acc) (e : Nat × Nat × List FV) : SMap Acc :=
  sput 0 m (resultKey e) (accumulate mode w z (sget 0 m (resultKey e)) e.2.2).1

theorem accKey_inj {r r' n n' : Nat} (hn : n < 16) (hn' : n' < 16) : accKey r n = accKey r' n' ↔ r = r' ∧ n = n' := by
  unfold accKey
  omega

section results
variable (mode : Bool) (w : BitVec 10) (z : Bool) (file : SMap Acc) {l : List (Nat × Nat × List FV)}

theorem accumulateAll_file : (accumulateAll mode w z file l).1 = l.foldl (withResult mode w z) file :=
  (List.foldl_hom Prod.fst fun _ _ => rfl).symm

/-- An entry without a result keeps its value. -/
theorem sget_accumulateAll_of_notMem {key : Nat} (h : ∀ e ∈ l, resultKey e ≠ key) :
    sget 0 (accumulateAll mode w z file l).1 key = sget 0 file key := by
  rw [accumulateAll_file]
  induction l generalizing file with
  | nil => rfl
  | cons e l ih =>
    obtain ⟨he, hl⟩ := List.forall_mem_cons.mp h
    rw [List.foldl_cons, ih _ hl, withResult, sget_sput_ne _ _ _ he.symm]

/-- Of results for different entries each is accumulated onto what its entry held. -/
theorem sget_accumulateAll_of_mem (hd : l.Pairwise ResultsApart) {e : Nat × Nat × List FV} (he : e ∈ l) :
    sget 0 (accumulateAll mode w z file l).1 (resultKey e) =
      (accumulate mode w z (sget 0 file (resultKey e)) e.2.2).1 := by
  induction l generalizing file with
  | nil => exact absurd he List.not_mem_nil
  | cons a l ih =>
    obtain ⟨ha, hl⟩ := List.pairwise_cons.mp hd
    have hstep : (accumulateAll mode w z file (a :: l)).1 = (accumulateAll mode w z (withResult mode w z file a) l).1 := by
      rw [accumulateAll_file, accumulateAll_file, List.foldl_cons]
    rw [hstep]
    rcases List.mem_cons.mp he with rfl | he
    · rw [sget_accumulateAll_of_notMem _ _ _ _ fun b hb => (ha b hb).symm, withResult, sget_sput_self]
    · rw [ih _ hl he, withResult, sget_sput_ne _ _ _ (ha e he).symm]

end results

/-! ### The entries of MMUL and MOUTER (R117, R118, Table 4-4) -/

theorem depthOf_le (g : Grp) : depthOf g ≤ 32 := by cases g <;> decide

/-- A list of results counted up by an index that tells their entries apart. -/
theorem apart_map_range {n : Nat} {g : Nat → Nat × Nat × List FV} (h : ∀ i j, i < j → j < n → ResultsApart (g i) (g j)) :
    ((List.range n).map g).Pairwise ResultsApart :=
  List.pairwise_map.mpr (List.pairwise_lt_range.imp_of_mem fun _ hj hlt => h _ _ hlt (List.mem_range.mp hj))

section mmul
variable {t : Tile} {f : MM} {row : Nat} {xs : List FV}

/-- Entry n of an MMUL's row with T = 0: the products of the stream vector with column n. -/
def rowResult (t : Tile) (f : MM) (row : Nat) (xs : List FV) (n : Nat) : Nat × Nat × List FV :=
  (row, n, (List.range (depthOf (grpOf f.fmt))).map (fun q => passProduct f.pass (tileVal t q n) (xs.getD q (.fin false 0 0))))

/-- Entry q of an MMUL with T = 1: the products of the stream vector with row q of the tile (Table 4-4). -/
def columnResult (t : Tile) (f : MM) (row : Nat) (xs : List FV) (q : Nat) : Nat × Nat × List FV :=
  (if q < 16 then row else (row + 128) % 256, q % 16,
    (List.range 16).map (fun n => passProduct f.pass (tileVal t q n) (xs.getD n (.fin false 0 0))))

theorem mmulResults_row (hT : f.t = false) : mmulResults t f row xs = (List.range 16).map (rowResult t f row xs) := by
  rw [mmulResults, if_neg (ne_true_of_eq_false hT)]
  rfl

theorem mmulResults_column (hT : f.t = true) :
    mmulResults t f row xs = (List.range (depthOf (grpOf f.fmt))).map (columnResult t f row xs) := by
  rw [mmulResults, if_pos hT]
  rfl

theorem rowResults_apart : ((List.range 16).map (rowResult t f row xs)).Pairwise ResultsApart :=
  apart_map_range fun i j hlt hj heq => by
    obtain ⟨-, hij⟩ := (accKey_inj (hlt.trans hj) hj).mp heq
    exact hlt.ne hij

/-- The upper sixteen rows of a tile go 128 rows further, so they meet none of the lower sixteen. -/
theorem columnResults_apart :
    ((List.range (depthOf (grpOf f.fmt))).map (columnResult t f row xs)).Pairwise ResultsApart :=
  apart_map_range fun i j hlt hj heq => by
    have hle := depthOf_le (grpOf f.fmt)
    obtain ⟨hr, hij⟩ := (accKey_inj (Nat.mod_lt _ (by decide)) (Nat.mod_lt _ (by decide))).mp heq
    simp only [columnResult] at hr hij
    split at hr <;> split at hr <;> omega

section entries
variable (mode : Bool) (w : BitVec 10) (z : Bool) (file : SMap Acc)

/-- With T = 0 each entry of the row takes its column's products. -/
theorem sget_mmul_row (hT : f.t = false) {n : Nat} (hn : n < 16) :
    sget 0 (accumulateAll mode w z file (mmulResults t f row xs)).1 (accKey row n) =
      (accumulate mode w z (sget 0 file (accKey row n)) (rowResult t f row xs n).2.2).1 := by
  rw [mmulResults_row hT]
  exact sget_accumulateAll_of_mem mode w z file (e := rowResult t f row xs n) rowResults_apart
    (List.mem_map_of_mem (List.mem_range.mpr hn))

theorem sget_mmul_row_ne (hT : f.t = false) {r n : Nat} (hn : n < 16) (hr : r ≠ row) :
    sget 0 (accumulateAll mode w z file (mmulResults t f row xs)).1 (accKey r n) = sget 0 file (accKey r n) := by
  rw [mmulResults_row hT]
  refine sget_accumulateAll_of_notMem mode w z file fun e he heq => ?_
  obtain ⟨m, hm, rfl⟩ := List.mem_map.mp he
  exact hr ((accKey_inj (List.mem_range.mp hm) hn).mp heq).1.symm

/-- With T = 1 each entry of Table 4-4 takes its tile row's products. -/
theorem sget_mmul_column (hT : f.t = true) {q : Nat} (hq : q < depthOf (grpOf f.fmt)) :
    sget 0 (accumulateAll mode w z file (mmulResults t f row xs)).1 (resultKey (columnResult t f row xs q)) =
      (accumulate mode w z (sget 0 file (resultKey (columnResult t f row xs q))) (columnResult t f row xs q).2.2).1 := by
  rw [mmulResults_column hT]
  exact sget_accumulateAll_of_mem mode w z file columnResults_apart (List.mem_map_of_mem (List.mem_range.mpr hq))

end entries

end mmul

section mouter
variable {fmt : BitVec 4} {xs ys : List FV}

/-- Entry n of row i of an outer product. -/
def outerResult (xs ys : List FV) (i n : Nat) : Nat × Nat × List FV :=
  (i, n, [(FV.mul (xs.getD i (.fin false 0 0)) (ys.getD n (.fin false 0 0))).1])

theorem outerResults_apart : (outerResults fmt xs ys).Pairwise ResultsApart := by
  refine List.pairwise_flatMap.mpr ⟨fun i _ => ?_, ?_⟩
  · exact apart_map_range (g := outerResult xs ys i) fun n m hlt hm heq => by
      obtain ⟨-, hnm⟩ := (accKey_inj (hlt.trans hm) hm).mp heq
      exact hlt.ne hnm
  · refine List.pairwise_lt_range.imp fun hlt a ha b hb heq => ?_
    obtain ⟨n, hn, rfl⟩ := List.mem_map.mp ha
    obtain ⟨m, hm, rfl⟩ := List.mem_map.mp hb
    obtain ⟨hij, -⟩ := (accKey_inj (List.mem_range.mp hn) (List.mem_range.mp hm)).mp heq
    omega

theorem mem_outerResults {i n : Nat} (hi : i < depthOf (grpOf fmt)) (hn : n < 16) : outerResult xs ys i n ∈ outerResults fmt xs ys :=
  List.mem_flatMap.mpr ⟨i, List.mem_range.mpr hi, List.mem_map.mpr ⟨n, List.mem_range.mpr hn, rfl⟩⟩

/-- Each entry of the cell-local rows takes its product. -/
theorem sget_mouter (mode : Bool) (w : BitVec 10) (z : Bool) (file : SMap Acc) {i n : Nat} (hi : i < depthOf (grpOf fmt)) (hn : n < 16) :
    sget 0 (accumulateAll mode w z file (outerResults fmt xs ys)).1 (accKey i n) =
      (accumulate mode w z (sget 0 file (accKey i n)) (outerResult xs ys i n).2.2).1 :=
  sget_accumulateAll_of_mem mode w z file (e := outerResult xs ys i n) outerResults_apart (mem_outerResults hi hn)

end mouter

/-! ### Clearing a row (R124) -/

theorem sget_filter_keys (d : Acc) (m : SMap Acc) (p : Nat → Bool) (key : Nat) :
    sget d (m.filter (fun e => p e.1)) key = if p key = true then sget d m key else d := by
  induction m with
  | nil => exact (ite_self d).symm
  | cons e m ih =>
    obtain ⟨j, v⟩ := e
    by_cases hj : j = key
    · subst hj
      cases hp : p j <;> simp_all [sget]
    · cases hp : p j <;> simp [sget, hp, hj, ih]

/-- A file whose row is zeroed where an MDRAIN asks for it. -/
def clearedRow (clr : Bool) (row : Nat) (m : SMap Acc) : SMap Acc :=
  if clr then m.filter (fun e => !((List.range 16).map (accKey row)).contains e.1) else m

theorem sget_clearedRow (clr : Bool) (row : Nat) (m : SMap Acc) {r n : Nat} (hn : n < 16) :
    sget 0 (clearedRow clr row m) (accKey r n) = if clr = true ∧ r = row then 0 else sget 0 m (accKey r n) := by
  have hkey : accKey r n ∈ (List.range 16).map (accKey row) ↔ r = row := by
    refine ⟨fun h => ?_, fun h => h ▸ List.mem_map_of_mem (List.mem_range.mpr hn)⟩
    obtain ⟨m, hm, heq⟩ := List.mem_map.mp h
    exact ((accKey_inj (List.mem_range.mp hm) hn).mp heq).1.symm
  cases clr
  · simp [clearedRow]
  · rw [clearedRow, if_pos rfl, sget_filter_keys 0 m fun j => !((List.range 16).map (accKey row)).contains j]
    simp [hkey, -List.mem_map, ite_not]

/-! ### What an entry's leaving does to its core -/

/-- A core with another core's counters of cycles. -/
def withCycles (c d : Core) : Core :=
  { c with cycle := d.cycle, mtxOps := d.mtxOps, mtxBubbles := d.mtxBubbles, owed := d.owed }

theorem arrayCycles_eq (c : Core) (ops bubbles cycles : Nat) :
    c.arrayCycles ops bubbles cycles = withCycles c (c.arrayCycles ops bubbles cycles) := by
  unfold Core.arrayCycles
  dsimp only
  split <;> rfl

theorem payOwed_eq (c : Core) (n : Nat) : c.payOwed n = withCycles c (c.payOwed n) := by
  unfold Core.payOwed
  rw [arrayCycles_eq]
  rfl

theorem enterArray_eq (c : Core) (op : FeedOp) : c.enterArray op = withCycles c (c.enterArray op) := by
  cases op with
  | mcfg mode w =>
    unfold Core.enterArray
    dsimp only
    rw [arrayCycles_eq]
    rfl
  | _ => exact arrayCycles_eq ..

/-- The core with the array cycles counted that its first entry's leaving shows to have passed. -/
def paid (c : Core) (e : FeedEntry) (rest : List FeedEntry) : Core := (c.payOwed rest.length).enterArray e.op

theorem paid_eq (c : Core) (e : FeedEntry) (rest : List FeedEntry) : paid c e rest = withCycles c (paid c e rest) := by
  unfold paid
  rw [enterArray_eq, payOwed_eq]
  rfl

theorem swapTiles_eq (c : Core) (sw : Bool) : c.swapTiles sw =
    { c with active := if sw then c.shadow else c.active, shadow := if sw then c.active else c.shadow } := by
  cases sw <;> rfl

theorem act_x (c : Core) (e : FeedEntry) : (c.act e).x = c.x := by
  unfold Core.act
  cases e.op with
  | mmul f row bs => exact (congrArg Core.x (swapTiles_eq c f.sw) :)
  | _ => rfl

/-- The core that its first entry has left. -/
def afterHead (c : Core) (e : FeedEntry) (rest : List FeedEntry) : Core :=
  { (paid c e rest).act e with
    queue := rest
    sw := { c.sw with drains := c.sw.drains - 1 }
    copies := c.copies.map (fun q => { q with drains := q.drains - 1 }) }

section head
variable (c : Core) (e : FeedEntry) (rest : List FeedEntry)

/-- Cycles that are counted change nothing of what the entry does to the array. -/
theorem afterHead_sameArray : SameArray (c.act e) (afterHead c e rest) := by
  have h : SameArray c (paid c e rest) := by
    rw [paid_eq]
    exact ⟨rfl, rfl, rfl, rfl, rfl, rfl, rfl⟩
  exact h.act e

theorem afterHead_x : (afterHead c e rest).x = c.x := by
  have h : (paid c e rest).x = c.x := (congrArg Core.x (paid_eq c e rest) :)
  exact (act_x _ e).trans h

end head

/-! ### Leaving the queue (R115) -/

/-- The bytes that storing elements leaves depend on the bytes before alone. -/
theorem storeElems_mem_congr {k : Nat} (l : List (Option Nat × List Byte × Bool)) {s t : State} (h : s.mem = t.mem) :
    (storeElems k l s).mem = (storeElems k l t).mem := by
  induction l generalizing s t with
  | nil => exact h
  | cons e l ih =>
    obtain ⟨_ | b, bs, _ | _⟩ := e
    · exact ih h
    · exact ih h
    · exact ih h
    · exact ih (by rw [spadWr_mem, spadWr_mem, h])

/-- The elements that a leaving entry stores: those of an MDRAIN. -/
def stored (c : Core) (e : FeedEntry) : List (Option Nat × List Byte × Bool) :=
  match e.op with
  | .mdrain f row seed ctr ts =>
    ts.zipIdx.map (fun p =>
      (p.1, ((c.drained f row seed ctr).1.drop (p.2 * (drainWidth f.fmt / ts.length))).take (drainWidth f.fmt / ts.length), true))
  | _ => []

section leave
variable (s : State) (k : Nat) (e : FeedEntry) (rest : List FeedEntry)

theorem leaveQueue_eq : leaveQueue s k e rest = storeElems k (stored (s.core k) e) (s.modCore k (afterHead · e rest)) := by
  obtain ⟨op, ags, extra, banks, mute⟩ := e
  cases op <;> rfl

/-- Beside the bytes that an MDRAIN writes, and the errors met in writing them, a leaving entry changes its core alone. -/
theorem leaveQueue_core : ErrorsOnly (afterHead (s.core k) e rest) ((leaveQueue s k e rest).core k) := by
  rw [leaveQueue_eq, ← State.core_modCore s k (afterHead · e rest)]
  exact errors_storeElems _ _

theorem leaveQueue_core_ne {j : Nat} (hj : j ≠ k) : (leaveQueue s k e rest).core j = s.core j := by
  rw [leaveQueue_eq, storeElems_core_ne _ _ hj, State.core_modCore_ne _ _ hj]

theorem leaveQueue_mem : (leaveQueue s k e rest).mem = (storeElems k (stored (s.core k) e) s).mem := by
  rw [leaveQueue_eq]
  exact storeElems_mem_congr _ (State.modCore_mem ..)

theorem leaveQueue_mem_mdrain {f : MD} {row : Nat} {seed ctr : W64} {ts : List (Option Nat)} (h : e.op = .mdrain f row seed ctr ts) :
    (leaveQueue s k e rest).mem = (drainWrite k (drainWidth f.fmt / ts.length) ((s.core k).drained f row seed ctr).1 ts s).mem := by
  rw [leaveQueue_mem, stored, h]
  rfl

theorem leaveQueue_mem_of_stored_nil (h : stored (s.core k) e = []) : (leaveQueue s k e rest).mem = s.mem := by
  rw [leaveQueue_mem, h]
  rfl

/-- Tiles, files, mode, anchor and flags are those of the entry's act. -/
theorem leaveQueue_sameArray : SameArray ((s.core k).act e) ((leaveQueue s k e rest).core k) := by
  rw [leaveQueue_core]
  exact afterHead_sameArray (s.core k) e rest

theorem leaveQueue_queue : ((leaveQueue s k e rest).core k).queue = rest := (leaveQueue_core s k e rest).field Core.queue rfl

theorem leaveQueue_getX (i : BitVec 5) : ((leaveQueue s k e rest).core k).getX i = (s.core k).getX i := by
  rw [(leaveQueue_core s k e rest).getX, Core.getX, Core.getX, afterHead_x]

end leave

/-! ### What each instruction does as it leaves (R113 to R124) -/

section acts
variable {c : Core} {e : FeedEntry}

theorem act_mload {fmt : BitVec 4} {bs : List Byte} (h : e.op = .mload fmt bs) : c.act e = { c with shadow := ⟨true, fmt, bs⟩ } := by
  rw [Core.act, h]

theorem act_mcfg {mode : Bool} {w : BitVec 10} (h : e.op = .mcfg mode w) :
    c.act e = { c with mode := mode, w := w, zeroing := true } := by
  rw [Core.act, h]

/-- MMUL: the exchange of the tiles, then its results on the accumulator file. -/
theorem act_mmul {f : MM} {row : Nat} {bs : List Byte} (h : e.op = .mmul f row bs) :
    (c.act e).active = (if f.sw then c.shadow else c.active) ∧ (c.act e).shadow = (if f.sw then c.active else c.shadow) ∧
      (c.act e).cell = c.cell ∧ (c.act e).acc = (accumulateAll c.mode c.w f.z c.acc (mmulResults (if f.sw then c.shadow else c.active) f row
        (streamVals f.fmt bs (streamLen f.fmt f.t)))).1 := by
  rw [Core.act, h]
  dsimp only
  rw [swapTiles_eq]
  exact ⟨rfl, rfl, rfl, rfl⟩

/-- MOUTER: its results on the cell-local rows. -/
theorem act_mouter {fmt : BitVec 4} {z : Bool} {xb yb : List Byte} (h : e.op = .mouter fmt z xb yb) :
    (c.act e).active = c.active ∧ (c.act e).shadow = c.shadow ∧ (c.act e).acc = c.acc ∧
      (c.act e).cell = (accumulateAll c.mode c.w z c.cell
        (outerResults fmt (streamVals fmt xb (streamLen fmt false)) (streamVals fmt yb 16))).1 := by
  rw [Core.act, h]
  exact ⟨rfl, rfl, rfl, rfl⟩

theorem drained_of_acc (c : Core) {f : MD} (h : f.src = false) (row : Nat) (seed ctr : W64) :
    c.drained f row seed ctr = drainRow c f seed ctr c.acc row := by
  rw [Core.drained, if_neg (ne_true_of_eq_false h)]

theorem drained_of_cell (c : Core) {f : MD} (h : f.src = true) (row : Nat) (seed ctr : W64) :
    c.drained f row seed ctr = drainRow c f seed ctr c.cell row := by
  rw [Core.drained, if_pos h]

/-- MDRAIN: the file that it drains loses its row where it asks for it. -/
theorem act_mdrain {f : MD} {row : Nat} {seed ctr : W64} {ts : List (Option Nat)} (h : e.op = .mdrain f row seed ctr ts) :
    (c.act e).acc = (if f.src then c.acc else clearedRow f.clr row c.acc) ∧
      (c.act e).cell = (if f.src then clearedRow f.clr row c.cell else c.cell) := by
  rw [Core.act, h]
  exact ⟨rfl, rfl⟩

end acts

/-! ### The zeroing of an MCFG (R84, R120, R127, R130) -/

/-- What the end of the zeroing leaves of its core. -/
def zeroed (c : Core) : Core := { c.payOwed 0 with acc := [], cell := [], zeroing := false }

theorem zeroed_owed (c : Core) : (zeroed c).owed = 0 := Nat.min_zero _

/-- Every cycle that is still owed counts as a bubble at a running core. -/
theorem zeroed_mtxBubbles {c : Core} (h : c.st = 3) :
    (zeroed c).mtxBubbles.toNat = min (2 ^ 32 - 1) (c.mtxBubbles.toNat + c.owed) := by
  have hb : (zeroed c).mtxBubbles = BitVec.ofNat 32 (satAdd 32 c.mtxBubbles.toNat c.owed) := by
    simp [zeroed, Core.payOwed, Core.arrayCycles, h]
  rw [hb, BitVec.toNat_ofNat, satAdd, Nat.mod_eq_of_lt (by omega)]

/-- The zeroing leaves mode, anchor and active tile. -/
theorem zeroed_keeps (c : Core) : (zeroed c).mode = c.mode ∧ (zeroed c).w = c.w ∧ (zeroed c).active = c.active := by
  rw [zeroed, payOwed_eq]
  exact ⟨rfl, rfl, rfl⟩

section zeroing
variable (s : State) (k : Fin 39168)

/-- The core at the end of the zeroing; one without a zeroing under way stays. -/
def zeroingEnds (c : Core) : Core := if c.zeroing then zeroed c else c

theorem exec_mcfgZeroing : exec (.mcfgZeroing k) s = .next (s.modCore k zeroingEnds) := rfl

theorem core_zeroingEnds : (s.modCore k zeroingEnds).core k = if (s.core k).zeroing then zeroed (s.core k) else s.core k :=
  State.core_modCore s k zeroingEnds

end zeroing

/-! ### The commands -/

theorem exec_feedQueueLeave_nil {s : State} {k : Fin 39168} (h : (s.core k).queue = []) : exec (.feedQueueLeave k) s = .next s := by
  change execFeedQueueLeave k s = _
  rw [execFeedQueueLeave, h]

theorem exec_feedQueueLeave_cons {s : State} {k : Fin 39168} {e : FeedEntry} {rest : List FeedEntry} (h : (s.core k).queue = e :: rest) :
    exec (.feedQueueLeave k) s = .next (leaveQueue s k e rest) := by
  change execFeedQueueLeave k s = _
  rw [execFeedQueueLeave, h]

/-- Settles O18: an entry's leaving is its act on the core and the elements that it stores; each instruction's results stand in entries
that are apart, so each entry takes its own. -/
theorem queueHeadAndZeroingActOnTheArray : Obligations.QueueHeadAndZeroingActOnTheArray := by
  unfold Obligations.QueueHeadAndZeroingActOnTheArray
  refine ⟨fun s k => ⟨exec_feedQueueLeave_nil, fun e rest hq => ?_⟩, fun s k => ?_⟩
  · obtain ⟨hact, hsh, hacc, hcell, hmode, hw, -⟩ := leaveQueue_sameArray s k e rest
    have hmem (h : stored (s.core k) e = []) := leaveQueue_mem_of_stored_nil s k e rest h
    refine ⟨_, exec_feedQueueLeave_cons hq, leaveQueue_queue s k e rest, leaveQueue_getX s k e rest,
      fun j hj => leaveQueue_core_ne s k e rest hj, fun fmt bs h => ?_, fun f row bs h => ?_, fun fmt z xb yb h => ?_,
      fun f row seed ctr ts h hsrc => ?_, fun f row seed ctr ts h hsrc => ?_, fun mode wd h => ?_⟩
    · rw [act_mload h] at hact hsh hacc
      exact ⟨hsh, hact, hacc, hmem (by rw [stored, h])⟩
    · obtain ⟨hta, hts, hc, ha⟩ := act_mmul (c := s.core k) h
      rw [ha] at hacc
      refine ⟨hact.trans hta, hsh.trans hts, hmem (by rw [stored, h]), hcell.trans hc,
        fun hT _ => ⟨fun n hn => ?_, fun r n hn hr => ?_⟩, fun hT _ q hq => ?_⟩
      · rw [hacc]
        exact sget_mmul_row _ _ _ _ hT hn
      · rw [hacc]
        exact sget_mmul_row_ne _ _ _ _ hT hn hr
      · rw [hacc]
        exact sget_mmul_column _ _ _ _ hT hq
    · obtain ⟨hta, hts, ha, hc⟩ := act_mouter (c := s.core k) h
      refine ⟨hacc.trans ha, hact.trans hta, hsh.trans hts, hmem (by rw [stored, h]), fun i n hi hn => ?_⟩
      rw [hcell, hc]
      exact sget_mouter _ _ _ _ hi hn
    · obtain ⟨ha, -⟩ := act_mdrain (c := s.core k) h
      rw [hsrc] at ha
      refine ⟨drained_of_acc _ hsrc row seed ctr ▸ leaveQueue_mem_mdrain s k e rest h, fun r n hn => ?_⟩
      rw [hacc, ha]
      exact sget_clearedRow _ _ _ hn
    · obtain ⟨ha, hc⟩ := act_mdrain (c := s.core k) h
      rw [hsrc] at ha hc
      refine ⟨drained_of_cell _ hsrc row seed ctr ▸ leaveQueue_mem_mdrain s k e rest h, hacc.trans ha, fun r n hn => ?_⟩
      rw [hcell, hc]
      exact sget_clearedRow _ _ _ hn
    · have hz : (afterHead (s.core k) e rest).zeroing = true := by
        rw [afterHead, act_mcfg h]
      rw [act_mcfg h] at hmode hw
      exact ⟨hmode, hw, ((leaveQueue_core s k e rest).field Core.zeroing rfl).trans hz, hmem (by rw [stored, h])⟩
  · have hc := core_zeroingEnds s k
    refine ⟨_, exec_mcfgZeroing s k, fun hz => ?_, fun hz => ?_, fun j hj => State.core_modCore_ne _ _ hj, State.modCore_mem ..⟩
    · obtain ⟨hmode, hw, hact⟩ := zeroed_keeps (s.core k)
      rw [if_pos hz] at hc
      rw [hc]
      exact ⟨rfl, fun _ => rfl, fun _ => rfl, zeroed_mtxBubbles, zeroed_owed _, hmode, hw, hact⟩
    · rw [hc, if_neg (ne_true_of_eq_false hz)]

end Sys2Proof.ArrayActs
end

section
/-! Number formats (R139, R143, R152, R153): the sum of an entry in fixed-window mode, and rounding to a grid. -/
namespace Sys2Proof.Grid

open Sys2Proof.Machine

/-! ### Fixed-window sums (R152, R153) -/

/-- The sum of the products on the grid of anchor w, in units of its step. -/
def windowSum (w : BitVec 10) (ps : List FV) : Int := (ps.map fun v => (productFwa w.toInt v).1).sum

/-- The flags of the products, joined. -/
def windowFlags (w : BitVec 10) (ps : List FV) : Flags := (ps.map fun v => (productFwa w.toInt v).2).foldr (· ||| ·) 0

theorem windowSum_append (w : BitVec 10) (ps qs : List FV) : windowSum w (ps ++ qs) = windowSum w ps + windowSum w qs := by
  simp [windowSum]

theorem windowSum_perm (w : BitVec 10) {ps qs : List FV} (h : ps.Perm qs) : windowSum w ps = windowSum w qs :=
  (h.map _).sum_eq

theorem windowFlags_append (w : BitVec 10) (ps qs : List FV) :
    windowFlags w (ps ++ qs) = windowFlags w ps ||| windowFlags w qs := by
  induction ps with
  | nil => simp [windowFlags]
  | cons p ps ih => exact (congrArg (_ ||| ·) ih).trans (BitVec.or_assoc ..).symm

theorem windowFlags_perm (w : BitVec 10) {ps qs : List FV} (h : ps.Perm qs) : windowFlags w ps = windowFlags w qs :=
  (h.map _).foldr_eq 0

/-- In fixed-window mode an entry takes the sum of the products modulo 2^192. -/
theorem accumulate_window (w : BitVec 10) (old : Acc) (ps : List FV) :
    accumulate true w false old ps = (old + BitVec.ofInt 192 (windowSum w ps), windowFlags w ps) := by
  have hsum : (ps.map (productFwa w.toInt)).foldl (fun a q => a + q.1) 0 = windowSum w ps := by
    rw [windowSum, List.sum_eq_foldl, List.foldl_map, List.foldl_map]
  have hfl : (ps.map (productFwa w.toInt)).foldl (fun a q => a ||| q.2) (0 : Flags) = windowFlags w ps := by
    rw [windowFlags, ← List.foldl_eq_foldr, List.foldl_map, List.foldl_map]
  simp only [accumulate, if_true, Bool.false_eq_true, if_false, hsum, hfl, BitVec.ofInt_add, BitVec.ofInt_toInt]

theorem wrapN_toInt {n : Nat} (k : Nat) (hk : k ≤ n) (e : BitVec n) : wrapN k e.toInt = e.toNat % 2 ^ k := by
  have h : ((2 ^ k : Nat) : Int) ∣ ((2 ^ n : Nat) : Int) := Int.natCast_dvd_natCast.mpr (Nat.pow_dvd_pow 2 hk)
  rw [wrapN, BitVec.toInt_eq_toNat_bmod, ← Int.emod_emod_of_dvd _ h, Int.bmod_emod, Int.emod_emod_of_dvd _ h]
  exact Int.toNat_natCast _

/-- An entry within the window drains without conversion and without a flag. -/
theorem drainEntry_window (w : BitVec 10) (m : Rnd) {e : Acc} (hlo : -(2 ^ 127 : Int) ≤ e.toInt) (hhi : e.toInt < 2 ^ 127) :
    drainEntry true w 0xE m e = (e.toNat % 2 ^ 128, 0) := by
  have h1 : ¬ e.toInt < -((2 ^ 127 : Nat) : Int) := by push_cast; omega
  have h2 : ¬ ((2 ^ 127 : Nat) : Int) ≤ e.toInt := by push_cast; omega
  rw [drainEntry, if_pos rfl, if_pos rfl, if_neg h1, if_neg h2, wrapN_toInt 128 (by decide)]

/-! ### Rounding to a grid coarser than the value's own (R139, R143)

With den grid steps of the value in one step of the target, lo = m / den is the neighbour toward zero and rem = m % den what is left. -/

section away
variable {mode : Rnd} {neg : Bool} {lo rem den : Nat}

/-- What lies on the grid stays there. -/
theorem awayFromZero_exact (hd : 0 < den) (hr : ∀ n, mode = .sr n → n < 2 ^ 32) : awayFromZero mode neg lo 0 den = false := by
  cases mode with
  | rne => simp [awayFromZero, hd.ne]
  | rtz => rfl
  | rdn => simp [awayFromZero]
  | rup => simp [awayFromZero]
  | rna => simp [awayFromZero, hd.ne']
  | sr n => simpa [awayFromZero] using hr n rfl

theorem awayFromZero_rne : awayFromZero .rne neg lo rem den = true ↔ den < 2 * rem ∨ 2 * rem = den ∧ lo % 2 = 1 := by
  simp [awayFromZero]

theorem awayFromZero_rup (h : rem ≠ 0) : awayFromZero .rup neg lo rem den = !neg := by simp [awayFromZero, h]

theorem awayFromZero_rdn (h : rem ≠ 0) : awayFromZero .rdn neg lo rem den = neg := by simp [awayFromZero, h]

theorem awayFromZero_sr {n : Nat} : awayFromZero (.sr n) neg lo rem den = true ↔ 2 ^ 32 ≤ rem * 2 ^ 32 / den + n := by
  simp [awayFromZero]

end away

/-- The neighbour of m steps that a mode takes on the grid of den steps. -/
def neighbour (mode : Rnd) (neg : Bool) (m den : Nat) : Nat :=
  if awayFromZero mode neg (m / den) (m % den) den then m / den + 1 else m / den

theorem roundGrid_coarser (mode : Rnd) (neg : Bool) (m : Nat) {e q : Int} (h : e < q) :
    roundGrid mode neg m e q = (neighbour mode neg m (2 ^ (q - e).toNat), m % 2 ^ (q - e).toNat != 0) := by
  rw [roundGrid, onGrid, if_neg (Int.not_le.mpr h), neighbour]

section neighbours
variable {mode : Rnd} {neg : Bool} {m den : Nat}

theorem neighbour_cases : neighbour mode neg m den = m / den ∨ neighbour mode neg m den = m / den + 1 := by
  unfold neighbour
  split
  · exact .inr rfl
  · exact .inl rfl

theorem neighbour_eq_succ : neighbour mode neg m den = m / den + 1 ↔ awayFromZero mode neg (m / den) (m % den) den = true := by
  unfold neighbour
  split <;> simp [*]

theorem neighbour_exact (hd : 0 < den) (hm : m % den = 0) (hr : ∀ n, mode = .sr n → n < 2 ^ 32) :
    neighbour mode neg m den = m / den := by
  simp [neighbour, hm, awayFromZero_exact hd hr]

/-- To nearest: no farther than half a step of the grid from the value. -/
theorem neighbour_rne_near (hd : 0 < den) :
    2 * (neighbour .rne neg m den * den) ≤ 2 * m + den ∧ 2 * m ≤ 2 * (neighbour .rne neg m den * den) + den := by
  have hm : m / den * den + m % den = m := Nat.div_add_mod' m den
  have hlt : m % den < den := Nat.mod_lt m hd
  simp only [neighbour, awayFromZero_rne]
  split
  · rw [Nat.add_one_mul (m / den)]
    omega
  · omega

/-- Halfway between two grid points the even one is taken. -/
theorem neighbour_rne_tie (h : 2 * (m % den) = den) : neighbour .rne neg m den % 2 = 0 := by
  simp only [neighbour, awayFromZero_rne]
  split <;> omega

theorem neighbour_rtz : neighbour .rtz neg m den = m / den := rfl

theorem neighbour_rup (h : m % den ≠ 0) : neighbour .rup neg m den = if neg then m / den else m / den + 1 := by
  rw [neighbour, awayFromZero_rup h]
  cases neg <;> rfl

theorem neighbour_rdn (h : m % den ≠ 0) : neighbour .rdn neg m den = if neg then m / den + 1 else m / den := by
  rw [neighbour, awayFromZero_rdn h]

end neighbours

/-- Settles O19: addition modulo 2^192 and the joining of flags do not ask for an order; a rounded magnitude is one of its two
neighbours, and which of them each mode says. -/
theorem sumsAndRoundingFollowTheirGrid : Obligations.SumsAndRoundingFollowTheirGrid := by
  unfold Obligations.SumsAndRoundingFollowTheirGrid
  refine ⟨⟨fun w old ps qs rs h => ?_, fun w m e hlo hhi => ?_⟩, fun mode neg m e q h => ?_⟩
  · simp only [accumulate_window, windowSum_perm w h, windowFlags_perm w h, windowSum_append, windowFlags_append,
      BitVec.ofInt_add, BitVec.add_assoc, and_self]
  · rw [drainEntry_window w m hlo hhi]
    exact ⟨rfl, rfl⟩
  · intro den r
    have hd : 0 < den := Nat.two_pow_pos _
    have hr : r = (neighbour mode neg m den, m % den != 0) := roundGrid_coarser mode neg m h
    rw [hr]
    refine ⟨neighbour_cases, bne_iff_ne, neighbour_exact hd, ?_, ?_, ?_, ?_, ?_⟩
    · rintro rfl
      exact ⟨neighbour_rne_near hd, neighbour_rne_tie⟩
    · rintro rfl
      exact neighbour_rtz (neg := neg)
    · rintro rfl
      exact neighbour_rup
    · rintro rfl
      exact neighbour_rdn
    · rintro n rfl
      exact neighbour_eq_succ.trans awayFromZero_sr

end Sys2Proof.Grid
end

section
/-! Units of the memory stacks (R248, R257 to R262): what activating, reading and writing one unit may change, and the four things that
the code finds in a unit that is read. -/
namespace Sys2Proof.Units

open Sys2Proof.Machine Sys2Proof.Claims Sys2Proof.TempoPorts

/-! ### Registers -/

/-- Replacing a field of a number leaves the fields above it. -/
theorem field_replace_above {lo len a : Nat} (h : lo + len ≤ a) (v w b : Nat) :
    field (v - field v lo len * 2 ^ lo + w % 2 ^ len * 2 ^ lo) a b = field v a b := by
  have hw := Nat.mod_lt w (Nat.two_pow_pos len)
  have low (y : Nat) (hy : y < 2 ^ len) : (y * 2 ^ lo + v % 2 ^ lo) / 2 ^ (lo + len) = 0 := by
    refine Nat.div_eq_of_lt ?_
    have hr := Nat.mod_lt v (Nat.two_pow_pos lo)
    calc y * 2 ^ lo + v % 2 ^ lo < y * 2 ^ lo + 2 ^ lo := by omega
      _ = (y + 1) * 2 ^ lo := by rw [Nat.add_mul, Nat.one_mul]
      _ ≤ 2 ^ len * 2 ^ lo := Nat.mul_le_mul_right _ hy
      _ = 2 ^ (lo + len) := by rw [← Nat.pow_add, Nat.add_comm]
  have hv : v = 2 ^ (lo + len) * (v / 2 ^ (lo + len)) + (field v lo len * 2 ^ lo + v % 2 ^ lo) := by
    have h1 := Nat.div_add_mod v (2 ^ lo)
    have h2 := Nat.div_add_mod (v / 2 ^ lo) (2 ^ len)
    rw [Nat.pow_add, ← Nat.div_div_eq_div_mul, field]
    calc v = 2 ^ lo * (v / 2 ^ lo) + v % 2 ^ lo := h1.symm
      _ = 2 ^ lo * (2 ^ len * (v / 2 ^ lo / 2 ^ len) + v / 2 ^ lo % 2 ^ len) + v % 2 ^ lo := by rw [h2]
      _ = _ := by ring
  have hnew : v - field v lo len * 2 ^ lo + w % 2 ^ len * 2 ^ lo =
      2 ^ (lo + len) * (v / 2 ^ (lo + len)) + (w % 2 ^ len * 2 ^ lo + v % 2 ^ lo) := by omega
  have top : (v - field v lo len * 2 ^ lo + w % 2 ^ len * 2 ^ lo) / 2 ^ (lo + len) = v / 2 ^ (lo + len) := by
    rw [hnew, Nat.mul_add_div (Nat.two_pow_pos _), low _ hw, Nat.add_zero]
  obtain ⟨d, rfl⟩ := Nat.exists_eq_add_of_le h
  unfold field at *
  rw [Nat.pow_add, ← Nat.div_div_eq_div_mul, ← Nat.div_div_eq_div_mul, top]

theorem regF_setRegF_above {lo len a b : Nat} (h : lo + len ≤ a) (hb : a + b ≤ 32) (s : State) (off v : Nat) :
    (s.setRegF off lo len v).regF off a b = s.regF off a b := by
  simp only [State.regF, State.setRegF, State.reg_setReg, BitVec.toNat_ofNat]
  rw [field_mod_two_pow hb, field_replace_above h]

theorem reg_countReg_ne {s : State} {o j : Nat} (h : j ≠ o) (n : Nat) : (s.countReg o n).reg j = s.reg j := State.reg_setReg_ne s _ h

/-- A counter saturates at 2^32 - 1. -/
theorem countReg_toNat (s : State) (o n : Nat) : ((s.countReg o n).reg o).toNat = min (2 ^ 32 - 1) ((s.reg o).toNat + n) := by
  rw [State.countReg, State.reg_setReg, BitVec.toNat_ofNat, satAdd]
  exact Nat.mod_eq_of_lt (by omega)

theorem stackLost_congr {s t : State} {i : Nat} (h : t.reg (Reg.sstat i) = s.reg (Reg.sstat i)) : t.stackLost i = s.stackLost i := by
  simp only [State.stackLost, State.stackState, State.regF, h]

/-! ### Codewords -/

theorem errAt_of_errs {h h' : Hbm} (he : h'.errs = h.errs) (x : Nat) : h'.errAt x = h.errAt x := congrArg (fun m => sget _ m x) he

theorem errAt_mend (h : Hbm) (u j : Nat) : (h.mend u).errAt j = if j = u then .symbols [] else h.errAt j := by
  unfold Hbm.errAt Hbm.mend
  by_cases hj : j = u
  · rw [hj, if_pos rfl]
    exact sget_sdel_self ..
  · rw [if_neg hj]
    exact sget_sdel_ne _ _ hj

/-- A unit whose codeword is right holds no error of any kind. -/
theorem noError_of_right {h : Hbm} {u : Nat} (he : h.errAt u = .symbols []) : h.ceAt u = false ∧ h.ueAt u = false ∧ h.missAt u = false := by
  simp [Hbm.ceAt, Hbm.ueAt, Hbm.missAt, he]

theorem ueAt_congr {h h' : Hbm} {u : Nat} (he : h'.errAt u = h.errAt u) : h'.ueAt u = h.ueAt u := by rw [Hbm.ueAt, he, Hbm.ueAt]
theorem missAt_congr {h h' : Hbm} {u : Nat} (he : h'.errAt u = h.errAt u) : h'.missAt u = h.missAt u := by rw [Hbm.missAt, he, Hbm.missAt]

/-! ### What the care of one unit may change -/

/-- From s to t a unit has been activated, read or written, its code taking it for no other codeword: registers of its stack, errors,
reports and the index of the next free value may differ; no byte, and of a slice no capture bit. -/
structure Tends (u : Nat) (s t : State) : Prop where
  frame : ∃ r h e ho mg c, t = { s with regs := r, hbm := h, events := e, host := ho, mgmt := mg, freeCtr := c }
  regs : ∀ o, o / 64 ≠ Reg.mem (stackOfUnit u) 0 / 64 → t.reg o = s.reg o
  lost : ∀ i, t.stackLost i = s.stackLost i
  caps : ∀ i, (t.slice i).cap = (s.slice i).cap
  errs : ∀ x, t.hbm.errAt x = s.hbm.errAt x ∨ t.hbm.errAt x = .symbols []
  poison : ∀ x, x ∈ t.hbm.poison → x ∈ s.hbm.poison ∨ s.hbm.ueAt x = true

namespace Tends
variable {u : Nat} {s t v : State}

theorem refl (u : Nat) (s : State) : Tends u s s :=
  ⟨⟨_, _, _, _, _, _, rfl⟩, fun _ _ => rfl, fun _ => rfl, fun _ => rfl, fun _ => .inl rfl, fun _ h => .inl h⟩

theorem trans (h : Tends u s t) (g : Tends u t v) : Tends u s v := by
  obtain ⟨⟨_, _, _, _, _, _, ht⟩, hr, hl, hc, he, hp⟩ := h
  obtain ⟨⟨r, m, e, ho, mg, c, hv⟩, gr, gl, gc, ge, gp⟩ := g
  refine ⟨⟨r, m, e, ho, mg, c, by rw [hv, ht]⟩, fun o h => (gr o h).trans (hr o h), fun i => (gl i).trans (hl i),
    fun i => (gc i).trans (hc i), fun x => ?_, fun x hx => ?_⟩
  · rcases ge x with h | h
    · rw [h]; exact he x
    · exact .inr h
  · rcases gp x hx with h | h
    · exact hp x h
    · rcases he x with h' | h'
      · exact .inr ((ueAt_congr h').symm.trans h)
      · rw [(noError_of_right h').2.1] at h
        cases h

theorem ite {c : Prop} [Decidable c] (h : Tends u s t) (g : Tends u s v) : Tends u s (if c then t else v) := by
  split
  · exact h
  · exact g

theorem mem (h : Tends u s t) : t.mem = s.mem := by
  obtain ⟨⟨_, _, _, _, _, _, rfl⟩, -⟩ := h
  rfl
theorem hostMem (h : Tends u s t) : t.hostMem = s.hostMem := by
  obtain ⟨⟨_, _, _, _, _, _, rfl⟩, -⟩ := h
  rfl
theorem cores (h : Tends u s t) : t.cores = s.cores := by
  obtain ⟨⟨_, _, _, _, _, _, rfl⟩, -⟩ := h
  rfl
theorem rails (h : Tends u s t) : t.rails = s.rails := by
  obtain ⟨⟨_, _, _, _, _, _, rfl⟩, -⟩ := h
  rfl

theorem missAt (h : Tends u s t) {x : Nat} (hx : s.hbm.missAt x = false) : t.hbm.missAt x = false := by
  rcases h.errs x with he | he
  · rw [missAt_congr he, hx]
  · exact (noError_of_right he).2.2

theorem ueAt (h : Tends u s t) {x : Nat} (hx : s.hbm.ueAt x = false) : t.hbm.ueAt x = false := by
  rcases h.errs x with he | he
  · rw [ueAt_congr he, hx]
  · exact (noError_of_right he).2.1

end Tends

/-- Records of the memory system that hold no error, no poison and no slice. -/
theorem tends_hbm (u : Nat) (s : State) {f : Hbm → Hbm} (hs : (f s.hbm).slices = s.hbm.slices)
    (he : ∀ x, (f s.hbm).errAt x = s.hbm.errAt x ∨ (f s.hbm).errAt x = .symbols [])
    (hp : ∀ x, x ∈ (f s.hbm).poison → x ∈ s.hbm.poison ∨ s.hbm.ueAt x = true) : Tends u s (s.modHbm f) :=
  ⟨⟨_, _, _, _, _, _, rfl⟩, fun _ _ => rfl, fun _ => rfl, fun i => congrArg (fun m => (sget Slice.reset m i).cap) hs, he, hp⟩

/-- Records that leave every error, all poison and every slice alone. -/
theorem tends_records (u : Nat) (s : State) {f : Hbm → Hbm} (hs : (f s.hbm).slices = s.hbm.slices) (he : (f s.hbm).errs = s.hbm.errs)
    (hp : (f s.hbm).poison = s.hbm.poison) : Tends u s (s.modHbm f) :=
  tends_hbm u s hs (fun x => .inl (errAt_of_errs he x)) (fun _ h => .inl (hp ▸ h))

/-- Registers of the unit's stack that leave every stack's state alone. -/
theorem tends_regs {u : Nat} {s t : State} (ht : ∃ r, t = { s with regs := r })
    (hr : ∀ o, o / 64 ≠ Reg.mem (stackOfUnit u) 0 / 64 → t.reg o = s.reg o) (hl : ∀ i, t.stackLost i = s.stackLost i) : Tends u s t := by
  obtain ⟨r, rfl⟩ := ht
  exact ⟨⟨_, _, _, _, _, _, rfl⟩, hr, hl, fun _ => rfl, fun _ => .inl rfl, fun _ h => .inl h⟩

theorem tends_setReg {u o : Nat} (ho : o / 64 = Reg.mem (stackOfUnit u) 0 / 64) (hne : ∀ i, Reg.sstat i ≠ o) (s : State) (v : W32) :
    Tends u s (s.setReg o v) :=
  tends_regs ⟨_, rfl⟩ (fun _ hj => State.reg_setReg_ne s v (fun e => hj (by rw [e, ho])))
    (fun i => stackLost_congr (State.reg_setReg_ne s v (hne i)))

@[simp] theorem hbm_modHbm (s : State) (f : Hbm → Hbm) : (s.modHbm f).hbm = f s.hbm := rfl

theorem tends_stack (u t : Nat) (s : State) (f : Stack → Stack) : Tends u s (s.modStack t f) :=
  tends_records u s rfl rfl rfl

theorem tends_raiseFree (u : Nat) (s : State) (type p : Nat) : Tends u s (s.raiseFree type p) := by
  refine ⟨?_, fun o _ => ?_, fun i => stackLost_congr ?_, fun i => ?_, fun x => .inl ?_, fun x h => .inl ?_⟩
  · unfold State.raiseFree State.raise
    dsimp only
    split <;> split <;> exact ⟨_, _, _, _, _, _, rfl⟩
  · simp only [State.reg, State.raiseFree, State.freshen_regs, State.raise_regs]
  · simp only [State.reg, State.raiseFree, State.freshen_regs, State.raise_regs]
  · simp only [State.raiseFree, State.slice, State.freshen_hbm, State.raise_hbm]
  · simp only [State.raiseFree, State.freshen_hbm, State.raise_hbm]
  · simpa only [State.raiseFree, State.freshen_hbm, State.raise_hbm] using h

/-- The mark for repair leaves the state of its stack, which stands above it in the register. -/
theorem tends_repairMark (s : State) (u : Nat) : Tends u s (s.setRegF (Reg.sstat (stackOfUnit u)) 25 1 1) := by
  refine tends_regs ⟨_, rfl⟩ (fun o ho => ?_) (fun i => ?_)
  · refine reg_setRegF_ne (fun e => ho ?_) ..
    rw [e, Reg.sstat]
  · by_cases hi : Reg.sstat i = Reg.sstat (stackOfUnit u)
    · simp only [State.stackLost, State.stackState, hi]
      rw [regF_setRegF_above (by decide) (by decide)]
    · exact stackLost_congr (reg_setRegF_ne hi ..)

theorem tends_markRepair (s : State) (u : Nat) : Tends u s (s.markRepair u) := by
  unfold State.markRepair
  generalize rowKey u = key
  exact (tends_records u s (f := fun h => { h with repair := addNew key h.repair }) rfl rfl rfl).trans (tends_repairMark ..)

theorem tends_serr (s : State) (u : Nat) (ue : Bool) : Tends u s (s.serr u ue) := by
  unfold State.serr
  refine (tends_setReg ?_ (fun i => ?_) s _).trans (tends_stack ..)
  · simp only [Reg.serrLo, Reg.mem]; omega
  · simp only [Reg.serrLo, Reg.sstat, Reg.mem]; omega

theorem tends_unitCe (s : State) (u : Nat) (back : Bool) : Tends u s (s.unitCe u back) := by
  unfold State.unitCe
  dsimp only
  generalize rowKey u = key
  have h : Tends u s ((s.countReg (Reg.sce (stackOfUnit u)) 1).serr u false) := by
    refine (tends_setReg ?_ (fun i => ?_) s _).trans (tends_serr ..)
    · simp only [Reg.sce, Reg.mem]; omega
    · simp only [Reg.sce, Reg.sstat, Reg.mem]; omega
  have h1 := h.trans (tends_records u _ (f := fun h => { h with
    rowErr := sput 0 h.rowErr key (sget 0 s.hbm.rowErr key + 1), wb := if back then addNew u h.wb else h.wb }) rfl rfl rfl)
  exact .ite (h1.trans (tends_markRepair ..)) h1

theorem tends_ueMet (s : State) (u : Nat) : Tends u s (s.ueMet u) := by
  unfold State.ueMet
  refine Tends.trans (Tends.trans (tends_setReg ?_ (fun i => ?_) s _) (tends_serr ..)) (tends_raiseFree ..)
  · simp only [Reg.sue, Reg.mem]; omega
  · simp only [Reg.sue, Reg.sstat, Reg.mem]; omega

theorem mem_addNew {α : Type} [DecidableEq α] (a x : α) (l : List α) : x ∈ addNew a l ↔ x = a ∨ x ∈ l := by
  unfold addNew
  split
  · next h =>
    refine ⟨.inr, ?_⟩
    rintro (rfl | hx)
    · simpa using h
    · exact hx
  · rw [List.mem_append, List.mem_singleton, or_comm]

theorem addNew_of_not_mem {α : Type} [DecidableEq α] {a : α} {l : List α} (h : a ∉ l) : addNew a l = l ++ [a] := by
  simp [addNew, h]

theorem tends_unitUe {s : State} {u : Nat} (h : s.hbm.ueAt u = true) : Tends u s (s.unitUe u) := by
  unfold State.unitUe
  refine Tends.trans ?_ (tends_ueMet ..)
  have hr := tends_markRepair s u
  have hue : (s.markRepair u).hbm.ueAt u = true := (ueAt_congr (errAt_of_errs (by
    unfold State.markRepair
    rw [State.setRegF_hbm, hbm_modHbm]) u)).trans h
  generalize s.markRepair u = t at *
  refine hr.trans (tends_hbm u t (f := fun h => { h.mend u with poison := addNew u h.poison, wb := h.wb.erase u }) rfl (fun x => ?_)
    (fun x hx => ?_))
  · by_cases hx : x = u
    · exact .inr ((errAt_mend _ u x).trans (if_pos hx))
    · exact .inl ((errAt_mend _ u x).trans (if_neg hx))
  · rcases (mem_addNew u x _).mp hx with rfl | hx
    · exact .inr hue
    · exact .inl hx

/-! ### What the code finds (R257) -/

/-- The records of errors that a read of a unit consults: errors, poison and units that wait for their write-back. -/
def errorsOf (s : State) : SMap UnitErr × List Nat × List Nat := (s.hbm.errs, s.hbm.poison, s.hbm.wb)

theorem errorsOf_modStack (s : State) (t : Nat) (f : Stack → Stack) : errorsOf (s.modStack t f) = errorsOf s := rfl
theorem errorsOf_setReg (s : State) (o : Nat) (v : W32) : errorsOf (s.setReg o v) = errorsOf s := rfl
theorem errorsOf_repair (s : State) (f : List Nat → List Nat) :
    errorsOf (s.modHbm (fun h => { h with repair := f h.repair })) = errorsOf s := rfl
theorem errorsOf_noted (s : State) (m : Hbm → SMap Nat) (g : List Nat → List Nat) :
    errorsOf (s.modHbm (fun h => { h with rowErr := m h, wb := g h.wb })) =
      ((errorsOf s).1, (errorsOf s).2.1, g (errorsOf s).2.2) := rfl

theorem errorsOf_serr (s : State) (u : Nat) (ue : Bool) : errorsOf (s.serr u ue) = errorsOf s := by
  unfold State.serr
  rw [errorsOf_modStack, errorsOf_setReg]

theorem errorsOf_markRepair (s : State) (u : Nat) : errorsOf (s.markRepair u) = errorsOf s := by
  unfold State.markRepair State.setRegF
  rw [errorsOf_setReg, errorsOf_repair]

/-- A corrected error leaves the errors and the poison of every unit; it is noted for its write-back, where it waits for one. -/
theorem errorsOf_unitCe (s : State) (u : Nat) (back : Bool) :
    errorsOf (s.unitCe u back) = (s.hbm.errs, s.hbm.poison, if back then addNew u s.hbm.wb else s.hbm.wb) := by
  unfold State.unitCe
  dsimp only
  rw [apply_ite errorsOf, errorsOf_markRepair, ite_self, errorsOf_noted _ _ (fun l => if back then addNew u l else l), errorsOf_serr,
    State.countReg, errorsOf_setReg]
  rfl

theorem errAt_unitCe (s : State) (u x : Nat) (back : Bool) : (s.unitCe u back).hbm.errAt x = s.hbm.errAt x :=
  errAt_of_errs (congrArg Prod.fst (errorsOf_unitCe s u back)) x

section finds

variable {s : State} {u : Nat}

/-- A unit that the code takes for another codeword is right again, with other data. -/
theorem unitEcc_of_missed (h : s.hbm.missAt u = true) : s.unitEcc u = s.unitMissed u := by
  have he : (s.unitMissed u).hbm.errAt u = .symbols [] := by
    refine (errAt_unitCe _ u u false).trans ((errAt_mend _ u u).trans (if_pos rfl))
  obtain ⟨hc, hu, -⟩ := noError_of_right he
  unfold State.unitEcc
  simp only [h, hc, hu, if_true, Bool.false_and, Bool.false_eq_true, if_false]

theorem unitEcc_of_unseen (hm : s.hbm.missAt u = false) (hu : s.hbm.ueAt u = false) (hc : s.hbm.ceAt u = false ∨ u ∈ s.hbm.wb) :
    s.unitEcc u = s := by
  have hb : (s.hbm.ceAt u && !s.hbm.wb.contains u) = false := by
    rcases hc with hc | hc
    · rw [hc, Bool.false_and]
    · simp [hc]
  unfold State.unitEcc
  simp only [hm, hb, hu, Bool.false_eq_true, if_false]

/-- An error that the code corrects is counted once and waits for its write-back. -/
theorem unitEcc_of_corrected (hm : s.hbm.missAt u = false) (hu : s.hbm.ueAt u = false) (hc : s.hbm.ceAt u = true) (hw : u ∉ s.hbm.wb) :
    s.unitEcc u = s.unitCe u true := by
  have hb : (s.hbm.ceAt u && !s.hbm.wb.contains u) = true := by simp [hc, hw]
  have hue : (s.unitCe u true).hbm.ueAt u = false := (ueAt_congr (errAt_unitCe s u u true)).trans hu
  unfold State.unitEcc
  simp only [hm, hb, hue, Bool.false_eq_true, if_false, if_true]

theorem ceAt_of_ueAt {h : Hbm} (hu : h.ueAt u = true) : h.ceAt u = false := by
  unfold Hbm.ueAt at hu
  unfold Hbm.ceAt
  split
  · next l hl =>
    rw [hl] at hu
    simp only [Bool.and_eq_true, decide_eq_true_eq] at hu
    exact decide_eq_false (by omega)
  · rfl

/-- An error that the code detects poisons the unit. -/
theorem unitEcc_of_detected (hm : s.hbm.missAt u = false) (hu : s.hbm.ueAt u = true) : s.unitEcc u = s.unitUe u := by
  unfold State.unitEcc
  simp only [hm, ceAt_of_ueAt hu, hu, Bool.false_and, Bool.false_eq_true, if_false, if_true]

theorem tends_unitEcc (hm : s.hbm.missAt u = false) : Tends u s (s.unitEcc u) := by
  by_cases hu : s.hbm.ueAt u = true
  · rw [unitEcc_of_detected hm hu]
    exact tends_unitUe hu
  · rw [Bool.not_eq_true] at hu
    by_cases hc : s.hbm.ceAt u = true ∧ u ∉ s.hbm.wb
    · rw [unitEcc_of_corrected hm hu hc.1 hc.2]
      exact tends_unitCe ..
    · rw [unitEcc_of_unseen hm hu (by rwa [not_and_or, not_not, Bool.not_eq_true] at hc)]
      exact .refl u s

end finds

/-! ### Activations (R262) -/

/-- From s to t rows of one stack have been activated: banks, and its count of refresh-management commands. -/
def Activates (st : Nat) (s t : State) : Prop :=
  (∃ r b, t = { s with regs := r, hbm := { s.hbm with banks := b } }) ∧ ∀ o, o ≠ Reg.srfm st → t.reg o = s.reg o

theorem Activates.refl (st : Nat) (s : State) : Activates st s s := ⟨⟨_, _, rfl⟩, fun _ _ => rfl⟩
theorem Activates.trans {st : Nat} {s t v : State} : Activates st s t → Activates st t v → Activates st s v := by
  rintro ⟨⟨_, _, rfl⟩, h⟩ ⟨⟨r, b, rfl⟩, g⟩
  exact ⟨⟨r, b, rfl⟩, fun o ho => (g o ho).trans (h o ho)⟩

theorem activates_activate (s : State) (u : Nat) : Activates (stackOfUnit u) s (s.activate u) := by
  unfold State.activate
  dsimp only
  split
  · exact .refl _ s
  · split
    · exact ⟨⟨_, _, rfl⟩, fun o ho => reg_countReg_ne ho 1⟩
    · exact ⟨⟨_, _, rfl⟩, fun _ _ => rfl⟩

theorem Activates.tends {u : Nat} {s t : State} (h : Activates (stackOfUnit u) s t) : Tends u s t := by
  obtain ⟨⟨_, _, rfl⟩, h⟩ := h
  refine ⟨⟨_, _, _, _, _, _, rfl⟩, fun o ho => h o ?_, fun i => stackLost_congr (h _ ?_), fun _ => rfl, fun _ => .inl rfl, fun _ h => .inl h⟩
  · rintro rfl
    apply ho
    simp only [Reg.srfm, Reg.mem]; omega
  · simp only [Reg.srfm, Reg.sstat, Reg.mem]; omega

theorem activates_foldl {st : Nat} {f : Nat → Nat} (l : List Nat) (h : ∀ i ∈ l, stackOfUnit (f i) = st) (s : State) :
    Activates st s (l.foldl (fun a i => a.activate (f i)) s) := by
  induction l generalizing s with
  | nil => exact .refl st s
  | cons a l ih =>
    have ha := activates_activate s (f a)
    rw [h a (List.mem_cons_self ..)] at ha
    exact ha.trans (ih (fun i hi => h i (List.mem_cons_of_mem _ hi)) _)

end Sys2Proof.Units
end

section
/-! Background work on memory stacks (R257 to R261, R265, R414, R416): refresh, patrol, write-back, a stack that is lost and the capture
engine's pages. -/
namespace Sys2Proof.Units

open Sys2Proof.Machine Sys2Proof.Claims Sys2Proof.TempoPorts

/-! ### Registers and errors of a unit that is read -/

section registers

variable {s : State} {u o : Nat}

theorem reg_raiseFree (type p : Nat) : (s.raiseFree type p).reg o = s.reg o := by
  simp only [State.reg, State.raiseFree, State.freshen_regs, State.raise_regs]

theorem reg_markRepair (h : o ≠ Reg.sstat (stackOfUnit u)) : (s.markRepair u).reg o = s.reg o := by
  unfold State.markRepair
  rw [reg_setRegF_ne h, State.modHbm_reg_at]

theorem reg_serr_lo (ue : Bool) : (s.serr u ue).reg (Reg.serrLo (stackOfUnit u)) = BitVec.ofNat 32 (64 * u) := by
  unfold State.serr
  rw [State.modStack_reg_at, State.reg_setReg]
theorem reg_serr_ne (h : o ≠ Reg.serrLo (stackOfUnit u)) (ue : Bool) : (s.serr u ue).reg o = s.reg o := by
  unfold State.serr
  rw [State.modStack_reg_at, State.reg_setReg_ne _ _ h]

theorem reg_unitCe (h : o ≠ Reg.sstat (stackOfUnit u)) (back : Bool) :
    (s.unitCe u back).reg o = ((s.countReg (Reg.sce (stackOfUnit u)) 1).serr u false).reg o := by
  unfold State.unitCe
  dsimp only
  rw [apply_ite (fun t : State => t.reg o), reg_markRepair h, ite_self, State.modHbm_reg_at]

theorem errorsOf_raiseFree (s : State) (type p : Nat) : errorsOf (s.raiseFree type p) = errorsOf s := by
  simp only [errorsOf, State.raiseFree, State.freshen_hbm, State.raise_hbm]

theorem errorsOf_ueMet (s : State) (u : Nat) : errorsOf (s.ueMet u) = errorsOf s := by
  unfold State.ueMet State.setRegF
  rw [errorsOf_raiseFree, errorsOf_serr, errorsOf_setReg]

/-- An uncorrectable unit is poisoned, its codeword no longer wrong. -/
theorem errorsOf_unitUe (s : State) (u : Nat) :
    errorsOf (s.unitUe u) = (sdel s.hbm.errs u, addNew u s.hbm.poison, s.hbm.wb.erase u) := by
  have mended (v : State) : errorsOf (v.modHbm (fun h => { h.mend u with poison := addNew u h.poison, wb := h.wb.erase u })) =
      (sdel (errorsOf v).1 u, addNew u (errorsOf v).2.1, (errorsOf v).2.2.erase u) := rfl
  unfold State.unitUe
  rw [errorsOf_ueMet, mended, errorsOf_markRepair]
  rfl

theorem reg_unitUe (h : o ≠ Reg.sstat (stackOfUnit u)) : (s.unitUe u).reg o = (s.ueMet u).reg o := by
  have hsue : Reg.sue (stackOfUnit u) ≠ Reg.sstat (stackOfUnit u) := by simp only [Reg.sue, Reg.sstat, Reg.mem]; omega
  unfold State.unitUe State.ueMet
  rw [reg_raiseFree, reg_raiseFree]
  have hr (j : Nat) (hj : j ≠ Reg.sstat (stackOfUnit u)) :
      State.reg ((s.markRepair u).modHbm (fun h => { h.mend u with poison := addNew u h.poison, wb := h.wb.erase u })) j = s.reg j := by
    rw [State.modHbm_reg_at, reg_markRepair hj]
  generalize State.modHbm _ _ = v at *
  by_cases hlo : o = Reg.serrLo (stackOfUnit u)
  · rw [hlo, reg_serr_lo, reg_serr_lo]
  · rw [reg_serr_ne hlo, reg_serr_ne hlo]
    by_cases hs : o = Reg.sue (stackOfUnit u)
    · subst hs
      simp only [State.regF, State.setRegF, State.reg_setReg, hr _ hsue]
    · rw [reg_setRegF_ne hs, reg_setRegF_ne hs, hr o h]

/-- A unit that is read disturbs no other unit's errors. -/
theorem errAt_unitEcc_ne {j : Nat} (hj : j ≠ u) : (s.unitEcc u).hbm.errAt j = s.hbm.errAt j := by
  by_cases hm : s.hbm.missAt u = true
  · rw [unitEcc_of_missed hm]
    exact (errAt_unitCe ..).trans ((errAt_mend s.hbm u j).trans (if_neg hj))
  · rw [Bool.not_eq_true] at hm
    by_cases hu : s.hbm.ueAt u = true
    · rw [unitEcc_of_detected hm hu]
      exact (errAt_of_errs (h := s.hbm.mend u) (congrArg Prod.fst (errorsOf_unitUe s u)) j).trans ((errAt_mend s.hbm u j).trans (if_neg hj))
    · rw [Bool.not_eq_true] at hu
      by_cases hc : s.hbm.ceAt u = true ∧ u ∉ s.hbm.wb
      · rw [unitEcc_of_corrected hm hu hc.1 hc.2, errAt_unitCe]
      · rw [unitEcc_of_unseen hm hu (by rwa [not_and_or, not_not, Bool.not_eq_true] at hc)]

theorem cores_unitEcc (s : State) (u : Nat) : (s.unitEcc u).cores = s.cores := by
  by_cases hm : s.hbm.missAt u = true
  · rw [unitEcc_of_missed hm]
    exact (tends_unitCe ..).cores
  · exact (tends_unitEcc (by simpa using hm)).cores

end registers

/-! ### The patrol (R257 to R260) -/

section patrol

/-- The state once the patrol has read unit u. -/
def patrolled (s : State) (u : Nat) : State := (s.activate u).unitEcc u

variable {s : State} {u : Nat}

theorem errorsOf_activate (s : State) (u : Nat) : errorsOf (s.activate u) = errorsOf s := by
  obtain ⟨⟨_, _, h⟩, -⟩ := activates_activate s u
  rw [h]
  rfl

theorem errAt_activate (s : State) (u x : Nat) : (s.activate u).hbm.errAt x = s.hbm.errAt x :=
  errAt_of_errs (congrArg Prod.fst (errorsOf_activate s u)) x

theorem cores_patrolled (s : State) (u : Nat) : (patrolled s u).cores = s.cores :=
  (cores_unitEcc ..).trans (activates_activate s u).tends.cores

theorem mem_patrolled (hm : s.hbm.missAt u = false) : (patrolled s u).mem = s.mem :=
  (tends_unitEcc ((missAt_congr (errAt_activate s u u)).trans hm)).mem.trans (activates_activate s u).tends.mem

theorem errAt_patrolled_ne {j : Nat} (hj : j ≠ u) : (patrolled s u).hbm.errAt j = s.hbm.errAt j :=
  (errAt_unitEcc_ne hj).trans (errAt_activate s u j)

theorem patrolled_of_right (he : s.hbm.errAt u = .symbols []) : patrolled s u = s.activate u := by
  obtain ⟨hc, hu, hm⟩ := noError_of_right ((errAt_activate s u u).trans he)
  exact unitEcc_of_unseen hm hu (.inl hc)

/-- The registers of a stack that the patrol writes beside the count of refresh-management commands. -/
theorem reg_activate {o : Nat} (h : o ≠ Reg.srfm (stackOfUnit u)) : (s.activate u).reg o = s.reg o := (activates_activate s u).2 o h

/-- Up to three wrong symbols: counted, named, and waiting for the write-back. -/
theorem patrolled_of_corrected {l : List Nat} (he : s.hbm.errAt u = .symbols l) (h1 : 1 ≤ l.length) (h3 : l.length ≤ 3) (hw : u ∉ s.hbm.wb) :
    errorsOf (patrolled s u) = (s.hbm.errs, s.hbm.poison, s.hbm.wb ++ [u]) ∧
    ((patrolled s u).reg (Reg.sce (stackOfUnit u))).toNat = min (2 ^ 32 - 1) ((s.reg (Reg.sce (stackOfUnit u))).toNat + 1) ∧
    (patrolled s u).reg (Reg.serrLo (stackOfUnit u)) = BitVec.ofNat 32 (64 * u) := by
  have hev := (errAt_activate s u u).trans he
  have hec := errorsOf_activate s u
  have hreg : (s.activate u).reg (Reg.sce (stackOfUnit u)) = s.reg (Reg.sce (stackOfUnit u)) := by
    refine reg_activate ?_
    simp only [Reg.sce, Reg.srfm, Reg.mem]; omega
  unfold patrolled
  generalize s.activate u = v at *
  simp only [errorsOf, Prod.mk.injEq] at hec
  obtain ⟨herr, hpo, hwb⟩ := hec
  have hm : v.hbm.missAt u = false := by simp [Hbm.missAt, hev, show ¬ 6 ≤ l.length by omega]
  have hu : v.hbm.ueAt u = false := by simp [Hbm.ueAt, hev, show ¬ 4 ≤ l.length by omega]
  have hc : v.hbm.ceAt u = true := by simp [Hbm.ceAt, hev, h1, h3]
  have hn : u ∉ v.hbm.wb := by rwa [hwb]
  rw [unitEcc_of_corrected hm hu hc hn, errorsOf_unitCe, if_pos rfl, addNew_of_not_mem hn, herr, hpo, hwb]
  refine ⟨rfl, ?_, ?_⟩
  · rw [reg_unitCe, reg_serr_ne, countReg_toNat, hreg]
    · simp only [Reg.sce, Reg.serrLo, Reg.mem]; omega
    · simp only [Reg.sce, Reg.sstat, Reg.mem]; omega
  · rw [reg_unitCe, reg_serr_lo]
    simp only [Reg.serrLo, Reg.sstat, Reg.mem]; omega

/-- Errors that the code detects: the unit is poisoned and named. -/
theorem patrolled_of_detected (he : s.hbm.errAt u = .misplaced ∨ ∃ l, s.hbm.errAt u = .symbols l ∧ 4 ≤ l.length ∧ l.length ≤ 5) :
    errorsOf (patrolled s u) = (sdel s.hbm.errs u, addNew u s.hbm.poison, s.hbm.wb.erase u) ∧
    (patrolled s u).regF (Reg.sue (stackOfUnit u)) 16 16 = min 65535 (s.regF (Reg.sue (stackOfUnit u)) 16 16 + 1) ∧
    (patrolled s u).reg (Reg.serrLo (stackOfUnit u)) = BitVec.ofNat 32 (64 * u) := by
  have hev := errAt_activate s u u
  have hec := errorsOf_activate s u
  have hreg : (s.activate u).reg (Reg.sue (stackOfUnit u)) = s.reg (Reg.sue (stackOfUnit u)) := by
    refine reg_activate ?_
    simp only [Reg.sue, Reg.srfm, Reg.mem]; omega
  unfold patrolled
  generalize s.activate u = v at *
  rw [← hev] at he
  simp only [errorsOf, Prod.mk.injEq] at hec
  obtain ⟨herr, hpo, hwb⟩ := hec
  have hu : v.hbm.ueAt u = true := by
    rcases he with he | ⟨l, he, h4, h5⟩
    · simp [Hbm.ueAt, he]
    · simp [Hbm.ueAt, he, h4, h5]
  have hm : v.hbm.missAt u = false := by
    rcases he with he | ⟨l, he, h4, h5⟩
    · simp [Hbm.missAt, he]
    · simp [Hbm.missAt, he, show ¬ 6 ≤ l.length by omega]
  rw [unitEcc_of_detected hm hu, errorsOf_unitUe, herr, hpo, hwb]
  refine ⟨rfl, ?_, ?_⟩
  · have hne : Reg.sue (stackOfUnit u) ≠ Reg.sstat (stackOfUnit u) := by simp only [Reg.sue, Reg.sstat, Reg.mem]; omega
    have hlo : Reg.sue (stackOfUnit u) ≠ Reg.serrLo (stackOfUnit u) := by simp only [Reg.sue, Reg.serrLo, Reg.mem]; omega
    rw [State.regF, reg_unitUe hne, State.ueMet, reg_raiseFree, reg_serr_ne hlo, ← State.regF, regF_setRegF (by decide), satAdd, State.regF, hreg,
      ← State.regF]
    exact Nat.mod_eq_of_lt (by omega)
  · rw [reg_unitUe, State.ueMet, reg_raiseFree, reg_serr_lo]
    simp only [Reg.serrLo, Reg.sstat, Reg.mem]; omega

theorem stackPatrol_eq {st : Fin 48} (h : s.stackLost st = false) :
    exec (.stackPatrol st) s = .next ((patrolled s (2 ^ 36 + st.val * 2 ^ 30 + (s.stack st).patrol)).modStack st
      (fun k => { k with patrol := ((s.stack st).patrol + 1) % 2 ^ 30 })) := by
  have hu : (0x40000000000 + st.val * 2 ^ 36) / 64 + (s.stack st).patrol = 2 ^ 36 + st.val * 2 ^ 30 + (s.stack st).patrol := by omega
  have run : exec (.stackPatrol st) s = execStackPatrol st s := rfl
  rw [run]
  unfold execStackPatrol
  dsimp only
  rw [hu, if_neg (by simp [h]), patrolled]

theorem stackOfUnit_of_lt {st n : Nat} (h : n < 2 ^ 30) : stackOfUnit (2 ^ 36 + st * 2 ^ 30 + n) = st := by
  unfold stackOfUnit stackOf sliceOf
  omega

end patrol

end Sys2Proof.Units
end

section
/-! Stacks that are lost (R260) and the pages that the capture engine reads (R265, R414, R416). -/
namespace Sys2Proof.Units

open Sys2Proof.Machine Sys2Proof.Claims Sys2Proof.TempoPorts

/-! ### Changes of registers alone -/

/-- Two states that differ in some registers alone. -/
def SetsRegs (own : Nat → Prop) (s t : State) : Prop := (∃ r, t = { s with regs := r }) ∧ ∀ o, ¬ own o → t.reg o = s.reg o

theorem SetsRegs.refl {own : Nat → Prop} (s : State) : SetsRegs own s s := ⟨⟨_, rfl⟩, fun _ _ => rfl⟩
theorem SetsRegs.trans {own : Nat → Prop} {s t v : State} : SetsRegs own s t → SetsRegs own t v → SetsRegs own s v := by
  rintro ⟨⟨_, rfl⟩, h⟩ ⟨⟨r, rfl⟩, g⟩
  exact ⟨⟨r, rfl⟩, fun o ho => (g o ho).trans (h o ho)⟩

theorem setsRegs_setReg {own : Nat → Prop} {o : Nat} (h : own o) (s : State) (v : W32) : SetsRegs own s (s.setReg o v) :=
  ⟨⟨_, rfl⟩, fun _ hj => State.reg_setReg_ne s v (fun e => hj (e ▸ h))⟩
theorem setsRegs_setRegF {own : Nat → Prop} {o : Nat} (h : own o) (s : State) (lo len v : Nat) : SetsRegs own s (s.setRegF o lo len v) :=
  setsRegs_setReg h s _

/-! ### Maps whose values are rewritten -/

theorem sget_map {α : Type} (d d' : α) (f : Nat → α → α) (hd : ∀ k, f k d = d') (m : SMap α) (k : Nat) :
    sget d' (m.map (fun e => (e.1, f e.1 e.2))) k = f k (sget d m k) := by
  induction m with
  | nil => exact (hd k).symm
  | cons e m ih =>
    by_cases h : e.1 = k
    · rw [← h]; simp [sget]
    · simpa [sget, h] using ih

/-! ### A lost stack (R260) -/

section lost

variable {s : State} {st : Fin 48}

/-- A position as it stands once a stack is lost: whether the buddy's copy can still be read is a free bit where this panel is its own
buddy. -/
def lostCopy (s : State) (st k : Nat) (c : Position) : Position :=
  { c with
    mine := c.mine && c.gen % 2 != st % 2
    buddy := c.buddy && (s.remoteBuddy.isSome || (Config.freeByte s.freeCtr (16 * k + c.gen % 16)).getLsbD 0) }

/-- A partition once a stack is lost. -/
def lostPart (s : State) (st k : Nat) (q : Part) : Part := { q with positions := q.positions.map (lostCopy s st k) }

/-- A state whose partitions have lost the copies that a stack held. -/
def withoutCopies (s v : State) (st : Nat) : State := { v with parts := v.parts.map (fun e => (e.1, lostPart s st e.1 e.2)) }

/-- The registers of every partition show the copies that are left. -/
def copiesShown (v : State) : State := (v.parts.foldl (fun a e => a.pstatCopies e.1) v).freshen

/-- The partitions that own a slice of a stack. -/
def stackOwners (s : State) (st : Nat) : List Nat :=
  ((List.range 64).filterMap (fun c =>
    if (s.grantOf (st * 64 + c)).getLsbD 31 then some (grantOwner (s.grantOf (st * 64 + c))) else none)).eraseDups

/-- A partition that owns a slice of the stack and runs, or recovers, halts. -/
def haltOwner (st : Fin 48) (a : State) (p : Nat) : State :=
  if (a.part p).st = 1 ∨ (a.part p).st = 5 then a.raiseHalt p .abort (.stackLost st) else a

theorem stackLost_eq (s : State) (st : Fin 48) : exec (.stackLost st) s =
    .next ((stackOwners s st).foldl (haltOwner st) (copiesShown (withoutCopies s (s.setRegF (Reg.sstat st) 28 4 4) st))) := by
  have run : exec (.stackLost st) s = execStackLost st s := rfl
  rw [run]
  unfold execStackLost
  dsimp only
  generalize s.setRegF (Reg.sstat st) 28 4 4 = v
  rfl

theorem setsRegs_pstatCopies {own : Nat → Prop} {p : Nat} (h : own (Reg.pstat p)) (s : State) : SetsRegs own s (s.pstatCopies p) :=
  (setsRegs_setRegF h s ..).trans (setsRegs_setRegF h ..)

/-- Showing the copies changes registers of the positions alone, and of those no stack's. -/
theorem setsRegs_shown (l : List (Nat × Part)) (v : State) :
    SetsRegs (fun o => ∃ p, o = Reg.pstat p) v (l.foldl (fun a e => a.pstatCopies e.1) v) :=
  foldl_rel SetsRegs.refl SetsRegs.trans (fun a e => setsRegs_pstatCopies ⟨e.1, rfl⟩ a) l v

theorem copiesShown_spec (v : State) : (copiesShown v).mem = v.mem ∧ (copiesShown v).cores = v.cores ∧
    (∀ st < 48, (copiesShown v).stackLost st = v.stackLost st) ∧ ∀ p, (copiesShown v).part p = v.part p := by
  obtain ⟨⟨r, hr⟩, hreg⟩ := setsRegs_shown v.parts v
  unfold copiesShown
  generalize List.foldl _ v _ = w at *
  refine ⟨by rw [hr]; rfl, by rw [hr]; rfl, fun st h => stackLost_congr (hreg _ ?_), fun p => by rw [hr]; rfl⟩
  rintro ⟨p, hp⟩
  simp only [Reg.pstat, Reg.mgt, Reg.sstat, Reg.mem] at hp
  omega

theorem stackLost_marked (s : State) (st : Nat) : (s.setRegF (Reg.sstat st) 28 4 4).stackLost st = true := by
  unfold State.stackLost State.stackState
  rw [regF_setRegF (by decide)]
  rfl

/-- Halting an owner leaves everything but the halt that is on its way. -/
theorem haltOwner_spec (st : Fin 48) (v : State) (k : Nat) :
    (∃ m, haltOwner st v k = { v with parts := m }) ∧ (∀ p, ∃ x, (haltOwner st v k).part p = { v.part p with haltPend := x }) ∧
    (∀ p, (v.part p).haltPend.map (·.1) = some .abort → ((haltOwner st v k).part p).haltPend.map (·.1) = some .abort) ∧
    ((v.part k).st = 1 ∨ (v.part k).st = 5 → ((haltOwner st v k).part k).haltPend.map (·.1) = some .abort) := by
  unfold haltOwner
  split
  · have hk := haltPend_raiseHalt_abort v k (.stackLost st)
    have hne (p : Nat) (h : p ≠ k) : (v.raiseHalt k .abort (.stackLost st)).part p = v.part p := State.part_modPart_ne v _ h
    refine ⟨⟨_, rfl⟩, fun p => ?_, fun p hp => ?_, fun _ => hk⟩
    · by_cases h : p = k
      · subst h
        rw [State.raiseHalt, State.part_modPart]
        rcases (v.part p).haltPend with _ | ⟨_ | _, _⟩ <;> exact ⟨_, rfl⟩
      · exact ⟨_, hne p h⟩
    · by_cases h : p = k
      · exact h ▸ hk
      · rw [hne p h, hp]
  · next h => exact ⟨⟨_, rfl⟩, fun _ => ⟨_, rfl⟩, fun _ hp => hp, fun hk => absurd hk h⟩

theorem haltOwners_spec (st : Fin 48) (l : List Nat) (v : State) :
    (∃ m, l.foldl (haltOwner st) v = { v with parts := m }) ∧ (∀ p, ∃ x, (l.foldl (haltOwner st) v).part p = { v.part p with haltPend := x }) ∧
    (∀ p, (v.part p).haltPend.map (·.1) = some .abort → ((l.foldl (haltOwner st) v).part p).haltPend.map (·.1) = some .abort) ∧
    ∀ p ∈ l, (v.part p).st = 1 ∨ (v.part p).st = 5 → ((l.foldl (haltOwner st) v).part p).haltPend.map (·.1) = some .abort := by
  induction l generalizing v with
  | nil => exact ⟨⟨_, rfl⟩, fun _ => ⟨_, rfl⟩, fun _ h => h, fun _ h => absurd h List.not_mem_nil⟩
  | cons k l ih =>
    obtain ⟨⟨m, hm⟩, hpart, hkeep, hhalt⟩ := haltOwner_spec st v k
    obtain ⟨⟨m', hm'⟩, hpart', hkeep', hhalt'⟩ := ih (haltOwner st v k)
    rw [List.foldl_cons]
    refine ⟨⟨m', by rw [hm', hm]⟩, fun p => ?_, fun p h => hkeep' p (hkeep p h), fun p hp hst => ?_⟩
    · obtain ⟨x, hx⟩ := hpart p
      obtain ⟨y, hy⟩ := hpart' p
      exact ⟨y, by rw [hy, hx]⟩
    · obtain ⟨x, hx⟩ := hpart p
      rcases List.mem_cons.mp hp with rfl | hp
      · exact hkeep' p (hhalt hst)
      · exact hhalt' p hp (by rw [hx]; exact hst)

theorem mem_stackOwners {p c : Nat} (hc : c < 64) (hg : (s.grantOf (st.val * 64 + c)).getLsbD 31 = true)
    (ho : grantOwner (s.grantOf (st.val * 64 + c)) = p) : p ∈ stackOwners s st := by
  unfold stackOwners
  rw [List.mem_eraseDups, List.mem_filterMap]
  exact ⟨c, List.mem_range.mpr hc, by rw [if_pos hg, ho]⟩

/-- What holds once the stack is marked, the copies are dropped and the owners halt. -/
theorem lostOwners_spec {marked : State} (hmem : marked.mem = s.mem) (hcores : marked.cores = s.cores) (hparts : marked.parts = s.parts)
    (hmark : marked.stackLost st = true) :
    let t := (stackOwners s st).foldl (haltOwner st) (copiesShown (withoutCopies s marked st))
    t.mem = s.mem ∧ t.cores = s.cores ∧ t.stackLost st = true ∧
    (∀ p < 16, ∃ b : Position → Bool, (s.remoteBuddy ≠ none → ∀ c, b c = true) ∧ (t.part p).positions = (s.part p).positions.map
      (fun c => { c with mine := c.mine && c.gen % 2 != st.val % 2, buddy := c.buddy && b c })) ∧
    (∀ p < 16, (s.part p).st = 1 ∨ (s.part p).st = 5 →
      (∃ c < 64, (s.grantOf (st.val * 64 + c)).getLsbD 31 = true ∧ grantOwner (s.grantOf (st.val * 64 + c)) = p) →
      (t.part p).haltPend.map (·.1) = some .abort) := by
  obtain ⟨hmem', hcores', hlost, hpart⟩ := copiesShown_spec (withoutCopies s marked st)
  have hpart' (p : Nat) : (copiesShown (withoutCopies s marked st)).part p = lostPart s st p (s.part p) := by
    refine (hpart p).trans ?_
    rw [State.part, withoutCopies, hparts]
    exact sget_map Part.reset Part.reset (lostPart s st) (fun _ => rfl) s.parts p
  have hmark' := (hlost st st.isLt).trans hmark
  generalize copiesShown _ = v at *
  intro t
  obtain ⟨⟨m, hm⟩, hpos, -, hhalt⟩ := haltOwners_spec st (stackOwners s st) v
  have ht : t = { v with parts := m } := hm
  refine ⟨?_, ?_, ?_, fun p _ => ?_, fun p _ hst ⟨c, hc, hg, ho⟩ => ?_⟩
  · rw [ht]; exact hmem'.trans hmem
  · rw [ht]; exact hcores'.trans hcores
  · rw [ht]; exact hmark'
  · obtain ⟨x, hx⟩ := hpos p
    refine ⟨fun c => s.remoteBuddy.isSome || (Config.freeByte s.freeCtr (16 * p + c.gen % 16)).getLsbD 0, fun h c => ?_, ?_⟩
    · simp [Option.isSome_iff_ne_none.mpr h]
    · rw [hx, hpart' p]
      rfl
  · refine hhalt p (mem_stackOwners hc hg ho) ?_
    rw [hpart' p]
    exact hst

/-- A lost stack is marked, the panel's own copies that it held are gone, and every running partition with a slice of it halts. -/
theorem stackLost_spec (s : State) (st : Fin 48) : ∃ t, exec (.stackLost st) s = .next t ∧ t.mem = s.mem ∧ t.cores = s.cores ∧
    t.stackLost st = true ∧
    (∀ p < 16, ∃ b : Position → Bool, (s.remoteBuddy ≠ none → ∀ c, b c = true) ∧ (t.part p).positions = (s.part p).positions.map
      (fun c => { c with mine := c.mine && c.gen % 2 != st.val % 2, buddy := c.buddy && b c })) ∧
    (∀ p < 16, (s.part p).st = 1 ∨ (s.part p).st = 5 →
      (∃ c < 64, (s.grantOf (st.val * 64 + c)).getLsbD 31 = true ∧ grantOwner (s.grantOf (st.val * 64 + c)) = p) →
      (t.part p).haltPend.map (·.1) = some .abort) :=
  ⟨_, stackLost_eq s st, lostOwners_spec (State.setRegF_mem ..) (State.setRegF_cores ..) (State.setRegF_parts ..) (stackLost_marked s st)⟩

end lost
end Sys2Proof.Units
end

section
/-! The capture engine (R265, R414, R416): a page that is read, and the last page of a capture on the panel's own store. -/
namespace Sys2Proof.Units

open Sys2Proof.Machine Sys2Proof.Claims Sys2Proof.TempoPorts

section capture

variable {s : State} {sl pg : Nat}

theorem slice_modSlice_ne {t k : Nat} (h : k ≠ t) (s : State) (f : Slice → Slice) : (s.modSlice t f).slice k = s.slice k :=
  sget_sput_ne _ _ _ h

/-- The bits of a bitmap with one page taken out. -/
theorem getLsbD_clearPage (b : BitVec 512) {j pg : Nat} (hj : j < 512) :
    (b &&& ~~~(BitVec.ofNat 512 (2 ^ pg))).getLsbD j = (b.getLsbD j && j != pg) := by
  rw [BitVec.getLsbD_and, BitVec.getLsbD_not, BitVec.getLsbD_ofNat, Nat.testBit_two_pow]
  by_cases h : j = pg
  · simp [h]
  · simp [hj, h, Ne.symm h]

theorem stackOfUnit_page {i : Nat} (hi : i < 2 ^ 15) (hp : pg < 512) :
    stackOfUnit ((0x40000000000 + sl * 2 ^ 30 + pg * 2 ^ 21) / 64 + i) = sl / 64 := by
  unfold stackOfUnit stackOf sliceOf
  omega

/-- A page of a slice taken out of its capture. -/
def pageTaken (v : State) (sl pg : Nat) : State := v.modSlice sl (fun l => { l with cap := l.cap &&& ~~~(BitVec.ofNat 512 (2 ^ pg)) })

/-- A capture that notes uncorrectable units. -/
def notesPoison (bad : List Nat) (q : Part) : Part :=
  { q with capturing := q.capturing.map (fun c => { c with poison := bad.foldl (fun l u => addNew u l) c.poison }) }

/-- One page fewer is left to a capture, which notes the page's uncorrectable units. -/
def pageCounted (v : State) (p : Nat) (bad : List Nat) : State :=
  (v.setRegF (Reg.pcap p) 0 21 (v.regF (Reg.pcap p) 0 21 - 1)).modPart p (notesPoison bad)

theorem remoteBuddy_congr {s t : State} (hb : t.reg Reg.buddy = s.reg Reg.buddy) (ho : t.reg Reg.sylPanelId = s.reg Reg.sylPanelId) :
    t.remoteBuddy = s.remoteBuddy := by
  unfold State.remoteBuddy State.ownId State.regF
  rw [hb, ho]

theorem sendPage_of_own (h : s.remoteBuddy = none) : s.sendPage sl pg = s := by
  unfold State.sendPage
  dsimp only
  rw [h]

theorem activates_page {st u0 : Nat} (h : ∀ i < 2 ^ 15, stackOfUnit (u0 + i) = st) (s : State) :
    Activates st s ((List.range (2 ^ 15)).foldl (fun a i => a.activate (u0 + i)) s) :=
  activates_foldl _ (fun i hi => h i (List.mem_range.mp hi)) s

/-- A page without wrong units, on a panel that is its own buddy: its bank rows are activated, its capture bit is cleared and counted. -/
theorem pageRead_of_clean (hbit : (s.slice sl).cap.getLsbD pg = true) (hp : pg < 512) (hb : s.remoteBuddy = none) (he : s.hbm.errs = [])
    (hp16 : grantOwner (s.grantOf sl) < 16) (hsl : sl / 64 < 48) :
    ∃ v bad, Activates (sl / 64) s v ∧ s.pageRead sl pg = pageCounted (pageTaken v sl pg) (grantOwner (s.grantOf sl)) bad := by
  have hunit (i : Nat) (hi : i < 2 ^ 15) := stackOfUnit_page (sl := sl) hi hp
  unfold State.pageRead
  rw [if_neg (by simp [hbit])]
  dsimp only
  generalize (0x40000000000 + sl * 2 ^ 30 + pg * 2 ^ 21) / 64 = u0 at *
  have hact := activates_page hunit s
  generalize List.foldl _ s (List.range (2 ^ 15)) = v at *
  have hv : v.hbm.errs = [] := by
    obtain ⟨⟨_, _, rfl⟩, -⟩ := hact
    exact he
  rw [hv]
  rw [List.map_nil, List.filter_nil, List.foldl_nil]
  generalize List.filter _ v.hbm.poison = bad
  refine ⟨v, bad, hact, sendPage_of_own ?_⟩
  rw [← hb]
  have hreg (o : Nat) (ho : o ≠ Reg.pcap (grantOwner (s.grantOf sl))) (hs : o ≠ Reg.srfm (sl / 64)) :
      State.reg (pageCounted (pageTaken v sl pg) (grantOwner (s.grantOf sl)) bad) o = s.reg o := by
    unfold pageCounted pageTaken
    rw [State.modPart_reg_at, reg_setRegF_ne ho, State.modSlice_reg_at, hact.2 o hs]
  refine remoteBuddy_congr (hreg _ ?_ ?_) (hreg _ ?_ ?_) <;> simp only [Reg.buddy, Reg.sylPanelId, Reg.pcap, Reg.srfm, Reg.mem] <;> omega

theorem releaseHeld_of_none (h : s.hbm.held = []) : s.releaseHeld sl pg = s := by
  unfold State.releaseHeld
  dsimp only
  rw [h]
  simp only [List.filter_nil, List.foldl_nil, State.modHbm, h]
  rw [← h]

/-- The lowest marked page is the first in the list of marked pages. -/
theorem head_pagesOf {b : BitVec 512} (hp : pg < 512) (hbit : b.getLsbD pg = true) (hlow : ∀ j < pg, b.getLsbD j = false) :
    (pagesOf b).head? = some pg := by
  unfold pagesOf
  rw [List.head?_filter, List.find?_range_eq_some]
  exact ⟨hbit, List.mem_range.mpr hp, fun j hj => by simp [hlow j hj]⟩

/-- The capture engine reads its first marked page, and sees whether it was the last. -/
theorem capturePageRead_eq {sl : Fin 3072} (hheld : s.hbm.held = []) (hpg : (pagesOf (s.slice sl.val).cap).head? = some pg) :
    exec (.capturePageRead sl) s = .next (((s.pageRead sl pg).releaseHeld sl pg).pagesDone (grantOwner (s.grantOf sl.val))) := by
  have run : exec (.capturePageRead sl) s = execCapturePageRead sl s := rfl
  rw [run]
  unfold execCapturePageRead
  dsimp only
  rw [hheld, List.filterMap_nil, List.filter_nil, List.nil_append, hpg]

end capture

end Sys2Proof.Units
end

section
/-! The capture engine's last page (R414, R416), and what a read of a marked page leaves of its slice and its partition. -/
namespace Sys2Proof.Units

open Sys2Proof.Machine Sys2Proof.Claims Sys2Proof.TempoPorts

/-! ### The end of a capture on the panel's own store -/

section done

variable {s : State} {p : Nat} {c : Position}

theorem regF_lt (v : State) (o lo len : Nat) : v.regF o lo len < 2 ^ len := Nat.mod_lt _ (Nat.two_pow_pos len)

theorem pagesDone_waits (hc : (s.part p).capturing = some c) (h : s.regF (Reg.pcap p) 0 21 ≠ 0) : s.pagesDone p = s := by
  unfold State.pagesDone
  rw [hc]
  exact if_pos (.inl h)

/-- The generation of a capture that is complete stands before the one before it. -/
def holdsCapture (c : Position) (q : Part) : Part :=
  { q with capturing := none, positions := ({ c with buddy := true } :: q.positions).take 2, progNew := false, captureFailed := false }

/-- The registers of R432 that show a complete generation, and the count of the capture. -/
def captureReg (p o : Nat) : Prop := o = Reg.pcap p ∨ o = Reg.pgen p ∨ o = Reg.mgtPmoveLo p ∨ o = Reg.pstat p

theorem captureDone_spec (hc : (s.part p).capturing = some c) :
    SetsRegs (captureReg p) (s.modPart p (holdsCapture c)) (s.captureDone p) ∧ (s.captureDone p).reg (Reg.pgen p) = BitVec.ofNat 32 c.gen := by
  have show1 (v : State) (a b : W32) : SetsRegs (captureReg p) v
      ((((v.setReg (Reg.pgen p) a).setReg (Reg.mgtPmoveLo p) b).pstatState p 1).pstatCopies p) ∧
      ((((v.setReg (Reg.pgen p) a).setReg (Reg.mgtPmoveLo p) b).pstatState p 1).pstatCopies p).reg (Reg.pgen p) = a := by
    have hp : captureReg p (Reg.pstat p) := .inr (.inr (.inr rfl))
    refine ⟨(((setsRegs_setReg (.inr (.inl rfl)) v a).trans (setsRegs_setReg (.inr (.inr (.inl rfl))) _ b)).trans
      (setsRegs_setRegF hp _ ..)).trans (setsRegs_pstatCopies hp _), ?_⟩
    have hne : ¬ (Reg.pgen p = Reg.pstat p) := by simp only [Reg.pgen, Reg.pstat, Reg.mgt]; omega
    have hlo : Reg.pgen p ≠ Reg.mgtPmoveLo p := by simp only [Reg.pgen, Reg.mgtPmoveLo, Reg.mgt]; omega
    refine ((setsRegs_pstatCopies (own := (· = Reg.pstat p)) rfl _).2 _ hne).trans ?_
    refine ((setsRegs_setRegF (own := (· = Reg.pstat p)) rfl _ 28 4 1).2 _ hne).trans ?_
    rw [State.reg_setReg_ne _ _ hlo, State.reg_setReg]
  unfold State.captureDone
  rw [hc]
  exact show1 (s.modPart p (holdsCapture c)) _ _

variable (hc : (s.part p).capturing = some c) (h0 : s.regF (Reg.pcap p) 0 21 = 0) (h1 : s.regF (Reg.pcap p) 31 1 = 1) (hputs : (s.part p).puts = 0)
  (hb : s.remoteBuddy = none) (hp : p < 16)
include hc h0 h1 hputs hb hp

/-- The last page is read and nothing awaits the buddy: the generation is complete on the panel's own store. -/
theorem pagesDone_completes : SetsRegs (captureReg p) (s.modPart p (holdsCapture c)) (s.pagesDone p) ∧
    (s.pagesDone p).reg (Reg.pgen p) = BitVec.ofNat 32 c.gen := by
  have hset := setsRegs_setRegF (own := captureReg p) (o := Reg.pcap p) (.inl rfl) s 31 1 0
  have hbuddy : (s.setRegF (Reg.pcap p) 31 1 0).remoteBuddy = none := by
    rw [← hb]
    refine remoteBuddy_congr (reg_setRegF_ne ?_ ..) (reg_setRegF_ne ?_ ..) <;> simp only [Reg.buddy, Reg.sylPanelId, Reg.pcap] <;> omega
  unfold State.pagesDone
  rw [hc]
  dsimp only
  rw [if_neg (by simp [h0, h1, hputs])]
  have hpart : (s.setRegF (Reg.pcap p) 31 1 0).part p = s.part p := State.setRegF_part_at ..
  generalize s.setRegF (Reg.pcap p) 31 1 0 = v at *
  rw [hbuddy]
  obtain ⟨hd, hgen⟩ := captureDone_spec (hpart ▸ hc : (v.part p).capturing = some c)
  refine ⟨?_, hgen⟩
  obtain ⟨⟨r, rfl⟩, hr⟩ := hset
  exact SetsRegs.trans (t := State.modPart { s with regs := r } p (holdsCapture c)) ⟨⟨r, rfl⟩, hr⟩ hd

omit h0 h1 hputs hb hp in
theorem pagesDone_idle (h : s.regF (Reg.pcap p) 31 1 ≠ 1) : s.pagesDone p = s := by
  have hlt : s.regF (Reg.pcap p) 31 1 < 2 := regF_lt ..
  unfold State.pagesDone
  rw [hc]
  exact if_pos (.inr (.inl (by omega)))

omit h0 h1 in
/-- On the panel's own store the end of the pages changes registers and partitions alone. -/
theorem pagesDone_frame : ∃ r m, s.pagesDone p = { s with regs := r, parts := m } := by
  by_cases h0 : s.regF (Reg.pcap p) 0 21 = 0
  · by_cases h1 : s.regF (Reg.pcap p) 31 1 = 1
    · obtain ⟨⟨⟨r, hr⟩, -⟩, -⟩ := pagesDone_completes hc h0 h1 hputs hb hp
      exact ⟨r, _, hr⟩
    · exact ⟨s.regs, s.parts, pagesDone_idle hc h1⟩
  · exact ⟨s.regs, s.parts, pagesDone_waits hc h0⟩

end done

/-! ### The state once a page is counted -/

section counted

variable {v : State} {p sl pg : Nat} {bad : List Nat}

theorem part_pageCounted : (pageCounted v p bad).part p = notesPoison bad (v.part p) := by
  unfold pageCounted
  rw [State.part_modPart, State.setRegF_part_at]

theorem hbm_pageCounted : (pageCounted v p bad).hbm = v.hbm := by
  unfold pageCounted
  rw [State.modPart_hbm, State.setRegF_hbm]

theorem mem_pageCounted : (pageCounted v p bad).mem = v.mem := by
  unfold pageCounted
  rw [State.modPart_mem, State.setRegF_mem]

theorem reg_pageCounted {o : Nat} (h : o ≠ Reg.pcap p) : (pageCounted v p bad).reg o = v.reg o := by
  unfold pageCounted
  rw [State.modPart_reg_at, reg_setRegF_ne h]

theorem left_pageCounted : (pageCounted v p bad).regF (Reg.pcap p) 0 21 = (v.regF (Reg.pcap p) 0 21 - 1) % 2 ^ 21 := by
  unfold pageCounted
  rw [State.regF, State.modPart_reg_at, ← State.regF, regF_setRegF (by decide)]

theorem active_pageCounted : (pageCounted v p bad).regF (Reg.pcap p) 31 1 = v.regF (Reg.pcap p) 31 1 := by
  unfold pageCounted
  rw [State.regF, State.modPart_reg_at, ← State.regF, regF_setRegF_above (by decide) (by decide)]

end counted

/-! ### CAPTURE_PAGE_READ -/

section read

variable {s : State} {sl : Fin 3072} {pg : Nat}

theorem slices_of_counted {v : State} {bad : List Nat} {p : Nat} (hv : v.hbm.slices = s.hbm.slices) (k : Nat) :
    (pageCounted (pageTaken v sl pg) p bad).slice k =
      if k = sl.val then { s.slice k with cap := (s.slice k).cap &&& ~~~(BitVec.ofNat 512 (2 ^ pg)) } else s.slice k := by
  have hs (j : Nat) : v.slice j = s.slice j := congrArg (fun m => sget Slice.reset m j) hv
  rw [State.slice, hbm_pageCounted, ← State.slice]
  unfold pageTaken
  by_cases hk : k = sl.val
  · rw [if_pos hk, hk, State.slice_modSlice, hs]
  · rw [if_neg hk, slice_modSlice_ne hk, hs]

theorem grantOwner_lt (g : W32) : grantOwner g < 16 := by
  unfold grantOwner field
  exact Nat.mod_lt _ (by decide)

variable {c : Position} (hp : pg < 512) (hbit : (s.slice sl.val).cap.getLsbD pg = true)
  (hlow : ∀ j < pg, (s.slice sl.val).cap.getLsbD j = false) (hheld : s.hbm.held = []) (hb : s.remoteBuddy = none)
  (hc : (s.part (grantOwner (s.grantOf sl.val))).capturing = some c) (hputs : (s.part (grantOwner (s.grantOf sl.val))).puts = 0)
  (he : s.hbm.errs = [])
include hp hbit hlow hheld hb hc hputs he

/-- A marked page is read: its bit is cleared, and the capture goes on or, with its last page, is complete. -/
theorem capturePageRead_spec : ∃ t, exec (.capturePageRead sl) s = .next t ∧ t.mem = s.mem ∧
    (∀ j < 512, (t.slice sl.val).cap.getLsbD j = ((s.slice sl.val).cap.getLsbD j && j != pg)) ∧ (t.slice sl.val).cur = (s.slice sl.val).cur ∧
    (∀ k, k ≠ sl.val → t.slice k = s.slice k) ∧
    (1 < s.regF (Reg.pcap (grantOwner (s.grantOf sl.val))) 0 21 →
      t.regF (Reg.pcap (grantOwner (s.grantOf sl.val))) 0 21 = s.regF (Reg.pcap (grantOwner (s.grantOf sl.val))) 0 21 - 1 ∧
      (t.part (grantOwner (s.grantOf sl.val))).capturing.map (·.gen) = some c.gen ∧
      (t.part (grantOwner (s.grantOf sl.val))).positions = (s.part (grantOwner (s.grantOf sl.val))).positions) ∧
    (s.regF (Reg.pcap (grantOwner (s.grantOf sl.val))) 0 21 = 1 → s.regF (Reg.pcap (grantOwner (s.grantOf sl.val))) 31 1 = 1 →
      (t.part (grantOwner (s.grantOf sl.val))).capturing = none ∧
      (t.part (grantOwner (s.grantOf sl.val))).positions.map (·.gen) =
        (c.gen :: (s.part (grantOwner (s.grantOf sl.val))).positions.map (·.gen)).take 2 ∧
      t.reg (Reg.pgen (grantOwner (s.grantOf sl.val))) = BitVec.ofNat 32 c.gen) := by
  have hp16 := grantOwner_lt (s.grantOf sl.val)
  have hst : sl.val / 64 < 48 := by omega
  obtain ⟨v, bad, hact, hread⟩ := pageRead_of_clean hbit hp hb he hp16 hst
  rw [capturePageRead_eq hheld (head_pagesOf hp hbit hlow), hread]
  generalize grantOwner (s.grantOf sl.val) = p at *
  obtain ⟨⟨r, b, rfl⟩, hreg⟩ := hact
  generalize hv : ({ s with regs := r, hbm := { s.hbm with banks := b } } : State) = v at *
  have hslices := slices_of_counted (s := s) (sl := sl) (pg := pg) (v := v) (bad := bad) (p := p) (by rw [← hv])
  have hmem : (pageCounted (pageTaken v sl pg) p bad).mem = s.mem := by rw [mem_pageCounted, ← hv]; rfl
  have hparts : (pageCounted (pageTaken v sl pg) p bad).part p = notesPoison bad (s.part p) := by rw [part_pageCounted, ← hv]; rfl
  have hheld' : (pageCounted (pageTaken v sl pg) p bad).hbm.held = [] := by rw [hbm_pageCounted, ← hheld, ← hv]; rfl
  have hregs (o : Nat) (ho : o ≠ Reg.pcap p) (hs : o ≠ Reg.srfm (sl.val / 64)) : (pageCounted (pageTaken v sl pg) p bad).reg o = s.reg o := by
    rw [reg_pageCounted ho, pageTaken, State.modSlice_reg_at, hreg o hs]
  have hcap (a n : Nat) : (pageTaken v sl pg).regF (Reg.pcap p) a n = s.regF (Reg.pcap p) a n := by
    rw [State.regF, pageTaken, State.modSlice_reg_at, hreg, State.regF]
    simp only [Reg.pcap, Reg.srfm, Reg.mem]; omega
  have hleft := left_pageCounted (v := pageTaken v sl pg) (p := p) (bad := bad)
  have hon := active_pageCounted (v := pageTaken v sl pg) (p := p) (bad := bad)
  rw [hcap] at hleft hon
  have hbuddy : (pageCounted (pageTaken v sl pg) p bad).remoteBuddy = none := by
    rw [← hb]
    refine remoteBuddy_congr (hregs _ ?_ ?_) (hregs _ ?_ ?_) <;> simp only [Reg.buddy, Reg.sylPanelId, Reg.pcap, Reg.srfm, Reg.mem] <;> omega
  generalize pageCounted (pageTaken v sl pg) p bad = w at *
  rw [releaseHeld_of_none hheld']
  obtain ⟨c', hc', hgen⟩ : ∃ c', (w.part p).capturing = some c' ∧ c'.gen = c.gen := by
    rw [hparts, notesPoison, hc]
    exact ⟨_, rfl, rfl⟩
  have hput : (w.part p).puts = 0 := by rw [hparts]; exact hputs
  have hpos : (w.part p).positions = (s.part p).positions := by rw [hparts]; rfl
  obtain ⟨r', m, hdone⟩ := pagesDone_frame hc' hput hbuddy hp16
  refine ⟨_, rfl, ?_, ?_, ?_, ?_, ?_, ?_⟩
  · rw [hdone, ← hmem]
  · intro j hj
    rw [hdone, ← getLsbD_clearPage _ hj]
    exact congrArg (fun l => l.cap.getLsbD j) ((hslices sl.val).trans (if_pos rfl))
  · rw [hdone]
    exact (congrArg Slice.cur ((hslices sl.val).trans (if_pos rfl)) :)
  · intro k hk
    rw [hdone]
    exact (hslices k).trans (if_neg hk)
  · intro hmore
    have hlt : s.regF (Reg.pcap p) 0 21 < 2 ^ 21 := regF_lt ..
    have hleft' : w.regF (Reg.pcap p) 0 21 = s.regF (Reg.pcap p) 0 21 - 1 := hleft.trans (Nat.mod_eq_of_lt (by omega))
    rw [pagesDone_waits hc' (by omega)]
    exact ⟨hleft', by rw [hc', Option.map_some, hgen], hpos⟩
  · intro hlast hact
    obtain ⟨⟨⟨r, hr⟩, -⟩, hpgen⟩ := pagesDone_completes hc' (by rw [hleft, hlast]; rfl) (hon.trans hact) hput hbuddy hp16
    refine ⟨?_, ?_, hgen ▸ hpgen⟩
    · have hpart : (w.pagesDone p).part p = holdsCapture c' (w.part p) := by rw [hr]; exact State.part_modPart ..
      rw [hpart]; rfl
    · have hpart : (w.pagesDone p).part p = holdsCapture c' (w.part p) := by rw [hr]; exact State.part_modPart ..
      rw [hpart, holdsCapture, List.map_take, List.map_cons, hgen, hpos]

end read

end Sys2Proof.Units
end

section
/-! The patrol scrubber of a scratchpad (R163, R165): what it does to the records of errors, and its passes. -/
namespace Sys2Proof.Units

open Sys2Proof.Machine Sys2Proof.Claims Sys2Proof.Ecc

/-! ### Errors found in words -/

section found

/-- Single-bit errors that are found: each is corrected, counted, and waits for its write-back. -/
theorem foldl_ceFound (l : List Nat) (c : Core) :
    (l.foldl (fun d w => d.ceFound w true) c).eccfix = c.eccfix + BitVec.ofNat 64 l.length ∧
    (∀ w, w ∈ (l.foldl (fun d w => d.ceFound w true) c).spadWb ↔ w ∈ c.spadWb ∨ w ∈ l) ∧
    (l.foldl (fun d w => d.ceFound w true) c).spadCe = c.spadCe ∧ (l.foldl (fun d w => d.ceFound w true) c).spadUe = c.spadUe ∧
    (l.foldl (fun d w => d.ceFound w true) c).poison = c.poison ∧ (l.foldl (fun d w => d.ceFound w true) c).ueRows = c.ueRows := by
  induction l generalizing c with
  | nil => simp
  | cons w l ih =>
    obtain ⟨hfix, hwb, hce, hue, hpo, hrow⟩ := ih (c.ceFound w true)
    rw [List.foldl_cons]
    refine ⟨?_, fun x => ?_, hce, hue, hpo, hrow⟩
    · rw [hfix, List.length_cons, Nat.add_comm, BitVec.ofNat_add, ← BitVec.add_assoc]
      rfl
    · rw [hwb x, List.mem_cons]
      change x ∈ addNew w c.spadWb ∨ x ∈ l ↔ _
      rw [mem_addNew]
      tauto

/-- Double-bit errors that are found: each poisons its row. -/
theorem foldl_ueFound (l : List Nat) (c : Core) :
    (l.foldl (fun d w => d.ueFound w) c).eccfix = c.eccfix ∧ (l.foldl (fun d w => d.ueFound w) c).spadWb = c.spadWb ∧
    (l.foldl (fun d w => d.ueFound w) c).spadCe = c.spadCe ∧ (l.foldl (fun d w => d.ueFound w) c).spadUe = c.spadUe ∧
    (l.foldl (fun d w => d.ueFound w) c).ueRows = c.ueRows ∧
    ∀ r, (l.foldl (fun d w => d.ueFound w) c).poisoned r = true ↔ c.poisoned r = true ∨ ∃ w ∈ l, w / 8 = r := by
  induction l generalizing c with
  | nil => simp
  | cons w l ih =>
    obtain ⟨hfix, hwb, hce, hue, hrow, hpo⟩ := ih (c.ueFound w)
    rw [List.foldl_cons]
    refine ⟨hfix, hwb, hce, hue, hrow, fun r => ?_⟩
    have hone : (c.ueFound w).poisoned r = true ↔ c.poisoned r = true ∨ w / 8 = r := by
      unfold Core.poisoned Core.ueFound
      dsimp only
      rw [sget_sput]
      by_cases h : r = w / 8
      · simp [h]
      · simp [h, Ne.symm h]
    rw [hpo r, hone, List.exists_mem_cons_iff, or_assoc]

theorem mem_minus {α : Type} [DecidableEq α] (a : α) (l k : List α) : a ∈ minus l k ↔ a ∈ l ∧ a ∉ k := by
  simp [minus]

variable (c : Core) (ws : List Nat)

theorem eccRead_eccfix :
    (c.eccRead ws).eccfix = c.eccfix + BitVec.ofNat 64 (ws.filter (fun w => c.spadCe.contains w && !c.spadWb.contains w)).length :=
  (foldl_ueFound ..).1.trans (foldl_ceFound ..).1

theorem mem_eccRead_spadWb (w : Nat) : w ∈ (c.eccRead ws).spadWb ↔ w ∈ c.spadWb ∨ (w ∈ ws ∧ w ∈ c.spadCe) := by
  unfold Core.eccRead
  rw [(foldl_ueFound ..).2.1]
  dsimp only
  rw [(foldl_ceFound ..).2.1, List.mem_filter]
  simp only [Bool.and_eq_true, Bool.not_eq_true', List.contains_iff_mem, ← Bool.not_eq_true]
  tauto

theorem eccRead_spadCe : (c.eccRead ws).spadCe = c.spadCe := (foldl_ueFound ..).2.2.1.trans (foldl_ceFound ..).2.2.1

theorem mem_eccRead_spadUe (w : Nat) : w ∈ (c.eccRead ws).spadUe ↔ w ∈ c.spadUe ∧ w ∉ ws := by
  unfold Core.eccRead
  rw [(foldl_ueFound ..).2.2.2.1]
  dsimp only
  rw [(foldl_ceFound ..).2.2.2.1, mem_minus, List.mem_filter, List.contains_iff_mem]
  tauto

theorem eccRead_ueRows : (c.eccRead ws).ueRows = c.ueRows := (foldl_ueFound ..).2.2.2.2.1.trans (foldl_ceFound ..).2.2.2.2.2

theorem poisoned_eccRead (r : Nat) :
    (c.eccRead ws).poisoned r = true ↔ c.poisoned r = true ∨ ∃ w ∈ ws, w ∈ c.spadUe ∧ w / 8 = r := by
  have hpo : ((ws.filter (fun w => c.spadCe.contains w && !c.spadWb.contains w)).foldl (fun d w => d.ceFound w true) c).poison = c.poison :=
    (foldl_ceFound ..).2.2.2.2.1
  unfold Core.eccRead
  rw [(foldl_ueFound ..).2.2.2.2.2]
  simp only [Core.poisoned, hpo, List.mem_filter, List.contains_iff_mem, and_assoc]

end found

/-! ### Passes -/

theorem le_foldl_min {α : Type} (f : α → Nat) (p a : Nat) (l : List α) :
    p ≤ l.foldl (fun t b => min t (f b)) a ↔ p ≤ a ∧ ∀ b ∈ l, p ≤ f b := by
  induction l generalizing a with
  | nil => simp
  | cons b l ih => rw [List.foldl_cons, ih, Nat.le_min, List.forall_mem_cons, and_assoc]

/-- The passes that the scrubber has ended over every bank. -/
@[irreducible] def leastPass (m : SMap Nat) : Nat := (List.range 16).foldl (fun t b => min t (sget 0 m b / 2048)) (sget 0 m 0 / 2048)

theorem le_leastPass (m : SMap Nat) (p : Nat) : p ≤ leastPass m ↔ ∀ b < 16, p ≤ sget 0 m b / 2048 := by
  unfold leastPass
  refine (le_foldl_min (fun b => sget 0 m b / 2048) p _ (List.range 16)).trans ?_
  simp only [List.mem_range]
  exact ⟨fun h => h.2, fun h => ⟨h 0 (by decide), h⟩⟩

/-! ### PATROL_SCRUBBER -/

section scrub

variable (c : Core) (bank : BitVec 4)

/-- The row that the scrubber of a bank reads next, and its words. -/
def scrubRow : Nat := bank.toNat * 2048 + sget 0 c.scrub bank.toNat % 2048
def scrubWords : List Nat := (List.range 8).map (fun w => scrubRow c bank * 8 + w)

/-- What the scrubber finds in the row. -/
def scrubFound : Core :=
  (c.eccRead (scrubWords c bank)).reported (if (scrubWords c bank).any c.spadUe.contains then [scrubRow c bank] else [])

/-- The count of passes (SPD_SCRUB) where the reads of a bank's rows are counted in m. -/
def passCount (m : SMap Nat) : BitVec 16 :=
  if leastPass c.scrub < leastPass m then BitVec.ofNat 16 (satAdd 16 c.spdScrub.toNat 1) else c.spdScrub

/-- A row n of a bank counted, and the pass that it ends. -/
def scrubCounted (n : Nat) : Core :=
  { c with
    scrub := sput 0 c.scrub bank.toNat (n + 1)
    spdScrub := passCount c (sput 0 c.scrub bank.toNat (n + 1)) }

/-- The core once the scrubber has read the next row of a bank. -/
def scrubbed : Core := scrubCounted (scrubFound c bank) bank (sget 0 c.scrub bank.toNat)

theorem scrubCounted_poison (d : Core) (rows : List Nat) (n : Nat) : (scrubCounted (d.reported rows) bank n).poison = d.poison := rfl
theorem scrubCounted_eccfix (d : Core) (rows : List Nat) (n : Nat) : (scrubCounted (d.reported rows) bank n).eccfix = d.eccfix := rfl

theorem patrolScrubber_eq (s : State) (k : Fin 39168) (hk : s.clockStopped k = false) :
    exec (.patrolScrubber k bank) s = .next ((s.modCore k (fun _ => scrubFound (s.core k) bank)).modCore k
      (fun d => scrubCounted d bank (sget 0 (s.core k).scrub bank.toNat))) := by
  have run : exec (.patrolScrubber k bank) s = execPatrolScrubber k bank s := rfl
  rw [run]
  unfold execPatrolScrubber
  dsimp only
  rw [if_neg (by simp [hk])]
  unfold scrubCounted passCount leastPass scrubFound scrubWords scrubRow
  rfl

theorem patrolScrubber_stopped (s : State) (k : Fin 39168) (hk : s.clockStopped k = true) : exec (.patrolScrubber k bank) s = .next s := by
  have run : exec (.patrolScrubber k bank) s = execPatrolScrubber k bank s := rfl
  rw [run]
  unfold execPatrolScrubber
  dsimp only
  rw [if_pos hk]

theorem mem_scrubWords (w : Nat) : w ∈ scrubWords c bank ↔ scrubRow c bank * 8 ≤ w ∧ w < scrubRow c bank * 8 + 8 := by
  unfold scrubWords
  generalize scrubRow c bank = r
  rw [List.mem_map]
  simp only [List.mem_range]
  exact ⟨by rintro ⟨i, hi, rfl⟩; omega, fun h => ⟨w - r * 8, by omega, by omega⟩⟩

theorem any_scrubWords : (scrubWords c bank).any c.spadUe.contains = true ↔ ∃ w ∈ c.spadUe, scrubRow c bank * 8 ≤ w ∧ w < scrubRow c bank * 8 + 8 := by
  rw [List.any_eq_true]
  simp only [List.contains_iff_mem, mem_scrubWords]
  exact ⟨fun ⟨w, h, hu⟩ => ⟨w, hu, h⟩, fun ⟨w, hu, h⟩ => ⟨w, h, hu⟩⟩

theorem errors_scrubFound : ErrorsOnly c (scrubFound c bank) := (errors_eccRead c _).trans (errors_reported _ _)

theorem scrubbed_poisoned (r : Nat) : (scrubbed c bank).poisoned r = true ↔
    c.poisoned r = true ∨ (r = scrubRow c bank ∧ ∃ w ∈ c.spadUe, scrubRow c bank * 8 ≤ w ∧ w < scrubRow c bank * 8 + 8) := by
  rw [Core.poisoned, scrubbed, scrubFound, scrubCounted_poison, ← Core.poisoned, poisoned_eccRead]
  refine or_congr_right ?_
  simp only [mem_scrubWords]
  generalize scrubRow c bank = row
  constructor
  · rintro ⟨w, hw, hu, rfl⟩
    exact ⟨by omega, w, hu, hw⟩
  · rintro ⟨rfl, w, hu, hr⟩
    exact ⟨w, hr, hu, by omega⟩

theorem scrubbed_scrub (b : Nat) :
    sget 0 (scrubbed c bank).scrub b = if b = bank.toNat then sget 0 c.scrub bank.toNat + 1 else sget 0 c.scrub b := by
  have hs : (scrubFound c bank).scrub = c.scrub := (errors_scrubFound c bank).field Core.scrub rfl
  unfold scrubbed scrubCounted
  dsimp only
  rw [sget_sput, hs]

theorem scrubbed_spdScrub : (scrubbed c bank).spdScrub =
    if leastPass c.scrub < leastPass (scrubbed c bank).scrub then BitVec.ofNat 16 (satAdd 16 c.spdScrub.toNat 1) else c.spdScrub := by
  have hs : (scrubFound c bank).scrub = c.scrub := (errors_scrubFound c bank).field Core.scrub rfl
  have hn : (scrubFound c bank).spdScrub = c.spdScrub := (errors_scrubFound c bank).field Core.spdScrub rfl
  unfold scrubbed scrubCounted passCount
  dsimp only
  rw [hs, hn]

/-- A pass over every bank that ends is counted. -/
theorem scrubbed_counts {p : Nat} (h : ∀ b < 16, p ≤ sget 0 (scrubbed c bank).scrub b / 2048) (hc : ¬ ∀ b < 16, p ≤ sget 0 c.scrub b / 2048) :
    (scrubbed c bank).spdScrub.toNat = min 65535 (c.spdScrub.toNat + 1) := by
  rw [← le_leastPass] at h hc
  rw [scrubbed_spdScrub, if_pos (by omega), BitVec.toNat_ofNat, satAdd]
  exact Nat.mod_eq_of_lt (by omega)

theorem scrubbed_not_counts (h : ∀ p, (∀ b < 16, p ≤ sget 0 (scrubbed c bank).scrub b / 2048) → ∀ b < 16, p ≤ sget 0 c.scrub b / 2048) :
    (scrubbed c bank).spdScrub = c.spdScrub := by
  have hle := h _ ((le_leastPass _ _).mp (le_refl _))
  rw [← le_leastPass] at hle
  rw [scrubbed_spdScrub, if_neg (by omega)]

theorem scrubbed_ueRows : (scrubbed c bank).ueRows =
    c.ueRows ++ if (scrubWords c bank).any c.spadUe.contains then [scrubRow c bank] else [] :=
  congrArg (· ++ (if (scrubWords c bank).any c.spadUe.contains then [scrubRow c bank] else [])) (eccRead_ueRows c (scrubWords c bank))

theorem scrubbed_eccfix : (scrubbed c bank).eccfix = c.eccfix + BitVec.ofNat 64 ((List.range 8).filter (fun i =>
    c.spadCe.contains (scrubRow c bank * 8 + i) && !c.spadWb.contains (scrubRow c bank * 8 + i))).length := by
  rw [scrubbed, scrubFound, scrubCounted_eccfix, eccRead_eccfix, scrubWords, List.filter_map, List.length_map]
  simp only [Function.comp_def]

end scrub

/-- The scrubber reads the next row of its bank (R163, R165). -/
theorem patrolScrubber_spec (s : State) (k : Fin 39168) (bank : BitVec 4) (hk : s.clockStopped k = false) :
    let c := s.core k
    let n := sget 0 c.scrub bank.toNat
    let row := bank.toNat * 2048 + n % 2048
    let inRow (w : Nat) : Prop := row * 8 ≤ w ∧ w < row * 8 + 8
    let fixes := ((List.range 8).filter (fun i => c.spadCe.contains (row * 8 + i) && !c.spadWb.contains (row * 8 + i))).length
    let passes (m : SMap Nat) (p : Nat) : Prop := ∀ b < 16, p ≤ sget 0 m b / 2048
    ∃ t, exec (.patrolScrubber k bank) s = .next t ∧
      let d := t.core k
      d.eccfix = c.eccfix + BitVec.ofNat 64 fixes ∧
      (∀ w, w ∈ d.spadWb ↔ w ∈ c.spadWb ∨ (inRow w ∧ w ∈ c.spadCe)) ∧ d.spadCe = c.spadCe ∧
      (∀ w, w ∈ d.spadUe ↔ w ∈ c.spadUe ∧ ¬ inRow w) ∧
      (∀ r, d.poisoned r = true ↔ c.poisoned r = true ∨ (r = row ∧ ∃ w ∈ c.spadUe, inRow w)) ∧
      (∀ b, sget 0 d.scrub b = if b = bank.toNat then n + 1 else sget 0 c.scrub b) ∧
      ((∃ p, passes d.scrub p ∧ ¬ passes c.scrub p) → d.spdScrub.toNat = min 65535 (c.spdScrub.toNat + 1)) ∧
      ((∀ p, passes d.scrub p → passes c.scrub p) → d.spdScrub = c.spdScrub) ∧
      ((∃ w ∈ c.spadUe, inRow w) → d.ueRows = c.ueRows ++ [row]) ∧ ((∀ w ∈ c.spadUe, ¬ inRow w) → d.ueRows = c.ueRows) ∧
      d.st = c.st ∧ d.excPend = c.excPend ∧ (∀ i, d.getX i = c.getX i) ∧ t.mem = s.mem ∧ ∀ j, j ≠ k.val → t.core j = s.core j := by
  intro c n row inRow fixes passes
  refine ⟨_, patrolScrubber_eq bank s k hk, ?_⟩
  have hd : (((s.modCore k (fun _ => scrubFound (s.core k) bank)).modCore k
      (fun d => scrubCounted d bank (sget 0 (s.core k).scrub bank.toNat))).core k) = scrubbed c bank := by
    rw [State.core_modCore, State.core_modCore]
    rfl
  have herr := errors_scrubFound c bank
  rw [hd]
  refine ⟨scrubbed_eccfix c bank, fun w => ?_, eccRead_spadCe c _, fun w => ?_, scrubbed_poisoned c bank, scrubbed_scrub c bank,
    fun ⟨p, hp, hn⟩ => scrubbed_counts c bank hp hn, scrubbed_not_counts c bank, fun hue => ?_, fun hue => ?_,
    herr.field Core.st rfl, herr.field Core.excPend rfl, herr.getX, rfl, fun j hj => ?_⟩
  · refine (mem_eccRead_spadWb c (scrubWords c bank) w).trans ?_
    rw [mem_scrubWords]
    rfl
  · refine (mem_eccRead_spadUe c (scrubWords c bank) w).trans ?_
    rw [mem_scrubWords]
    rfl
  · rw [scrubbed_ueRows, if_pos ((any_scrubWords c bank).mpr hue)]
    rfl
  · rw [scrubbed_ueRows, if_neg, List.append_nil]
    rw [any_scrubWords]
    exact fun ⟨w, hu, hr⟩ => hue w hu hr
  · rw [State.core_modCore_ne _ _ hj, State.core_modCore_ne _ _ hj]

end Sys2Proof.Units
end

section
/-! Refresh, write-backs, the patrol's read of a unit, and the statement about all of them. -/
namespace Sys2Proof.Units

open Sys2Proof.Machine Sys2Proof.Claims Sys2Proof.TempoPorts

theorem scratchpadWriteBack_spec (s : State) (k : Fin 39168) :
    ∃ t, exec (.scratchpadWriteBack k) s = .next t ∧
      ((s.core k).spadWb = [] → t.core k = s.core k) ∧
      (∀ w ws, (s.core k).spadWb = w :: ws → t.core k = { s.core k with spadWb := ws, spadCe := (s.core k).spadCe.erase w }) ∧
      t.mem = s.mem ∧ ∀ j, j ≠ k.val → t.core j = s.core j := by
  have run : exec (.scratchpadWriteBack k) s = execScratchpadWriteBack k s := rfl
  rw [run]
  refine ⟨_, rfl, fun h => ?_, fun w ws h => ?_, rfl, fun j hj => State.core_modCore_ne _ _ hj⟩
  · rw [State.core_modCore, h]
  · rw [State.core_modCore, h]

section stack

variable (s : State) (st : Fin 48)

theorem refresh_spec (pc : Fin 64) (b : Nat) :
    ∃ t, exec (.refresh st pc b) s = .next t ∧ t = { s with hbm := { s.hbm with banks := t.hbm.banks } } ∧
      ∀ k, sget Bank.reset t.hbm.banks k =
        if k = (st.val * 64 + pc.val) * 1024 + b % 1024 then
          { sget Bank.reset s.hbm.banks k with row := none, refreshed := (sget Bank.reset s.hbm.banks k).refreshed + 1 }
        else sget Bank.reset s.hbm.banks k := by
  have run : exec (.refresh st pc b) s = execRefresh st pc b s := rfl
  rw [run]
  unfold execRefresh
  dsimp only
  generalize (st.val * 64 + pc.val) * 1024 + b % 1024 = i
  refine ⟨_, rfl, rfl, fun k => ?_⟩
  rw [hbm_modHbm]
  dsimp only
  by_cases h : k = i
  · rw [h, if_pos rfl, smod, sget_sput, if_pos rfl]
  · rw [if_neg h, smod, sget_sput_ne _ _ _ h]

theorem unitWriteBack_idle (h : s.hbm.wb.find? (fun u => stackOfUnit u == st.val) = none) : exec (.unitWriteBack st) s = .next s := by
  have run : exec (.unitWriteBack st) s = execUnitWriteBack st s := rfl
  rw [run]
  unfold execUnitWriteBack
  rw [h]

theorem unitWriteBack_spec {u : Nat} (h : s.hbm.wb.find? (fun u => stackOfUnit u == st.val) = some u) :
    ∃ t, exec (.unitWriteBack st) s = .next t ∧
      t = { s with hbm := { s.hbm with wb := s.hbm.wb.erase u, errs := t.hbm.errs } } ∧
      ∀ j, t.hbm.errAt j = if j = u then .symbols [] else s.hbm.errAt j := by
  have run : exec (.unitWriteBack st) s = execUnitWriteBack st s := rfl
  rw [run]
  unfold execUnitWriteBack
  rw [h]
  refine ⟨_, rfl, rfl, fun j => ?_⟩
  exact (errAt_of_errs (h := s.hbm.mend u) rfl j).trans (errAt_mend s.hbm u j)

theorem memSerrLo_spec : ∃ t, exec (.memSerrLo st) s = .next t ∧ t = { s with regs := t.regs, rdata := s.reg (Reg.serrLo st) } ∧
    t.reg (Reg.serrHi st) = BitVec.ofNat 32 (s.stack st).errHi := by
  have run : exec (.memSerrLo st) s = execMemSerrLo st s := rfl
  rw [run]
  unfold execMemSerrLo
  generalize BitVec.ofNat 32 (s.stack st).errHi = v
  generalize s.reg (Reg.serrLo st) = d
  exact ⟨_, rfl, rfl, State.reg_setReg s (Reg.serrHi st) v⟩

theorem stackPatrol_lost (h : s.stackLost st = true) : exec (.stackPatrol st) s = .next s := by
  have run : exec (.stackPatrol st) s = execStackPatrol st s := rfl
  rw [run]
  unfold execStackPatrol
  dsimp only
  rw [if_pos h]

theorem stack_modStack (f : Stack → Stack) : (s.modStack st f).stack st = f (s.stack st) := by
  unfold State.stack State.modStack State.modHbm smod
  exact sget_sput_self ..

/-- The state once the patrol has read unit u of a stack and goes on at its unit m. -/
theorem patrolled_spec {u n m : Nat} (hst : n < 2 ^ 30 → stackOfUnit u = st.val) :
    ∃ t, t = (patrolled s u).modStack st (fun k => { k with patrol := m }) ∧ t.cores = s.cores ∧ (s.hbm.missAt u = false → t.mem = s.mem) ∧
       (t.stack st).patrol = m ∧ (∀ j, j ≠ u → t.hbm.errAt j = s.hbm.errAt j) ∧
       (s.hbm.errAt u = .symbols [] → t.hbm.errAt u = .symbols [] ∧ t.hbm.poison = s.hbm.poison ∧ t.hbm.wb = s.hbm.wb ∧
         t.events = s.events ∧ ∀ a, a ≠ Reg.srfm (stackOfUnit u) → t.reg a = s.reg a) ∧
       (∀ l, n < 2 ^ 30 → s.hbm.errAt u = .symbols l → 1 ≤ l.length → l.length ≤ 3 → u ∉ s.hbm.wb →
         t.hbm.errAt u = .symbols l ∧ t.hbm.wb = s.hbm.wb ++ [u] ∧ t.hbm.poison = s.hbm.poison ∧
         (t.reg (Reg.sce st)).toNat = min (2 ^ 32 - 1) ((s.reg (Reg.sce st)).toNat + 1) ∧
         t.reg (Reg.serrLo st) = BitVec.ofNat 32 (64 * u)) ∧
       (n < 2 ^ 30 → (s.hbm.errAt u = .misplaced ∨ ∃ l, s.hbm.errAt u = .symbols l ∧ 4 ≤ l.length ∧ l.length ≤ 5) →
         u ∈ t.hbm.poison ∧ t.hbm.errAt u = .symbols [] ∧
         t.regF (Reg.sue st) 16 16 = min 65535 (s.regF (Reg.sue st) 16 16 + 1) ∧ t.reg (Reg.serrLo st) = BitVec.ofNat 32 (64 * u)) := by
  obtain ⟨t, ht⟩ : ∃ t, t = (patrolled s u).modStack st (fun k => { k with patrol := m }) := ⟨_, rfl⟩
  refine ⟨t, ht, ?_⟩
  have hpat : (t.stack st).patrol = m := ht ▸ congrArg Stack.patrol (stack_modStack (patrolled s u) st _)
  have herr (j : Nat) : t.hbm.errAt j = (patrolled s u).hbm.errAt j := by rw [ht]; exact errAt_of_errs rfl j
  have hsame : errorsOf t = errorsOf (patrolled s u) := by rw [ht, errorsOf_modStack]
  have hreg (a : Nat) : t.reg a = (patrolled s u).reg a := by rw [ht]; rfl
  have hev : t.events = (patrolled s u).events := by rw [ht]; rfl
  have hmem : t.mem = (patrolled s u).mem := by rw [ht]; rfl
  have hcores : t.cores = (patrolled s u).cores := by rw [ht]; rfl
  clear ht
  refine ⟨hcores.trans (cores_patrolled s u), fun h => hmem.trans (mem_patrolled h), hpat, fun j hj => (herr j).trans (errAt_patrolled_ne hj),
    fun he => ?_, fun l hn he h1 h3 hw => ?_, fun hn he => ?_⟩
  · have ho := hsame.trans (congrArg errorsOf (patrolled_of_right he)) |>.trans (errorsOf_activate s u)
    simp only [errorsOf, Prod.mk.injEq] at ho
    obtain ⟨h1, h2, h3⟩ := ho
    refine ⟨(errAt_of_errs h1 u).trans he, h2, h3, ?_, fun a ha => ?_⟩
    · rw [hev, patrolled_of_right he]
      obtain ⟨⟨_, _, ha⟩, -⟩ := activates_activate s u
      rw [ha]
    · rw [hreg, patrolled_of_right he, reg_activate ha]
  · obtain ⟨ho, hce, hlo⟩ := patrolled_of_corrected he h1 h3 hw
    rw [← hsame] at ho
    simp only [errorsOf, Prod.mk.injEq] at ho
    obtain ⟨e1, e2, e3⟩ := ho
    rw [hst hn] at hce hlo
    exact ⟨(errAt_of_errs e1 u).trans he, e3, e2, by rw [hreg, hce], by rw [hreg, hlo]⟩
  · obtain ⟨ho, hue, hlo⟩ := patrolled_of_detected he
    rw [← hsame] at ho
    simp only [errorsOf, Prod.mk.injEq] at ho
    obtain ⟨e1, e2, e3⟩ := ho
    rw [hst hn] at hue hlo
    refine ⟨?_, ?_, ?_, by rw [hreg, hlo]⟩
    · rw [e2, mem_addNew]
      exact .inl rfl
    · have hmend : t.hbm.errAt u = (s.hbm.mend u).errAt u := errAt_of_errs (h := s.hbm.mend u) e1 u
      rw [hmend, errAt_mend, if_pos rfl]
    · rw [State.regF, hreg, ← State.regF, hue]

/-- The patrol reads the next unit (R257 to R260). -/
theorem stackPatrol_spec (h : s.stackLost st = false) :
    let n := (s.stack st).patrol
    let u := 2 ^ 36 + st.val * 2 ^ 30 + n
    ∃ t, exec (.stackPatrol st) s = .next t ∧ t.cores = s.cores ∧ (s.hbm.missAt u = false → t.mem = s.mem) ∧
       (t.stack st).patrol = (n + 1) % 2 ^ 30 ∧ (∀ j, j ≠ u → t.hbm.errAt j = s.hbm.errAt j) ∧
       (s.hbm.errAt u = .symbols [] → t.hbm.errAt u = .symbols [] ∧ t.hbm.poison = s.hbm.poison ∧ t.hbm.wb = s.hbm.wb ∧
         t.events = s.events ∧ ∀ a, a ≠ Reg.srfm (stackOfUnit u) → t.reg a = s.reg a) ∧
       (∀ l, n < 2 ^ 30 → s.hbm.errAt u = .symbols l → 1 ≤ l.length → l.length ≤ 3 → u ∉ s.hbm.wb →
         t.hbm.errAt u = .symbols l ∧ t.hbm.wb = s.hbm.wb ++ [u] ∧ t.hbm.poison = s.hbm.poison ∧
         (t.reg (Reg.sce st)).toNat = min (2 ^ 32 - 1) ((s.reg (Reg.sce st)).toNat + 1) ∧
         t.reg (Reg.serrLo st) = BitVec.ofNat 32 (64 * u)) ∧
       (n < 2 ^ 30 → (s.hbm.errAt u = .misplaced ∨ ∃ l, s.hbm.errAt u = .symbols l ∧ 4 ≤ l.length ∧ l.length ≤ 5) →
         u ∈ t.hbm.poison ∧ t.hbm.errAt u = .symbols [] ∧
         t.regF (Reg.sue st) 16 16 = min 65535 (s.regF (Reg.sue st) 16 16 + 1) ∧ t.reg (Reg.serrLo st) = BitVec.ofNat 32 (64 * u)) := by
  intro n u
  obtain ⟨t, ht, hspec⟩ := patrolled_spec s st (u := u) (n := n) (m := (n + 1) % 2 ^ 30) stackOfUnit_of_lt
  exact ⟨t, (stackPatrol_eq h).trans (congrArg _ ht.symm), hspec⟩

end stack

/-- Without a marked page the capture engine does nothing while no capture runs. -/
theorem capturePageRead_idle {s : State} {sl : Fin 3072} (hcap : (s.slice sl.val).cap = 0)
    (hc : (s.part (grantOwner (s.grantOf sl.val))).capturing = none) : exec (.capturePageRead sl) s = .next s := by
  have run : exec (.capturePageRead sl) s = execCapturePageRead sl s := rfl
  have hpages : pagesOf (0 : BitVec 512) = [] := List.filter_eq_nil_iff.mpr fun i _ => by simp
  rw [run]
  unfold execCapturePageRead
  dsimp only
  rw [hcap, hpages, List.append_nil]
  have hnone (l : List Nat) : l.filter (List.contains []) = [] := List.filter_eq_nil_iff.mpr fun i _ => by simp
  rw [hnone, List.head?_nil]
  unfold State.pagesDone
  rw [hc]

/-- Settles O22: the scrubber, the patrol, the refresh, the write-backs, a lost stack and the capture engine, each by the lemma about it. -/
theorem scrubbingAndRefreshKeepMemory : Obligations.ScrubbingAndRefreshKeepMemory := by
  unfold Obligations.ScrubbingAndRefreshKeepMemory
  refine ⟨⟨fun s k bank => ⟨patrolScrubber_stopped bank s k, patrolScrubber_spec s k bank⟩, scratchpadWriteBack_spec⟩,
    fun s st => ⟨refresh_spec s st, ⟨stackPatrol_lost s st, stackPatrol_spec s st⟩, unitWriteBack_idle s st, fun u => unitWriteBack_spec s st,
      stackLost_spec s st, memSerrLo_spec s st⟩,
    fun s sl => ⟨capturePageRead_idle, fun pg c hp hbit hlow hheld hb hc hputs he => capturePageRead_spec hp hbit hlow hheld hb hc hputs he⟩⟩

end Sys2Proof.Units
end

section
/-! The fabric's frame: sending a packet changes links, packets in transit, the records of the home units and PKF_ERR alone. -/
namespace Sys2Proof.Carried

open Sys2Proof.Machine Sys2Proof.Claims Sys2Proof.TempoPorts Sys2Proof.ReleaseTree

/-- Two states that differ at most by what the fabric does with packets. -/
def Carries (s t : State) : Prop :=
  (∃ l n h r, t = { s with links := l, net := n, homes := h, regs := r }) ∧ ∀ o, o ≠ Reg.pkfErr → t.reg o = s.reg o

namespace Carries
variable {s t u : State}

theorem refl (s : State) : Carries s s := ⟨⟨_, _, _, _, rfl⟩, fun _ _ => rfl⟩
theorem trans : Carries s t → Carries t u → Carries s u := by
  rintro ⟨⟨_, _, _, _, rfl⟩, h⟩ ⟨⟨l, n, m, r, rfl⟩, g⟩
  exact ⟨⟨l, n, m, r, rfl⟩, fun o ho => (g o ho).trans (h o ho)⟩
theorem ite (c : Prop) [Decidable c] (h : Carries s t) (g : Carries s u) : Carries s (if c then t else u) := by
  split
  · exact h
  · exact g
theorem foldl {α : Type} {f : State → α → State} (h : ∀ t a, Carries t (f t a)) (l : List α) (s : State) : Carries s (l.foldl f s) :=
  foldl_rel refl trans h l s

/-- What a function of the state gives that reads none of what the fabric changes. -/
theorem field {α : Type} (h : Carries s t) (g : State → α) (hg : ∀ l n m r, g { s with links := l, net := n, homes := m, regs := r } = g s) :
    g t = g s := by
  obtain ⟨⟨l, n, m, r, rfl⟩, -⟩ := h
  exact hg l n m r

theorem mem (h : Carries s t) : t.mem = s.mem := h.field State.mem fun _ _ _ _ => rfl
theorem hostMem (h : Carries s t) : t.hostMem = s.hostMem := h.field State.hostMem fun _ _ _ _ => rfl
theorem core (h : Carries s t) (k : Nat) : t.core k = s.core k := h.field (State.core · k) fun _ _ _ _ => rfl
theorem part (h : Carries s t) (p : Nat) : t.part p = s.part p := h.field (State.part · p) fun _ _ _ _ => rfl
theorem hbm (h : Carries s t) : t.hbm = s.hbm := h.field State.hbm fun _ _ _ _ => rfl
end Carries

section rules

variable (s : State)

theorem carries_links (l : SMap Link) : Carries s { s with links := l } := ⟨⟨_, _, _, _, rfl⟩, fun _ _ => rfl⟩
theorem carries_net (l : List Packet) : Carries s { s with net := l } := ⟨⟨_, _, _, _, rfl⟩, fun _ _ => rfl⟩
theorem carries_homes (h : Homes) : Carries s { s with homes := h } := ⟨⟨_, _, _, _, rfl⟩, fun _ _ => rfl⟩

theorem carries_sendOn (l : LinkEnd) (p : Packet) : Carries s (s.sendOn l p) := carries_links ..
theorem carries_sendAlong (path : List LinkEnd × Bool) (p : Packet) : Carries s (s.sendAlong path p) :=
  Carries.foldl (fun t l => carries_sendOn t l _) path.1 s

theorem carries_pkfError (u r c : Nat) : Carries s (s.pkfError u r c) := by
  unfold State.pkfError
  exact .ite _ (.refl s) ⟨⟨_, _, _, _, rfl⟩, fun _ ho => State.reg_setReg_ne s _ ho⟩

theorem carries_pathless (dst : FUnit) (p : Packet) : Carries s (s.pathless dst p) := by
  unfold State.pathless
  dsimp only
  have noted (d : Bool) (u r c : Nat) : Carries s (if d then s else s.pkfError u r c) := .ite _ (.refl s) (carries_pkfError ..)
  exact .ite _ ((noted ..).trans (carries_net ..)) (noted ..)

theorem carries_localSend (src : FUnit) (p : Packet) : Carries s (s.localSend src p) := by
  unfold State.localSend
  dsimp only
  split
  · exact carries_pathless ..
  · exact (carries_net s _).trans (carries_sendAlong ..)

theorem carries_modStream (q c : Nat) (f : Stream → Stream) : Carries s (s.modStream q c f) := carries_homes ..
theorem carries_portSend (port : Nat) (p : Packet) : Carries s (s.portSend port p) :=
  (carries_sendOn ..).trans (carries_homes ..)

theorem carries_streamPort (q : Nat) (p : Packet) : Carries s (s.streamPort q p).1 := by
  unfold State.streamPort
  split
  · exact (carries_homes s _).trans (carries_portSend ..)
  · exact .refl s

theorem carries_trySend (q c n : Nat) (s : State) : Carries s (State.trySend q c n s) := by
  induction n generalizing s with
  | zero => exact .refl s
  | succ n ih =>
    unfold State.trySend
    dsimp only
    split
    · exact .refl s
    · exact .ite _ (((carries_streamPort ..).trans (carries_modStream ..)).trans (ih _)) (.refl s)

theorem carries_openStreams (q : Nat) : Carries s (s.openStreams q) := by
  unfold State.openStreams
  exact .ite _ (.refl s) ((Carries.foldl (fun t c => carries_modStream t q c _) _ s).trans (carries_streamPort ..))

theorem carries_remoteSend (p : Packet) : Carries s (s.remoteSend p) := by
  unfold State.remoteSend
  dsimp only
  exact .ite _ ((carries_modStream ..).trans (carries_trySend ..)) ((carries_modStream ..).trans (carries_openStreams ..))

theorem carries_inject (src : FUnit) (p : Packet) : Carries s (s.inject src p) := by
  unfold State.inject
  refine .ite _ (carries_localSend ..) ?_
  dsimp only
  split
  · exact carries_pathless ..
  · exact (carries_sendAlong ..).trans (carries_remoteSend ..)

end rules

end Sys2Proof.Carried
end

section
/-! The copy engine of a core (R169 to R176): reads of a scratchpad without errors, the table of copies, and failures. -/
namespace Sys2Proof.Copying

open Sys2Proof.Machine Sys2Proof.Claims Sys2Proof.Ecc Sys2Proof.Present

/-! ### What the engine's own work keeps of its core -/

/-- Two states that differ in their cores alone, where core k keeps what programs see of its copies and its exceptions, and has no row
with an error. -/
structure Reads (k : Nat) (s t : State) : Prop where
  cores : ∃ m, t = { s with cores := m }
  copies : (t.core k).copies = (s.core k).copies
  counters : (t.core k).c = (s.core k).c
  tag : (t.core k).nextTag = (s.core k).nextTag
  st : (t.core k).st = (s.core k).st
  exc : (t.core k).excPend = (s.core k).excPend
  ue : (t.core k).spadUe = (s.core k).spadUe
  poison : (t.core k).poison = (s.core k).poison

theorem Reads.refl (k : Nat) (s : State) : Reads k s s := ⟨⟨_, rfl⟩, rfl, rfl, rfl, rfl, rfl, rfl, rfl⟩

theorem Reads.trans {k : Nat} {s t u : State} (h : Reads k s t) (g : Reads k t u) : Reads k s u := by
  refine ⟨?_, g.copies.trans h.copies, g.counters.trans h.counters, g.tag.trans h.tag, g.st.trans h.st, g.exc.trans h.exc, g.ue.trans h.ue,
    g.poison.trans h.poison⟩
  obtain ⟨m, rfl⟩ := h.cores
  obtain ⟨m', hm⟩ := g.cores
  exact ⟨m', hm⟩

theorem Reads.mem {k : Nat} {s t : State} (h : Reads k s t) : t.mem = s.mem := by
  obtain ⟨m, rfl⟩ := h.cores
  rfl

theorem Reads.getC {k : Nat} {s t : State} (h : Reads k s t) (i : BitVec 4) : (t.core k).getC i = (s.core k).getC i := by
  rw [Core.getC, h.counters, Core.getC]

/-! ### Reading the scratchpad -/

/-- One requester alone loses no bank. -/
theorem cycleLosers_single (claims : W64) (e : Nat × Nat) : cycleLosers claims [e] = [] := by
  refine List.flatMap_eq_nil_iff.mpr fun b _ => ?_
  by_cases h : e.2 = b
  · simp [bankLosers, h]
  · simp [bankLosers, h]

theorem strictLoses_single (s : State) (k : Nat) (e : Nat × Nat) (eng : Nat) : s.strictLoses k [e] eng = false := by
  unfold State.strictLoses
  rw [cycleLosers_single, List.any_nil, Bool.and_false]

theorem reads_modCore {k : Nat} (s : State) {f : Core → Core} (hcopies : (f (s.core k)).copies = (s.core k).copies)
    (hc : (f (s.core k)).c = (s.core k).c) (htag : (f (s.core k)).nextTag = (s.core k).nextTag) (hst : (f (s.core k)).st = (s.core k).st)
    (hexc : (f (s.core k)).excPend = (s.core k).excPend) (hue : (f (s.core k)).spadUe = (s.core k).spadUe)
    (hpo : (f (s.core k)).poison = (s.core k).poison) : Reads k s (s.modCore k f) := by
  refine ⟨⟨_, rfl⟩, ?_, ?_, ?_, ?_, ?_, ?_, ?_⟩ <;> rw [State.core_modCore] <;> assumption

theorem reads_collide (s : State) (k : Nat) (e : Nat × Nat) : Reads k s (s.collide k [e]) := by
  unfold State.collide
  dsimp only
  rw [cycleLosers_single, List.filter_nil]
  have hmod := reads_modCore s (k := k) (f := fun c =>
    { c with
      bankcol := c.bankcol + BitVec.ofNat 64 ([] : List (Nat × Nat)).length
      owed := c.owed + bitN (([] : List (Nat × Nat)).any (fun e => e.1 == 2)) + bitN (!false && ([] : List (Nat × Nat)).any (fun e => e.1 == 1))
      spdColl := if (s.core k).st = 3 ∨ (s.core k).st = 4 then BitVec.ofNat 32 (satAdd 32 c.spdColl.toNat ([] : List (Nat × Nat)).length) else c.spdColl
      spdRbwait := if (s.core k).st = 3 ∨ (s.core k).st = 4 then BitVec.ofNat 32 (satAdd 32 c.spdRbwait.toNat
        (([] : List (Nat × Nat)).filter (fun e => e.1 == 13)).length) else c.spdRbwait }) rfl rfl rfl rfl rfl rfl rfl
  split
  · next h => cases h
  · exact hmod

section clean

variable {s : State} {k : Nat} (hue : (s.core k).spadUe = []) (hpo : (s.core k).poison = [])
include hue hpo

/-- A read of words meets no poisoned row where no word has a double-bit error and no row is poisoned. -/
theorem badRow_of_clean (ws : List Nat) : (s.core k).badRow ws = none := by
  refine List.find?_eq_none.mpr fun r _ => ?_
  rw [Units.poisoned_eccRead, hue, Core.poisoned, hpo]
  simp [sget]

theorem reads_engineRead (ws : List Nat) : Reads k s (s.modCore k (fun c => c.engineRead ws)) := by
  have herr := errors_engineRead (s.core k) ws
  have hread : (s.core k).engineRead ws = (s.core k).eccRead ws := by
    unfold Core.engineRead
    rw [badRow_of_clean hue hpo]
  refine reads_modCore s (herr.field Core.copies rfl) (herr.field Core.c rfl) (herr.field Core.nextTag rfl) (herr.field Core.st rfl)
    (herr.field Core.excPend rfl) ?_ ?_
  · rw [hread, hue]
    refine List.eq_nil_iff_forall_not_mem.mpr fun w hw => ?_
    rw [Units.mem_eccRead_spadUe, hue] at hw
    cases hw.1
  · rw [hread]
    unfold Core.eccRead
    rw [hue]
    dsimp only
    rw [show ws.filter (fun w => ([] : List Nat).contains w) = [] from List.filter_eq_nil_iff.mpr fun _ _ => by simp, List.foldl_nil]
    exact (Units.foldl_ceFound ..).2.2.2.2.1

theorem copyRead_of_clean (id off n : Nat) : ∃ t, s.copyRead k id off n = (t, some (s.spadRd k off n)) ∧ Reads k s t := by
  refine ⟨_, ?_, reads_engineRead hue hpo (wordsOf off n)⟩
  unfold State.copyRead
  dsimp only
  rw [badRow_of_clean hue hpo]

end clean

/-! ### The table of copies -/

section table

variable {k : Nat} {q : Copy} {l : List Copy}

theorem find_of_filter (h : l.filter (fun y => y.id == q.id) = [q]) : l.find? (fun y => y.id == q.id) = some q := by
  rw [← List.head?_filter, h, List.head?_cons]

/-- The copy of a number, once every copy of that number is rewritten. -/
theorem find_modCopy {c : Core} {id : Nat} {f : Copy → Copy} (hf : ∀ y, (f y).id = y.id) (h : c.copies.find? (fun y => y.id == id) = some q) :
    (c.modCopy id f).copies.find? (fun y => y.id == id) = some (f q) := by
  have hid : q.id = id := by simpa using List.find?_some h
  have hp : ((fun y : Copy => y.id == id) ∘ fun y => if y.id = id then f y else y) = fun y => y.id == id := by
    funext y
    by_cases hy : y.id = id <;> simp [hy, hf]
  unfold Core.modCopy
  dsimp only
  rw [List.find?_map, hp, h, Option.map_some, if_pos hid]

end table

/-! ### Failures (R176) -/

section fails

variable {s : State} {k : Nat} {q : Copy}

/-- What an engine's exception leaves of its core: a running core keeps the exception for its next bundle. -/
theorem engineExc_spec (s : State) (k : Nat) (e : Exc) :
    (((s.engineExc k e).core k).copyCause = (s.core k).copyCause ∧ ((s.engineExc k e).core k).copies = (s.core k).copies ∧
      ((s.engineExc k e).core k).c = (s.core k).c) ∧
    ((s.core k).st = 3 → ((s.engineExc k e).core k).excPend = (s.core k).excPend ++ [e]) ∧ (s.engineExc k e).mem = s.mem := by
  unfold State.engineExc
  split
  · next h =>
    rw [State.core_modCore]
    exact ⟨⟨rfl, rfl, rfl⟩, fun _ => rfl, rfl⟩
  · next h3 =>
    split
    · rw [coreException_core, State.core_modCore]
      refine ⟨⟨rfl, rfl, rfl⟩, fun h => absurd h h3, ?_⟩
      rw [coreException_eq, (haltRank_spec ..).2.1, faulted, State.raise_mem]
      rfl
    · exact ⟨⟨rfl, rfl, rfl⟩, fun h => absurd h h3, rfl⟩

/-- The first failure of a copy is recorded and taken as exception 0x09. -/
theorem copyFail_spec {id : Nat} (hq : (s.core k).copies.find? (fun y => y.id == id) = some q) (hf : q.failed = false) (cause : Nat) (late : Bool) :
    ((s.copyFail k id cause late).core k).copyCause = BitVec.ofNat 8 cause ∧
    ((s.core k).st = 3 → ((s.copyFail k id cause late).core k).excPend =
      (s.core k).excPend ++ [⟨0x09, 3, BitVec.ofNat 16 (cause + bitN late * 256)⟩]) ∧
    ((s.copyFail k id cause late).core k).copies.find? (fun y => y.id == id) = some { q with failed := true } ∧
    (∀ i, ((s.copyFail k id cause late).core k).getC i = (s.core k).getC i) ∧ (s.copyFail k id cause late).mem = s.mem := by
  unfold State.copyFail
  rw [hq]
  dsimp only
  rw [hf, if_neg Bool.false_ne_true]
  generalize (⟨0x09, 3, BitVec.ofNat 16 (cause + bitN late * 256)⟩ : Exc) = e
  obtain ⟨⟨hcause, hcopies, hc⟩, hexc, hmem⟩ := engineExc_spec (s.modCore k (fun c =>
    { c.modCopy id (fun q => { q with failed := true }) with copyCause := BitVec.ofNat 8 cause })) k e
  rw [State.core_modCore] at hcause hcopies hc hexc
  refine ⟨hcause, hexc, ?_, fun i => ?_, hmem⟩
  · rw [hcopies]
    exact find_modCopy (fun _ => rfl) hq
  · rw [Core.getC, hc, Core.getC]
    rfl

end fails

end Sys2Proof.Copying
end

section
/-! COPY_START, COPY_COMPLETION and REQUEST_TIMEOUT (R173, R176, R182, R285). -/
namespace Sys2Proof.Copying

open Sys2Proof.Machine Sys2Proof.Claims Sys2Proof.Ecc Sys2Proof.Carried

/-! ### Checks (R171, R176) -/

section checks

variable {s : State} {d : W512}

/-- A descriptor that passes has no fault of the first four causes. -/
theorem checks_of_copyCheck (h : s.copyCheck d = none) :
    CopyDesc.bad02 d = false ∧ CopyDesc.bad03 d = false ∧ CopyDesc.bad04 d = false ∧ CopyDesc.bad05 d = false := by
  unfold State.copyCheck at h
  dsimp only at h
  split_ifs at h with h2 h3 h4 h5
  exact ⟨by simpa using h2, by simpa using h3, by simpa using h4, by simpa using h5⟩

theorem noAtomicAt_cores (m : SMap Core) (h : Nat) : { s with cores := m }.noAtomicAt h = s.noAtomicAt h := rfl
theorem licensed_cores (m : SMap Core) (n : Nat) : { s with cores := m }.licensed n = s.licensed n := rfl
theorem copyCheck_cores (m : SMap Core) : { s with cores := m }.copyCheck d = s.copyCheck d := by
  unfold State.copyCheck State.noAtomic
  simp only [noAtomicAt_cores, licensed_cores]
  congr
theorem partOfCore_cores (m : SMap Core) (k : Nat) : { s with cores := m }.partOfCore k = s.partOfCore k := rfl
theorem spreadAddr_cores (m : SMap Core) (p a : Nat) : { s with cores := m }.spreadAddr p a = s.spreadAddr p a := by
  unfold State.spreadAddr
  rfl
theorem physOf_cores (m : SMap Core) (k : Nat) : { s with cores := m }.physOf k = s.physOf k := by
  unfold State.physOf
  rfl
theorem localPlace_cores (m : SMap Core) (p : Option Nat) (a : Nat) : { s with cores := m }.localPlace p a = s.localPlace p a := by
  unfold State.localPlace
  simp only [spreadAddr_cores, physOf_cores]
theorem ownId_cores (m : SMap Core) : { s with cores := m }.ownId = s.ownId := rfl
theorem place_cores (m : SMap Core) (p : Option Nat) (h : Nat) : { s with cores := m }.place p h = s.place p h := by
  unfold State.place
  simp only [localPlace_cores, ownId_cores]
theorem routable_cores (m : SMap Core) (q : Nat) : { s with cores := m }.routable q = s.routable q := rfl
theorem reg_cores (m : SMap Core) (o : Nat) : { s with cores := m }.reg o = s.reg o := rfl
theorem requestPanel_cores (m : SMap Core) (k h : Nat) (a : Access) : { s with cores := m }.requestPanel k h a = s.requestPanel k h a := by
  unfold State.requestPanel State.regF
  rw [partOfCore_cores, place_cores]
  simp only [noAtomicAt_cores, ownId_cores, routable_cores, reg_cores]
  congr

theorem one_le_len (h : CopyDesc.bad03 d = false) : 8 ≤ CopyDesc.len d := by
  unfold CopyDesc.bad03 at h
  simp only [Bool.or_eq_false_iff, Bool.not_eq_false', decide_eq_true_eq] at h
  exact h.1.1.1.1

theorem n1_linear (hm : CopyDesc.mode d = 0) : CopyDesc.n1 d = 1 := if_pos hm
theorem n2_linear (hm : CopyDesc.mode d = 0) : CopyDesc.n2 d = 1 := if_neg (by omega)

/-- A side of a linear copy lies inside the scratchpad. -/
theorem sideOk_linear (hm : CopyDesc.mode d = 0) (b : Nat) (x y : W64) : CopyDesc.sideOk d b x y = decide (b + CopyDesc.len d ≤ 2 ^ 21) := by
  unfold CopyDesc.sideOk
  rw [n1_linear hm, n2_linear hm]
  simp only [Nat.cast_one, sub_self, zero_mul, min_self, max_self, add_zero, Nat.cast_nonneg, decide_true, Bool.true_and]
  exact decide_eq_decide.mpr (by omega)

theorem source_fits (h : CopyDesc.bad05 d = false) (hm : CopyDesc.mode d = 0) (hl : CopyDesc.sloc d = true) :
    CopyDesc.src d + CopyDesc.len d ≤ 2 ^ 21 := by
  unfold CopyDesc.bad05 at h
  rw [Bool.or_eq_false_iff] at h
  simpa [hm, hl, sideOk_linear] using h.1

theorem target_fits (h : CopyDesc.bad05 d = false) (hm : CopyDesc.mode d = 0) (hl : CopyDesc.dloc d = true) :
    CopyDesc.dst d + CopyDesc.len d ≤ 2 ^ 21 := by
  unfold CopyDesc.bad05 at h
  rw [Bool.or_eq_false_iff] at h
  simpa [hm, hl, sideOk_linear] using h.2

end checks

/-! ### COPY_START -/

section start

/-- A copy that has begun with its descriptor. -/
def begins (d : W512) (y : Copy) : Copy :=
  { y with
    started := true, desc := d, bytes := CopyDesc.len d * CopyDesc.n1 d * CopyDesc.n2 d, local2 := CopyDesc.sloc d && CopyDesc.dloc d }

def begun (s : State) (k : Nat) (q : Copy) (d : W512) : State := s.modCore k (fun c => c.modCopy q.id (begins d))

variable {s : State} {k : Fin 39168} {q : Copy}

theorem copyStart_none (h : ∀ q ∈ (s.core k.val).copies, q.started = true) (rivals : List Rival) : exec (.copyStart k rivals) s = .next s := by
  have hn : (s.core k.val).copies.find? (fun q => !q.started) = none := List.find?_eq_none.mpr fun q hq => by simp [h q hq]
  have run : exec (.copyStart k rivals) s = execCopyStart k rivals s := rfl
  rw [run]
  unfold execCopyStart
  dsimp only
  rw [hn]

theorem copyStart_waits (hq : (s.core k.val).copies.find? (fun q => !q.started) = some q) (hd : q.drains ≠ 0) (rivals : List Rival) :
    exec (.copyStart k rivals) s = .next s := by
  have run : exec (.copyStart k rivals) s = execCopyStart k rivals s := rfl
  rw [run]
  unfold execCopyStart
  dsimp only
  rw [hq]
  dsimp only
  rw [if_pos hd]

/-- The descriptor as the copy engine reads it. -/
def descOf (s : State) (k : Nat) (q : Copy) : W512 := BitVec.ofNat 512 (leNat (s.spadRd k q.addr 64))

variable (hq : (s.core k.val).copies.find? (fun q => !q.started) = some q) (hdr : q.drains = 0)
  (hue : (s.core k.val).spadUe = []) (hpo : (s.core k.val).poison = [])
include hq hdr hue hpo

/-- A copy begins: its descriptor is read, checked and expanded. -/
theorem copyStart_begins : ∃ s1, Reads k s s1 ∧
    (∀ c, s.copyCheck (descOf s k q) = some c → exec (.copyStart k []) s = .next ((begun s1 k q (descOf s k q)).copyFail k q.id c false)) ∧
    (s.copyCheck (descOf s k q) = none → exec (.copyStart k []) s = .next ((begun s1 k q (descOf s k q)).expand k q.id (descOf s k q))) := by
  have h0 := reads_collide s k (4, bankOf q.addr)
  obtain ⟨s1, hread, h1⟩ := copyRead_of_clean (h0.ue.trans hue) (h0.poison.trans hpo) q.id q.addr 64
  have hrd : (s.collide k [(4, bankOf q.addr)]).spadRd k q.addr 64 = s.spadRd k q.addr 64 := by
    unfold State.spadRd
    rw [h0.mem]
  have hcheck : (begun s1 k q (descOf s k q)).copyCheck (descOf s k q) = s.copyCheck (descOf s k q) := by
    obtain ⟨m, hm⟩ := (h0.trans h1).cores
    rw [hm]
    exact copyCheck_cores _
  have run : exec (.copyStart k []) s = execCopyStart k [] s := rfl
  rw [run]
  unfold execCopyStart
  dsimp only
  rw [hq, show rivalReqs [] = [] from rfl]
  dsimp only
  rw [if_neg (by simp [hdr]), strictLoses_single, if_neg Bool.false_ne_true, hread]
  dsimp only
  rw [hrd]
  unfold begun begins descOf at *
  refine ⟨s1, h0.trans h1, fun c hc => ?_, fun hc => ?_⟩
  · rw [hcheck, hc]
  · rw [hcheck, hc]

end start

/-- What beginning a copy leaves of its core. -/
theorem begun_spec {s s1 : State} {k : Nat} {q : Copy} (h : Reads k s s1) (hf : (s.core k).copies.find? (fun y => y.id == q.id) = some q) (d : W512) :
    (∃ m, begun s1 k q d = { s with cores := m }) ∧ ((begun s1 k q d).core k).copies.find? (fun y => y.id == q.id) = some (begins d q) ∧
    (∀ i, ((begun s1 k q d).core k).getC i = (s.core k).getC i) ∧ ((begun s1 k q d).core k).st = (s.core k).st ∧
    ((begun s1 k q d).core k).excPend = (s.core k).excPend ∧ ((begun s1 k q d).core k).nextTag = (s.core k).nextTag ∧
    ((begun s1 k q d).core k).spadUe = (s.core k).spadUe ∧ ((begun s1 k q d).core k).poison = (s.core k).poison := by
  refine ⟨?_, ?_, fun i => ?_, ?_, ?_, ?_, ?_, ?_⟩
  · obtain ⟨m, rfl⟩ := h.cores
    exact ⟨_, rfl⟩
  all_goals unfold begun; rw [State.core_modCore]
  · exact find_modCopy (fun _ => rfl) (h.copies ▸ hf)
  · exact h.getC i
  · exact h.st
  · exact h.exc
  · exact h.tag
  · exact h.ue
  · exact h.poison

section linear

variable {t : State} {k : Nat} {q : Copy} {d : W512}

/-- A linear copy is one run. -/
theorem expand_linear {id : Nat} {x y : Side} (hm : CopyDesc.mode d = 0) (hf : t.copyFailed k id = false)
    (hx : sideAt (CopyDesc.sloc d) (CopyDesc.src d) (CopyDesc.len d) = .ok x)
    (hy : sideAt (CopyDesc.dloc d) (CopyDesc.dst d) (CopyDesc.len d) = .ok y) : t.expand k id d = t.copyRun k id d x y := by
  unfold State.expand
  dsimp only
  rw [hm]
  refine Eq.trans (b := t.runAt k id d (.ok (CopyDesc.src d)) (.ok (CopyDesc.dst d))) rfl ?_
  unfold State.runAt
  dsimp only
  rw [hf, if_neg Bool.false_ne_true, hx, hy]

theorem sideAt_local {a n : Nat} (h : a + n ≤ 2 ^ 21) : sideAt true a n = .ok (.spad a) := by
  rw [sideAt, if_pos rfl, if_pos h]

theorem sideAt_hall (a n : Nat) : sideAt false a n = .ok (.hall a) := if_neg Bool.false_ne_true

/-- A linear copy within the scratchpad stores the bytes of its source. -/
theorem expand_local {id : Nat} (hm : CopyDesc.mode d = 0) (hf : t.copyFailed k id = false) (hs : CopyDesc.sloc d = true) (hd : CopyDesc.dloc d = true)
    (hsrc : CopyDesc.src d + CopyDesc.len d ≤ 2 ^ 21) (hdst : CopyDesc.dst d + CopyDesc.len d ≤ 2 ^ 21)
    (hue : (t.core k).spadUe = []) (hpo : (t.core k).poison = []) :
    ∃ u, Reads k t u ∧ t.expand k id d = u.spadWr k (CopyDesc.dst d) (t.spadRd k (CopyDesc.src d) (CopyDesc.len d)) := by
  obtain ⟨u, hread, hu⟩ := copyRead_of_clean hue hpo id (CopyDesc.src d) (CopyDesc.len d)
  refine ⟨u, hu, ?_⟩
  rw [expand_linear hm hf (hs ▸ sideAt_local hsrc) (hd ▸ sideAt_local hdst)]
  unfold State.copyRun
  dsimp only
  rw [hread]
  dsimp only
  unfold State.copyInto
  dsimp only
  rw [if_neg (by omega)]

/-- A run of a copy within one piece is one piece. -/
theorem piecesOf_single {a len : Nat} (h0 : 0 < len) (h1 : len ≤ 512) (h2 : a % 4096 + len ≤ 4096) : piecesOf a len = [(0, len)] := by
  have hmin : min len (min 512 (4096 - (a + 0) % 4096)) = len := by omega
  unfold piecesOf pieces
  rw [if_neg (by omega)]
  dsimp only
  rw [hmin, Nat.sub_self]
  cases len / 8 with
  | zero => rfl
  | succ n => simp [pieces]

/-- A linear copy of one piece from a remote address issues one read. -/
theorem expand_remote {id p : Nat} (hm : CopyDesc.mode d = 0) (hf : t.copyFailed k id = false) (hs : CopyDesc.sloc d = false)
    (hd : CopyDesc.dloc d = true) (hdst : CopyDesc.dst d + CopyDesc.len d ≤ 2 ^ 21) (h0 : 0 < CopyDesc.len d) (h1 : CopyDesc.len d ≤ 512)
    (h2 : CopyDesc.src d % 4096 + CopyDesc.len d ≤ 4096) (hp : t.requestPanel k (CopyDesc.src d) (.read (CopyDesc.len d)) = .ok p) :
    Carries (t.modCore k (fun c =>
      { c.modCopy id (fun y => { y with reqs := y.reqs ++ [⟨c.nextTag, 1, p, .spad (CopyDesc.dst d), CopyDesc.len d⟩] }) with
        nextTag := c.nextTag + 1 })) (t.expand k id d) := by
  have hlt : CopyDesc.src d < 2 ^ 64 := (d.extractLsb' 64 64).isLt
  rw [expand_linear hm hf (hs ▸ sideAt_hall _ _) (hd ▸ sideAt_local hdst)]
  unfold State.copyRun
  dsimp only
  rw [piecesOf_single h0 h1 h2, List.foldl_cons, List.foldl_nil, hf, if_neg Bool.false_ne_true]
  dsimp only
  rw [Nat.add_zero, Nat.add_zero, Nat.mod_eq_of_lt hlt]
  unfold State.sendReq
  rw [hp]
  exact carries_inject ..

end linear

end Sys2Proof.Copying
end

section
/-! The statement about copies (R60, R88, R173, R176, R182, R285). -/
namespace Sys2Proof.Copying

open Sys2Proof.Machine Sys2Proof.Claims Sys2Proof.Ecc Sys2Proof.Carried

section start

variable {s : State} {k : Fin 39168} {q : Copy} (hq : (s.core k.val).copies.find? (fun q => !q.started) = some q)
  (hid : (s.core k.val).copies.filter (fun y => y.id == q.id) = [q]) (hf : q.failed = false) (hdr : q.drains = 0)
  (hue : (s.core k.val).spadUe = []) (hpo : (s.core k.val).poison = [])
include hq hid hf hdr hue hpo

/-- A descriptor that the checks refuse fails the copy. -/
theorem copyStart_refused {cause : Nat} (hc : s.copyCheck (descOf s k q) = some cause) : ∃ t, exec (.copyStart k []) s = .next t ∧
    (t.core k).copyCause = BitVec.ofNat 8 cause ∧
    ((s.core k.val).st = 3 → (t.core k).excPend = (s.core k.val).excPend ++ [⟨0x09, 3, BitVec.ofNat 16 cause⟩]) ∧
    (∀ i, (t.core k).getC i = (s.core k.val).getC i) ∧ t.mem = s.mem := by
  obtain ⟨s1, hreads, hfails, -⟩ := copyStart_begins hq hdr hue hpo
  have hrun := hfails cause hc
  obtain ⟨⟨m, hm⟩, hfind, hgetC, hst, hexc, -⟩ := begun_spec hreads (find_of_filter hid) (descOf s k q)
  obtain ⟨hcause, hpend, -, hctr, hmem⟩ := copyFail_spec hfind hf cause false
  refine ⟨_, hrun, hcause, fun h3 => ?_, fun i => (hctr i).trans (hgetC i), hmem.trans (by rw [hm])⟩
  rw [hpend (hst.trans h3), hexc]
  rfl

/-- A linear copy within the scratchpad moves its bytes, and is then finished. -/
theorem copyStart_local (hc : s.copyCheck (descOf s k q) = none) (hm : CopyDesc.mode (descOf s k q) = 0)
    (hs : CopyDesc.sloc (descOf s k q) = true) (hd : CopyDesc.dloc (descOf s k q) = true) :
    let src := CopyDesc.src (descOf s k q)
    let dst := CopyDesc.dst (descOf s k q)
    let len := CopyDesc.len (descOf s k q)
    ∃ t, exec (.copyStart k []) s = .next t ∧
      (∀ i < len, rd t.mem (spadAddr k (dst + i)) = rd s.mem (spadAddr k (src + i))) ∧
      (∀ a, a < spadAddr k dst ∨ spadAddr k (dst + len) ≤ a → rd t.mem a = rd s.mem a) ∧
      (∃ y ∈ (t.core k).copies, y.id = q.id ∧ y.cn = q.cn ∧ y.started = true ∧ y.failed = false ∧ y.reqs = q.reqs ∧ y.bytes = len) ∧
      (∀ i, (t.core k).getC i = (s.core k.val).getC i) ∧ (t.core k).excPend = (s.core k.val).excPend := by
  intro src dst len
  obtain ⟨s1, hreads, -, hgoes⟩ := copyStart_begins hq hdr hue hpo
  have hrun := hgoes hc
  obtain ⟨⟨m, hcores⟩, hfind, hgetC, -, hexc, -, hue', hpo'⟩ := begun_spec hreads (find_of_filter hid) (descOf s k q)
  obtain ⟨-, -, -, h5⟩ := checks_of_copyCheck hc
  have hrunning : (begun s1 k q (descOf s k q)).copyFailed k q.id = false := by
    unfold State.copyFailed
    rw [hfind]
    exact hf
  obtain ⟨u, hu, hexpand⟩ := expand_local hm hrunning hs hd (source_fits h5 hm hs) (target_fits h5 hm hd) (hue'.trans hue) (hpo'.trans hpo)
  rw [hexpand] at hrun
  generalize hbs : (begun s1 k q (descOf s k q)).spadRd k (CopyDesc.src (descOf s k q)) (CopyDesc.len (descOf s k q)) = bs at hrun
  have hrd : bs = rdN s.mem (spadAddr k src) len := by
    rw [← hbs, State.spadRd, hcores]
  have hlen : bs.length = len := by rw [hrd, rdN_length]
  have hadd (a b : Nat) : spadAddr k (a + b) = spadAddr k a + b := (Nat.add_assoc ..).symm
  have hmem : u.mem = s.mem := by rw [hu.mem, hcores]
  have herr := errors_spadWr u k dst bs
  have hcopies : ((u.spadWr k dst bs).core k).copies = ((begun s1 k q (descOf s k q)).core k).copies :=
    (herr.field Core.copies rfl).trans hu.copies
  refine ⟨_, hrun, fun i hi => ?_, fun a ha => ?_, ⟨begins (descOf s k q) q, ?_, rfl, rfl, rfl, hf, rfl, ?_⟩, fun i => ?_, ?_⟩
  · rw [spadWr_mem, hadd dst, rd_wrN _ _ _ _ (by omega), ← Option.some_inj, ← List.getElem?_eq_getElem, hrd, rdN_getElem? _ _ _ _ hi, hadd]
  · have ha' : a < spadAddr k dst ∨ spadAddr k dst + bs.length ≤ a := by rwa [hlen, ← hadd]
    rw [spadWr_mem, rd_wrN_ne _ _ _ _ ha', hmem]
  · rw [hcopies]
    exact List.mem_of_find?_eq_some hfind
  · change CopyDesc.len (descOf s k q) * CopyDesc.n1 (descOf s k q) * CopyDesc.n2 (descOf s k q) = len
    rw [n1_linear hm, n2_linear hm, Nat.mul_one, Nat.mul_one]
  · exact (herr.field (Core.getC · i) rfl).trans ((hu.getC i).trans (hgetC i))
  · exact (herr.field Core.excPend rfl).trans (hu.exc.trans hexc)

/-- A linear copy of one piece from a remote address issues a read. -/
theorem copyStart_remote {p : Nat} (hc : s.copyCheck (descOf s k q) = none) (hm : CopyDesc.mode (descOf s k q) = 0)
    (hs : CopyDesc.sloc (descOf s k q) = false) (hd : CopyDesc.dloc (descOf s k q) = true) (h1 : CopyDesc.len (descOf s k q) ≤ 512)
    (h2 : CopyDesc.src (descOf s k q) % 4096 + CopyDesc.len (descOf s k q) ≤ 4096)
    (hp : s.requestPanel k (CopyDesc.src (descOf s k q)) (.read (CopyDesc.len (descOf s k q))) = .ok p) :
    ∃ t, exec (.copyStart k []) s = .next t ∧
      (∃ y ∈ (t.core k).copies, y.id = q.id ∧ y.started = true ∧ y.failed = false ∧
        y.reqs = q.reqs ++ [⟨(s.core k.val).nextTag, 1, p, .spad (CopyDesc.dst (descOf s k q)), CopyDesc.len (descOf s k q)⟩]) ∧
      (t.core k).nextTag = (s.core k.val).nextTag + 1 ∧ (∀ i, (t.core k).getC i = (s.core k.val).getC i) ∧ t.mem = s.mem := by
  obtain ⟨s1, hreads, -, hgoes⟩ := copyStart_begins hq hdr hue hpo
  have hrun := hgoes hc
  obtain ⟨⟨m, hcores⟩, hfind, hgetC, -, -, htag, -⟩ := begun_spec hreads (find_of_filter hid) (descOf s k q)
  obtain ⟨-, h3, -, h5⟩ := checks_of_copyCheck hc
  have hlen := one_le_len h3
  have hrunning : (begun s1 k q (descOf s k q)).copyFailed k q.id = false := by
    unfold State.copyFailed
    rw [hfind]
    exact hf
  have hpanel : (begun s1 k q (descOf s k q)).requestPanel k (CopyDesc.src (descOf s k q)) (.read (CopyDesc.len (descOf s k q))) = .ok p := by
    rw [hcores, requestPanel_cores, hp]
  have hsent := expand_remote hm hrunning hs hd (target_fits h5 hm hd) (by omega) h1 h2 hpanel
  refine ⟨_, hrun, ?_⟩
  have hcore := hsent.core k
  rw [State.core_modCore] at hcore
  rw [hcore]
  refine ⟨⟨_, List.mem_of_find?_eq_some (find_modCopy (fun _ => rfl) hfind), rfl, rfl, hf, ?_⟩, ?_, fun i => ?_, hsent.mem.trans ?_⟩
  · rw [htag]
    rfl
  · exact congrArg (· + 1) htag
  · exact hgetC i
  · rw [State.modCore_mem, hcores]

end start

/-! ### COPY_COMPLETION -/

theorem copyCompletion_none {s : State} {k : Fin 39168}
    (h : ∀ q ∈ (s.core k.val).copies, ¬ (q.started = true ∧ q.failed = false ∧ q.reqs = [])) : exec (.copyCompletion k) s = .next s := by
  have hn : (s.core k.val).copies.find? Copy.finished = none := List.find?_eq_none.mpr fun q hq hfin => by
    unfold Copy.finished at hfin
    simp only [Bool.and_eq_true, Bool.not_eq_true', List.isEmpty_iff, and_assoc] at hfin
    exact h q hq hfin
  have run : exec (.copyCompletion k) s = execCopyCompletion k s := rfl
  rw [run]
  unfold execCopyCompletion
  rw [hn]

/-- The oldest finished copy advances its counter by one and leaves the table. -/
theorem copyCompletion_spec {s : State} {k : Fin 39168} {q : Copy} (hq : (s.core k.val).copies.find? Copy.finished = some q) :
    ∃ t, exec (.copyCompletion k) s = .next t ∧
      (∀ i, (t.core k).getC i = if i = q.cn then (s.core k.val).getC i + 1 else (s.core k.val).getC i) ∧
      (∀ y, y ∈ (t.core k).copies ↔ y ∈ (s.core k.val).copies ∧ y.id ≠ q.id) ∧
      (t.core k).copyBytes = (if (s.core k.val).st = 3 ∨ (s.core k.val).st = 4 then (s.core k.val).copyBytes + q.bytes else (s.core k.val).copyBytes) ∧
      t.mem = s.mem ∧ ∀ j, j ≠ k.val → t.core j = s.core j := by
  have run : exec (.copyCompletion k) s = execCopyCompletion k s := rfl
  rw [run]
  unfold execCopyCompletion
  rw [hq]
  refine ⟨_, rfl, fun i => ?_, fun y => ?_, ?_, rfl, fun j hj => State.core_modCore_ne _ _ hj⟩
  · rw [State.core_modCore]
    unfold Core.getC Core.setC
    dsimp only
    by_cases hi : i = q.cn
    · rw [if_pos hi, hi, sget_sput_self]
    · rw [if_neg hi, sget_sput_ne _ _ _ (fun e => hi (BitVec.eq_of_toNat_eq e))]
  · rw [State.core_modCore]
    simp
  · rw [State.core_modCore]

/-! ### REQUEST_TIMEOUT -/

theorem requestTimeout_none {s : State} {k : Fin 39168} {tag : BitVec 16} (h : s.findReq k tag = none) :
    exec (.requestTimeout k tag) s = .next s := by
  have run : exec (.requestTimeout k tag) s = execRequestTimeout k tag s := rfl
  rw [run]
  unfold execRequestTimeout
  dsimp only
  rw [h]

/-- A request without an answer fails its copy. -/
theorem requestTimeout_spec {s : State} {k : Fin 39168} {tag : BitVec 16} {q : Copy} {r : Req} (h : s.findReq k tag = some (q, r))
    (hid : (s.core k.val).copies.filter (fun y => y.id == q.id) = [q]) (hf : q.failed = false) :
    let cause : Nat := if r.opc = 1 then 0x06 else 0x07
    ∃ t, exec (.requestTimeout k tag) s = .next t ∧
      (t.core k).copyCause = BitVec.ofNat 8 cause ∧
      ((s.core k.val).st = 3 → (t.core k).excPend = (s.core k.val).excPend ++ [⟨0x09, 3, BitVec.ofNat 16 (cause + 256)⟩]) ∧
      (∃ y ∈ (t.core k).copies, y.id = q.id ∧ y.failed = true ∧ ∀ r' ∈ y.reqs, r'.tag ≠ tag) ∧
      (∀ i, (t.core k).getC i = (s.core k.val).getC i) ∧ t.mem = s.mem := by
  intro cause
  have run : exec (.requestTimeout k tag) s = .next (((s.pkfError (dieOf k) 0x03 cause).dropReq k q.id tag).copyFail k q.id cause true) := by
    have run : exec (.requestTimeout k tag) s = execRequestTimeout k tag s := rfl
    have hreq : (s.pkfError (dieOf k) 0x03 cause).findReq k tag = some (q, r) := by
      rw [State.findReq, (carries_pkfError ..).core, ← State.findReq, h]
    rw [run]
    unfold execRequestTimeout
    dsimp only
    rw [h]
    dsimp only
    unfold State.coreErr
    rw [hreq]
  have hnoted := carries_pkfError s (dieOf k) 0x03 cause
  generalize s.pkfError (dieOf k) 0x03 cause = v at *
  have hfind : ((v.dropReq k q.id tag).core k).copies.find? (fun y => y.id == q.id) =
      some { q with reqs := q.reqs.filter (fun r => r.tag != tag) } := by
    unfold State.dropReq
    rw [State.core_modCore, hnoted.core]
    exact find_modCopy (fun _ => rfl) (find_of_filter hid)
  have hcore : (v.dropReq k q.id tag).core k = (s.core k.val).modCopy q.id (fun q => { q with reqs := q.reqs.filter (fun r => r.tag != tag) }) := by
    unfold State.dropReq
    rw [State.core_modCore, hnoted.core]
  obtain ⟨hcause, hpend, hfail, hctr, hmem⟩ := copyFail_spec hfind hf cause true
  refine ⟨_, run, hcause, fun h3 => ?_, ⟨_, List.mem_of_find?_eq_some hfail, rfl, rfl, fun r' hr => ?_⟩, fun i => (hctr i).trans ?_,
    hmem.trans hnoted.mem⟩
  · rw [hpend (by rw [hcore]; exact h3), hcore]
    rfl
  · simpa using (List.mem_filter.mp hr).2
  · rw [hcore]
    rfl

/-- Settles O23: what begins, what is refused, the two linear copies, completion, and the timeout, each by the lemma about it. -/
theorem copiesMoveTheirBytes : Obligations.CopiesMoveTheirBytes := by
  unfold Obligations.CopiesMoveTheirBytes
  intro s k
  refine ⟨copyStart_none, fun q rivals hq hd => copyStart_waits hq hd rivals, fun q hq hid hf hdr hue hpo => ⟨fun cause hc => ?_, ?_, ?_⟩,
    copyCompletion_none, fun q hq => copyCompletion_spec hq, fun tag => requestTimeout_none,
    fun tag q r h hid hf => requestTimeout_spec h hid hf⟩
  · exact copyStart_refused hq hid hf hdr hue hpo hc
  · exact copyStart_local hq hid hf hdr hue hpo
  · exact fun p => copyStart_remote hq hid hf hdr hue hpo

end Sys2Proof.Copying
end

section
/-! Accesses of the host interface to memory (R259, R266, R320): a run of bytes within one unit is read or written whole, and what later
accesses depend on stays. -/
namespace Sys2Proof.HostMoves

open Sys2Proof.Machine Sys2Proof.Claims Sys2Proof.Units

/-! ### What an access leaves for the next one -/

/-- From s to t units of memory have been read and written, their code taking none for another codeword: grants, lost stacks, captures and
cores stay, and no error or poison is new. -/
structure Serves (s t : State) : Prop where
  frame : ∃ r h e ho mg c m hm, t = { s with regs := r, hbm := h, events := e, host := ho, mgmt := mg, freeCtr := c, mem := m, hostMem := hm }
  grants : ∀ sl, t.grantOf sl = s.grantOf sl
  lost : ∀ i, t.stackLost i = s.stackLost i
  caps : ∀ i, (t.slice i).cap = (s.slice i).cap
  errs : ∀ x, t.hbm.errAt x = s.hbm.errAt x ∨ t.hbm.errAt x = .symbols []
  poison : ∀ x, x ∈ t.hbm.poison → x ∈ s.hbm.poison ∨ s.hbm.ueAt x = true

namespace Serves
variable {s t u : State}

theorem refl (s : State) : Serves s s :=
  ⟨⟨_, _, _, _, _, _, _, _, rfl⟩, fun _ => rfl, fun _ => rfl, fun _ => rfl, fun _ => .inl rfl, fun _ h => .inl h⟩

theorem trans (h : Serves s t) (g : Serves t u) : Serves s u := by
  obtain ⟨⟨_, _, _, _, _, _, _, _, ht⟩, hr, hl, hc, he, hp⟩ := h
  obtain ⟨⟨r, m, e, ho, mg, c, mm, hm, hv⟩, gr, gl, gc, ge, gp⟩ := g
  refine ⟨⟨r, m, e, ho, mg, c, mm, hm, by rw [hv, ht]⟩, fun i => (gr i).trans (hr i), fun i => (gl i).trans (hl i),
    fun i => (gc i).trans (hc i), fun x => ?_, fun x hx => ?_⟩
  · rcases ge x with h | h
    · rw [h]; exact he x
    · exact .inr h
  · rcases gp x hx with h | h
    · exact hp x h
    · rcases he x with h' | h'
      · exact .inr ((ueAt_congr h').symm.trans h)
      · rw [(noError_of_right h').2.1] at h
        cases h

/-- An access to one unit of a stack of the panel. -/
theorem of_tends {x : Nat} (h : Tends x s t) (hx : stackOfUnit x < 48) : Serves s t := by
  obtain ⟨r, b, e, ho, mg, c, ht⟩ := h.frame
  refine ⟨⟨r, b, e, ho, mg, c, s.mem, s.hostMem, ht⟩, fun sl => h.regs _ ?_, h.lost, h.caps, h.errs, h.poison⟩
  simp only [Reg.grant, Reg.mem]
  omega

theorem cores (h : Serves s t) : t.cores = s.cores := by
  obtain ⟨⟨_, _, _, _, _, _, _, _, rfl⟩, -⟩ := h
  rfl
theorem rails (h : Serves s t) : t.rails = s.rails := by
  obtain ⟨⟨_, _, _, _, _, _, _, _, rfl⟩, -⟩ := h
  rfl
end Serves

/-! ### One unit -/

/-- A write to an address of memory is allowed, not held for a capture, and meets no unit that the code would mistake. -/
structure Open (s : State) (p pa : Nat) : Prop where
  granted : s.granted (some p) (sliceOf pa) true = true
  lost : s.stackLost (stackOf pa) = false
  on : stackOf pa ∉ s.rails.stacksOff
  free : s.writeHeld pa = false
  seen : s.hbm.missAt (unitOf pa) = false

/-- A unit that a read finds without an error that the code detects, and not poisoned. -/
def Whole (s : State) (x : Nat) : Prop := s.hbm.ueAt x = false ∧ x ∉ s.hbm.poison

section access

variable {s t : State} {p pa : Nat}

theorem granted_congr (h : ∀ sl, t.grantOf sl = s.grantOf sl) (req : Option Nat) (sl : Nat) (w : Bool) :
    t.granted req sl w = s.granted req sl w := by
  unfold State.granted
  rw [h]

theorem Open.serves (h : Open s p pa) (g : Serves s t) : Open t p pa where
  granted := (granted_congr g.grants ..).trans h.granted
  lost := (g.lost _).trans h.lost
  on := by rw [g.rails]; exact h.on
  free := by
    unfold State.writeHeld
    rw [g.caps]
    exact h.free
  seen := by
    rcases g.errs (unitOf pa) with he | he
    · rw [missAt_congr he, h.seen]
    · exact (noError_of_right he).2.2

theorem Whole.serves {x : Nat} (h : Whole s x) (g : Serves s t) : Whole t x := by
  refine ⟨?_, fun hx => ?_⟩
  · rcases g.errs x with he | he
    · rw [ueAt_congr he, h.1]
    · exact (noError_of_right he).2.1
  · rcases g.poison x hx with hx | hx
    · exact h.2 hx
    · rw [h.1] at hx
      cases hx

theorem read_granted (h : s.granted (some p) (sliceOf pa) true = true) : s.granted (some p) (sliceOf pa) false = true := by
  unfold State.granted at *
  dsimp only at *
  simp only [Bool.not_true, Bool.false_and, Bool.or_false, Bool.and_eq_true] at h
  simp [h.1, h.2]

/-- Bytes within one unit touch that unit alone. -/
theorem unitsOf_single {n : Nat} (h0 : 0 < n) (h : pa % 64 + n ≤ 64) : unitsOf pa n = [unitOf pa] := by
  have h1 : (pa + n - 1) / 64 - pa / 64 = 0 := by omega
  unfold unitsOf unitOf
  rw [if_neg (by omega), h1, Nat.zero_add, List.range_one, List.map_singleton, Nat.zero_add]

theorem stackOfUnit_unitOf (pa : Nat) : stackOfUnit (unitOf pa) = stackOf pa := by
  unfold stackOfUnit stackOf sliceOf unitOf
  omega

theorem tends_unitWritten {x : Nat} (hm : s.hbm.missAt x = false) (whole : Bool) : Tends x s (s.unitWritten x whole) := by
  have mended (v : State) (f : List Nat → List Nat) (hf : ∀ y, y ∈ f v.hbm.poison → y ∈ v.hbm.poison) :
      Tends x v (v.modHbm (fun h => { h.mend x with poison := f h.poison, wb := h.wb.erase x })) := by
    refine tends_hbm x v rfl (fun y => ?_) (fun y hy => .inl (hf y hy))
    by_cases hy : y = x
    · exact .inr ((errAt_mend _ x y).trans (if_pos hy))
    · exact .inl ((errAt_mend _ x y).trans (if_neg hy))
  unfold State.unitWritten
  cases whole with
  | true => exact mended s (fun l => l.erase x) (fun y hy => List.mem_of_mem_erase hy)
  | false => exact (tends_unitEcc hm).trans (mended _ id (fun _ h => h))

theorem serves_mem (s : State) (m : Mem) : Serves s { s with mem := m } :=
  ⟨⟨_, _, _, _, _, _, _, _, rfl⟩, fun _ => rfl, fun _ => rfl, fun _ => rfl, fun _ => .inl rfl, fun _ h => .inl h⟩

theorem serves_hostMem (s : State) (m : Mem) : Serves s { s with hostMem := m } :=
  ⟨⟨_, _, _, _, _, _, _, _, rfl⟩, fun _ => rfl, fun _ => rfl, fun _ => rfl, fun _ => .inl rfl, fun _ h => .inl h⟩

/-- A page is marked as written. -/
theorem serves_marked (s : State) (sl : Nat) (b : BitVec 512) : Serves s (s.modSlice sl (fun l => { l with cur := l.cur ||| b })) := by
  refine ⟨⟨_, _, _, _, _, _, _, _, rfl⟩, fun _ => rfl, fun _ => rfl, fun i => ?_, fun _ => .inl rfl, fun _ h => .inl h⟩
  by_cases hi : i = sl
  · rw [hi, State.slice_modSlice]
  · rw [slice_modSlice_ne hi]

/-- Writing a run of bytes within one unit. -/
theorem hbmWrite_spec {bs : List Byte} (h0 : bs ≠ []) (h64 : pa % 64 + bs.length ≤ 64) (hst : stackOf pa < 48)
    (hm : s.hbm.missAt (unitOf pa) = false) :
    Serves s (s.hbmWrite pa bs true) ∧ (s.hbmWrite pa bs true).mem = wrN s.mem pa bs ∧ (s.hbmWrite pa bs true).hostMem = s.hostMem := by
  have hstack : stackOfUnit (unitOf pa) < 48 := by rwa [stackOfUnit_unitOf]
  have hact := (activates_activate s (unitOf pa)).tends
  have htends (w : Bool) : Tends (unitOf pa) s ((s.activate (unitOf pa)).unitWritten (unitOf pa) w) :=
    hact.trans (tends_unitWritten (hact.missAt hm) w)
  unfold State.hbmWrite
  rw [unitsOf_single (List.length_pos_of_ne_nil h0) h64]
  dsimp only [List.foldl_cons, List.foldl_nil]
  rw [if_pos rfl]
  generalize (decide (pa ≤ 64 * unitOf pa) && decide (64 * unitOf pa + 64 ≤ pa + bs.length)) = w
  have ht := htends w
  generalize (s.activate (unitOf pa)).unitWritten (unitOf pa) w = v at *
  generalize BitVec.ofNat 512 (2 ^ pageOf (64 * unitOf pa)) = b
  refine ⟨((Serves.of_tends ht hstack).trans (serves_mem v _)).trans (serves_marked _ _ b), ?_, ?_⟩
  · rw [State.modSlice_mem, ht.mem]
  · rw [State.modSlice_hostMem]
    exact ht.hostMem

/-- Reading a run of bytes within one unit that holds no error the code detects. -/
theorem hbmRead_spec {n : Nat} (h0 : 0 < n) (h64 : pa % 64 + n ≤ 64) (hst : stackOf pa < 48) (hm : s.hbm.missAt (unitOf pa) = false)
    (hw : Whole s (unitOf pa)) : ∃ t, s.hbmRead pa n = (t, some (rdN s.mem pa n)) ∧ Serves s t ∧ t.mem = s.mem ∧ t.hostMem = s.hostMem := by
  have hstack : stackOfUnit (unitOf pa) < 48 := by rwa [stackOfUnit_unitOf]
  have hact := (activates_activate s (unitOf pa)).tends
  have ht := hact.trans (tends_unitEcc (hact.missAt hm))
  unfold State.hbmRead
  rw [unitsOf_single h0 h64]
  dsimp only [List.foldl_cons, List.foldl_nil]
  generalize (s.activate (unitOf pa)).unitEcc (unitOf pa) = v at *
  have hs := Serves.of_tends ht hstack
  have hclean : [unitOf pa].find? v.hbm.poison.contains = none := by
    rw [List.find?_cons_of_neg, List.find?_nil]
    simpa using (hw.serves hs).2
  rw [hclean]
  exact ⟨v, by rw [ht.mem], hs, ht.mem, ht.hostMem⟩

/-! ### One access -/

variable (ho : Open s p pa) (hp : s.localPlace (some p) pa = .hbm pa) (hst : stackOf pa < 48)
include ho hp hst

theorem hostAccess_write {bs : List Byte} (h0 : bs ≠ []) (h64 : pa % 64 + bs.length ≤ 64) :
    ∃ t, s.hostAccess p pa (.write bs) = (t, .ok) ∧ Serves s t ∧ t.mem = wrN s.mem pa bs ∧ t.hostMem = s.hostMem := by
  refine ⟨_, ?_, hbmWrite_spec h0 h64 hst ho.seen⟩
  unfold State.hostAccess
  dsimp only
  rw [hp]
  dsimp only
  rw [ho.free, Bool.and_false, if_neg Bool.false_ne_true]
  unfold State.accessAt State.mayUse State.hbmAccess
  simp [Access.isRead, ho.granted, ho.lost, ho.on]

theorem hostAccess_read {n : Nat} (h0 : 0 < n) (h64 : pa % 64 + n ≤ 64) (hw : Whole s (unitOf pa)) :
    ∃ t, s.hostAccess p pa (.read n) = (t, .data (rdN s.mem pa n)) ∧ Serves s t ∧ t.mem = s.mem ∧ t.hostMem = s.hostMem := by
  obtain ⟨t, hread, ht⟩ := hbmRead_spec h0 h64 hst ho.seen hw
  refine ⟨t, ?_, ht⟩
  unfold State.hostAccess
  dsimp only
  rw [hp]
  dsimp only
  rw [ho.free, Bool.and_false, if_neg Bool.false_ne_true]
  unfold State.accessAt State.mayUse State.hbmAccess
  simp [Access.isRead, read_granted ho.granted, ho.lost, ho.on, hread]

end access

end Sys2Proof.HostMoves
end

section
/-! Transfers of the host (R168, R320): words in runs, what a run moves, and the first words that SUMMARY counts. -/
namespace Sys2Proof.HostMoves

open Sys2Proof.Machine Sys2Proof.Claims Sys2Proof.Units

/-! ### Words in runs -/

/-- The words of a run. -/
def runWords (r : Nat × Nat) : List Nat := List.range' r.1 r.2

/-- A run within one aligned unit of 64 bytes of the device side. -/
def InUnit (a : Nat) (r : Nat × Nat) : Prop := 0 < r.2 ∧ (a / 8 + r.1) % 8 + r.2 ≤ 8

/-- The runs of a list hold its words in order, each within one unit. -/
theorem unitRuns_spec (a : Nat) (ws : List Nat) : (unitRuns a ws).flatMap runWords = ws ∧ ∀ r ∈ unitRuns a ws, InUnit a r := by
  induction ws with
  | nil => exact ⟨rfl, fun r hr => absurd hr List.not_mem_nil⟩
  | cons w ws ih =>
    obtain ⟨hflat, hin⟩ := ih
    have hone : InUnit a (w, 1) := ⟨Nat.one_pos, by dsimp only; omega⟩
    unfold unitRuns
    cases hrs : unitRuns a ws with
    | nil =>
      rw [hrs] at hflat
      rw [← hflat]
      exact ⟨rfl, by simpa using hone⟩
    | cons r rs =>
      obtain ⟨f, n⟩ := r
      rw [hrs] at hflat hin
      obtain ⟨hfn, hrest⟩ := List.forall_mem_cons.mp hin
      rw [List.flatMap_cons] at hflat
      dsimp only
      split
      · next h =>
        obtain ⟨rfl, hne⟩ := h
        refine ⟨?_, List.forall_mem_cons.mpr ⟨?_, hrest⟩⟩
        · rw [← hflat, List.flatMap_cons, runWords, List.range'_succ]
          rfl
        · obtain ⟨h0, h8⟩ := hfn
          refine ⟨Nat.succ_pos _, ?_⟩
          dsimp only at h0 h8 ⊢
          omega
      · refine ⟨?_, List.forall_mem_cons.mpr ⟨hone, hin⟩⟩
        rw [List.flatMap_cons, List.flatMap_cons, hflat]
        rfl

/-! ### Bytes -/

/-- Memory m is the memory tgt, but for some words at address ta that hold what src has at address fa. -/
def Copied (src tgt : Mem) (fa ta : Nat) (ws : List Nat) (m : Mem) : Prop :=
  (∀ w ∈ ws, ∀ j < 8, rd m (ta + 8 * w + j) = rd src (fa + 8 * w + j)) ∧
    ∀ x, (∀ w ∈ ws, x < ta + 8 * w ∨ ta + 8 * w + 8 ≤ x) → rd m x = rd tgt x

theorem Copied.nil (src tgt : Mem) (fa ta : Nat) : Copied src tgt fa ta [] tgt := ⟨fun _ hw => absurd hw List.not_mem_nil, fun _ _ => rfl⟩

/-- A run more. -/
theorem Copied.run {src tgt m : Mem} {fa ta : Nat} {ws : List Nat} (h : Copied src tgt fa ta ws m) (r : Nat × Nat) :
    Copied src tgt fa ta (ws ++ runWords r) (wrN m (ta + 8 * r.1) (rdN src (fa + 8 * r.1) (8 * r.2))) := by
  obtain ⟨hin, hout⟩ := h
  have hmem (w : Nat) : w ∈ runWords r ↔ r.1 ≤ w ∧ w < r.1 + r.2 := List.mem_range'_1
  refine ⟨fun w hw j hj => ?_, fun x hx => ?_⟩
  · by_cases hr' : w ∈ runWords r
    · obtain ⟨h1, h2⟩ := (hmem w).mp hr'
      have hi : 8 * (w - r.1) + j < 8 * r.2 := by omega
      have hto : ta + 8 * w + j = ta + 8 * r.1 + (8 * (w - r.1) + j) := by omega
      have hfrm : fa + 8 * w + j = fa + 8 * r.1 + (8 * (w - r.1) + j) := by omega
      rw [hto, hfrm, rd_wrN _ _ _ _ (by rw [rdN_length]; exact hi), ← Option.some_inj, ← List.getElem?_eq_getElem, rdN_getElem? _ _ _ _ hi]
    · have hw' : w ∈ ws := (List.mem_append.mp hw).resolve_right hr'
      rw [hmem] at hr'
      rw [rd_wrN_ne _ _ _ _ (by rw [rdN_length]; omega)]
      exact hin w hw' j hj
  · rw [rd_wrN_ne]
    · exact hout x fun w hw => hx w (List.mem_append_left _ hw)
    · rw [rdN_length]
      by_contra hc
      have hlt : r.1 + (x - (ta + 8 * r.1)) / 8 < r.1 + r.2 := by omega
      have := hx (r.1 + (x - (ta + 8 * r.1)) / 8) (List.mem_append_right _ ((hmem _).mpr ⟨Nat.le_add_right .., hlt⟩))
      omega

/-- The first words as bytes. -/
theorem Copied.bytes {src tgt m : Mem} {fa ta n : Nat} {ws : List Nat} (h : Copied src tgt fa ta ws m) (hn : ∀ w < n, w ∈ ws) {i : Nat}
    (hi : i < 8 * n) : rd m (ta + i) = rd src (fa + i) := by
  have := h.1 (i / 8) (hn _ (by omega)) (i % 8) (by omega)
  rwa [show ta + 8 * (i / 8) + i % 8 = ta + i by omega, show fa + 8 * (i / 8) + i % 8 = fa + i by omega] at this

theorem Copied.outside {src tgt m : Mem} {fa ta n : Nat} {ws : List Nat} (h : Copied src tgt fa ta ws m) (hn : ∀ w ∈ ws, w < n) {x : Nat}
    (hx : x < ta ∨ ta + 8 * n ≤ x) : rd m x = rd tgt x :=
  h.2 x fun w hw => by
    have := hn w hw
    omega

/-! ### A run of a transfer -/

/-- What a transfer reads and what it writes, by its direction. -/
def source (inward : Bool) (s : State) : Mem := if inward then s.hostMem else s.mem
def target (inward : Bool) (s : State) : Mem := if inward then s.mem else s.hostMem

/-- Where a transfer of words stands: those of L moved, and the longest run of first words counted. -/
structure Stands (s : State) (h a : Nat) (inward : Bool) (ws done : List Nat) (m : Moving) : Prop where
  serves : Serves s m.st
  keeps : source inward m.st = source inward s
  copied : Copied (source inward s) (target inward s) (if inward then h else a) (if inward then a else h) done (target inward m.st)
  good : m.bad = none
  whole : m.whole = true → done = List.range m.done
  stops : m.whole = false → m.done ∉ ws ∧ ∀ w < m.done, w ∈ done

section run

variable {s : State} {p h a n : Nat} {inward : Bool} {m : Moving} {r : Nat × Nat} {ws done rest : List Nat}

/-- Every access of a transfer of n bytes at address a may be made. -/
def Clear (s : State) (p a n : Nat) (inward : Bool) : Prop :=
  ∀ w < n / 8, Open s p (a + 8 * w) ∧ (inward = false → Whole s (unitOf (a + 8 * w)))

/-- A run is moved. -/
theorem moveRun_eq (hclear : Clear s p a n inward) (h8 : a % 8 = 0) (hlo : 0x40000000000 ≤ a) (hhi : a + n ≤ 0x70000000000)
    (hs : Serves s m.st) (hr : InUnit a r) (hn : r.1 + r.2 ≤ n / 8) :
    ∃ u, moveRun p h a inward m r = ⟨u, if r.1 = m.done ∧ m.whole = true then m.done + r.2 else m.done, m.whole && r.1 == m.done, m.bad⟩ ∧
      Serves s u ∧ source inward u = source inward m.st ∧
      target inward u = wrN (target inward m.st) ((if inward then a else h) + 8 * r.1)
        (rdN (source inward m.st) ((if inward then h else a) + 8 * r.1) (8 * r.2)) := by
  obtain ⟨h0, hu⟩ := hr
  obtain ⟨hopen, hwhole⟩ := hclear r.1 (by omega)
  have hp : m.st.localPlace (some p) (a + 8 * r.1) = .hbm (a + 8 * r.1) := by
    unfold State.localPlace
    rw [if_neg (by omega), if_pos (by omega)]
  have hst : stackOf (a + 8 * r.1) < 48 := by
    unfold stackOf sliceOf
    omega
  have h64 : (a + 8 * r.1) % 64 + 8 * r.2 ≤ 64 := by omega
  have hmove (v : State) : (⟨v, if (m.whole && r.1 == m.done) = true then m.done + r.2 else m.done, m.whole && r.1 == m.done, m.bad⟩ : Moving) =
      ⟨v, if r.1 = m.done ∧ m.whole = true then m.done + r.2 else m.done, m.whole && r.1 == m.done, m.bad⟩ := by
    simp only [Bool.and_eq_true, beq_iff_eq, and_comm]
  have hstart : (if r.1 = m.done then m else { m with whole := false }) = { m with whole := m.whole && r.1 == m.done } := by
    by_cases hd : r.1 = m.done <;> simp [hd]
  unfold moveRun
  dsimp only
  rw [hstart]
  dsimp only
  cases inward with
  | true =>
    have hbs : (rdN m.st.hostMem (h + 8 * r.1) (8 * r.2)).length = 8 * r.2 := rdN_length ..
    obtain ⟨u, hacc, hserve, hmem, hhost⟩ := hostAccess_write (hopen.serves hs) hp hst (bs := rdN m.st.hostMem (h + 8 * r.1) (8 * r.2))
      (List.ne_nil_of_length_pos (by omega)) (by omega)
    refine ⟨u, ?_, hs.trans hserve, hhost, hmem⟩
    rw [if_pos rfl, hacc]
    exact hmove u
  | false =>
    obtain ⟨u, hacc, hserve, hmem, hhost⟩ := hostAccess_read (hopen.serves hs) hp hst (n := 8 * r.2) (by omega) h64 ((hwhole rfl).serves hs)
    refine ⟨{ u with hostMem := wrN u.hostMem (h + 8 * r.1) (rdN m.st.mem (a + 8 * r.1) (8 * r.2)) }, ?_,
      (hs.trans hserve).trans (serves_hostMem ..), hmem, ?_⟩
    · rw [if_neg Bool.false_ne_true, hacc]
      exact hmove _
    · change wrN u.hostMem _ _ = wrN m.st.hostMem _ _
      rw [hhost]
      rfl

/-- A run keeps the transfer's place. -/
theorem stands_moveRun (hclear : Clear s p a n inward) (h8 : a % 8 = 0) (hlo : 0x40000000000 ≤ a) (hhi : a + n ≤ 0x70000000000)
    (hr : InUnit a r) (hws : ws = done ++ runWords r ++ rest) (hsorted : ws.Pairwise (· < ·)) (hn : ∀ w ∈ ws, w < n / 8)
    (hm : Stands s h a inward ws done m) : Stands s h a inward ws (done ++ runWords r) (moveRun p h a inward m r) := by
  have hwords (w : Nat) : w ∈ runWords r ↔ r.1 ≤ w ∧ w < r.1 + r.2 := List.mem_range'_1
  obtain ⟨hfirst, hlast⟩ : r.1 ∈ ws ∧ r.1 + r.2 - 1 ∈ ws := by
    obtain ⟨h0, -⟩ := hr
    rw [hws]
    exact ⟨List.mem_append_left _ (List.mem_append_right _ ((hwords _).mpr (by omega))),
      List.mem_append_left _ (List.mem_append_right _ ((hwords _).mpr (by omega)))⟩
  have hlt := hn _ hlast
  obtain ⟨u, hrun, hserves, hsrc, htgt⟩ := moveRun_eq (h := h) (m := m) hclear h8 hlo hhi hm.serves hr (by have := hr.1; omega)
  rw [hws, List.append_assoc, List.pairwise_append] at hsorted
  obtain ⟨-, hrest, hbefore⟩ := hsorted
  rw [hrun]
  refine ⟨hserves, hsrc.trans hm.keeps, ?_, hm.good, fun hw => ?_, fun hw => ?_⟩
  · change Copied _ _ _ _ _ (target inward u)
    rw [htgt, hm.keeps]
    exact hm.copied.run r
  · dsimp only at hw ⊢
    rw [Bool.and_eq_true, beq_iff_eq] at hw
    obtain ⟨hwh, hd⟩ := hw
    rw [if_pos ⟨hd, hwh⟩, hm.whole hwh, runWords, hd, List.range_eq_range', List.range_eq_range', ← List.range'_append_1, Nat.zero_add]
  · dsimp only at hw ⊢
    have hnot : ¬ (r.1 = m.done ∧ m.whole = true) := fun ⟨hd, hwh⟩ => by simp [hd, hwh] at hw
    rw [if_neg hnot]
    cases hwh : m.whole with
    | false =>
      obtain ⟨hmiss, hall⟩ := hm.stops hwh
      exact ⟨hmiss, fun w hw => List.mem_append_left _ (hall w hw)⟩
    | true =>
      have hdone := hm.whole hwh
      have hgap : m.done < r.1 := by
        refine lt_of_le_of_ne ?_ fun e => hnot ⟨e.symm, hwh⟩
        by_contra hc
        have := hbefore r.1 (by rw [hdone, List.mem_range]; omega) r.1 (List.mem_append_left _ ((hwords _).mpr ⟨le_refl _, by have := hr.1; omega⟩))
        omega
      refine ⟨fun hmem => ?_, fun w hw => List.mem_append_left _ (by rwa [hdone, List.mem_range])⟩
      rw [hws, List.append_assoc, List.mem_append, List.mem_append, hdone, List.mem_range, hwords] at hmem
      rcases hmem with h1 | h2 | h3
      · omega
      · omega
      · have := (List.pairwise_append.mp hrest).2.2 r.1 ((hwords _).mpr ⟨le_refl _, by have := hr.1; omega⟩) _ h3
        omega

/-- The runs of a transfer, one after the other. -/
theorem stands_runs (hclear : Clear s p a n inward) (h8 : a % 8 = 0) (hlo : 0x40000000000 ≤ a) (hhi : a + n ≤ 0x70000000000) (ctr : Nat)
    (hsorted : ws.Pairwise (· < ·)) (hn : ∀ w ∈ ws, w < n / 8) (rs : List (Nat × Nat)) (hrs : ∀ r ∈ rs, InUnit a r)
    (hws : ws = done ++ rs.flatMap runWords) (hm : Stands s h a inward ws done m) :
    Stands s h a inward ws ws (rs.foldl (moveNext p h a inward ctr) m) := by
  induction rs generalizing m done with
  | nil =>
    rw [List.flatMap_nil, List.append_nil] at hws
    subst hws
    exact hm
  | cons r rs ih =>
    obtain ⟨hr, hrs'⟩ := List.forall_mem_cons.mp hrs
    rw [List.flatMap_cons, ← List.append_assoc] at hws
    have hnext := stands_moveRun hclear h8 hlo hhi hr hws hsorted hn hm
    have hmove : moveNext p h a inward ctr m r = moveRun p h a inward m r := by
      unfold moveNext
      rw [hm.good]
      exact if_pos rfl
    rw [List.foldl_cons, hmove]
    exact ih hrs' hws hnext

end run

/-! ### The words that are moved -/

section words

variable {ctr n : Nat} {stop : Option Nat}

/-- The words of a transfer of n bytes that are moved. -/
def moved (ctr n : Nat) (stop : Option Nat) : List Nat := (List.range (n / 8)).filter (fun i => movedWord ctr i stop)

theorem moved_sorted : (moved ctr n stop).Pairwise (· < ·) := (List.pairwise_lt_range).filter _

theorem moved_lt : ∀ w ∈ moved ctr n stop, w < n / 8 := fun _ hw => List.mem_range.mp (List.mem_of_mem_filter hw)

theorem moved_whole : moved ctr n none = List.range (n / 8) := List.filter_eq_self.mpr fun _ _ => rfl

theorem mem_moved {k w : Nat} (hk : w < k) (hn : w < n / 8) : w ∈ moved ctr n (some k) := by
  refine List.mem_filter.mpr ⟨List.mem_range.mpr hn, ?_⟩
  simp [movedWord, hk]

variable {s : State} {h a : Nat} {inward : Bool} {m : Moving}

/-- The first words that a transfer counts were moved, and are no more than the transfer has. -/
theorem Stands.counted (hm : Stands s h a inward (moved ctr n stop) (moved ctr n stop) m) :
    (∀ w < m.done, w ∈ moved ctr n stop) ∧ m.done ≤ n / 8 := by
  have hall : ∀ w < m.done, w ∈ moved ctr n stop := by
    cases hw : m.whole with
    | false => exact (hm.stops hw).2
    | true =>
      intro w hlt
      rw [hm.whole hw]
      exact List.mem_range.mpr hlt
  refine ⟨hall, ?_⟩
  by_contra hc
  exact absurd (moved_lt _ (hall (n / 8) (by omega))) (lt_irrefl _)

/-- Every word before the place where the transfer ended is counted. -/
theorem Stands.counts {k : Nat} (hk : ∀ w < k, w ∈ moved ctr n stop) (hm : Stands s h a inward (moved ctr n stop) (moved ctr n stop) m) :
    k ≤ m.done := by
  by_contra hc
  have hin := hk m.done (by omega)
  cases hw : m.whole with
  | false => exact (hm.stops hw).1 hin
  | true =>
    rw [hm.whole hw, List.mem_range] at hin
    exact absurd hin (lt_irrefl _)

end words

end Sys2Proof.HostMoves
end

section
/-! COPY_IN, COPY_OUT, SIGNAL, NOP and QUERY (R168, R320, Table 12-8). -/
namespace Sys2Proof.HostMoves

open Sys2Proof.Machine Sys2Proof.Claims Sys2Proof.Units Sys2Proof.LaunchTree Sys2Proof.Carried

/-! ### COPY_IN and COPY_OUT -/

section copy

variable {s : State} {r : Ref} {c : Cmd} {op : Nat} {ans : HostAns}

/-- The operands of a transfer are good. -/
def GoodMove (c : Cmd) : Prop :=
  c.u64 0x10 % 8 = 0 ∧ c.u64 8 % 8 = 0 ∧ c.u64 0x10 < 2 ^ 44 ∧ c.u32 0x18 % 8 = 0 ∧ 8 ≤ c.u32 0x18 ∧ (c.desc.drop 0x1C).all (· == 0) = true

theorem copyOperands_iff (c : Cmd) : copyOperands c = true ↔ GoodMove c := by
  simp only [copyOperands, GoodMove, mult, Cmd.zeroFrom, Bool.and_eq_true, beq_iff_eq, decide_eq_true_eq]
  tauto

theorem copyRun_bad (h : ¬ GoodMove c) : copyRun op ans c s = (s, .fin 1 0 []) := by
  have : copyOperands c = false := by rwa [← Bool.not_eq_true, copyOperands_iff]
  unfold copyRun
  dsimp only
  rw [if_pos this]

variable (h : GoodMove c)
include h

theorem copyRun_refused (ha : s.admitted c.part op c.target = false) : copyRun op ans c s = (s, .fin 2 (s.stateDetail c.part) []) := by
  unfold copyRun
  dsimp only
  rw [if_neg (by simp [(copyOperands_iff c).mpr h]), if_pos ha]
  rfl

variable (ha : s.admitted c.part op c.target = true)
include ha

theorem copyRun_beyond (hb : 2 ^ 57 < c.u64 8 + c.u32 0x18) : copyRun op ans c s = (s, .fin 4 0 []) := by
  unfold copyRun
  dsimp only
  rw [if_neg (by simp [(copyOperands_iff c).mpr h]), if_neg (by simp [ha]), if_pos (.inr hb)]

variable (hb : c.u64 8 + c.u32 0x18 ≤ 2 ^ 57)
include hb

theorem copyRun_range {st d : Nat} (hr : s.rangeBad c.part (c.u64 0x10) (c.u32 0x18) (op == 1) = some (st, d)) :
    copyRun op ans c s = (s, .fin st d []) := by
  obtain ⟨-, -, -, -, h8, -⟩ := id h
  unfold copyRun
  dsimp only
  rw [if_neg (by simp [(copyOperands_iff c).mpr h]), if_neg (by simp [ha]), if_neg (by omega), hr]

/-- The runs of a transfer, from the state in which it begins. -/
def transfer (op : Nat) (c : Cmd) (s : State) (stop : Option Nat) : Moving :=
  (unitRuns (c.u64 0x10) (moved s.freeCtr (c.u32 0x18) stop)).foldl (moveNext c.part (c.u64 8) (c.u64 0x10) (op == 1) s.freeCtr) ⟨s, 0, true, none⟩

variable (hr : s.rangeBad c.part (c.u64 0x10) (c.u32 0x18) (op == 1) = none)
include hr

/-- A transfer that goes to its end. -/
theorem copyRun_whole (hgood : (transfer op c s none).bad = none) :
    copyRun op .ok c s = ((transfer op c s none).st.freshen, .fin 0 0 (leBytes 8 (8 * (transfer op c s none).done))) := by
  obtain ⟨-, -, -, -, h8, -⟩ := id h
  unfold transfer moved at *
  unfold copyRun
  dsimp only
  rw [if_neg (by simp [(copyOperands_iff c).mpr h]), if_neg (by simp [ha]), if_neg (by omega), hr]
  dsimp only
  rw [hgood]

/-- A transfer in which the host stops answering. -/
theorem copyRun_stopped {k : Nat} (hk : k < c.u32 0x18) (hgood : (transfer op c s (some (k / 8))).bad = none) :
    copyRun op (.addrAt k) c s =
      ((transfer op c s (some (k / 8))).st.freshen, .fin 4 0 (leBytes 8 (8 * (transfer op c s (some (k / 8))).done))) := by
  obtain ⟨-, -, -, -, h8, -⟩ := id h
  unfold transfer moved at *
  unfold copyRun
  dsimp only
  rw [if_neg (by simp [(copyOperands_iff c).mpr h]), if_neg (by simp [ha]), if_neg (by omega), hr]
  dsimp only
  rw [if_neg (by omega), hgood]

end copy

/-! ### The placed view -/

section placed

variable {s : State} {p a n : Nat}

theorem localPlace_placed (req : Option Nat) (hlo : 0x40000000000 ≤ a) (hhi : a < 0x70000000000) : s.localPlace req a = .hbm a := by
  unfold State.localPlace
  rw [if_neg (by omega), if_pos ⟨hlo, hhi⟩]

/-- A range of the placed view that no check refuses is granted. -/
theorem granted_of_rangeBad (h8 : n % 8 = 0) (hlo : 0x40000000000 ≤ a) (hhi : a + n ≤ 0x70000000000) (h : s.rangeBad p a n true = none) :
    ∀ w < n / 8, s.granted (some p) (sliceOf (a + 8 * w)) true = true := by
  intro w hw
  by_contra hg
  rw [Bool.not_eq_true] at hg
  have hbad : s.devBad p (a + 8 * w) true = some (0x0B, 0) := by
    unfold State.devBad
    rw [localPlace_placed _ (by omega) (by omega)]
    dsimp only
    rw [hg]
    exact if_neg Bool.false_ne_true
  have hmem : (0x0B, 0) ∈ (List.range (n / 8)).filterMap (fun i => s.devBad p (a + 8 * i) true) :=
    List.mem_filterMap.mpr ⟨w, List.mem_range.mpr hw, hbad⟩
  unfold State.rangeBad at h
  dsimp only at h
  generalize (List.range (n / 8)).filterMap (fun i => s.devBad p (a + 8 * i) true) = l at *
  split at h
  · cases h
  · split at h
    · cases h
    · rw [List.head?_eq_none_iff] at h
      rw [h] at hmem
      cases hmem

/-- Where every word is granted and served, no direction of a transfer is refused. -/
theorem rangeBad_none (hlo : 0x40000000000 ≤ a) (hhi : a + n ≤ 0x70000000000)
    (h : ∀ w < n / 8, s.granted (some p) (sliceOf (a + 8 * w)) true = true) : s.rangeBad p a n false = none := by
  have hnil : (List.range (n / 8)).filterMap (fun i => s.devBad p (a + 8 * i) false) = [] := by
    refine List.filterMap_eq_nil_iff.mpr fun w hw => ?_
    rw [List.mem_range] at hw
    unfold State.devBad
    rw [localPlace_placed _ (by omega) (by omega)]
    dsimp only
    rw [read_granted (h w hw)]
    exact if_pos rfl
  unfold State.rangeBad
  dsimp only
  rw [hnil]
  rfl

/-- A transfer whose range no check refuses, and whose memory is served, may make every access. -/
theorem clear_of_served {inward : Bool} (h8 : n % 8 = 0) (hlo : 0x40000000000 ≤ a) (hhi : a + n ≤ 0x70000000000)
    (h : s.rangeBad p a n true = none)
    (hserved : ∀ i < n, s.stackLost (stackOf (a + i)) = false ∧ stackOf (a + i) ∉ s.rails.stacksOff ∧ s.writeHeld (a + i) = false)
    (hseen : ∀ x ∈ unitsOf a n, s.hbm.missAt x = false) (hwhole : inward = false → ∀ x ∈ unitsOf a n, Whole s x) : Clear s p a n inward := by
  intro w hw
  have hin : unitOf (a + 8 * w) ∈ unitsOf a n := by
    unfold unitsOf unitOf
    rw [if_neg (by omega), List.mem_map]
    exact ⟨(a + 8 * w) / 64 - a / 64, List.mem_range.mpr (by omega), by omega⟩
  obtain ⟨hlost, hon, hfree⟩ := hserved (8 * w) (by omega)
  exact ⟨⟨granted_of_rangeBad h8 hlo hhi h w hw, hlost, hon, hfree, hseen _ hin⟩, fun hi => hwhole hi _ hin⟩

/-- Before its first run a transfer has moved nothing. -/
theorem stands_start (s : State) (h a : Nat) (inward : Bool) (ws : List Nat) : Stands s h a inward ws [] ⟨s, 0, true, none⟩ :=
  ⟨.refl s, rfl, .nil .., rfl, fun _ => rfl, fun h => by cases h⟩

/-- A transfer that may make every access ends with its words moved. -/
theorem stands_transfer {op : Nat} {c : Cmd} (hclear : Clear s c.part (c.u64 0x10) (c.u32 0x18) (op == 1)) (h : GoodMove c)
    (hlo : 0x40000000000 ≤ c.u64 0x10) (hhi : c.u64 0x10 + c.u32 0x18 ≤ 0x70000000000) (stop : Option Nat) :
    Stands s (c.u64 8) (c.u64 0x10) (op == 1) (moved s.freeCtr (c.u32 0x18) stop) (moved s.freeCtr (c.u32 0x18) stop) (transfer op c s stop) := by
  obtain ⟨hflat, hin⟩ := unitRuns_spec (c.u64 0x10) (moved s.freeCtr (c.u32 0x18) stop)
  exact stands_runs hclear h.1 hlo hhi _ moved_sorted moved_lt _ hin (by rw [hflat, List.nil_append]) (stands_start ..)

end placed

section ends

variable {s : State} {r : Ref} {c : Cmd} {f : Cmd → State → State × Res} {op : Nat} {i : Instr}

/-- A command that starts, and the state in which it ends. -/
theorem ends_of_start {u : State} {st d : Nat} {su : List Byte} {m : State → Prop} (hrun : exec i s = .next (s.start op r f)) (h : Starts s op r c)
    (hf : f c s = (u, .fin st d su)) (hm : m u) : Ends i s r c st d su m :=
  ⟨u, by rw [hrun, start_ends h hf], hm⟩

/-- A command that starts and runs on, and the state in which it runs. -/
theorem goes_of_start {u : State} {m : State → Prop} (hrun : exec i s = .next (s.start op r f)) (h : Starts s op r c)
    (hf : f c s = (u, .run)) (hm : m u) : Goes i s r c m :=
  ⟨u, by rw [hrun, start_runs h hf], hm⟩

end ends

/-! ### SIGNAL -/

section signal

variable {s : State} {r : Ref} {c : Cmd}

/-- The spread view lies in the placed view, and keeps the place within a page. -/
theorem spreadAddr_spec {p a pa : Nat} (h : s.spreadAddr p a = some pa) : 0x40000000000 ≤ pa ∧ pa % 8 = a % 8 := by
  unfold State.spreadAddr at h
  dsimp only at h
  split at h
  · cases h
  · rw [Option.some_inj] at h
    omega

/-- An address of memory is spread, or its own place in the placed view. -/
theorem localPlace_hbm {req : Option Nat} {a pa : Nat} (h : s.localPlace req a = .hbm pa) :
    (a < 0x30000000000 ∧ ∃ p, s.spreadAddr p a = some pa) ∨ (pa = a ∧ 0x40000000000 ≤ a ∧ a < 0x70000000000) := by
  unfold State.localPlace at h
  split at h
  · next hlt =>
    cases hs : req.bind (fun p => s.spreadAddr p a) with
    | none => rw [hs] at h; cases h
    | some x =>
      rw [hs] at h
      obtain ⟨p, -, hp⟩ := Option.bind_eq_some_iff.mp hs
      exact .inl ⟨hlt, p, hp.trans (congrArg some (Place.hbm.inj h))⟩
  · split at h
    · next hin => exact .inr ⟨(Place.hbm.inj h).symm, hin⟩
    · split at h
      · dsimp only at h
        split at h <;> cases h
      · split at h
        · dsimp only at h
          split at h <;> cases h
        · dsimp only at h
          split_ifs at h

/-- An address that is its own place in memory lies in the placed view. -/
theorem placed_of_localPlace {req : Option Nat} {pa : Nat} (h : s.localPlace req pa = .hbm pa) : 0x40000000000 ≤ pa ∧ pa < 0x70000000000 := by
  rcases localPlace_hbm h with ⟨hlt, p, hp⟩ | ⟨-, hin⟩
  · have := (spreadAddr_spec hp).1
    omega
  · exact hin

/-- An address of memory is aligned as the address that leads to it. -/
theorem aligned_of_localPlace {req : Option Nat} {a pa : Nat} (h : s.localPlace req a = .hbm pa) (h8 : a % 8 = 0) : pa % 8 = 0 := by
  rcases localPlace_hbm h with ⟨-, p, hp⟩ | ⟨rfl, -⟩
  · rw [(spreadAddr_spec hp).2, h8]
  · exact h8

theorem stackOf_placed {pa : Nat} (hlo : 0x40000000000 ≤ pa) (hhi : pa < 0x70000000000) : stackOf pa < 48 := by
  unfold stackOf sliceOf
  omega

theorem place_aligned {req : Option Nat} {h pa : Nat} (hp : s.place req h = .hbm pa) (h8 : h % 8 = 0) : pa % 8 = 0 := by
  have hloc : s.localPlace req (h % 2 ^ 44) = .hbm pa := by
    unfold State.place at hp
    dsimp only at hp
    split_ifs at hp <;> exact hp
  exact aligned_of_localPlace hloc (by omega)

theorem place_host {req : Option Nat} {h : Nat} (hs : field h 60 4 = 1) (hz : h / 2 ^ 57 % 8 = 0) : s.place req h = .host (h % 2 ^ 57) := by
  have hf : field h 57 3 = 0 := hz
  unfold State.place
  dsimp only
  rw [if_neg (by simp [hf]), if_pos hs]

theorem place_host_bad {req : Option Nat} {h : Nat} (hz : h / 2 ^ 57 % 8 ≠ 0) : s.place req h = .bad := by
  have hf : field h 57 3 ≠ 0 := hz
  unfold State.place
  dsimp only
  rw [if_pos hf]

variable (h : Starts s 0x0B r c)
include h

theorem signal_invalid (hbad : c.u64 8 % 8 ≠ 0 ∨ (c.desc.drop 0x18).all (· == 0) = false ∨ 3 ≤ c.u64 8 / 2 ^ 60) :
    Ends (.signal r) s r c 1 0 [] (fun u => u = s) := by
  refine ends_of_start rfl h ?_ rfl
  dsimp only
  rw [if_pos]
  rw [space_u64, mult]
  exact hbad.imp_left beq_false_of_ne

variable (h8 : c.u64 8 % 8 = 0) (hz : (c.desc.drop 0x18).all (· == 0) = true) (hsp : c.u64 8 / 2 ^ 60 < 3)
include h8 hz hsp

omit h in
/-- The operands of SIGNAL are good. -/
theorem signal_good : ¬ (mult (c.u64 8) 8 = false ∨ c.zeroFrom 0x18 = false ∨ 3 ≤ field (c.u64 8) 60 4) := by
  rw [space_u64, mult, h8, Cmd.zeroFrom, hz]
  simp only [beq_self_eq_true, Bool.true_eq_false, false_or]
  omega

theorem signal_host (hs : c.u64 8 / 2 ^ 60 = 1) (h3 : c.u64 8 / 2 ^ 57 % 8 = 0) : Ends (.signal r) s r c 0 0 []
    (fun u => u = { s with hostMem := wrN s.hostMem (c.u64 8 % 2 ^ 57) (leBytes 8 (c.u64 0x10)) }) := by
  refine ends_of_start rfl h ?_ rfl
  dsimp only
  rw [if_neg (signal_good h8 hz hsp), place_host ((space_u64 ..).trans hs) h3]

theorem signal_bad (hp : s.place (some c.part) (c.u64 8) = .bad) :
    Ends (.signal r) s r c 4 (if c.u64 8 / 2 ^ 60 = 1 then 0 else 1) [] (fun u => u = s) := by
  refine ends_of_start rfl h ?_ rfl
  dsimp only
  rw [if_neg (signal_good h8 hz hsp), hp, space_u64]

theorem signal_unroutable {q x : Nat} (hp : s.place (some c.part) (c.u64 8) = .remote q x) (hr : s.routable q = false) :
    Ends (.signal r) s r c 9 0 [] (fun u => u = s) := by
  refine ends_of_start rfl h ?_ rfl
  dsimp only
  rw [if_neg (signal_good h8 hz hsp), hp]
  dsimp only
  rw [if_pos (.inl hr)]

theorem signal_remote {q x : Nat} (hp : s.place (some c.part) (c.u64 8) = .remote q x) (hr : s.routable q = true) :
    Goes (.signal r) s r c (fun u => u.mem = s.mem ∧ u.hostMem = s.hostMem ∧ u.cores = s.cores) := by
  have hreach : s.homes.unreach.contains q = false := by
    unfold State.routable at hr
    simp only [Bool.and_eq_true, Bool.not_eq_true'] at hr
    exact hr.2
  have hsent (v : State) (p : Packet) : (v.inject (.io s.hostIo) p).cores = v.cores :=
    (carries_inject v (.io s.hostIo) p).field State.cores fun _ _ _ _ => rfl
  refine goes_of_start (u := ?u) rfl h ?run ?kept
  case run =>
    dsimp only
    rw [if_neg (signal_good h8 hz hsp), hp]
    dsimp only
    rw [if_neg (by rw [hr, hreach]; simp)]
  case kept => exact ⟨(carries_inject ..).mem, (carries_inject ..).hostMem, hsent ..⟩

theorem signal_hbm {pa : Nat} (hp : s.place (some c.part) (c.u64 8) = .hbm pa) (ho : Open s c.part pa)
    (hl : s.localPlace (some c.part) pa = .hbm pa) :
    Ends (.signal r) s r c 0 0 [] (fun u => u.mem = wrN s.mem pa (leBytes 8 (c.u64 0x10)) ∧ u.hostMem = s.hostMem) := by
  obtain ⟨hlo, hhi⟩ := placed_of_localPlace hl
  have hpa8 := place_aligned hp h8
  have hst := stackOf_placed hlo hhi
  have hmax (a : Nat) : 0x40000000000 + (a - 0x40000000000) = max 0x40000000000 a := by omega
  have hlen : (leBytes 8 (c.u64 0x10)).length = 8 := CSlot.leBytes_length ..
  obtain ⟨t, hacc, -, hmem, hhost⟩ := hostAccess_write ho hl hst (bs := leBytes 8 (c.u64 0x10)) (List.ne_nil_of_length_pos (by omega)) (by omega)
  refine ends_of_start rfl h ?_ ⟨hmem, hhost⟩
  dsimp only
  -- As a maximum the address does not make the kernel count to the base of the placed view.
  simp only [hmax]
  rw [if_neg (signal_good h8 hz hsp), hp]
  dsimp only
  rw [max_eq_right hlo, hacc]

end signal

/-! ### NOP and QUERY -/

section query

variable {s : State} {r : Ref} {c : Cmd}

theorem nop_ends (h : Starts s 0 r c) {st : Nat} (hst : (if c.zeroFrom 8 = true then (.fin 0 0 [] : Res) else .fin 1 0 []) = .fin st 0 []) :
    Ends (.commandNop r) s r c st 0 [] (fun u => u = s) := by
  refine ends_of_start rfl h ?_ rfl
  rw [hst]

variable (h : Starts s 0xA r c)
include h

theorem queryPartition_ends {st : Nat} {su : List Byte} (hm : leAt c.desc 8 1 ≠ 1)
    (hf : (if 2 ≤ leAt c.desc 8 1 ∨ c.zeroFrom 9 = false then (.fin 1 0 [] : Res)
      else .fin 0 0 (leBytes 4 (s.pstatus c.part) ++ leBytes 6 (s.part c.part).move.toNat ++ leBytes 4 (s.reg (Reg.pctx c.part)).toNat)) = .fin st 0 su) :
    Ends (.queryPartition r) s r c st 0 su (fun u => u = s) := by
  have run : exec (.queryPartition r) s = execQueryPartition r s := rfl
  have hs (f) : s.startSub 0xA r (fun c => leAt c.desc 8 1 != 1) f = s.start 0xA r f := by
    unfold State.startSub
    rw [h.1]
    exact if_pos (by simpa using hm)
  refine ends_of_start (run.trans (congrArg _ (hs _))) h ?_ rfl
  dsimp only
  rw [← hf]
  split <;> rfl

theorem queryPanel_ends {st : Nat} {su : List Byte} (hm : leAt c.desc 8 1 = 1)
    (hf : (if c.zeroFrom 9 = false then (.fin 1 0 [] : Res)
      else .fin 0 0 (leBytes 4 s.hifStatus ++ leBytes 2 (maskOf ((List.range 16).map (fun r => s.dieHole r != 15))))) = .fin st 0 su) :
    Ends (.queryPanel r) s r c st 0 su (fun u => u = s) := by
  have run : exec (.queryPanel r) s = execQueryPanel r s := rfl
  have hs (f) : s.startSub 0xA r (fun c => leAt c.desc 8 1 == 1) f = s.start 0xA r f := by
    unfold State.startSub
    rw [h.1]
    exact if_pos (by simpa using hm)
  refine ends_of_start (run.trans (congrArg _ (hs _))) h ?_ rfl
  dsimp only
  rw [← hf]
  split <;> rfl

omit h in
/-- The ranks that QUERY of the panel reports: those with a die in every place. -/
theorem ranks_testBit (s : State) : ∀ i < 16, (maskOf ((List.range 16).map (fun r => s.dieHole r != 15))).testBit i = true ↔ s.dieHole i ≠ 15 := by
  intro i hi
  have hget : (List.range 16)[i]? = some i := List.getElem?_range hi
  rw [VBits.testBit_maskOf, List.getD_eq_getElem?_getD, List.getElem?_map, hget]
  simp

end query

end Sys2Proof.HostMoves
end

section
/-! The statement about the host's transfers (R168, R320, Table 12-8). -/
namespace Sys2Proof.HostMoves

open Sys2Proof.Machine Sys2Proof.Claims Sys2Proof.Units Sys2Proof.LaunchTree

section moves

variable {s : State} {r : Ref} {c : Cmd} (h : GoodMove c) (hb : c.u64 8 + c.u32 0x18 ≤ 2 ^ 57)
  (hr : s.rangeBad c.part (c.u64 0x10) (c.u32 0x18) true = none) (hlo : 0x40000000000 ≤ c.u64 0x10)
  (hhi : c.u64 0x10 + c.u32 0x18 ≤ 0x70000000000)
  (hserved : ∀ i < c.u32 0x18, s.stackLost (stackOf (c.u64 0x10 + i)) = false ∧ stackOf (c.u64 0x10 + i) ∉ s.rails.stacksOff ∧
    s.writeHeld (c.u64 0x10 + i) = false)
  (hseen : ∀ x ∈ unitsOf (c.u64 0x10) (c.u32 0x18), s.hbm.missAt x = false)
include h hb hr hlo hhi hserved hseen

theorem copyIn_whole (hs : Starts s 1 r c) (ha : s.admitted c.part 1 c.target = true) :
    Ends (.copyIn r .ok) s r c 0 0 (leBytes 8 (c.u32 0x18)) (fun u =>
      (∀ i < c.u32 0x18, rd u.mem (c.u64 0x10 + i) = rd s.hostMem (c.u64 8 + i)) ∧
      (∀ x, x < c.u64 0x10 ∨ c.u64 0x10 + c.u32 0x18 ≤ x → rd u.mem x = rd s.mem x) ∧ u.hostMem = s.hostMem ∧ u.cores = s.cores) := by
  obtain ⟨-, -, -, hn8, -, -⟩ := id h
  have hclear : Clear s c.part (c.u64 0x10) (c.u32 0x18) (1 == 1) := clear_of_served hn8 hlo hhi hr hserved hseen (fun e => by cases e)
  have hst := stands_transfer hclear h hlo hhi none
  obtain ⟨hall, hle⟩ := hst.counted
  have hge := hst.counts (k := c.u32 0x18 / 8) fun w hw => by rwa [moved_whole, List.mem_range]
  have hn : 8 * (c.u32 0x18 / 8) = c.u32 0x18 := by omega
  have hdone : 8 * (transfer 1 c s none).done = c.u32 0x18 := by omega
  have hrun := copyRun_whole h ha hb hr hst.good
  rw [hdone] at hrun
  refine ends_of_start rfl hs hrun ⟨fun i hi => ?_, fun x hx => ?_, hst.keeps, hst.serves.cores⟩
  · exact hst.copied.bytes (n := c.u32 0x18 / 8) (fun w hw => by rwa [moved_whole, List.mem_range]) (by omega)
  · exact hst.copied.outside moved_lt (hn.symm ▸ hx)

theorem copyIn_stopped {k : Nat} (hk : k < c.u32 0x18) (hs : Starts s 1 r c) (ha : s.admitted c.part 1 c.target = true) :
    ∃ m, k / 8 ≤ m ∧ 8 * m ≤ c.u32 0x18 ∧ Ends (.copyIn r (.addrAt k)) s r c 4 0 (leBytes 8 (8 * m)) (fun u =>
      (∀ i < 8 * m, rd u.mem (c.u64 0x10 + i) = rd s.hostMem (c.u64 8 + i)) ∧
      (∀ x, x < c.u64 0x10 ∨ c.u64 0x10 + c.u32 0x18 ≤ x → rd u.mem x = rd s.mem x) ∧ u.hostMem = s.hostMem) := by
  obtain ⟨-, -, -, hn8, -, -⟩ := id h
  have hclear : Clear s c.part (c.u64 0x10) (c.u32 0x18) (1 == 1) := clear_of_served hn8 hlo hhi hr hserved hseen (fun e => by cases e)
  have hst := stands_transfer hclear h hlo hhi (some (k / 8))
  obtain ⟨hall, hle⟩ := hst.counted
  have hge := hst.counts (k := k / 8) fun w hw => mem_moved hw (by omega)
  have hn : 8 * (c.u32 0x18 / 8) = c.u32 0x18 := by omega
  refine ⟨(transfer 1 c s (some (k / 8))).done, hge, by omega, ends_of_start rfl hs (copyRun_stopped h ha hb hr hk hst.good)
    ⟨fun i hi => hst.copied.bytes hall hi, fun x hx => hst.copied.outside moved_lt (hn.symm ▸ hx), hst.keeps⟩⟩

theorem copyOut_whole (hs : Starts s 2 r c) (ha : s.admitted c.part 2 c.target = true)
    (hwhole : ∀ x ∈ unitsOf (c.u64 0x10) (c.u32 0x18), s.hbm.ueAt x = false ∧ x ∉ s.hbm.poison) :
    Ends (.copyOut r .ok) s r c 0 0 (leBytes 8 (c.u32 0x18)) (fun u =>
      (∀ i < c.u32 0x18, rd u.hostMem (c.u64 8 + i) = rd s.mem (c.u64 0x10 + i)) ∧
      (∀ x, x < c.u64 8 ∨ c.u64 8 + c.u32 0x18 ≤ x → rd u.hostMem x = rd s.hostMem x) ∧ u.mem = s.mem ∧ u.cores = s.cores) := by
  obtain ⟨-, -, -, hn8, -, -⟩ := id h
  have hclear : Clear s c.part (c.u64 0x10) (c.u32 0x18) (2 == 1) := clear_of_served hn8 hlo hhi hr hserved hseen (fun _ => hwhole)
  have hst := stands_transfer hclear h hlo hhi none
  obtain ⟨hall, hle⟩ := hst.counted
  have hge := hst.counts (k := c.u32 0x18 / 8) fun w hw => by rwa [moved_whole, List.mem_range]
  have hn : 8 * (c.u32 0x18 / 8) = c.u32 0x18 := by omega
  have hdone : 8 * (transfer 2 c s none).done = c.u32 0x18 := by omega
  have hrange := rangeBad_none hlo hhi (granted_of_rangeBad hn8 hlo hhi hr)
  have hrun := copyRun_whole h ha hb hrange hst.good
  rw [hdone] at hrun
  refine ends_of_start rfl hs hrun ⟨fun i hi => ?_, fun x hx => ?_, hst.keeps, hst.serves.cores⟩
  · exact hst.copied.bytes (n := c.u32 0x18 / 8) (fun w hw => by rwa [moved_whole, List.mem_range]) (by omega)
  · exact hst.copied.outside moved_lt (hn.symm ▸ hx)

end moves

/-- Bad operands, a partition that refuses the transfer, and host memory or a range that it may not touch. -/
theorem copies_refused (s : State) (r : Ref) (c : Cmd) :
    ∀ e ∈ [((1 : Nat), HostAns.ok, Instr.copyIn r .ok), (2, .ok, .copyOut r .ok)], Starts s e.1 r c →
      (¬ GoodMove c → Ends e.2.2 s r c 1 0 [] (fun u => u = s)) ∧
      (GoodMove c → s.admitted c.part e.1 c.target = false → Ends e.2.2 s r c 2 (s.stateDetail c.part) [] (fun u => u = s)) ∧
      (GoodMove c → s.admitted c.part e.1 c.target = true →
        (2 ^ 57 < c.u64 8 + c.u32 0x18 → Ends e.2.2 s r c 4 0 [] (fun u => u = s)) ∧
        (∀ st d, c.u64 8 + c.u32 0x18 ≤ 2 ^ 57 → s.rangeBad c.part (c.u64 0x10) (c.u32 0x18) (e.1 == 1) = some (st, d) →
          Ends e.2.2 s r c st d [] (fun u => u = s))) := by
  have refused {op : Nat} {i : Instr} (hrun : exec i s = .next (s.start op r (fun c s => copyRun op .ok c s))) (h : Starts s op r c) :
      (¬ GoodMove c → Ends i s r c 1 0 [] (fun u => u = s)) ∧
      (GoodMove c → s.admitted c.part op c.target = false → Ends i s r c 2 (s.stateDetail c.part) [] (fun u => u = s)) ∧
      (GoodMove c → s.admitted c.part op c.target = true →
        (2 ^ 57 < c.u64 8 + c.u32 0x18 → Ends i s r c 4 0 [] (fun u => u = s)) ∧
        (∀ st d, c.u64 8 + c.u32 0x18 ≤ 2 ^ 57 → s.rangeBad c.part (c.u64 0x10) (c.u32 0x18) (op == 1) = some (st, d) →
          Ends i s r c st d [] (fun u => u = s))) :=
    ⟨fun hb => ends_of_start hrun h (copyRun_bad hb) rfl, fun hg ha => ends_of_start hrun h (copyRun_refused hg ha) rfl,
      fun hg ha => ⟨fun hb => ends_of_start hrun h (copyRun_beyond hg ha hb) rfl,
        fun st d hb hr => ends_of_start hrun h (copyRun_range hg ha hb hr) rfl⟩⟩
  intro e he
  rw [List.mem_cons, List.mem_singleton] at he
  rcases he with rfl | rfl
  · exact refused rfl
  · exact refused rfl

/-- Settles O42: transfers, signals, NOP and QUERY, each by the lemma about it. -/
theorem hostCommandsMoveBytes : Obligations.HostCommandsMoveBytes := by
  unfold Obligations.HostCommandsMoveBytes
  intro s r c p h a n same operands
  refine ⟨copies_refused s r c, fun hg hb hr hlo hhi hserved hseen => ⟨?_, ?_, ?_⟩, fun hs => ⟨?_, fun h8 hz => ⟨?_, ?_, ?_, ?_, ?_⟩⟩, fun hs => ⟨?_, ?_⟩,
    fun hs => ⟨?_, ?_, ?_, ?_⟩⟩
  · exact copyIn_whole hg hb hr hlo hhi hserved hseen
  · exact fun k hk => copyIn_stopped hg hb hr hlo hhi hserved hseen hk
  · exact copyOut_whole hg hb hr hlo hhi hserved hseen
  · exact signal_invalid hs
  · exact fun h1 h3 => signal_host hs h8 hz (by omega) h1 h3
  · intro h1 h3
    have hbad := signal_bad hs h8 hz (by omega) (place_host_bad h3)
    rwa [if_pos h1] at hbad
  · intro pa hsp hp hg hl ho hf hm hloc
    exact signal_hbm hs h8 hz hsp hp ⟨hg, hl, ho, hf, hm⟩ hloc
  · exact fun q x hsp hp => ⟨signal_unroutable hs h8 hz hsp hp, signal_remote hs h8 hz hsp hp⟩
  · intro h1 hsp hp
    have hbad := signal_bad hs h8 hz hsp hp
    rwa [if_neg h1] at hbad
  · exact fun hz => nop_ends hs (if_pos hz)
  · exact fun hz => nop_ends hs (if_neg (by rw [Cmd.zeroFrom, hz]; decide))
  · exact fun h0 hz => queryPartition_ends hs (by omega) (if_neg (by rw [Cmd.zeroFrom, hz, h0]; decide))
  · exact fun h2 => queryPartition_ends hs (by omega) (if_pos (.inl h2))
  · exact fun h1 hz => ⟨_, ranks_testBit s, queryPanel_ends hs h1 (if_neg (by rw [Cmd.zeroFrom, hz]; decide))⟩
  · exact fun h1 hz => queryPanel_ends hs h1 (if_pos hz)

end Sys2Proof.HostMoves
end

section
/-! The grants of a partition's record (R253, R256): the words that are written, and the slices that are zeroed. -/
namespace Sys2Proof.Records

open Sys2Proof.Machine Sys2Proof.Claims Sys2Proof.Units Sys2Proof.TempoPorts Sys2Proof.ReleaseTree

/-! ### Entries taken out of a map -/

theorem sget_filter {α : Type} (d : α) (q : Nat → Bool) (m : SMap α) (k : Nat) :
    sget d (m.filter (fun e => q e.1)) k = if q k = true then sget d m k else d := by
  induction m with
  | nil => simp [sget]
  | cons e m ih =>
    rw [List.filter_cons]
    by_cases hk : e.1 = k
    · by_cases hq : q k = true
      · simp [sget, hk, hq]
      · simpa [hk, hq] using ih
    · by_cases hq : q e.1 = true
      · simpa [sget, hk, hq] using ih
      · simpa [sget, hk, hq] using ih

/-! ### Registers written one after the other -/

theorem reg_foldl_setReg {g : Nat → Nat} (f : Nat → W32) (l : List Nat) (s : State) (o : Nat) :
    (∃ r, l.foldl (fun t i => t.setReg (g i) (f i)) s = { s with regs := r }) ∧
    ((∀ i ∈ l, g i ≠ o) → (l.foldl (fun t i => t.setReg (g i) (f i)) s).reg o = s.reg o) ∧
    ∀ v, (∃ i ∈ l, g i = o) → (∀ i ∈ l, g i = o → f i = v) → (l.foldl (fun t i => t.setReg (g i) (f i)) s).reg o = v := by
  induction l generalizing s with
  | nil => exact ⟨⟨_, rfl⟩, fun _ => rfl, fun v ⟨i, hi, _⟩ _ => absurd hi List.not_mem_nil⟩
  | cons a l ih =>
    obtain ⟨⟨r, hr⟩, hne, heq⟩ := ih (s.setReg (g a) (f a))
    rw [List.foldl_cons]
    refine ⟨⟨r, hr⟩, fun h => ?_, fun v h hv => ?_⟩
    · obtain ⟨ha, hl⟩ := List.forall_mem_cons.mp h
      rw [hne hl, State.reg_setReg_ne _ _ (Ne.symm ha)]
    · obtain ⟨hva, hvl⟩ := List.forall_mem_cons.mp hv
      by_cases hl : ∃ i ∈ l, g i = o
      · exact heq v hl hvl
      · have ha : g a = o := by
          obtain ⟨i, hi, hio⟩ := h
          rcases List.mem_cons.mp hi with rfl | hi
          · exact hio
          · exact absurd ⟨i, hi, hio⟩ hl
        rw [hne fun i hi hio => hl ⟨i, hi, hio⟩, ← ha, State.reg_setReg, hva ha]

/-! ### Grant words -/

section grants

variable {s : State} {p : Nat} {tenant : W32} {f : Nat → W32}

/-- Is an address of memory in a slice that grant words give to a partition, and whose last tenant was another (R256)? -/
def wiped (s : State) (p : Nat) (tenant : W32) (f : Nat → W32) (a : Nat) : Bool :=
  decide (0x40000000000 ≤ a ∧ a < 0x70000000000) &&
    (((List.range 3072).filter (fun i => let g := f i; g.getLsbD 31 && grantOwner g == p)).filter
      (fun i => decide ((s.slice i).tenant ≠ some tenant))).contains (sliceOf a)

theorem wiped_iff {a : Nat} : wiped s p tenant f a = true ↔ (0x40000000000 ≤ a ∧ a < 0x70000000000) ∧
    ((f (sliceOf a)).getLsbD 31 = true ∧ grantOwner (f (sliceOf a)) = p ∧ (s.slice (sliceOf a)).tenant ≠ some tenant) := by
  have hlt (h : 0x40000000000 ≤ a ∧ a < 0x70000000000) : sliceOf a < 3072 := by
    unfold sliceOf
    omega
  unfold wiped
  generalize sliceOf a = i at *
  simp only [Bool.and_eq_true, decide_eq_true_eq, List.contains_iff_mem, List.mem_filter, List.mem_range, beq_iff_eq]
  exact ⟨fun ⟨h, ⟨_, h1, h2⟩, h3⟩ => ⟨h, h1, h2, h3⟩, fun ⟨h, h1, h2, h3⟩ => ⟨h, ⟨hlt h, h1, h2⟩, h3⟩⟩

theorem hbm_tenants (l : List Nat) (v : State) (tenant : W32) :
    ∃ h, l.foldl (fun (t : State) i => t.modSlice i (fun e => { e with tenant := some tenant })) v = { v with hbm := h } :=
  foldl_rel (R := fun s t : State => ∃ h, t = { s with hbm := h }) (fun _ => ⟨_, rfl⟩) (fun ⟨_, h⟩ ⟨m', h'⟩ => ⟨m', by rw [h', h]⟩)
    (fun _ _ => ⟨_, rfl⟩) l v

/-- The grant words of a record. -/
theorem setGrants_spec (s : State) {p : Nat} (tenant : W32) (f : Nat → W32) (hp : p < 16) :
    (∃ h r, s.setGrants p tenant f = { s with mem := s.mem.filter (fun b => !wiped s p tenant f b.1), hbm := h, regs := r }) ∧
    (∀ i < 3072, (s.setGrants p tenant f).grantOf i = f i) ∧
    ∀ o, (∀ i < 3072, Reg.grant i ≠ o) → o ≠ Reg.pspread p → (s.setGrants p tenant f).reg o = s.reg o := by
  unfold State.setGrants
  dsimp only
  generalize hm : List.filter _ s.mem = m
  have hm' : m = s.mem.filter (fun b => !wiped s p tenant f b.1) := hm.symm
  rw [← hm']
  clear hm hm'
  generalize hv : State.modHbm _ _ = v
  obtain ⟨h0, hv0⟩ : ∃ h, v = { s with mem := m, hbm := h } := ⟨_, hv.symm⟩
  clear hv
  obtain ⟨h1, hv1⟩ := hbm_tenants ((List.range 3072).filter (fun i => (f i).getLsbD 31 && grantOwner (f i) == p)) v tenant
  rw [hv1]
  have hw (o : Nat) := reg_foldl_setReg (g := Reg.grant) f (List.range 3072) { v with hbm := h1 } o
  obtain ⟨⟨r, hr⟩, -⟩ := hw 0
  have hreg0 (o : Nat) : ({ v with hbm := h1 } : State).reg o = s.reg o := by rw [hv0]; rfl
  generalize List.foldl _ { v with hbm := h1 } (List.range 3072) = w at *
  generalize BitVec.ofNat 32 (w.spreadK p) = k
  refine ⟨⟨h1, (w.setReg (Reg.pspread p) k).regs, ?_⟩, fun i hi => ?_, fun o ho hsp => ?_⟩
  · rw [hr, hv0]
    rfl
  · have hne : Reg.grant i ≠ Reg.pspread p := by simp only [Reg.grant, Reg.pspread]; omega
    rw [State.grantOf, State.reg_setReg_ne _ _ hne]
    refine (hw _).2.2 _ ⟨i, List.mem_range.mpr hi, rfl⟩ fun j _ hj => ?_
    have : j = i := by simp only [Reg.grant] at hj; omega
    rw [this]
  · rw [State.reg_setReg_ne _ _ hsp, (hw o).2.1 fun i hi => ho i (List.mem_range.mp hi), hreg0]

/-- What memory reads once the slices that change their tenant are zeroed. -/
theorem rd_setGrants (hp : p < 16) (x : Nat) : rd (s.setGrants p tenant f).mem x = if wiped s p tenant f x = true then 0 else rd s.mem x := by
  obtain ⟨⟨h, r, ht⟩, -⟩ := setGrants_spec s tenant f hp
  rw [ht]
  unfold rd
  rw [sget_filter 0 (fun a => !wiped s p tenant f a)]
  by_cases hw : wiped s p tenant f x = true <;> simp [hw]

/-- Memory stays where no slice is given. -/
theorem mem_setGrants (hp : p < 16) (h : ∀ i, ¬ ((f i).getLsbD 31 = true ∧ grantOwner (f i) = p)) : (s.setGrants p tenant f).mem = s.mem := by
  obtain ⟨⟨_, r, ht⟩, -⟩ := setGrants_spec s tenant f hp
  rw [ht]
  refine List.filter_eq_self.mpr fun e _ => ?_
  rw [Bool.not_eq_true']
  by_contra hw
  rw [Bool.not_eq_false, wiped_iff] at hw
  obtain ⟨-, h1, h2, -⟩ := hw
  exact h _ ⟨h1, h2⟩

/-- The bit of a partition that reads a slice lies below the owner and the marks of a grant word. -/
theorem getLsbD_unread (hp : p < 16) (g : W32) {i : Nat} (hi : 16 ≤ i) (h32 : i < 32) :
    (g &&& ~~~(BitVec.ofNat 32 (2 ^ p))).getLsbD i = g.getLsbD i := by
  rw [BitVec.getLsbD_and, BitVec.getLsbD_not, BitVec.getLsbD_ofNat, Nat.testBit_two_pow_of_ne (by omega)]
  simp [h32]

theorem grantOwner_unread (hp : p < 16) (g : W32) : grantOwner (g &&& ~~~(BitVec.ofNat 32 (2 ^ p))) = grantOwner g := by
  unfold grantOwner field
  refine Nat.eq_of_testBit_eq fun j => ?_
  rw [Nat.testBit_mod_two_pow, Nat.testBit_mod_two_pow, Nat.testBit_div_two_pow, Nat.testBit_div_two_pow]
  by_cases hj : j < 4
  · rw [BitVec.testBit_toNat, BitVec.testBit_toNat, getLsbD_unread hp g (by omega) (by omega)]
  · simp [hj]

/-- A record that owns no slice leaves none to the partition. -/
theorem newGrant_deleted (hp : p < 16) (g : W32) :
    ¬ ((newGrant p g false false false).getLsbD 31 = true ∧ grantOwner (newGrant p g false false false) = p) := by
  rintro ⟨h31, hown⟩
  unfold newGrant at h31 hown
  dsimp only at h31 hown
  by_cases hm : (g.getLsbD 31 && grantOwner g == p) = true
  · rw [if_neg Bool.false_ne_true, if_pos hm] at h31
    simp at h31
  · rw [if_neg Bool.false_ne_true, if_neg hm, if_neg Bool.false_ne_true] at h31 hown
    rw [getLsbD_unread hp g (by decide) (by decide)] at h31
    rw [grantOwner_unread hp] at hown
    exact hm (by simp [h31, hown])

end grants

end Sys2Proof.Records
end

section
/-! Ranks that a record clears (R166, R167): their powered sites blank, the others noted. -/
namespace Sys2Proof.Records

open Sys2Proof.Machine Sys2Proof.Claims Sys2Proof.LaunchTree Sys2Proof.ReleaseTree

/-! ### Blank sites -/

section blank

variable {s t : State}

theorem poweredSites_of_coresOnly (h : CoresOnly s t) (r : Nat) : t.poweredSites r = s.poweredSites r := by
  obtain ⟨_, _, rfl⟩ := h
  rfl

theorem rd_blankCore (s : State) (k a : Nat) :
    rd (s.blankCore k).mem a = if spadAddr k 0 ≤ a ∧ a < spadAddr k 0 + 2 ^ 21 then 0 else rd s.mem a :=
  rd_zeroN ..

/-- Sites that are blanked read zero; no other byte changes. -/
theorem rd_blanked (ks : List Nat) (s : State) (a : Nat) :
    ((∃ k ∈ ks, spadAddr k 0 ≤ a ∧ a < spadAddr k 0 + 2 ^ 21) ∨ rd s.mem a = 0 → rd (ks.foldl (fun t k => t.blankCore k) s).mem a = 0) ∧
    ((∀ k ∈ ks, ¬ (spadAddr k 0 ≤ a ∧ a < spadAddr k 0 + 2 ^ 21)) → rd (ks.foldl (fun t k => t.blankCore k) s).mem a = rd s.mem a) := by
  induction ks generalizing s with
  | nil => exact ⟨fun h => h.resolve_left fun ⟨k, hk, _⟩ => absurd hk List.not_mem_nil, fun _ => rfl⟩
  | cons k ks ih =>
    obtain ⟨hz, hk⟩ := ih (s.blankCore k)
    rw [List.foldl_cons]
    refine ⟨fun h => hz ?_, fun h => ?_⟩
    · rw [rd_blankCore]
      rcases h with ⟨j, hj, ha⟩ | h
      · rcases List.mem_cons.mp hj with rfl | hj
        · exact .inr (if_pos ha)
        · exact .inl ⟨j, hj, ha⟩
      · right
        split
        · rfl
        · exact h
    · obtain ⟨h1, h2⟩ := List.forall_mem_cons.mp h
      rw [hk h2, rd_blankCore, if_neg h1]

/-- Ranks are blanked site by site. -/
theorem blankRanks_eq (rs : List Nat) (s t : State) (h : CoresOnly s t) :
    rs.foldl (fun t r => (t.poweredSites r).foldl (fun t k => t.blankCore k) t) t = (rs.flatMap s.poweredSites).foldl (fun t k => t.blankCore k) t := by
  induction rs generalizing t with
  | nil => rfl
  | cons r rs ih =>
    rw [List.foldl_cons, List.flatMap_cons, List.foldl_append, poweredSites_of_coresOnly h]
    exact ih _ (h.trans (coresOnly_blanked ..))

end blank

/-! ### Sites that are noted -/

section noted

/-- The sites of a die that a cleared rank notes, to be zeroed before they hold a logical place again. -/
def notedSites (s : State) (r d : Nat) : List Nat := ((coresOfDie d).filter (fun k => !(s.poweredSites r).contains k)).map siteOf

theorem mem_notedSites {s : State} {r d n : Nat} (hn : n < 272) : n ∈ notedSites s r d ↔ d * 272 + n ∉ s.poweredSites r := by
  unfold notedSites coresOfDie
  simp only [List.mem_map, List.mem_filter, List.mem_range, Bool.not_eq_true', ← Bool.not_eq_true, List.contains_iff_mem]
  constructor
  · rintro ⟨k, ⟨⟨i, hi, rfl⟩, hk⟩, hs⟩
    have : i = n := by unfold siteOf at hs; omega
    rwa [← this]
  · intro h
    exact ⟨d * 272 + n, ⟨⟨n, hn, rfl⟩, h⟩, by unfold siteOf; omega⟩

/-- Dies note their sites. -/
def noteDies (s : State) (l : List (Nat × Nat)) (t : State) : State :=
  l.foldl (fun t e => t.modDie (e.1 * 9 + e.2) (fun x => { x with stale := notedSites s e.1 (e.1 * 9 + e.2) })) t

theorem noteDies_spec (s : State) (l : List (Nat × Nat)) (hl : ∀ e ∈ l, e.2 < 9) (t : State) :
    (∃ d, noteDies s l t = { t with dies := d }) ∧
    ∀ e ∈ l, ((noteDies s l t).die (e.1 * 9 + e.2)).stale = notedSites s e.1 (e.1 * 9 + e.2) := by
  induction l using List.reverseRecOn with
  | nil => exact ⟨⟨_, rfl⟩, fun e he => absurd he List.not_mem_nil⟩
  | append_singleton l x ih =>
    obtain ⟨⟨d, hd⟩, hnote⟩ := ih fun e he => hl e (List.mem_append_left _ he)
    unfold noteDies at *
    rw [List.foldl_append, List.foldl_cons, List.foldl_nil]
    refine ⟨⟨_, by rw [hd]; rfl⟩, fun e he => ?_⟩
    by_cases hx : e = x
    · rw [hx, State.die_modDie]
    · have he' : e ∈ l := by simpa [hx] using he
      have hne : e.1 * 9 + e.2 ≠ x.1 * 9 + x.2 := by
        have h1 := hl e he
        have h2 := hl x (List.mem_append_right _ (List.mem_singleton.mpr rfl))
        intro h
        exact hx (Prod.ext (by omega) (by omega))
      rw [State.die_modDie_ne _ _ hne]
      exact hnote e he'

end noted

/-! ### Ranks that are cleared -/

section ranks

/-- The dies of some ranks. -/
def diesOfRanks (rs : List Nat) : List (Nat × Nat) := rs.flatMap (fun r => (List.range 9).map (Prod.mk r))

theorem mem_diesOfRanks {rs : List Nat} {e : Nat × Nat} : e ∈ diesOfRanks rs ↔ e.1 ∈ rs ∧ e.2 < 9 := by
  obtain ⟨r, f⟩ := e
  simp [diesOfRanks]

theorem noteRanks_eq (s : State) (rs : List Nat) (t : State) :
    rs.foldl (fun t r => (List.range 9).foldl (fun t f => t.modDie (r * 9 + f)
      (fun e => { e with stale := ((coresOfDie (r * 9 + f)).filter (fun k => !(s.poweredSites r).contains k)).map siteOf })) t) t =
      noteDies s (diesOfRanks rs) t := by
  unfold noteDies diesOfRanks notedSites
  rw [List.foldl_flatMap]
  simp only [List.foldl_map]

theorem resetRanks_eq (s : State) (rs : List Nat) (tenant : W32) :
    ∃ m, s.resetRanks rs tenant =
      { noteDies s (diesOfRanks rs) ((rs.flatMap s.poweredSites).foldl (fun t k => t.blankCore k) s) with rankTenants := m } := by
  unfold State.resetRanks
  dsimp only
  rw [blankRanks_eq rs s s (.refl s), noteRanks_eq]
  exact ⟨_, rfl⟩

/-- Cleared ranks: their powered sites are blank and read zero, the others are noted; memory stays. -/
theorem resetRanks_spec (s : State) (rs : List Nat) (tenant : W32) :
    (∃ c m d rt, s.resetRanks rs tenant = { s with cores := c, mem := m, dies := d, rankTenants := rt }) ∧
    (∀ a < 0x80000000000, rd (s.resetRanks rs tenant).mem a = rd s.mem a) ∧
    ∀ r ∈ rs, (∀ k ∈ s.poweredSites r, ((s.resetRanks rs tenant).core k).istore = [] ∧
        ∀ o < 2 ^ 21, rd (s.resetRanks rs tenant).mem (spadAddr k o) = 0) ∧
      ∀ f < 9, ∀ n < 272, (n ∈ ((s.resetRanks rs tenant).die (r * 9 + f)).stale ↔ (r * 9 + f) * 272 + n ∉ s.poweredSites r) := by
  obtain ⟨rt, hrt⟩ := resetRanks_eq s rs tenant
  obtain ⟨c, m, hblank⟩ := coresOnly_blanked (rs.flatMap s.poweredSites) s
  have hcore (k : Nat) := core_blanked k (rs.flatMap s.poweredSites) s
  have hmem (a : Nat) := rd_blanked (rs.flatMap s.poweredSites) s a
  generalize (rs.flatMap s.poweredSites).foldl (fun t k => t.blankCore k) s = v at *
  obtain ⟨⟨d, hd⟩, hstale⟩ := noteDies_spec s (diesOfRanks rs) (fun e he => (mem_diesOfRanks.mp he).2) v
  have hmem' : (s.resetRanks rs tenant).mem = v.mem := by rw [hrt, hd]
  have hcore' (k : Nat) : (s.resetRanks rs tenant).core k = v.core k := by rw [hrt, hd]; rfl
  have hdie (x : Nat) : (s.resetRanks rs tenant).die x = (noteDies s (diesOfRanks rs) v).die x := by rw [hrt]; rfl
  refine ⟨⟨c, m, d, rt, by rw [hrt, hd, hblank]⟩, fun a ha => ?_, fun r hr => ⟨fun k hk => ⟨?_, fun o ho => ?_⟩, fun f hf n hn => ?_⟩⟩
  · rw [hmem']
    refine (hmem a).2 fun k _ => ?_
    unfold spadAddr
    omega
  · rw [hcore']
    exact ((hcore k).1 (List.mem_flatMap.mpr ⟨r, hr, hk⟩)).1
  · rw [hmem']
    refine (hmem _).1 (.inl ⟨k, List.mem_flatMap.mpr ⟨r, hr, hk⟩, ?_⟩)
    unfold spadAddr
    omega
  · rw [hdie, hstale (r, f) (mem_diesOfRanks.mpr ⟨hr, hf⟩)]
    exact mem_notedSites hn

end ranks

end Sys2Proof.Records
end

section
/-! What applying a record changes beside its ranks, its grants and its partition: registers that show it, links, the tempo tree. -/
namespace Sys2Proof.Records

open Sys2Proof.Machine Sys2Proof.Claims Sys2Proof.Units Sys2Proof.Carried Sys2Proof.TempoPorts Sys2Proof.LaunchTree Sys2Proof.ReleaseTree

/-! ### What is only shown -/

/-- The registers of a partition's positions and recovery, of the fabric's errors and of the calibration. -/
def ShownReg (p o : Nat) : Prop :=
  o = Reg.plost p ∨ o = Reg.puseful p ∨ o = Reg.pwall p ∨ o = Reg.pstat p ∨ o = Reg.pgen p ∨ o = Reg.mgtPmoveLo p ∨ o = Reg.pkfErr ∨
    o = Reg.calStatus ∨ o = Reg.calCtl

theorem not_shownReg_grant {p i : Nat} (hp : p < 16) (hi : i < 3072) : ¬ ShownReg p (Reg.grant i) := by
  unfold ShownReg
  simp only [Reg.plost, Reg.puseful, Reg.pwall, Reg.pstat, Reg.pgen, Reg.mgtPmoveLo, Reg.mgt, Reg.pkfErr, Reg.calStatus, Reg.calCtl, Reg.grant]
  omega

theorem not_shownReg_pctx {p : Nat} (hp : p < 16) : ¬ ShownReg p (Reg.pctx p) := by
  unfold ShownReg
  simp only [Reg.plost, Reg.puseful, Reg.pwall, Reg.pstat, Reg.pgen, Reg.mgtPmoveLo, Reg.mgt, Reg.pkfErr, Reg.calStatus, Reg.calCtl, Reg.pctx]
  omega

/-- Two states with the same partitions, rings, memory, dies and cores, and the same registers but those that show a partition. -/
structure Shows (p : Nat) (s t : State) : Prop where
  part : ∀ j, t.part j = s.part j
  rings : t.rings = s.rings
  mem : t.mem = s.mem
  hostMem : t.hostMem = s.hostMem
  dies : t.dies = s.dies
  cores : t.cores = s.cores
  regs : ∀ o, ¬ ShownReg p o → t.reg o = s.reg o

namespace Shows
variable {p : Nat} {s t u : State}

theorem refl (p : Nat) (s : State) : Shows p s s := ⟨fun _ => rfl, rfl, rfl, rfl, rfl, rfl, fun _ _ => rfl⟩
theorem trans (h : Shows p s t) (g : Shows p t u) : Shows p s u :=
  ⟨fun j => (g.part j).trans (h.part j), g.rings.trans h.rings, g.mem.trans h.mem, g.hostMem.trans h.hostMem, g.dies.trans h.dies,
    g.cores.trans h.cores, fun o ho => (g.regs o ho).trans (h.regs o ho)⟩

theorem of_setsRegs (h : SetsRegs (ShownReg p) s t) : Shows p s t := by
  obtain ⟨⟨r, rfl⟩, hr⟩ := h
  exact ⟨fun _ => rfl, rfl, rfl, rfl, rfl, rfl, hr⟩

theorem of_carries (h : Carries s t) : Shows p s t := by
  obtain ⟨⟨l, n, m, r, rfl⟩, hr⟩ := h
  exact ⟨fun _ => rfl, rfl, rfl, rfl, rfl, rfl, fun o ho => hr o fun e => ho (.inr (.inr (.inr (.inr (.inr (.inr (.inl e)))))))⟩

theorem of_calibrates (h : Calibrates s t) (hr : ∀ o, ¬ ShownReg p o → t.reg o = s.reg o) : Shows p s t := by
  obtain ⟨⟨x, r, l, c, rfl⟩, -⟩ := h
  exact ⟨fun _ => rfl, rfl, rfl, rfl, rfl, rfl, hr⟩
end Shows

section rules

variable (s : State) (p : Nat)

theorem shows_clearTempo : Shows p s (s.clearTempo p) := ⟨fun _ => rfl, rfl, rfl, rfl, rfl, rfl, fun _ _ => rfl⟩

theorem shows_clearRecovery : Shows p s (s.clearRecovery p) := by
  have hstat : ShownReg p (Reg.pstat p) := .inr (.inr (.inr (.inl rfl)))
  unfold State.clearRecovery
  exact .of_setsRegs (((((setsRegs_setReg (.inl rfl) s _).trans (setsRegs_setReg (.inr (.inl rfl)) _ _)).trans
    (setsRegs_setReg (.inr (.inr (.inl rfl))) _ _)).trans (setsRegs_setRegF hstat _ ..)).trans (setsRegs_setRegF hstat _ ..))

theorem shows_dropAll : Shows p s (s.dropAll p) := by
  unfold State.dropAll
  split
  · exact .of_carries (carries_inject ..)
  · exact .refl p s

theorem shows_positionsShown : Shows p s (s.positionsShown p) := by
  have hstat : ShownReg p (Reg.pstat p) := .inr (.inr (.inr (.inl rfl)))
  have hgen : ShownReg p (Reg.pgen p) := .inr (.inr (.inr (.inr (.inl rfl))))
  have hmove : ShownReg p (Reg.mgtPmoveLo p) := .inr (.inr (.inr (.inr (.inr (.inl rfl)))))
  have hset (a b : W32) := (setsRegs_setReg hgen s a).trans (setsRegs_setReg hmove _ b)
  unfold State.positionsShown
  split
  · exact .of_setsRegs ((hset _ _).trans (setsRegs_setReg hstat _ _))
  · exact .of_setsRegs (((hset _ _).trans (setsRegs_setRegF hstat _ ..)).trans (setsRegs_pstatCopies hstat _))

theorem regs_foldl {α : Type} {f : State → α → State} (h : ∀ t a, (f t a).regs = t.regs) (l : List α) (t : State) : (l.foldl f t).regs = t.regs :=
  foldl_rel (R := fun a b : State => b.regs = a.regs) (fun _ => rfl) (fun h h' => h'.trans h) h l t

theorem reg_of_regs {s t : State} (h : t.regs = s.regs) (o : Nat) : t.reg o = s.reg o := by
  unfold State.reg
  rw [h]

theorem regs_renewPaths (dies : List Nat) : (s.renewPaths dies).regs = s.regs := by
  have hnode (t : State) (a b : Nat) : (t.renewNode a b).regs = t.regs := by
    unfold State.renewNode
    exact regs_foldl (fun _ _ => State.modNode_regs ..) _ t
  refine regs_foldl (fun t x => ?_) _ s
  exact (regs_foldl (fun u k => hnode u _ _) _ _).trans ((hnode ..).trans (hnode ..))

/-- A calibration is shown in its own registers alone. -/
theorem reg_calibrate (dies : List Nat) {o : Nat} (h1 : o ≠ Reg.calStatus) (h2 : o ≠ Reg.calCtl) : (s.calibrate dies).reg o = s.reg o := by
  have hdone (v : State) : v.recalDone.reg o = v.reg o := by
    rcases recalDone_cases v with ⟨-, -, h⟩ | ⟨-, h⟩
    · rw [h, reg_setRegF_ne h2]
    · rw [h]
  unfold State.calibrate
  dsimp only
  rw [hdone, reg_setRegF_ne h1, State.calDmax, reg_setRegF_ne h1]
  refine reg_of_regs ((State.freshen_regs _).trans ((regs_renewPaths ..).trans (regs_foldl (fun t x => ?_) _ s))) o
  refine (regs_foldl (fun _ _ => State.modNode_regs ..) _ _).trans ?_
  rw [State.modNode_regs, State.modNode_regs]

theorem shows_calibrate (dies : List Nat) : Shows p s (s.calibrate dies) :=
  .of_calibrates (calibrates_calibrate s dies) fun o ho => by
    unfold ShownReg at ho
    exact reg_calibrate s dies (by tauto) (by tauto)

theorem shows_calibrateLinks : Shows p s (s.calibrateLinks p) :=
  .of_calibrates (calibrates_calibrateLinks s p) fun o _ => reg_of_regs (regs_calibrateLinks s p) o

theorem shows_mgmt (m : Mgmt) : Shows p s { s with mgmt := m } := ⟨fun _ => rfl, rfl, rfl, rfl, rfl, rfl, fun _ _ => rfl⟩

theorem shows_ite {p : Nat} {s t u : State} (c : Prop) [Decidable c] (h : Shows p s t) (g : Shows p s u) : Shows p s (if c then t else u) := by
  split
  · exact h
  · exact g

end rules

/-! ### Move counts of cores restart -/

theorem movesRestart_spec (l : List Nat) (s : State) :
    (∃ c, l.foldl (fun t k => t.modCore k (fun c => { c with move := 0 })) s = { s with cores := c }) ∧
    ∀ k, ((l.foldl (fun t k => t.modCore k (fun c => { c with move := 0 })) s).core k).istore = (s.core k).istore := by
  have hstep (t : State) (k j : Nat) : ((t.modCore k (fun c => { c with move := 0 })).core j).istore = (t.core j).istore := by
    by_cases hj : j = k
    · rw [hj, State.core_modCore]
    · rw [State.core_modCore_ne _ _ hj]
  refine foldl_rel (R := fun s t : State => (∃ c, t = { s with cores := c }) ∧ ∀ k, (t.core k).istore = (s.core k).istore)
    (fun s => ⟨⟨_, rfl⟩, fun _ => rfl⟩) ?_ (fun t k => ⟨⟨_, rfl⟩, hstep t k⟩) l s
  · rintro a b c ⟨⟨_, hb⟩, h⟩ ⟨⟨m, hc⟩, g⟩
    exact ⟨⟨m, by rw [hc, hb]⟩, fun k => (g k).trans (h k)⟩

end Sys2Proof.Records
end

section
/-! PARTITION_SET (R328, Table 12-11): the record applied, the partition deleted, and the statement about both. -/
namespace Sys2Proof.Records

open Sys2Proof.Machine Sys2Proof.Claims Sys2Proof.Units Sys2Proof.Carried Sys2Proof.LaunchTree Sys2Proof.HostMoves

/-! ### A record that is applied (R328) -/

section apply

variable (s : State) (p : Nat) (b : List Byte)

/-- The grant word of a slice after a record. -/
def givenWord (i : Nat) : W32 := newGrant p (s.grantOf i) (recBit b 0x60 i) (recBit b 0x1E0 i) (recBit b 0x360 i)

def recTenant : W32 := BitVec.ofNat 32 (leAt b 4 4)

/-- Does a record with these ranks, this tenant and no reset leave the partition's program? -/
def keepsProgram (q : Part) : Bool :=
  q.first == leAt b 0 1 && q.height == leAt b 1 1 && q.tenant == recTenant b && !bit (leAt b 2 1) 0

def recordKept (q : Part) : List Position := keptPositions q (leAt b 0 1) (leAt b 1 1) (leAt b 0xC 2) (leAt b 0xE 2) (recTenant b)

/-- A partition as a record makes it from the partition q, with the positions that it keeps. -/
def recordPart (same : Bool) (kept : List Position) (q : Part) : Part :=
  { Part.reset with
    first := leAt b 0 1, height := leAt b 1 1, tenant := recTenant b, tree := leAt b 0xC 2, member := leAt b 0xE 2
    parent := if leAt b 0x10 2 = 0xFFFF then none else some (leAt b 0x10 2)
    upPorts := (leAt b 0x12 1, leAt b 0x13 1)
    children := (List.range (leAt b 3 1)).map (fun i => let w := leAt b (0x4E0 + 4 * i) 4; (field w 16 12, field w 5 5, field w 0 5))
    repeats := (List.range 16).filterMap (fun i => let w := leAt b (0x20 + 4 * i) 4; if bit w 31 then some (BitVec.ofNat 32 w) else none)
    prog := if same then q.prog else none, positions := kept
    nextGen := if kept.isEmpty then 0 else q.nextGen
    launch := q.launch }

/-- The ranks that a record clears: those of another tenant, or all of them with RESET. -/
def clearedRanks : List Nat :=
  ((List.range (leAt b 1 1)).map (fun i => leAt b 0 1 - 1 + i)).filter (fun n => bit (leAt b 2 1) 0 || sget 0 s.rankTenants n != recTenant b)

def recWindow : W32 := BitVec.ofNat 32 (leAt b 8 2 + leAt b 0xA 2 * 2 ^ 16)

/-- Ranks and grants of a record. -/
def recordGranted : State := (s.resetRanks (clearedRanks s b) (recTenant b)).setGrants p (recTenant b) (givenWord s p b)

/-- The partition of a record, with its move counts at zero. -/
def recordPlaced (v : State) : State :=
  let w := ((v.setReg (Reg.pctx p) (recWindow b)).clearTempo p).modPart p (recordPart b (keepsProgram b (s.part p)) (recordKept b (s.part p)))
  (w.part p).sites.foldl (fun t k => t.modCore k (fun c => { c with move := 0 })) w

/-- What follows a partition's new record: registers, the buddy's positions, firmware that waited, and calibration. -/
def recordShown (v : State) : State :=
  let s6 := (v.clearRecovery p).positionsShown p
  let s7 := if (recordKept b (s.part p)).length = (s.part p).positions.length then s6 else s6.dropAll p
  let s8 := if bit (leAt b 2 1) 0 then
      { s7 with mgmt := { s7.mgmt with image := s7.mgmt.image.filter (fun e => !(e.1 / 65536 == 3 && (s7.part p).dies.contains (e.1 % 65536))) } }
    else s7
  (s8.calibrate (s8.part p).dies).calibrateLinks p

theorem applyRecord_eq : s.applyRecord p b = recordShown s p b (recordPlaced s p b (recordGranted s p b)) := by
  unfold State.applyRecord recordShown recordPlaced recordGranted clearedRanks recordPart keepsProgram recordKept recWindow recTenant givenWord
  rfl

theorem shows_recordShown (v : State) : Shows p v (recordShown s p b v) := by
  unfold recordShown
  dsimp only
  have h6 := (shows_clearRecovery v p).trans (shows_positionsShown _ p)
  generalize (v.clearRecovery p).positionsShown p = s6 at *
  have h7 := h6.trans (shows_ite ((recordKept b (s.part p)).length = (s.part p).positions.length) (.refl p s6) (shows_dropAll s6 p))
  generalize (if (recordKept b (s.part p)).length = (s.part p).positions.length then s6 else s6.dropAll p) = s7 at *
  have h8 := h7.trans (shows_ite (bit (leAt b 2 1) 0 = true) (shows_mgmt s7 p { s7.mgmt with
    image := s7.mgmt.image.filter (fun e => !(e.1 / 65536 == 3 && (s7.part p).dies.contains (e.1 % 65536))) }) (.refl p s7))
  exact (h8.trans (shows_calibrate _ p _)).trans (shows_calibrateLinks _ p)

/-- The partition is placed; cores but their move counts, memory and the other partitions stay. -/
theorem recordPlaced_spec (v : State) (hp : p < 16) :
    ((recordPlaced s p b v).part p = recordPart b (keepsProgram b (s.part p)) (recordKept b (s.part p)) (v.part p) ∧
      ∀ j, j ≠ p → (recordPlaced s p b v).part j = v.part j) ∧
    ((recordPlaced s p b v).rings = v.rings ∧ (recordPlaced s p b v).mem = v.mem ∧ (recordPlaced s p b v).hostMem = v.hostMem ∧
      (recordPlaced s p b v).dies = v.dies) ∧
    (∀ k, ((recordPlaced s p b v).core k).istore = (v.core k).istore) ∧ (recordPlaced s p b v).reg (Reg.pctx p) = recWindow b ∧
    ∀ o, o ≠ Reg.pctx p → ¬ ShownReg p o → (recordPlaced s p b v).reg o = v.reg o := by
  unfold recordPlaced
  dsimp only
  have hshow := shows_clearTempo (v.setReg (Reg.pctx p) (recWindow b)) p
  have hpctx : (v.setReg (Reg.pctx p) (recWindow b)).reg (Reg.pctx p) = recWindow b := State.reg_setReg ..
  have hother (o : Nat) (ho : o ≠ Reg.pctx p) : (v.setReg (Reg.pctx p) (recWindow b)).reg o = v.reg o := State.reg_setReg_ne _ _ ho
  have hpart (j : Nat) : (v.setReg (Reg.pctx p) (recWindow b)).part j = v.part j := State.setReg_part_at ..
  have hkeep : (v.setReg (Reg.pctx p) (recWindow b)).rings = v.rings ∧ (v.setReg (Reg.pctx p) (recWindow b)).mem = v.mem ∧
    (v.setReg (Reg.pctx p) (recWindow b)).hostMem = v.hostMem ∧ (v.setReg (Reg.pctx p) (recWindow b)).dies = v.dies ∧
    (v.setReg (Reg.pctx p) (recWindow b)).cores = v.cores := ⟨rfl, rfl, rfl, rfl, rfl⟩
  generalize v.setReg (Reg.pctx p) (recWindow b) = v1 at *
  generalize v1.clearTempo p = v2 at *
  generalize recordPart b (keepsProgram b (s.part p)) (recordKept b (s.part p)) = g
  obtain ⟨⟨c, hc⟩, hstore⟩ := movesRestart_spec ((v2.modPart p g).part p).sites (v2.modPart p g)
  obtain ⟨hrings, hmem, hhost, hdies, hcores⟩ := hkeep
  refine ⟨⟨?_, fun j hj => ?_⟩, ⟨?_, ?_, ?_, ?_⟩, fun k => ?_, ?_, fun o ho hs => ?_⟩
  · rw [hc]
    exact (State.part_modPart ..).trans (congrArg g ((hshow.part p).trans (hpart p)))
  · rw [hc]
    exact (State.part_modPart_ne _ _ hj).trans ((hshow.part j).trans (hpart j))
  · rw [hc]
    exact hshow.rings.trans hrings
  · rw [hc]
    exact hshow.mem.trans hmem
  · rw [hc]
    exact hshow.hostMem.trans hhost
  · rw [hc]
    exact hshow.dies.trans hdies
  · rw [hstore]
    exact congrArg (fun m => (sget Core.reset m k).istore) (hshow.cores.trans hcores)
  · rw [hc]
    exact (hshow.regs _ (not_shownReg_pctx hp)).trans hpctx
  · rw [hc]
    exact (hshow.regs o hs).trans (hother o ho)

variable (hp : p < 16)
include hp

/-- What a record's ranks and grants leave. -/
theorem recordGranted_spec :
    ((∀ j, (recordGranted s p b).part j = s.part j) ∧ (recordGranted s p b).rings = s.rings ∧ (recordGranted s p b).hostMem = s.hostMem) ∧
    (∀ i < 3072, (recordGranted s p b).grantOf i = givenWord s p b i) ∧
    (∀ x, 0x40000000000 ≤ x → x < 0x70000000000 → rd (recordGranted s p b).mem x =
      if (givenWord s p b (sliceOf x)).getLsbD 31 = true ∧ grantOwner (givenWord s p b (sliceOf x)) = p ∧
        (s.slice (sliceOf x)).tenant ≠ some (recTenant b) then 0 else rd s.mem x) ∧
    ∀ r ∈ clearedRanks s b, (∀ k ∈ s.poweredSites r, ((recordGranted s p b).core k).istore = [] ∧
        ∀ o < 2 ^ 21, rd (recordGranted s p b).mem (spadAddr k o) = 0) ∧
      ∀ f < 9, ∀ n < 272, (n ∈ ((recordGranted s p b).die (r * 9 + f)).stale ↔ (r * 9 + f) * 272 + n ∉ s.poweredSites r) := by
  obtain ⟨⟨c, m, d, rt, hs1⟩, hlow, hranks⟩ := resetRanks_spec s (clearedRanks s b) (recTenant b)
  unfold recordGranted
  have hslice (i : Nat) : (s.resetRanks (clearedRanks s b) (recTenant b)).slice i = s.slice i := by rw [hs1]; rfl
  have hpart (j : Nat) : (s.resetRanks (clearedRanks s b) (recTenant b)).part j = s.part j := by rw [hs1]; rfl
  have hrings : (s.resetRanks (clearedRanks s b) (recTenant b)).rings = s.rings := by rw [hs1]
  have hhost : (s.resetRanks (clearedRanks s b) (recTenant b)).hostMem = s.hostMem := by rw [hs1]
  generalize s.resetRanks (clearedRanks s b) (recTenant b) = v at *
  obtain ⟨⟨h, r, ht⟩, hgrant, -⟩ := setGrants_spec v (recTenant b) (givenWord s p b) hp
  have hrd := fun x => rd_setGrants (s := v) (tenant := recTenant b) (f := givenWord s p b) hp x
  have hcore (k : Nat) : (v.setGrants p (recTenant b) (givenWord s p b)).core k = v.core k := by rw [ht]; rfl
  have hdie (x : Nat) : (v.setGrants p (recTenant b) (givenWord s p b)).die x = v.die x := by rw [ht]; rfl
  refine ⟨⟨fun j => ?_, ?_, ?_⟩, hgrant, fun x hlo hhi => ?_, fun r hr => ?_⟩
  · rw [← hpart j, ht]
    rfl
  · rw [← hrings, ht]
  · rw [← hhost, ht]
  · rw [hrd, hlow x (by omega)]
    refine if_congr ?_ rfl rfl
    rw [wiped_iff, hslice]
    exact and_iff_right ⟨hlo, hhi⟩
  · obtain ⟨hsites, hstale⟩ := hranks r hr
    refine ⟨fun k hk => ⟨?_, fun o ho => ?_⟩, fun f hf n hn => ?_⟩
    · rw [hcore]
      exact (hsites k hk).1
    · rw [hrd, (hsites k hk).2 o ho, ite_self]
    · rw [hdie]
      exact hstale f hf n hn

/-- A record that is applied. -/
theorem applyRecord_spec :
    ((s.applyRecord p b).part p = recordPart b (keepsProgram b (s.part p)) (recordKept b (s.part p)) (s.part p) ∧
      (∀ j, j ≠ p → (s.applyRecord p b).part j = s.part j) ∧ (s.applyRecord p b).hostMem = s.hostMem ∧ (s.applyRecord p b).rings = s.rings) ∧
    (∀ i < 3072, (s.applyRecord p b).grantOf i = givenWord s p b i) ∧ (s.applyRecord p b).reg (Reg.pctx p) = recWindow b ∧
    (∀ x, 0x40000000000 ≤ x → x < 0x70000000000 → rd (s.applyRecord p b).mem x =
      if (givenWord s p b (sliceOf x)).getLsbD 31 = true ∧ grantOwner (givenWord s p b (sliceOf x)) = p ∧
        (s.slice (sliceOf x)).tenant ≠ some (recTenant b) then 0 else rd s.mem x) ∧
    ∀ r ∈ clearedRanks s b, (∀ k ∈ s.poweredSites r, ((s.applyRecord p b).core k).istore = [] ∧
        ∀ o < 2 ^ 21, rd (s.applyRecord p b).mem (spadAddr k o) = 0) ∧
      ∀ f < 9, ∀ n < 272, (n ∈ ((s.applyRecord p b).die (r * 9 + f)).stale ↔ (r * 9 + f) * 272 + n ∉ s.poweredSites r) := by
  obtain ⟨⟨gpart, grings, ghost⟩, ggrant, gmem, granks⟩ := recordGranted_spec s p b hp
  obtain ⟨⟨ppart, pother⟩, ⟨prings, pmem, phost, pdies⟩, pstore, pctx, pregs⟩ := recordPlaced_spec s p b (recordGranted s p b) hp
  rw [applyRecord_eq]
  have hshow := shows_recordShown s p b (recordPlaced s p b (recordGranted s p b))
  generalize recordShown s p b (recordPlaced s p b (recordGranted s p b)) = u at *
  generalize recordPlaced s p b (recordGranted s p b) = w at *
  generalize recordGranted s p b = v at *
  have hmem : u.mem = v.mem := hshow.mem.trans pmem
  have hgrant (i : Nat) (hi : i < 3072) : Reg.grant i ≠ Reg.pctx p := by simp only [Reg.grant, Reg.pctx]; omega
  refine ⟨⟨?_, fun j hj => ?_, ?_, ?_⟩, fun i hi => ?_, ?_, fun x hlo hhi => ?_, fun r hr => ?_⟩
  · rw [hshow.part, ppart, gpart]
  · rw [hshow.part, pother j hj, gpart]
  · rw [hshow.hostMem, phost, ghost]
  · rw [hshow.rings, prings, grings]
  · rw [← ggrant i hi, State.grantOf, hshow.regs _ (not_shownReg_grant hp hi), pregs _ (hgrant i hi) (not_shownReg_grant hp hi), State.grantOf]
  · rw [hshow.regs _ (not_shownReg_pctx hp), pctx]
  · rw [hmem, gmem x hlo hhi]
  · obtain ⟨hsites, hstale⟩ := granks r hr
    refine ⟨fun k hk => ⟨?_, fun o ho => ?_⟩, fun f hf n hn => ?_⟩
    · have hcore : u.core k = w.core k := congrArg (fun m => sget Core.reset m k) hshow.cores
      rw [hcore, pstore]
      exact (hsites k hk).1
    · rw [hmem]
      exact (hsites k hk).2 o ho
    · have hdie : u.die (r * 9 + f) = v.die (r * 9 + f) := congrArg (fun m => sget Die.reset m (r * 9 + f)) (hshow.dies.trans pdies)
      rw [hdie]
      exact hstale f hf n hn

end apply

/-! ### A partition that is deleted -/

section delete

variable (s : State) {p : Nat}

/-- The grant word of a slice after a partition's deletion. -/
def deletedWord (s : State) (p i : Nat) : W32 := newGrant p (s.grantOf i) false false false

/-- A state without a partition's record. -/
def withoutPart (v : State) (p : Nat) : State := { v with parts := sdel v.parts p }

/-- What a deletion clears beside the grants: the window, the positions and the tempo tree, then the partition itself. -/
def deletedRest (v : State) (p : Nat) : State :=
  (withoutPart ((((v.setReg (Reg.pctx p) 0).clearTempo p).clearRecovery p).dropAll p) p).positionsShown p

theorem deletePartition_eq : s.deletePartition p = deletedRest (s.setGrants p 0 (deletedWord s p)) p := by
  unfold State.deletePartition deletedRest withoutPart deletedWord
  rfl

theorem part_withoutPart (v : State) (p j : Nat) : (withoutPart v p).part j = if j = p then Part.reset else v.part j := by
  by_cases hj : j = p
  · rw [if_pos hj, hj]
    exact sget_sdel_self ..
  · rw [if_neg hj]
    exact sget_sdel_ne _ _ hj

theorem shows_window (v : State) (p : Nat) :
    Shows p (v.setReg (Reg.pctx p) 0) ((((v.setReg (Reg.pctx p) 0).clearTempo p).clearRecovery p).dropAll p) :=
  ((shows_clearTempo _ p).trans (shows_clearRecovery _ p)).trans (shows_dropAll _ p)

/-- The partition goes; cores, memory and the other partitions stay. -/
theorem deletedRest_spec (v : State) (hp : p < 16) :
    (∀ j, (deletedRest v p).part j = if j = p then Part.reset else v.part j) ∧
    ((deletedRest v p).hostMem = v.hostMem ∧ (deletedRest v p).rings = v.rings ∧ (deletedRest v p).mem = v.mem ∧
      (deletedRest v p).cores = v.cores) ∧
    (deletedRest v p).reg (Reg.pctx p) = 0 ∧ ∀ o, o ≠ Reg.pctx p → ¬ ShownReg p o → (deletedRest v p).reg o = v.reg o := by
  have hshow := shows_window v p
  have hend := shows_positionsShown (withoutPart ((((v.setReg (Reg.pctx p) 0).clearTempo p).clearRecovery p).dropAll p) p) p
  unfold deletedRest
  generalize (((v.setReg (Reg.pctx p) 0).clearTempo p).clearRecovery p).dropAll p = w at *
  refine ⟨fun j => ?_, ⟨hend.hostMem.trans hshow.hostMem, hend.rings.trans hshow.rings, hend.mem.trans hshow.mem,
    hend.cores.trans hshow.cores⟩, ?_, fun o ho hs => ?_⟩
  · rw [hend.part, part_withoutPart, hshow.part, State.setReg_part_at]
  · exact (hend.regs _ (not_shownReg_pctx hp)).trans ((hshow.regs _ (not_shownReg_pctx hp)).trans (State.reg_setReg ..))
  · exact (hend.regs o hs).trans ((hshow.regs o hs).trans (State.reg_setReg_ne _ _ ho))

theorem deletePartition_spec (hp : p < 16) :
    ((∀ j, j ≠ p → (s.deletePartition p).part j = s.part j) ∧ (s.deletePartition p).hostMem = s.hostMem ∧ (s.deletePartition p).rings = s.rings) ∧
    (s.deletePartition p).part p = Part.reset ∧ (s.deletePartition p).mem = s.mem ∧ s.cores = (s.deletePartition p).cores ∧
    (∀ i < 3072, (s.deletePartition p).grantOf i = deletedWord s p i) ∧ (s.deletePartition p).reg (Reg.pctx p) = 0 := by
  obtain ⟨⟨h, r, ht⟩, hgrant, -⟩ := setGrants_spec s 0 (deletedWord s p) hp
  have hmem := mem_setGrants (s := s) (tenant := 0) (f := deletedWord s p) hp (fun i => newGrant_deleted hp _)
  obtain ⟨hpart, ⟨hhost, hrings, hrest, hcores⟩, hctx, hregs⟩ := deletedRest_spec (s.setGrants p 0 (deletedWord s p)) hp
  rw [deletePartition_eq]
  refine ⟨⟨fun j hj => ?_, ?_, ?_⟩, ?_, hrest.trans hmem, ?_, fun i hi => ?_, hctx⟩
  · rw [hpart, if_neg hj, ht]
    rfl
  · rw [hhost, ht]
  · rw [hrings, ht]
  · rw [hpart, if_pos rfl]
  · rw [hcores, ht]
  · have hne : Reg.grant i ≠ Reg.pctx p := by simp only [Reg.grant, Reg.pctx]; omega
    exact (hregs _ hne (not_shownReg_grant hp hi)).trans (hgrant i hi)

end delete

end Sys2Proof.Records
end

section
/-! The checks of PARTITION_SET (R328, Table 12-11), and the statement about its records. -/
namespace Sys2Proof.Records

open Sys2Proof.Machine Sys2Proof.Claims Sys2Proof.Units Sys2Proof.LaunchTree Sys2Proof.HostMoves

/-! ### The record in host memory -/

theorem part_lt (c : Cmd) : c.part < 16 := by
  have h : c.target < 256 ^ ((c.desc.drop 2).take 2).length := leNat_lt _
  have hl : ((c.desc.drop 2).take 2).length ≤ 2 := List.length_take_le ..
  have hp : 256 ^ ((c.desc.drop 2).take 2).length ≤ 256 ^ 2 := Nat.pow_le_pow_right (by decide) hl
  unfold Cmd.part
  omega

theorem rdN_drop (m : Mem) (a k n : Nat) : (rdN m a (k + n)).drop k = rdN m (a + k) n := by
  induction k generalizing a with
  | zero => rw [Nat.zero_add, List.drop_zero, Nat.add_zero]
  | succ k ih => rw [Nat.succ_add, rdN, List.drop_succ_cons, ih, Nat.add_assoc, Nat.add_comm 1]

/-- A byte of a run, as it reads alone. -/
theorem leAt_rdN_byte (m : Mem) (a : Nat) {n k : Nat} (h : k < n) : leAt (rdN m (a + k) 1) 0 1 = leAt (rdN m a n) k 1 := by
  obtain ⟨j, rfl⟩ := Nat.exists_eq_add_of_lt h
  unfold leAt
  rw [Nat.add_assoc, rdN_drop]
  rfl

/-- The bytes of the record that a command names. -/
def recordOf (s : State) (c : Cmd) : List Byte := rdN s.hostMem (c.u64 8) (c.u32 0x10)

/-- The operands of a command whose record is whole and may be read. -/
structure Sized (s : State) (c : Cmd) : Prop where
  zero : (c.desc.drop 0x14).all (· == 0) = true
  admitted : s.admitted c.part 0x82 c.target = true
  inside : c.u64 8 + c.u32 0x10 ≤ 2 ^ 57
  header : 0x4E0 ≤ c.u32 0x10
  whole : c.u32 0x10 = 0x4E0 + 4 * leAt (recordOf s c) 3 1

/-! ### What a record is refused for -/

section refuse

variable {s : State} {p : Nat} {b : List Byte}

theorem recordBad_of_beyond (hh : leAt b 1 1 ≠ 0) (hp : s.limPartitions ≤ p) : s.recordBad p b = some (3, 19) := by
  unfold State.recordBad
  rw [if_neg hh, if_pos hp]

theorem recordBad_of_band (hh : leAt b 1 1 ≠ 0) (hp : p < s.limPartitions) (hr : recReserved b = false) (hb : s.bandBad p b = true) :
    s.recordBad p b = some (1, 1) := by
  unfold State.recordBad
  rw [if_neg hh, if_neg hp.not_ge, if_neg (by rw [hr]; decide), if_pos hb]

theorem recordBad_of_deletion (hh : leAt b 1 1 = 0) (hf : leAt b 2 1 ≤ 1) : s.recordBad p b = none := by
  unfold State.recordBad
  rw [if_pos hh, if_neg hf.not_gt]

end refuse

/-! ### What a record that may be read does -/

section run

variable {s : State} {p : Nat} {b : List Byte}

/-- A record is refused, conflicts with another partition, deletes or applies. -/
def recordRun (s : State) (p : Nat) (b : List Byte) : State × Res :=
  match s.recordBad p b with
  | some (st, d) => (s, .fin st d [])
  | none =>
    if s.grantConflict p (fun i => if leAt b 1 1 == 0 then deletedWord s p i else givenWord s p b i) then s.conflict p
    else (if leAt b 1 1 == 0 then s.deletePartition p else s.applyRecord p b, .fin 0 0 [])

theorem recordRun_refused {st d : Nat} (hbad : s.recordBad p b = some (st, d)) : recordRun s p b = (s, .fin st d []) := by
  unfold recordRun
  rw [hbad]

/-- A deletion's grant words are those of a record of height 0. -/
theorem grantWord_deleted (hh : leAt b 1 1 = 0) :
    (fun i => if leAt b 1 1 == 0 then deletedWord s p i else givenWord s p b i) = deletedWord s p :=
  funext fun _ => if_pos (beq_iff_eq.mpr hh)

theorem grantWord_given (hh : leAt b 1 1 ≠ 0) :
    (fun i => if leAt b 1 1 == 0 then deletedWord s p i else givenWord s p b i) = givenWord s p b :=
  funext fun _ => if_neg (mt beq_iff_eq.mp hh)

theorem recordRun_deletion_conflict (hh : leAt b 1 1 = 0) (hf : leAt b 2 1 ≤ 1) (hc : s.grantConflict p (deletedWord s p) = true) :
    recordRun s p b = (s, .fin 2 (s.stateDetail p) []) := by
  unfold recordRun
  rw [recordBad_of_deletion hh hf, grantWord_deleted hh]
  exact if_pos hc

theorem recordRun_conflict (hh : leAt b 1 1 ≠ 0) (hbad : s.recordBad p b = none) (hc : s.grantConflict p (givenWord s p b) = true) :
    recordRun s p b = (s, .fin 2 (s.stateDetail p) []) := by
  unfold recordRun
  rw [hbad, grantWord_given hh]
  exact if_pos hc

theorem recordRun_deletes (hh : leAt b 1 1 = 0) (hf : leAt b 2 1 ≤ 1) (hc : s.grantConflict p (deletedWord s p) = false) :
    recordRun s p b = (s.deletePartition p, .fin 0 0 []) := by
  unfold recordRun
  rw [recordBad_of_deletion hh hf, grantWord_deleted hh]
  dsimp only
  rw [if_neg (by rw [hc]; decide), if_pos (beq_iff_eq.mpr hh)]

theorem recordRun_applies (hh : leAt b 1 1 ≠ 0) (hbad : s.recordBad p b = none) (hc : s.grantConflict p (givenWord s p b) = false) :
    recordRun s p b = (s.applyRecord p b, .fin 0 0 []) := by
  unfold recordRun
  rw [hbad, grantWord_given hh]
  dsimp only
  rw [if_neg (by rw [hc]; decide), if_neg (mt beq_iff_eq.mp hh)]

end run

/-! ### The command's checks -/

section checks

variable {s : State} {r : Ref} {c : Cmd} (hs : Starts s 0x82 r c)
include hs

theorem partitionSet_operands (hz : (c.desc.drop 0x14).all (· == 0) = false) : Ends (.partitionSet r) s r c 1 7 [] (fun u => u = s) :=
  ends_of_start rfl hs (u := s) (if_pos hz) rfl

section operands

variable (hz : (c.desc.drop 0x14).all (· == 0) = true)
include hz

theorem partitionSet_busy (ha : s.admitted c.part 0x82 c.target = false) :
    Ends (.partitionSet r) s r c 2 (s.stateDetail c.part) [] (fun u => u = s) :=
  ends_of_start rfl hs (u := s) ((if_neg (Bool.not_eq_false _ ▸ hz)).trans (if_pos ha)) rfl

variable (ha : s.admitted c.part 0x82 c.target = true)
include ha

theorem partitionSet_beyond (hb : 2 ^ 57 < c.u64 8 + c.u32 0x10) : Ends (.partitionSet r) s r c 4 0 [] (fun u => u = s) :=
  ends_of_start rfl hs (u := s) ((if_neg (Bool.not_eq_false _ ▸ hz)).trans ((if_neg (Bool.not_eq_false _ ▸ ha)).trans (if_pos (.inr hb)))) rfl

theorem partitionSet_length (hlo : c.u64 8 < 2 ^ 57) (hb : c.u64 8 + c.u32 0x10 ≤ 2 ^ 57)
    (hn : c.u32 0x10 < 0x4E0 ∨ c.u32 0x10 ≠ 0x4E0 + 4 * leAt (recordOf s c) 3 1) : Ends (.partitionSet r) s r c 1 7 [] (fun u => u = s) := by
  refine ends_of_start rfl hs (u := s) ((if_neg (Bool.not_eq_false _ ▸ hz)).trans ((if_neg (Bool.not_eq_false _ ▸ ha)).trans
    ((if_neg (by omega)).trans (if_pos ?_)))) rfl
  by_cases h : c.u32 0x10 < 0x4E0
  · exact .inl h
  · rw [leAt_rdN_byte _ _ (show 3 < c.u32 0x10 by omega)]
    exact hn

end operands

/-- A command whose record may be read ends as the record says. -/
theorem partitionSet_ends (h : Sized s c) {u : State} {st d : Nat} {m : State → Prop}
    (hrun : recordRun s c.part (recordOf s c) = (u, .fin st d [])) (hm : m u) : Ends (.partitionSet r) s r c st d [] m := by
  obtain ⟨hz, ha, hb, h4, hn⟩ := h
  have hlen : ¬ (c.u32 0x10 < 0x4E0 ∨ c.u32 0x10 ≠ 0x4E0 + 4 * leAt (rdN s.hostMem (c.u64 8 + 3) 1) 0 1) := by
    rw [leAt_rdN_byte _ _ (show 3 < c.u32 0x10 by omega), ← recordOf]
    omega
  exact ends_of_start rfl hs ((if_neg (Bool.not_eq_false _ ▸ hz)).trans ((if_neg (Bool.not_eq_false _ ▸ ha)).trans
    ((if_neg (by omega)).trans ((if_neg hlen).trans hrun)))) hm

end checks

/-! ### What an applied record says of its partition and ranks -/

section applied

variable {b : List Byte} {q : Part} {s : State}

theorem keepsProgram_iff : keepsProgram b q = true ↔
    q.first = leAt b 0 1 ∧ q.height = leAt b 1 1 ∧ q.tenant = recTenant b ∧ leAt b 2 1 % 2 = 0 := by
  unfold keepsProgram bit
  simp only [Bool.and_eq_true, beq_iff_eq, Bool.not_eq_true', beq_eq_false_iff_ne, pow_zero, Nat.div_one, Nat.mod_two_ne_one, and_assoc]

theorem mem_recordKept {x : Position} : x ∈ recordKept b q ↔ x ∈ q.positions ∧ x.first = leAt b 0 1 ∧ x.height = leAt b 1 1 ∧
    x.tree = leAt b 0xC 2 ∧ x.member = leAt b 0xE 2 ∧ x.tenant = recTenant b := by
  unfold recordKept keptPositions
  simp only [List.mem_filter, Bool.and_eq_true, beq_iff_eq, and_assoc]

theorem mem_clearedRanks {i : Nat} (hi : i < leAt b 1 1)
    (h : leAt b 2 1 % 2 = 1 ∨ sget 0 s.rankTenants (leAt b 0 1 - 1 + i) ≠ recTenant b) : leAt b 0 1 - 1 + i ∈ clearedRanks s b := by
  unfold clearedRanks bit
  rw [List.mem_filter]
  refine ⟨List.mem_map.mpr ⟨i, List.mem_range.mpr hi, rfl⟩, ?_⟩
  simpa using h

end applied

/-- Settles O45: the checks in their order, then the record applied or the partition deleted, each by the lemma about it. -/
theorem partitionsFollowTheirRecord : Obligations.PartitionsFollowTheirRecord := by
  unfold Obligations.PartitionsFollowTheirRecord
  intro s r c hs p q a n b same others deleted given tenant first height sized stops
  have hp : p < 16 := part_lt c
  have small (h : sized) : Sized s c := by
    obtain ⟨hz, ha, hb, h4, hn⟩ := h
    exact ⟨hz, ha, hb, h4, hn⟩
  refine ⟨partitionSet_operands hs, fun hz => ⟨partitionSet_busy hs hz, partitionSet_beyond hs hz, partitionSet_length hs hz⟩,
    fun st d h hbad => ?_, fun h hh hlim => ?_, fun h hh hlim hres hband => ?_, fun h hh hf => ⟨fun hc => ?_, fun hc => ?_⟩,
    fun h hh hbad => ⟨fun hc => ?_, fun hc => ?_⟩⟩
  · exact partitionSet_ends hs (small h) (recordRun_refused hbad) rfl
  · exact partitionSet_ends hs (small h) (recordRun_refused (recordBad_of_beyond hh hlim)) rfl
  · exact partitionSet_ends hs (small h) (recordRun_refused (recordBad_of_band hh hlim hres hband)) rfl
  · exact partitionSet_ends hs (small h) (recordRun_deletion_conflict hh hf hc) rfl
  · obtain ⟨hothers, hpart, hmem, hcores, hgrants, hctx⟩ := deletePartition_spec s hp
    exact partitionSet_ends hs (small h) (recordRun_deletes hh hf hc) ⟨hothers, hpart, hmem, hcores, hgrants, hctx⟩
  · exact partitionSet_ends hs (small h) (recordRun_conflict hh hbad hc) rfl
  · obtain ⟨⟨hpart, hother, hhost, hrings⟩, hgrants, hctx, hmem, hranks⟩ := applyRecord_spec s p b hp
    exact partitionSet_ends hs (small h) (recordRun_applies hh hbad hc)
      ⟨⟨hother, hhost, hrings⟩, congrArg Part.first hpart, congrArg Part.height hpart, congrArg Part.tenant hpart, congrArg Part.tree hpart,
        congrArg Part.member hpart, congrArg Part.st hpart, congrArg Part.move hpart, congrArg Part.parent hpart,
        (congrArg (fun q => q.children.length) hpart).trans ((List.length_map _).trans List.length_range),
        (congrArg Part.prog hpart).trans (if_congr keepsProgram_iff rfl rfl),
        fun x => (iff_of_eq (congrArg (fun q => x ∈ q.positions) hpart)).trans mem_recordKept,
        hgrants, hctx, hmem, fun i hi hcl => hranks _ (mem_clearedRanks hi hcl)⟩

end Sys2Proof.Records
end

section
/-! Flits and packets as their bytes: what is read back of a flit and of a packet (Tables 11-3 and 11-5, R201, R275, R278). -/
namespace Sys2Proof.Flits

open Sys2Proof.Machine Sys2Proof.Claims

/-! ### Byte strings -/

theorem leNat_leBytes (n v : Nat) : leNat (leBytes n v) = v % 256 ^ n := by
  induction n generalizing v with
  | zero => simp [leBytes, leNat, Nat.mod_one]
  | succ n ih => rw [leBytes, leNat, ih, BitVec.toNat_ofNat, show 256 ^ (n + 1) = 256 * 256 ^ n from Nat.pow_succ', Nat.mod_mul]

/-- Bytes are those of their value. -/
theorem leBytes_leNat (bs : List Byte) : leBytes bs.length (leNat bs) = bs := by
  induction bs with
  | nil => rfl
  | cons b bs ih =>
    have hb := b.isLt
    have hrest : (b.toNat + 256 * leNat bs) / 256 = leNat bs := by omega
    have hfirst : BitVec.ofNat 8 (b.toNat + 256 * leNat bs) = b := BitVec.eq_of_toNat_eq (by rw [BitVec.toNat_ofNat]; omega)
    rw [List.length_cons, leBytes, leNat, hrest, hfirst, ih]

/-- The low bytes do not see what stands above them. -/
theorem leBytes_add_mul (n v w : Nat) : leBytes n (v + 256 ^ n * w) = leBytes n v := by
  induction n generalizing v with
  | zero => rfl
  | succ n ih =>
    have hsplit : v + 256 ^ (n + 1) * w = v + 256 * (256 ^ n * w) := by rw [Nat.pow_succ']; ring
    have hrest : (v + 256 * (256 ^ n * w)) / 256 = v / 256 + 256 ^ n * w := by omega
    have hfirst : BitVec.ofNat 8 (v + 256 * (256 ^ n * w)) = BitVec.ofNat 8 v := BitVec.eq_of_toNat_eq (by
      rw [BitVec.toNat_ofNat, BitVec.toNat_ofNat]; omega)
    rw [hsplit, leBytes, leBytes, hrest, hfirst, ih]

/-- A number read at an offset behind other bytes. -/
theorem leAt_skip {n o : Nat} (h : n ≤ o) (v k : Nat) (bs : List Byte) : leAt (leBytes n v ++ bs) o k = leAt bs (o - n) k := by
  rw [leAt, List.drop_append, List.drop_eq_nil_of_le (by simpa using h), CSlot.leBytes_length, List.nil_append, leAt]

/-- A number reads back, its bytes being first. -/
theorem leAt_head (n v : Nat) (bs : List Byte) : leAt (leBytes n v ++ bs) 0 n = v % 256 ^ n := by
  rw [leAt, List.drop_zero, List.take_left' (CSlot.leBytes_length ..), leNat_leBytes]

/-- A byte string is its chunks of n bytes, one after the other. -/
theorem flatMap_chunks (bs : List Byte) (n q : Nat) : (List.range q).flatMap (fun i => (bs.drop (n * i)).take n) = bs.take (n * q) := by
  induction q with
  | zero => simp
  | succ q ih => rw [List.range_succ, List.flatMap_append, ih, List.flatMap_singleton, Nat.mul_succ, List.take_add]

theorem bytesAt_of_le {bs : List Byte} {o n : Nat} (h : o + n ≤ bs.length) : bytesAt bs o n = (bs.drop o).take n := by
  have hl : ((bs.drop o).take n).length = n := by rw [List.length_take, List.length_drop]; omega
  rw [bytesAt, hl, Nat.sub_self, List.replicate_zero, List.append_nil]

/-! ### CRC-16 (R201) -/

theorem crcBits_lt (n : Nat) {r : Nat} (h : r < 2 ^ 16) : crcBits n r < 2 ^ 16 := by
  induction n generalizing r with
  | zero => exact h
  | succ n ih =>
    rw [crcBits]
    have hr : r * 2 % 2 ^ 16 < 2 ^ 16 := Nat.mod_lt _ (by decide)
    split
    · exact ih (Nat.xor_lt_two_pow hr (by decide))
    · exact ih hr

theorem crc16_lt (bs : List Byte) : crc16 bs < 2 ^ 16 := by
  have gen : ∀ (bs : List Byte) (r : Nat), r < 2 ^ 16 → bs.foldl (fun r b => crcBits 8 (r ^^^ (b.toNat * 256))) r < 2 ^ 16 := by
    intro bs
    induction bs with
    | nil => exact fun r h => h
    | cons b bs ih =>
      intro r h
      have hb := b.isLt
      exact ih _ (crcBits_lt 8 (Nat.xor_lt_two_pow h (by omega)))
  exact gen bs _ (by decide)

/-! ### Flits (R201, Table 11-5) -/

theorem flitByte_eq (f : BitVec 288) (i : Nat) : flitByte f i = f.toNat / 2 ^ (8 * i) % 256 := by
  rw [flitByte, BitVec.extractLsb'_toNat, Nat.shiftRight_eq_div_pow]

theorem flitByte_lt (f : BitVec 288) (i : Nat) : flitByte f i < 256 := (f.extractLsb' (8 * i) 8).isLt

theorem flitData_toNat (f : BitVec 288) : (flitData f).toNat = f.toNat % 2 ^ 256 := by
  rw [flitData, BitVec.extractLsb'_toNat, Nat.shiftRight_zero]

/-- The first 34 bytes of a flit, which its CRC covers, as a number. -/
def flitBody (d a b : Nat) : Nat := d % 2 ^ 256 + 2 ^ 256 * (a % 256) + 2 ^ 264 * (b % 256)

section mk

variable (d a b : Nat)

theorem flitBody_lt : flitBody d a b < 2 ^ 272 := by unfold flitBody; omega

theorem mkFlit_toNat : (mkFlit d a b).toNat =
    flitBody d a b + 256 ^ 34 * (crc16 (leBytes 34 (flitBody d a b)) / 256 + 256 * (crc16 (leBytes 34 (flitBody d a b)) % 256)) := by
  have hc := crc16_lt (leBytes 34 (flitBody d a b))
  have hb := flitBody_lt d a b
  rw [show mkFlit d a b = BitVec.ofNat 288 (flitBody d a b + 2 ^ 272 * (crc16 (leBytes 34 (flitBody d a b)) / 256) +
    2 ^ 280 * (crc16 (leBytes 34 (flitBody d a b)) % 256)) from rfl, BitVec.toNat_ofNat]
  generalize crc16 (leBytes 34 (flitBody d a b)) = c at *
  omega

@[simp] theorem flitByte_mkFlit_32 : flitByte (mkFlit d a b) 32 = a % 256 := by
  rw [flitByte_eq, mkFlit_toNat, flitBody]
  omega

@[simp] theorem flitByte_mkFlit_33 : flitByte (mkFlit d a b) 33 = b % 256 := by
  rw [flitByte_eq, mkFlit_toNat, flitBody]
  omega

@[simp] theorem flitData_mkFlit : flitData (mkFlit d a b) = BitVec.ofNat 256 d := by
  apply BitVec.eq_of_toNat_eq
  rw [flitData_toNat, mkFlit_toNat, flitBody, BitVec.toNat_ofNat]
  omega

/-- A flit that is made passes its CRC: its last two bytes are the CRC of those before them. -/
@[simp] theorem flitOk_mkFlit : flitOk (mkFlit d a b) = true := by
  have hbody : leBytes 34 (mkFlit d a b).toNat = leBytes 34 (flitBody d a b) := by rw [mkFlit_toNat, leBytes_add_mul]
  have hlast (c : Nat) : (flitBody d a b + 256 ^ 34 * c) / 2 ^ (8 * 34) = c := by
    have := flitBody_lt d a b
    omega
  have h34 : flitByte (mkFlit d a b) 34 = (mkFlit d a b).toNat / 2 ^ (8 * 34) % 256 := flitByte_eq ..
  have h35 : flitByte (mkFlit d a b) 35 = (mkFlit d a b).toNat / 2 ^ (8 * 34) / 256 % 256 := by
    rw [flitByte_eq]
    omega
  have swap {h l : Nat} (hh : h < 256) (hl : l < 256) : (h + 256 * l) % 256 * 256 + (h + 256 * l) / 256 % 256 = 256 * h + l := by omega
  have hc := crc16_lt (leBytes 34 (flitBody d a b))
  rw [flitOk, hbody, h34, h35, mkFlit_toNat, hlast, swap (by omega) (Nat.mod_lt _ (by decide)), Nat.div_add_mod]
  exact beq_self_eq_true _

end mk

/-! ### Packets as their bytes (Table 11-3, R275) -/

/-- The flag bytes of a header, as numbers. -/
def headByte0 (p : Packet) : Nat := p.opc.toNat * 16 + p.cls.toNat * 4 + (bitN p.esc * 2 + bitN p.mark)
def headByte1 (p : Packet) : Nat := p.len.toNat * 16 + bitN p.bcast * 8 + (bitN p.resend * 4 + bitN p.dl * 2) + bitN p.rsv1

/-- A packet's bytes as its fields, one after the other. -/
theorem packetBytes_eq (p : Packet) : packetBytes p =
    leBytes 1 (headByte0 p) ++ (leBytes 1 (headByte1 p) ++ (leBytes 2 p.dpanel.toNat ++ (leBytes 2 p.spanel.toNat ++
    (leBytes 1 p.sep.toNat ++ (leBytes 1 p.rsv7.toNat ++ (leBytes 2 p.ssite.toNat ++ (leBytes 2 (p.part.toNat * 4096 + p.tree.toNat) ++
    (leBytes 4 p.eseq.toNat ++ (leBytes 2 p.tag.toNat ++ (leBytes 2 p.attr.toNat ++ (leBytes 8 p.addr.toNat ++
    (leBytes 4 p.ecrc.toNat ++ p.payload)))))))))))) := by
  have one (b : Byte) : leBytes 1 b.toNat = [b] := by simp [leBytes]
  rw [one, one]
  simp only [packetBytes, headFlags, headRest, headByte0, headByte1, Bool.false_eq_true, if_false, List.append_assoc]
  rfl

theorem packetBytes_length (p : Packet) : (packetBytes p).length = 32 + p.payload.length := by
  rw [packetBytes_eq]
  simp only [List.length_append, CSlot.leBytes_length]
  omega

theorem bitN_lt_two (b : Bool) : bitN b < 2 := by cases b <;> decide

/-- A bit of a number in which a flag stands. -/
theorem bit_of_flag {v j : Nat} {b : Bool} (h : v / 2 ^ j % 2 = bitN b) : bit v j = b := by
  unfold bit
  rw [h]
  cases b <;> rfl

section flags

variable (p : Packet)

theorem headByte0_fields : headByte0 p < 256 ^ 1 ∧ headByte0 p / 16 = p.opc.toNat ∧ field (headByte0 p) 2 2 = p.cls.toNat ∧
    bit (headByte0 p) 1 = p.esc ∧ bit (headByte0 p) 0 = p.mark := by
  have ho := p.opc.isLt
  have hc := p.cls.isLt
  have he := bitN_lt_two p.esc
  have hm := bitN_lt_two p.mark
  unfold headByte0 field
  exact ⟨by omega, by omega, by omega, bit_of_flag (by omega), bit_of_flag (by omega)⟩

theorem headByte1_fields : headByte1 p < 256 ^ 1 ∧ headByte1 p / 16 = p.len.toNat ∧ bit (headByte1 p) 3 = p.bcast ∧
    bit (headByte1 p) 2 = p.resend ∧ bit (headByte1 p) 1 = p.dl ∧ bit (headByte1 p) 0 = p.rsv1 := by
  have hl := p.len.isLt
  have hb := bitN_lt_two p.bcast
  have hr := bitN_lt_two p.resend
  have hd := bitN_lt_two p.dl
  have hv := bitN_lt_two p.rsv1
  unfold headByte1
  exact ⟨by omega, by omega, bit_of_flag (by omega), bit_of_flag (by omega), bit_of_flag (by omega), bit_of_flag (by omega)⟩

end flags

/-- A field that is written whole reads back. -/
theorem ofNat_toNat_mod {w n : Nat} (h : w ≤ 8 * n) (x : BitVec w) : BitVec.ofNat w (x.toNat % 256 ^ n) = x := by
  have hx : x.toNat < 256 ^ n := by
    rw [show 256 = 2 ^ 8 from rfl, ← Nat.pow_mul]
    exact x.isLt.trans_le (Nat.pow_le_pow_right (by decide) h)
  rw [Nat.mod_eq_of_lt hx, BitVec.ofNat_toNat, BitVec.setWidth_eq]

/-- The partition and the tree share two bytes. -/
theorem part_tree_fields (p : BitVec 4) (t : BitVec 12) : BitVec.ofNat 4 ((p.toNat * 4096 + t.toNat) % 256 ^ 2 / 4096) = p ∧
    BitVec.ofNat 12 ((p.toNat * 4096 + t.toNat) % 256 ^ 2) = t := by
  have hp := p.isLt
  have ht := t.isLt
  constructor <;> refine BitVec.eq_of_toNat_eq ?_ <;> rw [BitVec.toNat_ofNat] <;> omega

/-- A packet reads back from its bytes: each field from its place, the flags from their bits. -/
theorem parsePacket_packetBytes (p : Packet) : parsePacket (packetBytes p) = p := by
  have drop : (packetBytes p).drop 32 = p.payload := by
    rw [packetBytes]
    exact List.drop_left' (by simp [headFlags, headRest])
  obtain ⟨h0, hopc, hcls, hesc, hmark⟩ := headByte0_fields p
  obtain ⟨h1, hlen, hbcast, hresend, hdl, hrsv1⟩ := headByte1_fields p
  obtain ⟨hpart, htree⟩ := part_tree_fields p.part p.tree
  unfold parsePacket
  rw [drop, packetBytes_eq]
  simp (disch := decide) only [leAt_skip, leAt_head, Nat.reduceSub, ofNat_toNat_mod, Nat.mod_eq_of_lt h0, Nat.mod_eq_of_lt h1, hopc, hcls,
    hesc, hmark, hlen, hbcast, hresend, hdl, hrsv1, hpart, htree, BitVec.ofNat_toNat, BitVec.setWidth_eq]

/-! ### A packet's flits (R278, Table 11-5) -/

/-- The virtual channels are twelve. -/
theorem vcOf_lt (p : Packet) : vcOf p < 12 := by
  have := p.cls.isLt
  unfold vcOf
  split
  · split <;> omega
  · omega

/-- The data of a packet's flits are its bytes. -/
theorem packetFlits_data {p : Packet} (h : p.payload.length % 32 = 0) (n : Nat) :
    (packetFlits p n).flatMap (fun f => leBytes 32 (flitData f).toNat) = packetBytes p := by
  have hlen := packetBytes_length p
  have chunk : ∀ i ∈ List.range ((packetBytes p).length / 32),
      leBytes 32 (BitVec.ofNat 256 (leNat (bytesAt (packetBytes p) (32 * i) 32))).toNat = ((packetBytes p).drop (32 * i)).take 32 := by
    intro i hi
    have hi := List.mem_range.mp hi
    have hl : (((packetBytes p).drop (32 * i)).take 32).length = 32 := by rw [List.length_take, List.length_drop]; omega
    rw [bytesAt_of_le (by omega), BitVec.toNat_ofNat, Nat.mod_eq_of_lt (Walk.leNat_lt hl)]
    generalize ((packetBytes p).drop (32 * i)).take 32 = bs at hl
    rw [← hl, leBytes_leNat]
  unfold packetFlits
  simp only [List.flatMap_map, flitData_mkFlit]
  rw [List.flatMap_congr chunk, flatMap_chunks, List.take_of_length_le (by omega)]

theorem packetFlits_ok (p : Packet) (n : Nat) : ∀ f ∈ packetFlits p n, flitOk f = true ∧ flitByte f 33 / 16 = vcOf p := by
  intro f hf
  obtain ⟨i, -, rfl⟩ := List.mem_map.mp hf
  have hvc := vcOf_lt p
  refine ⟨flitOk_mkFlit .., ?_⟩
  rw [flitByte_mkFlit_33]
  split <;> omega

/-- Settles O28: packets read back from their bytes, so that equal bytes are equal packets, and flits from what they are made of. -/
theorem packetsAndFlitsReadBack : Obligations.PacketsAndFlitsReadBack := by
  unfold Obligations.PacketsAndFlitsReadBack
  refine ⟨parsePacket_packetBytes, fun p n h => ⟨packetFlits_data h n, packetFlits_ok p n⟩, fun d a b => ?_, fun p q h => ?_⟩
  · exact ⟨flitOk_mkFlit .., flitData_mkFlit .., flitByte_mkFlit_32 .., flitByte_mkFlit_33 ..⟩
  · rw [← parsePacket_packetBytes p, h, parsePacket_packetBytes]

end Sys2Proof.Flits
end

section
/-! Link ends: what a control flit carries, the control-flit interval, and quarantine (R202, R203, R278). -/
namespace Sys2Proof.LinkEnds

open Sys2Proof.Machine Sys2Proof.Claims Sys2Proof.TempoPorts Sys2Proof.Flits

/-! ### Ends of a channel -/

/-- The segment end of a channel, by its numbers. -/
@[simp] theorem segEnd_val (d : Fin 144) (dir : Dir) (lane : Fin 16) (seg : Fin 3) :
    segEnd d.val dir lane.val seg.val = .mesh d dir lane seg := by
  simp [segEnd]

theorem link_modLink_ne {l o : LinkEnd} (h : linkKey o ≠ linkKey l) (s : State) (f : Link → Link) : (s.modLink l f).link o = s.link o :=
  sget_sput_ne _ _ _ h

/-- Modulus of the sequence number that a control flit of a link carries. -/
def ackMod (e : LinkEnd) : Nat := if e.isMesh then 128 else 2 ^ 32

/-! ### Control flits (R202, Tables 7-7 and 11-5) -/

/-- A sum of multiples of 2^32 does not reach the sequence number below them. -/
theorem foldl_counts_mod (l : List (Nat × Nat)) (a : Nat) :
    l.foldl (fun a p => a + p.1 * 2 ^ (64 + 16 * p.2)) a % 2 ^ 32 = a % 2 ^ 32 := by
  induction l generalizing a with
  | nil => rfl
  | cons p l ih =>
    have hp : p.1 * 2 ^ (64 + 16 * p.2) = 2 ^ 32 * (p.1 * 2 ^ (32 + 16 * p.2)) := by
      rw [show 64 + 16 * p.2 = 32 + (32 + 16 * p.2) by omega, Nat.pow_add]
      ring
    rw [List.foldl_cons, ih, hp, Nat.add_mul_mod_self_left]

/-- Counts stored from a channel above 0 on leave that of channel 0. -/
theorem sget_foldl_above (l : List Nat) {k : Nat} (hk : 0 < k) (m : SMap Nat) :
    sget 0 ((l.zipIdx k).foldl (fun m p => sput 0 m p.2 p.1) m) 0 = sget 0 m 0 := by
  induction l generalizing k m with
  | nil => rfl
  | cons c l ih => rw [List.zipIdx_cons, List.foldl_cons, ih (Nat.succ_pos k), sget_sput_ne _ _ _ hk.ne]

/-- A control flit of either kind of link: it names its type and the next sequence number expected, and returns every credit owed. -/
theorem control_spec (e : LinkEnd) {ty : Nat} (hty : ty < 8) (k : Link) : ∃ c m o,
    k.control e.isMesh ty = { k with ctl := some c, credSent := m, owe := o, sinceAck := 0, uncovered := false } ∧
    flitType e c = ty ∧ (flitData c).toNat % ackMod e = k.expSeq % ackMod e ∧
    sget 0 o 0 = 0 ∧ sget 0 m 0 = (sget 0 k.credSent 0 + sget 0 k.owe 0) % 2 ^ 16 := by
  unfold Link.control ackMod flitType
  cases e.isMesh with
  | true =>
    refine ⟨_, _, _, rfl, ?_, ?_, sget_sput_self .., sget_sput_self ..⟩
    · rw [if_pos rfl, flitByte_mkFlit_33]
      omega
    · rw [flitData_mkFlit, BitVec.toNat_ofNat]
      simp only [if_true]
      omega
  | false =>
    refine ⟨_, _, _, rfl, ?_, ?_, rfl, ?_⟩
    · rw [if_neg Bool.false_ne_true, flitByte_mkFlit_33]
      omega
    · rw [flitData_mkFlit, BitVec.toNat_ofNat, if_neg Bool.false_ne_true, Nat.mod_mod_of_dvd _ (Nat.pow_dvd_pow 2 (by decide))]
      generalize (List.map _ _).zipIdx = l
      have := foldl_counts_mod l 0
      omega
    · rw [List.range_succ_eq_map, List.map_cons, List.zipIdx_cons, List.foldl_cons, sget_foldl_above _ Nat.one_pos]
      exact sget_sput_self ..

/-! ### CONTROL_FLIT_INTERVAL -/

/-- A segment end that does not run: closed, quarantined or not clocked. -/
def Off (s : State) (e : LinkEnd) : Prop := ∃ d dir lane seg, e = .mesh d dir lane seg ∧ s.meshUp d dir lane seg = false

section interval

variable {s : State} {e : LinkEnd}

theorem interval_of_idle (h : (s.link e).failed = true ∨ (s.link e).stopped = true ∨ Off s e) :
    exec (.controlFlitInterval e) s = .next s := by
  refine congrArg Host.Outcome.next (if_pos ?_)
  obtain h | h | ⟨d, dir, lane, seg, rfl, h⟩ := h
  · exact .inl h
  · exact .inr (.inl h)
  · exact .inr (.inr (by simpa using h))

theorem interval_of_running (hf : (s.link e).failed = false) (hs : (s.link e).stopped = false) (ho : ¬ Off s e) :
    exec (.controlFlitInterval e) s = .next (s.modLink e (fun k => k.control e.isMesh (if 0 < k.sinceAck then 3 else 2))) := by
  refine congrArg Host.Outcome.next (if_neg ?_)
  rw [hf, hs]
  rintro (h | h | h)
  · cases h
  · cases h
  · cases e with
    | mesh d dir lane seg => exact ho ⟨d, dir, lane, seg, rfl, by simpa using h⟩
    | _ => cases h

end interval

/-! ### QUARANTINE (R203) -/

/-- The far end owes something on a channel. -/
theorem meshOwed_iff (s : State) (d : Fin 144) (dir : Dir) (lane : Fin 16) (seg : Fin 3) : s.meshOwed d dir lane seg = true ↔
    (s.link (.mesh d dir lane seg)).replay ≠ [] ∨ 0 < sget 0 (s.link (.mesh d dir lane seg)).spent 0 ∨
      0 < (s.link (.mesh d dir lane seg)).awaited := by
  unfold State.meshOwed
  rw [segEnd_val]
  simp only [Bool.or_eq_true, Bool.not_eq_true', List.isEmpty_eq_false_iff, decide_eq_true_eq, or_assoc]

theorem dlink_ne_mshQuar (d : Nat) (dir : Dir) : Reg.dlink d dir.idx ≠ Reg.mshQuar := by
  unfold Reg.dlink Reg.die Reg.mshQuar
  omega

theorem idx_lt (dir : Dir) : dir.idx < 4 := by cases dir <;> decide
theorem opp_idx_ne (dir : Dir) : dir.opp.idx ≠ dir.idx := by cases dir <;> decide

theorem dlink_ne {d o : Nat} {dir dir' : Dir} (h : dir.idx ≠ dir'.idx) : Reg.dlink o dir.idx ≠ Reg.dlink d dir'.idx := by
  have h1 := idx_lt dir
  have h2 := idx_lt dir'
  unfold Reg.dlink Reg.die
  omega

theorem regF_countReg_ne {o j : Nat} (h : j ≠ o) (s : State) (n lo len : Nat) : (s.countReg o n).regF j lo len = s.regF j lo len := by
  rw [State.regF, Units.reg_countReg_ne h, State.regF]

/-- Two states that differ in the registers alone. -/
def RegsOnly (s t : State) : Prop := ∃ r, t = { s with regs := r }

theorem RegsOnly.trans {s t u : State} : RegsOnly s t → RegsOnly t u → RegsOnly s u := by
  rintro ⟨_, rfl⟩ ⟨_, rfl⟩
  exact ⟨_, rfl⟩

theorem regsOnly_setReg (s : State) (o : Nat) (v : W32) : RegsOnly s (s.setReg o v) := ⟨_, rfl⟩

/-- A channel whose state field is 2 is quarantined. -/
theorem dlink_of_field {s : State} {d : Nat} {dir : Dir} {lane : Nat} (h : s.regF (Reg.dlink d dir.idx) (2 * lane) 2 = 2) :
    s.dlink d dir lane = 2 := by
  unfold State.dlink
  rw [h]
  rfl

theorem haltRank_reg (s : State) (r : Nat) (kind : HaltKind) (src : HaltSrc) (o : Nat) : (s.haltRank r kind src).reg o = s.reg o := by
  unfold State.haltRank
  split <;> rfl

/-- A report joins the list, or is counted as lost. -/
theorem raise_posts (s : State) (type p : Nat) (detail : List Byte) :
    (s.raise type p detail).events.map (·.type) = s.events.map (·.type) ++ [BitVec.ofNat 16 type] ∨
      (s.raise type p detail).host.evLost = s.host.evLost + 1 := by
  by_cases h : s.host.started = false ∧ 256 ≤ s.events.length
  · refine .inr ?_
    unfold State.raise
    simp only [if_pos h]
    split <;> rfl
  · refine .inl ?_
    rw [Present.raise_events (by rcases hs : s.host.started with _ | _ <;> simp_all), List.map_append]
    rfl

theorem raiseFree_posts (s : State) (type p : Nat) :
    (s.raiseFree type p).events.map (·.type) = s.events.map (·.type) ++ [BitVec.ofNat 16 type] ∨
      (s.raiseFree type p).host.evLost = s.host.evLost + 1 := by
  rw [State.raiseFree, State.freshen_events, State.freshen_host]
  exact raise_posts ..

/-- Both ends of a channel marked as quarantined. -/
def bothStopped (s : State) (d : Nat) (dir : Dir) (lane : Nat) : State :=
  match s.dieAcross d dir with
  | some e => ((s.setDlink d dir lane 2).countReg Reg.mshQuar 1).setDlink e dir.opp lane 2
  | none => (s.setDlink d dir lane 2).countReg Reg.mshQuar 1

section stopped

variable (s : State) (d : Nat) (dir : Dir) (lane : Nat)

theorem quarantineMesh_eq : s.quarantineMesh d dir lane =
    ((bothStopped s d dir lane).raiseFree 0x0012 ((s.partOfRank (rankOfDie d)).getD 0)).haltRank (rankOfDie d) .abort
      (.quarantine (Fin.ofNat _ d) (Fin.ofNat _ ((s.dieAcross d dir).getD d))) := by
  unfold State.quarantineMesh
  congr 2

theorem bothStopped_regs : RegsOnly s (bothStopped s d dir lane) := by
  have near : RegsOnly s ((s.setDlink d dir lane 2).countReg Reg.mshQuar 1) := (regsOnly_setReg ..).trans (regsOnly_setReg ..)
  unfold bothStopped
  split
  · exact near.trans (regsOnly_setReg ..)
  · exact near

variable {lane} (hl : lane < 16)
include hl

/-- The near end's field, once it is marked and the mark counted. -/
theorem nearStopped : ((s.setDlink d dir lane 2).countReg Reg.mshQuar 1).regF (Reg.dlink d dir.idx) (2 * lane) 2 = 2 := by
  rw [regF_countReg_ne (dlink_ne_mshQuar d dir), State.setDlink, regF_setRegF (by omega)]
  rfl

theorem dlink_bothStopped_near : (bothStopped s d dir lane).regF (Reg.dlink d dir.idx) (2 * lane) 2 = 2 := by
  unfold bothStopped
  split
  · rw [State.setDlink, regF_setRegF_ne (dlink_ne (opp_idx_ne dir).symm), nearStopped s d dir hl]
  · exact nearStopped s d dir hl

theorem dlink_bothStopped_far {o : Nat} (ho : s.dieAcross d dir = some o) :
    (bothStopped s d dir lane).regF (Reg.dlink o dir.opp.idx) (2 * lane) 2 = 2 := by
  unfold bothStopped
  rw [ho]
  dsimp only
  rw [State.setDlink, regF_setRegF (by omega)]
  rfl

end stopped

/-- What the halt of the partition that holds a rank does to the partitions. -/
theorem part_haltRank_abort {s : State} {r p : Nat} (hp : s.partOfRank r = some p) (src : HaltSrc) :
    ((s.haltRank r .abort src).part p).haltPend.map (·.1) = some .abort ∧ ∀ q, q ≠ p → (s.haltRank r .abort src).part q = s.part q := by
  unfold State.haltRank
  rw [hp]
  exact ⟨haltPend_raiseHalt_abort s p src, fun q hq => State.part_modPart_ne s _ hq⟩

theorem raiseFree_frame (s : State) (type p : Nat) :
    (s.raiseFree type p).parts = s.parts ∧ (s.raiseFree type p).mem = s.mem ∧ (s.raiseFree type p).cores = s.cores ∧
      (s.raiseFree type p).links = s.links := by
  simp only [State.raiseFree, State.freshen_parts, State.freshen_mem, State.freshen_cores, State.freshen_links, State.raise_parts,
    State.raise_mem, State.raise_cores, State.raise_links, and_self]

theorem haltRank_frame (s : State) (r : Nat) (kind : HaltKind) (src : HaltSrc) :
    (s.haltRank r kind src).events = s.events ∧ (s.haltRank r kind src).host = s.host ∧ (s.haltRank r kind src).mem = s.mem ∧
      (s.haltRank r kind src).cores = s.cores ∧ (s.haltRank r kind src).links = s.links := by
  unfold State.haltRank
  split <;> exact ⟨rfl, rfl, rfl, rfl, rfl⟩

/-- A quarantined channel: both ends are stopped, it is reported, and the die's partition halts by abort. -/
theorem quarantineMesh_spec (s : State) (d : Nat) (dir : Dir) {lane : Nat} (hl : lane < 16) :
    (s.quarantineMesh d dir lane).dlink d dir lane = 2 ∧
    (∀ o, s.dieAcross d dir = some o → (s.quarantineMesh d dir lane).dlink o dir.opp lane = 2) ∧
    (∀ p, s.partOfRank (rankOfDie d) = some p → ((s.quarantineMesh d dir lane).part p).haltPend.map (·.1) = some .abort ∧
      ∀ q, q ≠ p → (s.quarantineMesh d dir lane).part q = s.part q) ∧
    ((s.quarantineMesh d dir lane).events.map (·.type) = s.events.map (·.type) ++ [0x0012] ∨
      (s.quarantineMesh d dir lane).host.evLost = s.host.evLost + 1) ∧
    (s.quarantineMesh d dir lane).mem = s.mem ∧ (s.quarantineMesh d dir lane).cores = s.cores ∧
    (s.quarantineMesh d dir lane).links = s.links := by
  have hreg (o lo len : Nat) : (s.quarantineMesh d dir lane).regF o lo len = (bothStopped s d dir lane).regF o lo len := by
    rw [quarantineMesh_eq, State.regF, haltRank_reg, Units.reg_raiseFree, State.regF]
  have hnear := dlink_bothStopped_near s d dir hl
  have hfar {o : Nat} (ho : s.dieAcross d dir = some o) := dlink_bothStopped_far s d dir hl ho
  refine ⟨dlink_of_field ((hreg ..).trans hnear), fun o ho => dlink_of_field ((hreg ..).trans (hfar ho)), ?_⟩
  rw [quarantineMesh_eq]
  obtain ⟨r, hb⟩ := bothStopped_regs s d dir lane
  rw [hb]
  generalize (s.partOfRank (rankOfDie d)).getD 0 = n
  obtain ⟨hparts, hmem, hcores, hlinks⟩ := raiseFree_frame { s with regs := r } 0x0012 n
  have hposts := raiseFree_posts { s with regs := r } 0x0012 n
  have hrank : ({ s with regs := r }.raiseFree 0x0012 n).partOfRank (rankOfDie d) = s.partOfRank (rankOfDie d) := by
    rw [State.partOfRank, hparts, State.partOfRank]
  generalize ({ s with regs := r } : State).raiseFree 0x0012 n = u at *
  generalize HaltSrc.quarantine _ _ = src
  obtain ⟨hev, hhost, hmem', hcores', hlinks'⟩ := haltRank_frame u (rankOfDie d) .abort src
  refine ⟨fun p hp => ?_, ?_, hmem'.trans hmem, hcores'.trans hcores, hlinks'.trans hlinks⟩
  · obtain ⟨habort, hothers⟩ := part_haltRank_abort (hrank.trans hp) src
    exact ⟨habort, fun q hq => (hothers q hq).trans (by rw [State.part, hparts, State.part])⟩
  · rw [hev, hhost]
    exact hposts

/-- Settles O27: the commands of a link end by what `quarantineMesh_spec` and `control_spec` say of the end they act on. -/
theorem linksReportTheirStateAndQuarantine : Obligations.LinksReportTheirStateAndQuarantine := by
  unfold Obligations.LinksReportTheirStateAndQuarantine
  refine ⟨fun s e => ⟨fun h => ?_, ?_⟩, fun s e => ⟨interval_of_idle, fun hf hs ho => ?_⟩⟩
  · cases e with
    | mesh => cases h
    | _ => rfl
  · rintro d dir lane seg rfl owed
    have howed : s.meshOwed d dir lane seg = true ↔ owed := meshOwed_iff ..
    have hrun : exec (.quarantine (.mesh d dir lane seg)) s = .next (if s.meshUp d dir lane seg && ((s.link (.mesh d dir lane seg)).failed ||
      s.meshOwed d dir lane seg) then s.quarantineMesh d dir lane else s) := rfl
    refine ⟨fun h => hrun.trans (congrArg Host.Outcome.next (if_neg ?_)),
      fun hup h => ⟨_, hrun.trans (congrArg Host.Outcome.next (if_pos ?_)), ?_⟩⟩
    · rw [Bool.and_eq_true, Bool.or_eq_true, howed]
      rintro ⟨hup, hgo⟩
      rcases h with h | ⟨hf, ho⟩
      · rw [h] at hup
        cases hup
      · rcases hgo with hgo | hgo
        · rw [hf] at hgo
          cases hgo
        · exact ho hgo
    · rw [Bool.and_eq_true, Bool.or_eq_true, howed]
      exact ⟨hup, h⟩
    · obtain ⟨hnear, hfar, hrest⟩ := quarantineMesh_spec s d dir lane.isLt
      exact ⟨hnear, fun o ho _ => hfar o ho, hrest⟩
  · have hty : (if 0 < (s.link e).sinceAck then 3 else 2) < 8 := by split <;> decide
    obtain ⟨c, m, o, hk, hty, hseq, howe, hcred⟩ := control_spec e hty (s.link e)
    refine ⟨_, interval_of_running hf hs ho, rfl, c, ?_⟩
    rw [State.link_modLink, hk]
    exact ⟨rfl, hty, hseq, rfl, howe, hcred, rfl, rfl⟩

end Sys2Proof.LinkEnds
end

section
/-! The scheduled mesh: what a switch faces, what its sends, acknowledgements and returned credits touch, and the output engines (R191,
R195 to R197, R202). -/
namespace Sys2Proof.MeshMoves

open Sys2Proof.Machine Sys2Proof.Claims Sys2Proof.Ecc

/-! ### What a change of one core leaves of another -/

/-- What a function of a core gives that an update, of whichever core, keeps. -/
theorem core_modCore_field {α : Type} (g : Core → α) {f : Core → Core} (hf : ∀ c, g (f c) = g c) (s : State) (j k : Nat) :
    g ((s.modCore j f).core k) = g (s.core k) := by
  by_cases h : k = j
  · rw [h, State.core_modCore, hf]
  · rw [State.core_modCore_ne s f h]

/-- The same of a switch. -/
theorem modSw_field {α : Type} (g : Switch → α) {f : Switch → Switch} (hf : ∀ w, g (f w) = g w) (s : State) (j k : Nat) :
    g ((s.modCore j (fun c => c.modSw f)).core k).sw = g (s.core k).sw :=
  core_modCore_field (fun c => g c.sw) (fun c => hf c.sw) s j k

theorem modSw_self (s : State) (k : Nat) (f : Switch → Switch) : ((s.modCore k (fun c => c.modSw f)).core k).sw = f (s.core k).sw := by
  rw [State.core_modCore, Core.modSw]

theorem sget_smod_self {α : Type} [DecidableEq α] (d : α) (m : SMap α) (k : Nat) (f : α → α) : sget d (smod d m k f) k = f (sget d m k) :=
  sget_sput_self ..

/-! ### What a switch faces (R185 to R188) -/

theorem coreHole_of_regs {s t : State} (h : t.regs = s.regs) (d m : Nat) : t.coreHole d m = s.coreHole d m := by
  simp only [State.coreHole, State.regF, State.reg, h]

theorem hop_of_regs {s t : State} (h : t.regs = s.regs) (k : Nat) (dir : Dir) : t.hop k dir = s.hop k dir := by
  simp only [State.hop, coreHole_of_regs h]

@[simp] theorem hop_modCore (s : State) (j : Nat) (f : Core → Core) (k : Nat) (dir : Dir) : (s.modCore j f).hop k dir = s.hop k dir :=
  hop_of_regs rfl k dir

/-! ### Sending on an output (R191, R202) -/

/-- A credit spent on an output. -/
def spendOne (o : Dir) (w : Switch) : Switch := { w with spent := smod 0 w.spent o.idx (· + 1) }

/-- A transfer on its way to an input. -/
def putOnWire (i : Dir) (data : BitVec 256) (w : Switch) : Switch := { w with wire := smod [] w.wire i.idx (· ++ [data]) }

/-- A transfer that leaves a die: its DATA flit joins the replay buffer, a credit is spent and an acknowledgement awaited. -/
def sendFlit (data : BitVec 256) (l : Link) : Link := { l.sendMesh data with spent := smod 0 l.spent 0 (· + 1), awaited := l.awaited + 1 }

section sendOut

variable {s : State} {k : Nat} {o : Dir} (data : BitVec 256)

theorem sendOut_core {u : Nat} (h : s.hop k o = .core u) : s.sendOut k o data =
    (s.modCore k (fun c => c.modSw (spendOne o))).modCore u (fun c => c.modSw (putOnWire o.opp data)) := by
  unfold State.sendOut
  rw [h]
  rfl

theorem sendOut_edge {d lane : Nat} {dir : Dir} (h : s.hop k o = .edge d dir lane) : s.sendOut k o data =
    s.modLink (segEnd d dir lane 0) (sendFlit data) := by
  unfold State.sendOut
  rw [h]
  rfl

/-- A send touches credits and wires of the switches alone. -/
theorem sendOut_switch {α : Type} (g : Switch → α) (hg : ∀ w a b, g { w with spent := a, wire := b } = g w) (j : Nat) :
    g ((s.sendOut k o data).core j).sw = g (s.core j).sw := by
  cases h : s.hop k o with
  | none => unfold State.sendOut; rw [h]
  | core u =>
    rw [sendOut_core data h]
    exact (modSw_field g (fun w => hg w w.spent _) _ u j).trans (modSw_field g (fun w => hg w _ w.wire) s k j)
  | edge d dir lane => rw [sendOut_edge data h, State.modLink_core_at]

theorem sendOut_mem : (s.sendOut k o data).mem = s.mem := by
  unfold State.sendOut
  split <;> rfl

/-- A send leaves the cores that the switch does not face, its own apart. -/
theorem sendOut_core_ne {j : Nat} (hk : j ≠ k) (hh : s.hop k o ≠ .core j) : (s.sendOut k o data).core j = s.core j := by
  cases h : s.hop k o with
  | none => unfold State.sendOut; rw [h]
  | core u =>
    have hu : j ≠ u := fun e => hh (by rw [h, e])
    rw [sendOut_core data h, State.core_modCore_ne _ _ hu, State.core_modCore_ne _ _ hk]
  | edge d dir lane => rw [sendOut_edge data h, State.modLink_core_at]

end sendOut

/-! ### TRANSFER_SEND (R195, R196) -/

/-- What the output engine of a direction counts for the transfer of number n that it sends. -/
def countSent (dir : Dir) (n : Nat) (w : Switch) : Switch :=
  { w with
    outSent := sput 0 w.outSent dir.idx (n + 1)
    unack := smod 0 w.unack dir.idx (· + 1)
    sent := BitVec.ofNat 32 (satAdd 32 w.sent.toNat 1) }

/-- The state in which the output engine has sent the transfer of number n. -/
def sending (r : State) (k : Nat) (dir : Dir) (n : Nat) (data : BitVec 256) : State :=
  (r.modCore k (fun c => c.modSw (countSent dir n))).sendOut k dir data

/-- An engine of a core has read at most: its switch, the other cores, memory, links and registers are as before. -/
structure ReadBy (k : Nat) (s r : State) : Prop where
  sw : (r.core k).sw = (s.core k).sw
  others : ∀ j, j ≠ k → r.core j = s.core j
  mem : r.mem = s.mem
  links : r.links = s.links
  regs : r.regs = s.regs

theorem ReadBy.sw_at {k : Nat} {s r : State} (h : ReadBy k s r) (j : Nat) : (r.core j).sw = (s.core j).sw := by
  by_cases hj : j = k
  · rw [hj, h.sw]
  · rw [h.others j hj]

theorem ReadBy.refl (k : Nat) (s : State) : ReadBy k s s := ⟨rfl, fun _ _ => rfl, rfl, rfl, rfl⟩

theorem engineRead_sw (c : Core) (ws : List Nat) : (c.engineRead ws).sw = c.sw := (errors_engineRead c ws).field Core.sw rfl

theorem readBy_engineRead (k : Nat) (s : State) (ws : List Nat) : ReadBy k s (s.modCore k (fun c => c.engineRead ws)) :=
  ⟨by rw [State.core_modCore, engineRead_sw], fun _ hj => State.core_modCore_ne s _ hj, rfl, rfl, rfl⟩

section sending

variable {k : Nat} {s r : State} (hr : ReadBy k s r) (dir : Dir) (n : Nat) (data : BitVec 256)
include hr

theorem hop_counted : (r.modCore k (fun c => c.modSw (countSent dir n))).hop k dir = s.hop k dir := hop_of_regs hr.regs k dir

/-- What a send leaves of its switch is what the engine has counted there. -/
theorem sending_switch {α : Type} (g : Switch → α) (hg : ∀ w a b, g { w with spent := a, wire := b } = g w) :
    g ((sending r k dir n data).core k).sw = g (countSent dir n (s.core k).sw) := by
  rw [sending, sendOut_switch data g hg, State.core_modCore, Core.modSw, hr.sw]

theorem sending_mem : (sending r k dir n data).mem = s.mem := (sendOut_mem data).trans hr.mem

theorem sending_core_ne {j : Nat} (hj : j ≠ k) (hh : s.hop k dir ≠ .core j) : (sending r k dir n data).core j = s.core j := by
  rw [sending, sendOut_core_ne data hj (by rwa [hop_counted hr]), State.core_modCore_ne _ _ hj, hr.others j hj]

/-- A transfer to a neighbour on the die spends a credit and is on its way to the neighbour's input. -/
theorem sending_core {u : Nat} (h : s.hop k dir = .core u) : (sending r k dir n data).links = s.links ∧
    sget 0 ((sending r k dir n data).core k).sw.spent dir.idx = sget 0 (s.core k).sw.spent dir.idx + 1 ∧
    sget [] ((sending r k dir n data).core u).sw.wire dir.opp.idx = sget [] (s.core u).sw.wire dir.opp.idx ++ [data] ∧
    (u ≠ k → ∃ m, (sending r k dir n data).core u = { s.core u with sw := { (s.core u).sw with wire := m } }) := by
  rw [sending, sendOut_core data ((hop_counted hr dir n).trans h)]
  refine ⟨?_, ?_, ?_, fun hu => ?_⟩
  · rw [State.modCore_links, State.modCore_links, State.modCore_links, hr.links]
  · rw [modSw_field Switch.spent (f := putOnWire dir.opp data) (fun _ => rfl), modSw_self, spendOne, sget_smod_self,
      modSw_field Switch.spent (f := countSent dir n) (fun _ => rfl), hr.sw]
  · rw [modSw_self, putOnWire, sget_smod_self, modSw_field Switch.wire (f := spendOne dir) (fun _ => rfl),
      modSw_field Switch.wire (f := countSent dir n) (fun _ => rfl), hr.sw_at]
  · rw [State.core_modCore, State.core_modCore_ne _ _ hu, State.core_modCore_ne _ _ hu, hr.others u hu]
    exact ⟨smod [] (s.core u).sw.wire dir.opp.idx (· ++ [data]), rfl⟩

/-- A transfer to another die joins the replay buffer of its channel in a DATA flit, and spends a credit of the channel. -/
theorem sending_edge {d lane : Nat} {o : Dir} (h : s.hop k dir = .edge d o lane) :
    ((sending r k dir n data).link (segEnd d o lane 0)).replay = (s.link (segEnd d o lane 0)).replay ++
      [mkFlit data.toNat ((s.link (segEnd d o lane 0)).sendSeq % 128) (0x10 + min 15 (sget 0 (s.link (segEnd d o lane 0)).owe 0))] ∧
    ((sending r k dir n data).link (segEnd d o lane 0)).sendSeq = (s.link (segEnd d o lane 0)).sendSeq + 1 ∧
    sget 0 ((sending r k dir n data).link (segEnd d o lane 0)).spent 0 = sget 0 (s.link (segEnd d o lane 0)).spent 0 + 1 ∧
    ((sending r k dir n data).link (segEnd d o lane 0)).awaited = (s.link (segEnd d o lane 0)).awaited + 1 ∧
    ((sending r k dir n data).core k).sw.spent = (s.core k).sw.spent := by
  have hlink : (r.modCore k (fun c => c.modSw (countSent dir n))).link (segEnd d o lane 0) = s.link (segEnd d o lane 0) := by
    rw [State.link, State.modCore_links, hr.links, State.link]
  rw [sending, sendOut_edge data ((hop_counted hr dir n).trans h), State.link_modLink, hlink]
  refine ⟨rfl, rfl, ?_, rfl, ?_⟩
  · rw [sendFlit, sget_smod_self]
  · rw [State.modLink_core_at, modSw_field Switch.spent (f := countSent dir n) (fun _ => rfl), hr.sw]

end sending

/-- The reasons for which an output engine sends nothing. -/
def Blocked (s : State) (k : Nat) (dir : Dir) : Prop :=
  (s.core k).sw.active = false ∨ s.meshOn (dieOf k) = false ∨ xcOut (s.core k).sw.xc dir ≠ 1 ∨ (s.core k).sw.drains ≠ 0 ∨
    (s.core k).sw.setWait = true ∨ s.outReady k dir = false

section command

variable {s : State} {k : Fin 39168} {dir : Dir}

theorem transferSend_of_ended (h : listAt (s.outList k dir) (sget 0 (s.core k).sw.outSent dir.idx) = none) :
    exec (.transferSend k dir) s = .next s := by
  refine congrArg Host.Outcome.next ?_
  rw [h]

theorem transferSend_of_blocked (h : Blocked s k dir) : exec (.transferSend k dir) s = .next s := by
  refine congrArg Host.Outcome.next ?_
  split
  · rfl
  · exact if_pos h

variable {e : XEntry} {i : Nat} (he : listAt (s.outList k dir) (sget 0 (s.core k).sw.outSent dir.idx) = some (e, i))
  (hb : ¬ Blocked s k dir)
include he hb

theorem transferSend_of_zero (hz : e.zero = true) :
    exec (.transferSend k dir) s = .next (sending s k dir (sget 0 (s.core k).sw.outSent dir.idx) 0) := by
  refine congrArg Host.Outcome.next ?_
  rw [he]
  exact (if_neg hb).trans (if_pos hz)

theorem transferSend_of_row (hz : e.zero = false) (hrow : (s.core k).badRow (wordsOf (entryAddr e i) 32) = none) :
    exec (.transferSend k dir) s = .next (sending (s.modCore k (fun c => c.engineRead (wordsOf (entryAddr e i) 32))) k dir
      (sget 0 (s.core k).sw.outSent dir.idx) (BitVec.ofNat 256 (leNat (s.spadRd k (entryAddr e i) 32)))) := by
  refine congrArg Host.Outcome.next ?_
  rw [he]
  refine (if_neg hb).trans ((if_neg (by rw [hz]; decide)).trans ?_)
  rw [hrow]
  rfl

theorem transferSend_of_poisoned {r : Nat} (hz : e.zero = false) (hrow : (s.core k).badRow (wordsOf (entryAddr e i) 32) = some r) :
    exec (.transferSend k dir) s =
      .next ((s.modCore k (fun c => c.engineRead (wordsOf (entryAddr e i) 32))).engineExc k (excEcc 0xF r)) := by
  refine congrArg Host.Outcome.next ?_
  rw [he]
  refine (if_neg hb).trans ((if_neg (by rw [hz]; decide)).trans ?_)
  rw [hrow]

end command

theorem satAdd_toNat (v : W32) (n : Nat) : (BitVec.ofNat 32 (satAdd 32 v.toNat n)).toNat = min (2 ^ 32 - 1) (v.toNat + n) := by
  rw [BitVec.toNat_ofNat, satAdd]
  exact Nat.mod_eq_of_lt (by omega)

/-- The counters of a send: the list position and the unacknowledged transfers go one on, and so does XCH_SENT, which saturates. -/
theorem sending_counts {k : Nat} {s r : State} (hr : ReadBy k s r) (dir : Dir) (n : Nat) (data : BitVec 256) :
    ((sending r k dir n data).core k).sw.unack = smod 0 (s.core k).sw.unack dir.idx (· + 1) ∧
    sget 0 ((sending r k dir n data).core k).sw.outSent dir.idx = n + 1 ∧
    ((sending r k dir n data).core k).sw.sent.toNat = min (2 ^ 32 - 1) ((s.core k).sw.sent.toNat + 1) ∧
    ((sending r k dir n data).core k).sw.fifo = (s.core k).sw.fifo := by
  refine ⟨sending_switch hr dir n data Switch.unack (fun _ _ _ => rfl), ?_, ?_, sending_switch hr dir n data Switch.fifo (fun _ _ _ => rfl)⟩
  · rw [sending_switch hr dir n data Switch.outSent (fun _ _ _ => rfl), countSent, sget_sput_self]
  · rw [sending_switch hr dir n data Switch.sent (fun _ _ _ => rfl), countSent, satAdd_toNat]

/-- Settles O24: what the output engine does is `sending`, from the row that it reads or from zero; a poisoned row leaves its exception. -/
theorem outputEnginesSendTheirList : Obligations.OutputEnginesSendTheirList := by
  unfold Obligations.OutputEnginesSendTheirList
  intro s k dir c w n blocked
  refine ⟨transferSend_of_ended, transferSend_of_blocked, fun e i he hb => ?_⟩
  intro a data
  refine ⟨fun h => ?_, fun r hz hrow hst => ?_⟩
  · obtain ⟨r, hr, hrun⟩ : ∃ r, ReadBy k s r ∧ exec (.transferSend k dir) s = .next (sending r k dir n data) := by
      by_cases hz : e.zero = true
      · rw [show data = 0 from if_pos hz]
        exact ⟨s, .refl k s, transferSend_of_zero he hb hz⟩
      · rw [show data = _ from if_neg hz]
        exact ⟨_, readBy_engineRead k s _, transferSend_of_row he hb (Bool.not_eq_true _ ▸ hz) (h.resolve_left hz)⟩
    obtain ⟨hunack, hsent, hcount, hfifo⟩ := sending_counts hr dir n data
    exact ⟨_, hrun, hunack, hsent, hcount, hfifo, fun u hu => sending_core hr dir n data hu, fun d o lane hd => sending_edge hr dir n data hd,
      sending_mem hr dir n data, fun j hj hh => sending_core_ne hr dir n data hj hh⟩
  · have hread := errors_engineRead c (wordsOf a 32)
    refine ⟨_, transferSend_of_poisoned he hb hz hrow, ?_⟩
    rw [CoreTempo.engineExc_of_running _ (by rw [State.core_modCore]; exact (hread.field Core.st rfl).trans hst), State.modCore_modCore,
      State.core_modCore]
    exact ⟨congrArg (· ++ _) (hread.field Core.excPend rfl), hread.field Core.sw rfl, rfl, rfl⟩

end Sys2Proof.MeshMoves
end

section
/-! A switch whose transfers cannot leave, and what enters its input FIFOs (R185, R191). -/
namespace Sys2Proof.MeshMoves

open Sys2Proof.Machine Sys2Proof.Claims Sys2Proof.Ecc

@[simp] theorem meshOn_modCore (s : State) (j : Nat) (f : Core → Core) (d : Nat) : (s.modCore j f).meshOn d = s.meshOn d := by
  rw [State.meshOn, State.die, State.modCore_dies, State.meshOn, State.die]

/-- A transfer in an input FIFO. -/
def intoFifo (i : Dir) (data : BitVec 256) (w : Switch) : Switch := { w with fifo := smod [] w.fifo i.idx (· ++ [data]) }

section rest

variable {s : State} {k : Nat}

/-- Work on switches of which none has a transfer that can leave changes nothing. -/
theorem runSwitches_of_none (fuel : Nat) (ks : List Nat) (h : ∀ j ∈ ks, dirs.find? (s.canLeave j) = none) :
    State.runSwitches fuel ks s = s := by
  induction ks generalizing fuel with
  | nil => cases fuel <;> rfl
  | cons j ks ih =>
    cases fuel with
    | zero => rfl
    | succ fuel =>
      rw [State.runSwitches, h j List.mem_cons_self]
      exact ih fuel (fun i hi => h i (List.mem_cons_of_mem _ hi))

variable (ha : (s.core k).sw.active = false) (hs : (s.core k).sw.standing = false)
include ha hs

/-- No transfer leaves a switch without a cross-connect. -/
theorem find_canLeave_of_off : dirs.find? (s.canLeave k) = none := by
  refine List.find?_eq_none.mpr fun i _ => ?_
  simp only [State.canLeave, Switch.on, ha, hs, Bool.or_self, Bool.false_and]
  exact Bool.false_ne_true

theorem runSwitch_of_off : s.runSwitch k = s :=
  runSwitches_of_none _ _ fun j hj => by rw [List.mem_singleton.mp hj]; exact find_canLeave_of_off ha hs

/-- What enters an input of such a switch stays in the input's FIFO. -/
theorem enterFifo_of_off {i : Dir} (h : (sget [] (s.core k).sw.fifo i.idx).length < s.fifoMax k i) (data : BitVec 256) :
    s.enterFifo k i data = s.modCore k (fun c => c.modSw (intoFifo i data)) := by
  refine (if_pos h).trans (runSwitch_of_off ?_ ?_)
  · rw [modSw_self, ← ha]
  · rw [modSw_self, ← hs]

end rest

end Sys2Proof.MeshMoves
end

section
/-! What a link end takes of a flit that reaches it: CRC failures, flits in order and out of order, and acknowledgements (R201, R202,
R278, R279). -/
namespace Sys2Proof.LinkEnds

open Sys2Proof.Machine Sys2Proof.Claims Sys2Proof.TempoPorts Sys2Proof.Flits

/-! ### A flit reaches its end -/

theorem modLink_modLink (s : State) (l : LinkEnd) (f g : Link → Link) : (s.modLink l f).modLink l g = s.modLink l (fun k => g (f k)) := by
  simp only [State.modLink, smod_smod]

theorem link_countReg (s : State) (o n : Nat) (e : LinkEnd) : (s.countReg o n).link e = s.link e := rfl

theorem linksRegs_countReg (s : State) (o n : Nat) : LinksRegs s (s.countReg o n) := ⟨_, _, rfl⟩

theorem arriving_of_hears {s : State} {e : LinkEnd} (h : Hears s e) (f : BitVec 288) : s.arriving e f = (s, f) := by
  unfold State.arriving
  rw [h.1]
  rfl

/-- The commands of control flits by the type that they name. -/
def ControlOf (e : LinkEnd) (f : BitVec 288) (ty : Nat) (i : Instr) : Prop :=
  (ty = 2 ∧ i = .idleFlit e f) ∨ (ty = 3 ∧ i = .ackFlit e f) ∨ (ty = 4 ∧ i = .nakFlit e f)

/-- What a link end of either kind does with a DATA flit, and with a control flit whose command names a type. -/
def dataTaken (s : State) (e : LinkEnd) (f : BitVec 288) : State :=
  match e with
  | .mesh d dir lane seg => s.meshData d dir lane seg f
  | _ => s.fabricData e f

def controlTaken (s : State) (e : LinkEnd) (ty : Nat) (f : BitVec 288) : State :=
  match e with
  | .mesh d dir lane seg => s.meshControl d dir lane seg ty f
  | _ => s.fabricControl e ty f

section commands

variable {s : State} {e : LinkEnd} {f : BitVec 288} {ty : Nat}

theorem exec_dataFlit (h : Hears s e) : exec (.dataFlit e f) s = .next (dataTaken s e f) := by
  have hrun : exec (.dataFlit e f) s = .next (dataTaken (s.arriving e f).1 e (s.arriving e f).2) := by cases e <;> rfl
  rw [hrun, arriving_of_hears h]

theorem exec_controlFlit (h : Hears s e) {i : Instr} (hi : ControlOf e f ty i) : exec i s = .next (controlTaken s e ty f) := by
  have hrun : exec i s = .next (controlTaken (s.arriving e f).1 e ty (s.arriving e f).2) := by
    rcases hi with ⟨rfl, rfl⟩ | ⟨rfl, rfl⟩ | ⟨rfl, rfl⟩ <;> cases e <;> rfl
  rw [hrun, arriving_of_hears h]

variable (he : e.isMesh = false)
include he

theorem dataTaken_fabric : dataTaken s e f = s.fabricData e f := by
  cases e with
  | mesh => cases he
  | _ => rfl

theorem controlTaken_fabric : controlTaken s e ty f = s.fabricControl e ty f := by
  cases e with
  | mesh => cases he
  | _ => rfl

/-- A link end of the fabric that hears runs. -/
theorem runs_of_hears (h : Hears s e) : (s.link e).failed = false ∧ (s.link e).stopped = false := by
  cases e with
  | mesh => cases he
  | _ => exact h.2

end commands

/-! ### A flit that fails its CRC (R202, R279) -/

/-- Failures of one flit in a row that mark a link failed. -/
def replayLimit (s : State) (e : LinkEnd) : Nat := if e.isMesh then s.regF Reg.mshCfg 16 8 else s.regF Reg.pkfCfg 8 8

/-- Does the flit carry the number that is expected? -/
def inOrder (s : State) (e : LinkEnd) (f : BitVec 288) : Bool := flitByte f 32 % e.seqMod == (s.link e).expSeq % e.seqMod

/-- Failures in a row, with this one where it counts: of a DATA flit that is the first to fail, or the expected one again. -/
def failCount (k : Link) (isData seqOk : Bool) : Nat := if isData && (!k.nakked || seqOk) then k.fails + 1 else k.fails

/-- A failure is answered with NAK, counted, and at the limit marks the link failed. -/
theorem crcFailed_eq (e : LinkEnd) (k : Link) (limit : Nat) (isData seqOk : Bool) : ∃ c m o, k.crcFailed e.isMesh limit isData seqOk =
      { k with
        fails := failCount k isData seqOk, nakked := true, ctl := some c, credSent := m, owe := o, sinceAck := 0, uncovered := false
        failed := k.failed || (isData && decide (max 1 limit ≤ failCount k isData seqOk)) } ∧ flitType e c = 4 := by
  obtain ⟨c, m, o, hk, hty, -⟩ := control_spec e (show 4 < 8 by decide) { k with fails := failCount k isData seqOk, nakked := true }
  exact ⟨c, m, o, congrArg (fun q : Link =>
    { q with failed := k.failed || (isData && decide (max 1 limit ≤ failCount k isData seqOk)) }) hk, hty⟩

/-- The state that a failure leaves. -/
structure Fails (s : State) (e : LinkEnd) (f : BitVec 288) (isData : Bool) (t : State) : Prop where
  frame : LinksRegs s t
  link : t.link e = (s.link e).crcFailed e.isMesh (replayLimit s e) isData (inOrder s e f)

section fails

variable {s : State} {e : LinkEnd} {f : BitVec 288}

theorem fails_mesh (d : Fin 144) (dir : Dir) (lane : Fin 16) (seg : Fin 3) (isData : Bool) :
    Fails s (.mesh d dir lane seg) f isData (s.meshCrcFail d dir lane seg isData f) := by
  unfold State.meshCrcFail
  rw [segEnd_val]
  exact ⟨(linksRegs_modLink ..).trans (linksRegs_countReg ..), by rw [link_countReg, State.link_modLink]; rfl⟩

theorem fails_fabric (he : e.isMesh = false) (isData : Bool) : Fails s e f isData (s.fabricCrcFail e isData f) := by
  have near : Fails s e f isData (s.modLink e (fun k => k.crcFailed false s.pkfLimit isData (flitByte f 32 == k.expSeq % 256))) := by
    refine ⟨linksRegs_modLink .., ?_⟩
    have hmod : e.seqMod = 256 := by rw [LinkEnd.seqMod, he]; rfl
    rw [State.link_modLink, inOrder, replayLimit, he, hmod, Nat.mod_eq_of_lt (flitByte_lt f 32)]
    rfl
  unfold State.fabricCrcFail
  dsimp only
  split
  · exact ⟨near.frame.trans (linksRegs_countReg ..), (link_countReg ..).trans near.link⟩
  · exact near

/-- A DATA flit that fails, and a control flit that fails, by the kind of the link. -/
theorem fails_dataTaken (h : Hears s e) (hok : flitOk f = false) : Fails s e f true (dataTaken s e f) := by
  rcases he : e.isMesh with _ | _
  · obtain ⟨hf, hs⟩ := runs_of_hears he h
    rw [dataTaken_fabric he, State.fabricData, hf, hs, if_neg (by decide), if_pos hok]
    exact fails_fabric he true
  · cases e with
    | mesh d dir lane seg =>
      have hup := h.2
      rw [dataTaken, State.meshData, hup, if_neg (by decide), if_pos hok]
      exact fails_mesh d dir lane seg true
    | _ => cases he

theorem fails_controlTaken (h : Hears s e) (hok : flitOk f = false) (ty : Nat) : Fails s e f false (controlTaken s e ty f) := by
  rcases he : e.isMesh with _ | _
  · obtain ⟨hf, hs⟩ := runs_of_hears he h
    rw [controlTaken_fabric he, State.fabricControl, hf, if_neg (by decide), if_pos hok]
    exact fails_fabric he false
  · cases e with
    | mesh d dir lane seg =>
      have hup := h.2
      rw [controlTaken, State.meshControl, hup, if_neg (by decide), if_pos hok]
      exact fails_mesh d dir lane seg false
    | _ => cases he

end fails

end Sys2Proof.LinkEnds
end

section
/-! DATA flits in order and out of order, on a channel of the mesh and on a fabric link (R202, R278). -/
namespace Sys2Proof.LinkEnds

open Sys2Proof.Machine Sys2Proof.Claims Sys2Proof.TempoPorts Sys2Proof.Flits Sys2Proof.MeshMoves

/-! ### What a link end does with the number of a flit -/

/-- The first flit out of order is answered with NAK. -/
theorem gap_eq (e : LinkEnd) {k : Link} (h : k.nakked = false) : ∃ c m o, k.gap e.isMesh =
    { k with nakked := true, ctl := some c, credSent := m, owe := o, sinceAck := 0, uncovered := false } ∧ flitType e c = 4 := by
  obtain ⟨c, m, o, hk, hty, -⟩ := control_spec e (show 4 < 8 by decide) { k with nakked := true }
  exact ⟨c, m, o, (if_neg (by rw [h]; decide)).trans hk, hty⟩

theorem gap_of_nakked (e : LinkEnd) {k : Link} (h : k.nakked = true) : k.gap e.isMesh = k := if_pos h

/-- A flit in order is counted, and at every sixteenth acknowledged. -/
theorem accept_eq (e : LinkEnd) (k : Link) : ∃ n c m o u, k.accept e.isMesh =
    { k with expSeq := k.expSeq + 1, fails := 0, nakked := false, sinceAck := n, ctl := c, credSent := m, owe := o, uncovered := u } := by
  unfold Link.accept
  dsimp only
  split
  · obtain ⟨c, m, o, hk, -⟩ := control_spec e (show 3 < 8 by decide)
      { k with expSeq := k.expSeq + 1, fails := 0, nakked := false, sinceAck := k.sinceAck + 1 }
    exact ⟨0, some c, m, o, false, hk⟩
  · exact ⟨_, _, _, _, _, rfl⟩

/-- A link end with other counts of the credits that have come back. -/
def withCred (m : SMap Nat) (l : Link) : Link := { l with credRcvd := m }

theorem withCred_credRcvd (m : SMap Nat) (l : Link) : (withCred m l).credRcvd = m := rfl
theorem withCred_dackRcvd (m : SMap Nat) (l : Link) : (withCred m l).dackRcvd = l.dackRcvd := rfl

/-- The CRED field of a flit that carries no credits leaves the count of its channel, modulo 2^16. -/
theorem meshCred_of_zero {f : BitVec 288} (h0 : flitByte f 33 % 16 = 0) (s : State) (d : Fin 144) (dir : Dir) (lane : Fin 16) (seg : Fin 3) :
    ∃ m, s.meshCred d dir lane seg f = s.modLink (.mesh d dir lane seg) (withCred m) ∧
      sget 0 m 0 = sget 0 (s.link (.mesh d dir lane seg)).credRcvd 0 % 2 ^ 16 := by
  refine ⟨smod 0 (s.link (.mesh d dir lane seg)).credRcvd 0 (· % 2 ^ 16), ?_, sget_smod_self ..⟩
  unfold State.meshCred State.meshCredits
  rw [segEnd_val, h0]
  rfl

section mesh

variable {s : State} {d : Fin 144} {dir : Dir} {lane : Fin 16} {seg : Fin 3} {f : BitVec 288} (h : Hears s (.mesh d dir lane seg))
  (hok : flitOk f = true) (hty : flitType (.mesh d dir lane seg) f = 1) (h0 : flitByte f 33 % 16 = 0)
include h hok hty h0

/-- A DATA flit of a channel that carries no credits, in order or not. -/
theorem meshData_eq : ∃ m,
    (flitByte f 32 % 128 ≠ (s.link (.mesh d dir lane seg)).expSeq % 128 →
      s.meshData d dir lane seg f = s.modLink (.mesh d dir lane seg) (fun l => (withCred m l).gap true)) ∧
    (flitByte f 32 % 128 = (s.link (.mesh d dir lane seg)).expSeq % 128 →
      s.meshData d dir lane seg f =
        if seg.val = 0 then (s.modLink (.mesh d dir lane seg) (fun l => (withCred m l).accept true)).enterFifo
          (s.edgeSite d dir lane) dir (flitData f)
        else (s.modLink (.mesh d dir lane seg) (fun l => (withCred m l).accept true)).modLink
          (relayEnd d dir lane seg) (fun l => l.relayMesh (flitData f))) := by
  obtain ⟨m, hm, -⟩ := meshCred_of_zero h0 s d dir lane seg
  have hexp : ((s.modLink (.mesh d dir lane seg) (withCred m)).link (.mesh d dir lane seg)).expSeq =
      (s.link (.mesh d dir lane seg)).expSeq := by rw [State.link_modLink, withCred]
  have hrun : s.meshData d dir lane seg f = _ := (if_neg (by rw [h.2]; decide)).trans
    ((if_neg (by rw [hok]; decide)).trans (if_neg (not_not.mpr hty)))
  rw [hm, segEnd_val] at hrun
  dsimp only at hrun
  rw [hexp, modLink_modLink, modLink_modLink] at hrun
  exact ⟨m, fun hseq => hrun.trans (if_neg hseq), fun hseq => hrun.trans (if_pos hseq)⟩

end mesh

/-! ### A retimer passes a flit's data on (R202) -/

section relay

variable (d : Fin 144) (dir : Dir) (lane : Fin 16) {seg : Fin 3}

theorem relayEnd_ne (h : seg ≠ 0) : linkKey (relayEnd d dir lane seg) ≠ linkKey (.mesh d dir lane seg) := by
  fin_cases seg
  · exact absurd rfl h
  · simp [relayEnd, segEnd, linkKey]
  · simp [relayEnd, segEnd, linkKey]

end relay

/-- Data leave on the next segment, or wait while its replay buffer is full or others wait. -/
theorem relayMesh_spec (k : Link) (data : BitVec 256) :
    (k.wait = [] → k.replay.length < 64 → ∃ g, (k.relayMesh data).replay = k.replay ++ [g] ∧ flitData g = data) ∧
    (k.wait ≠ [] ∨ 64 ≤ k.replay.length → (k.relayMesh data).wait = k.wait ++ [data] ∧ (k.relayMesh data).replay = k.replay) := by
  unfold Link.relayMesh
  refine ⟨fun hw hr => ?_, fun h => ?_⟩
  · rw [if_pos (by simp [hw, hr])]
    exact ⟨_, rfl, by rw [flitData_mkFlit, BitVec.ofNat_toNat, BitVec.setWidth_eq]⟩
  · have hno : ¬ (k.wait.isEmpty && decide (k.replay.length < 64)) = true := by
      rw [Bool.and_eq_true, List.isEmpty_iff, decide_eq_true_eq]
      rintro ⟨hw, hr⟩
      rcases h with h | h
      · exact h hw
      · omega
    rw [if_neg hno]
    exact ⟨rfl, rfl⟩

/-! ### DATA flits of a fabric link (R278) -/

/-- The bytes of a channel's packet, those of a flit joined to them. -/
def joined (k : Link) (f : BitVec 288) : List Byte :=
  (if bit (flitByte f 33) 3 then [] else sget [] k.asm (flitByte f 33 / 16)) ++ leBytes 32 (flitData f).toNat

/-- A packet's bytes are whole: as many as its LEN says. -/
def Whole (bs : List Byte) : Prop := 32 + 64 * (leAt bs 1 1 / 16) ≤ bs.length

/-- A flit in order joins its channel's packet, which leaves once it is whole. -/
theorem takeFlit_spec (k : Link) (f : BitVec 288) : ∃ o n x, takeFlit f k =
    ({ k with
      owe := o
      done := n
      asm := sput [] k.asm (flitByte f 33 / 16)
        (if 32 + 64 * (leAt (joined k f) 1 1 / 16) ≤ (joined k f).length then [] else joined k f) }, x) ∧
    (¬ Whole (joined k f) → x = none) := by
  have hcur : (if bit (flitByte f 33) 3 then leBytes 32 (flitData f).toNat
      else sget [] k.asm (flitByte f 33 / 16) ++ leBytes 32 (flitData f).toNat) = joined k f := by
    unfold joined
    split <;> rfl
  unfold takeFlit
  dsimp only
  rw [hcur]
  by_cases h : (joined k f).length < 32 + 64 * (leAt (joined k f) 1 1 / 16)
  · rw [if_pos h, if_neg (by omega)]
    exact ⟨_, _, _, rfl, fun _ => rfl⟩
  · rw [if_neg h, if_pos (by omega)]
    exact ⟨_, _, _, rfl, fun hw => absurd (Nat.le_of_not_lt h) hw⟩

section fabric

variable {s : State} {e : LinkEnd} {f : BitVec 288} (he : e.isMesh = false) (h : Hears s e) (hok : flitOk f = true) (hty : flitType e f = 1)
include he h hok hty

theorem fabricData_gap (hseq : flitByte f 32 ≠ (s.link e).expSeq % 256) : s.fabricData e f = s.modLink e (fun l => l.gap false) := by
  obtain ⟨hf, hs⟩ := runs_of_hears he h
  have hty' : flitByte f 33 % 8 = 1 := by rw [← hty, flitType, he]; rfl
  exact (if_neg (by rw [hf, hs]; decide)).trans ((if_neg (by rw [hok]; decide)).trans ((if_neg (not_not.mpr hty')).trans (if_neg hseq)))

/-- A DATA flit in order changes its link alone, unless it ends a packet from another panel. -/
theorem fabricData_in_order (hseq : flitByte f 32 = (s.link e).expSeq % 256)
    (hw : (∀ p, e ≠ .sys p) ∨ (takeFlit f ((s.link e).accept false)).2 = none) :
    s.fabricData e f = s.modLink e (fun _ => (takeFlit f ((s.link e).accept false)).1) := by
  obtain ⟨hf, hs⟩ := runs_of_hears he h
  have hty' : flitByte f 33 % 8 = 1 := by rw [← hty, flitType, he]; rfl
  refine (if_neg (by rw [hf, hs]; decide)).trans ((if_neg (by rw [hok]; decide)).trans ((if_neg (not_not.mpr hty')).trans ((if_pos hseq).trans ?_)))
  dsimp only
  split
  · next p x hx =>
    rcases hw with hw | hw
    · exact absurd rfl (hw p)
    · rw [hx] at hw
      cases hw
  · rfl

end fabric

end Sys2Proof.LinkEnds
end

section
/-! Acknowledgements: what ACK, NAK and IDLE flits drop from a replay buffer and return of credits (R202, R278, R279). -/
namespace Sys2Proof.LinkEnds

open Sys2Proof.Machine Sys2Proof.Claims Sys2Proof.TempoPorts Sys2Proof.Flits Sys2Proof.MeshMoves

/-! ### Numbers that a control flit carries -/

/-- The counts of acknowledgements and of credits in a control flit of the mesh. -/
theorem dackField (f : BitVec 288) : flitByte f 2 + 256 * flitByte f 3 = (flitData f).toNat / 2 ^ 16 % 2 ^ 16 := by
  rw [flitByte_eq, flitByte_eq, flitData_toNat]
  omega

theorem credField (f : BitVec 288) : flitByte f 4 + 256 * flitByte f 5 = (flitData f).toNat / 2 ^ 32 % 2 ^ 16 := by
  rw [flitByte_eq, flitByte_eq, flitData_toNat]
  omega

/-- The running count of an acknowledgement, as its four bytes. -/
theorem flitBytes_count (f : BitVec 288) :
    flitByte f 0 + 256 * flitByte f 1 + 2 ^ 16 * flitByte f 2 + 2 ^ 24 * flitByte f 3 = (flitData f).toNat % 2 ^ 32 := by
  rw [flitByte_eq, flitByte_eq, flitByte_eq, flitByte_eq, flitData_toNat]
  omega

theorem flitByte_zero_mod (f : BitVec 288) : flitByte f 0 % 128 = (flitData f).toNat % 128 := by
  rw [flitByte_eq, flitData_toNat]
  omega

theorem ahead_mod (now old : Nat) : ahead now (old % 2 ^ 16) = ahead now old := by rw [ahead, Nat.mod_mod, ahead]

/-! ### The replay buffer -/

/-- The flits that an acknowledgement leaves: all but the oldest that it covers. -/
def keptFlits (m ack : Nat) (k : Link) : List (BitVec 288) :=
  if (ack % m + m - (k.sendSeq - k.replay.length) % m) % m ≤ k.replay.length then
    k.replay.drop ((ack % m + m - (k.sendSeq - k.replay.length) % m) % m)
  else k.replay

theorem ackTo_eq {m a b : Nat} (h : a % m = b % m) (k : Link) : k.ackTo m a = { k with replay := keptFlits m b k } := by
  unfold Link.ackTo Link.covered keptFlits
  dsimp only
  rw [h]
  split <;> rfl

theorem drainWait_of_empty (n : Nat) {k : Link} (h : k.wait = []) : Link.drainWait n k = k := by
  cases n with
  | zero => rfl
  | succ n => rw [Link.drainWait, h]

/-- A link end on which no packet waits sends none. -/
theorem drainHeld_of_empty (e : LinkEnd) (n : Nat) {k : Link} (h : k.held = []) : drainHeld e n k = k := by
  cases n with
  | zero => rfl
  | succ n =>
    have hn : k.nextHeld e = none := by
      unfold Link.nextHeld
      rw [h]
      rfl
    rw [drainHeld, hn]

/-- Credits that come back on a fabric link change its credit counts alone. -/
theorem fabricCredits_eq (f : BitVec 288) (k : Link) : ∃ m p, fabricCredits f k = { k with credRcvd := m, spent := p } := by
  unfold fabricCredits
  have gen (l : List Nat) (k : Link) : ∃ m p, l.foldl (fun a v =>
      let c := flitByte f (8 + 2 * v) + 256 * flitByte f (9 + 2 * v)
      let n := ahead c (sget 0 a.credRcvd v)
      if n = 0 then a else { a with credRcvd := sput 0 a.credRcvd v c, spent := smod 0 a.spent v (· - n) }) k =
        { k with credRcvd := m, spent := p } := by
    induction l generalizing k with
    | nil => exact ⟨_, _, rfl⟩
    | cons v l ih =>
      rw [List.foldl_cons]
      dsimp only
      split
      · exact ih k
      · obtain ⟨m, p, h⟩ := ih { k with credRcvd := sput 0 k.credRcvd v _, spent := smod 0 k.spent v _ }
        exact ⟨m, p, h⟩
  exact gen _ k

/-! ### A control flit that a link end takes -/

/-- A flit of the replay buffer as a mesh segment sends it again. -/
def resent (g : BitVec 288) : BitVec 288 := mkFlit (flitData g).toNat (flitByte g 32) 0x10

/-- The replay buffer after a control flit. -/
def answered (e : LinkEnd) (ty ack : Nat) (k : Link) : List (BitVec 288) :=
  if ty = 2 then k.replay
  else if ty = 4 ∧ e.isMesh = true then (keptFlits (ackMod e) ack k).map resent else keptFlits (ackMod e) ack k

/-- What a control flit leaves: acknowledged flits are gone, credits are back, and nothing else of the link has changed. -/
structure Controlled (s : State) (e : LinkEnd) (ty : Nat) (f : BitVec 288) (t : State) : Prop where
  frame : LinksRegs s t
  link : ∃ m p, t.link e = { s.link e with replay := answered e ty (flitData f).toNat (s.link e), credRcvd := m, spent := p } ∧
    ∀ d dir lane, e = .mesh d dir lane 0 →
      sget 0 p 0 = sget 0 (s.link e).spent 0 - ahead ((flitData f).toNat / 2 ^ 32 % 2 ^ 16) (sget 0 (s.link e).credRcvd 0)

/-- The acknowledgement of a control flit at a link end on which nothing waits. -/
theorem ack_mesh {k : Link} (hw : k.wait = []) (f : BitVec 288) :
    Link.drainWait 64 (k.ackTo 128 (flitByte f 0)) = { k with replay := keptFlits 128 (flitData f).toNat k } ∧
    Link.drainWait 64 (k.ackTo 128 (flitByte f 0)).resendMesh = { k with replay := (keptFlits 128 (flitData f).toNat k).map resent } := by
  rw [ackTo_eq (flitByte_zero_mod f)]
  exact ⟨drainWait_of_empty _ hw, drainWait_of_empty _ hw⟩

theorem linksRegs_of_linksOnly {s t : State} : LinksOnly s t → LinksRegs s t := by
  rintro ⟨_, rfl⟩
  exact ⟨_, _, rfl⟩

section mesh

variable {s t : State} {d : Fin 144} {dir : Dir} {lane : Fin 16} {seg : Fin 3} {f : BitVec 288}

theorem edgeSite_of_links (h : LinksOnly s t) (d : Nat) (dir : Dir) (lane : Nat) : t.edgeSite d dir lane = s.edgeSite d dir lane := by
  obtain ⟨l, rfl⟩ := h
  rfl

variable (ha : (s.core (s.edgeSite d dir lane)).sw.active = false) (hs : (s.core (s.edgeSite d dir lane)).sw.standing = false)
include ha hs

/-- Work on the switch that a channel faces, while that switch stands still. -/
theorem runSwitch_of_links (h : LinksOnly s t) : t.runSwitch (s.edgeSite d dir lane) = t := by
  obtain ⟨l, rfl⟩ := h
  exact runSwitch_of_off ha hs

/-- Credits that come back at a segment end: at the die they are spent no more, at a retimer they go on along the channel. -/
theorem meshCredits_spec (h : LinksOnly s t) (n : Nat) : LinksOnly s (t.meshCredits d dir lane seg n) ∧
    ∃ p, (t.meshCredits d dir lane seg n).link (.mesh d dir lane seg) = { t.link (.mesh d dir lane seg) with spent := p } ∧
    (seg = 0 → sget 0 p 0 = sget 0 (t.link (.mesh d dir lane seg)).spent 0 - n) := by
  unfold State.meshCredits
  by_cases hn : n = 0
  · rw [if_pos hn]
    exact ⟨h, (t.link (.mesh d dir lane seg)).spent, rfl, fun _ => by rw [hn, Nat.sub_zero]⟩
  · rw [if_neg hn]
    by_cases hseg : seg = 0
    · subst hseg
      have hback : LinksOnly s (t.modLink (.mesh d dir lane 0) (fun l => { l with spent := smod 0 l.spent 0 (· - n) })) :=
        h.trans (linksOnly_modLink ..)
      rw [if_pos (show ((0 : Fin 3) : Nat) = 0 from rfl),
        show segEnd d.val dir lane.val 0 = .mesh d dir lane 0 from segEnd_val d dir lane 0, edgeSite_of_links h, runSwitch_of_links ha hs hback]
      exact ⟨hback, _, State.link_modLink .., fun _ => sget_smod_self ..⟩
    · have hval : seg.val ≠ 0 := fun h0 => hseg (Fin.ext h0)
      rw [if_neg hval]
      exact ⟨h.trans (linksOnly_modLink ..), (t.link (.mesh d dir lane seg)).spent, link_modLink_ne (relayEnd_ne d dir lane hseg).symm _ _,
        fun h0 => absurd h0 hseg⟩

/-- The running counts of a control flit that acknowledges no delivery. -/
theorem meshCounts_spec (h0 : flitByte f 33 % 16 = 0)
    (hd : ahead ((flitData f).toNat / 2 ^ 16 % 2 ^ 16) (s.link (.mesh d dir lane seg)).dackRcvd = 0) :
    LinksOnly s ((s.meshCred d dir lane seg f).meshCounts d dir lane seg f) ∧ ∃ m p,
    ((s.meshCred d dir lane seg f).meshCounts d dir lane seg f).link (.mesh d dir lane seg) =
      { s.link (.mesh d dir lane seg) with credRcvd := m, spent := p } ∧
    (seg = 0 → sget 0 p 0 = sget 0 (s.link (.mesh d dir lane seg)).spent 0 -
      ahead ((flitData f).toNat / 2 ^ 32 % 2 ^ 16) (sget 0 (s.link (.mesh d dir lane seg)).credRcvd 0)) := by
  obtain ⟨m, hm, hm0⟩ := meshCred_of_zero h0 s d dir lane seg
  have hlink : (s.modLink (.mesh d dir lane seg) (withCred m)).link (.mesh d dir lane seg) = withCred m (s.link (.mesh d dir lane seg)) :=
    State.link_modLink ..
  have hcounts : ∃ m', (s.modLink (.mesh d dir lane seg) (withCred m)).meshCounts d dir lane seg f =
      (s.modLink (.mesh d dir lane seg) (withCred m')).meshCredits d dir lane seg
        (ahead ((flitData f).toNat / 2 ^ 32 % 2 ^ 16) (sget 0 (s.link (.mesh d dir lane seg)).credRcvd 0)) := by
    unfold State.meshCounts
    dsimp only
    rw [segEnd_val, hlink, dackField, credField, withCred_dackRcvd, hd, withCred_credRcvd, hm0, ahead_mod, modLink_modLink]
    exact ⟨if ahead ((flitData f).toNat / 2 ^ 32 % 2 ^ 16) (sget 0 (s.link (.mesh d dir lane seg)).credRcvd 0) = 0 then m
      else sput 0 m 0 ((flitData f).toNat / 2 ^ 32 % 2 ^ 16), rfl⟩
  obtain ⟨m', hm'⟩ := hcounts
  rw [hm, hm']
  obtain ⟨hframe, p, hp, hp0⟩ := meshCredits_spec (seg := seg) ha hs (linksOnly_modLink s (.mesh d dir lane seg) (withCred m'))
    (ahead ((flitData f).toNat / 2 ^ 32 % 2 ^ 16) (sget 0 (s.link (.mesh d dir lane seg)).credRcvd 0))
  rw [State.link_modLink] at hp hp0
  exact ⟨hframe, m', p, hp, hp0⟩

theorem controlled_mesh {ty : Nat} (hty : ty = 2 ∨ ty = 3 ∨ ty = 4) (h : Hears s (.mesh d dir lane seg)) (hok : flitOk f = true)
    (hf : flitType (.mesh d dir lane seg) f = ty) (hw : (s.link (.mesh d dir lane seg)).wait = []) (h0 : flitByte f 33 % 16 = 0)
    (hd : ahead ((flitData f).toNat / 2 ^ 16 % 2 ^ 16) (s.link (.mesh d dir lane seg)).dackRcvd = 0) :
    Controlled s (.mesh d dir lane seg) ty f (s.meshControl d dir lane seg ty f) := by
  obtain ⟨hframe, m, p, hlink, hp⟩ := meshCounts_spec ha hs h0 hd
  have hspent : ∀ d' dir' lane', LinkEnd.mesh d dir lane seg = .mesh d' dir' lane' 0 →
      sget 0 p 0 = sget 0 (s.link (.mesh d dir lane seg)).spent 0 - ahead ((flitData f).toNat / 2 ^ 32 % 2 ^ 16) (sget 0 (s.link (.mesh d dir lane seg)).credRcvd 0) := by
    rintro _ _ _ ⟨⟩
    exact hp rfl
  have hrun : s.meshControl d dir lane seg ty f = _ := (if_neg (by rw [h.2]; decide)).trans
    ((if_neg (by rw [hok]; decide)).trans (if_neg (not_not.mpr hf)))
  rw [hrun, segEnd_val]
  generalize (s.meshCred d dir lane seg f).meshCounts d dir lane seg f = u at *
  obtain ⟨hack, hnak⟩ := ack_mesh (k := u.link (.mesh d dir lane seg)) (by rw [hlink]; exact hw) f
  rcases hty with rfl | rfl | rfl
  · exact ⟨linksRegs_of_linksOnly hframe, m, p, hlink, hspent⟩
  · have hlast := hframe.trans (linksOnly_modLink u (.mesh d dir lane seg) (fun l => Link.drainWait 64 (l.ackTo 128 (flitByte f 0))))
    change Controlled s _ 3 f ((u.modLink (.mesh d dir lane seg) (fun l => Link.drainWait 64 (l.ackTo 128 (flitByte f 0)))).runSwitch
      (s.edgeSite d dir lane))
    rw [runSwitch_of_links ha hs hlast]
    refine ⟨linksRegs_of_linksOnly hlast, m, p, ?_, hspent⟩
    rw [State.link_modLink, hack, hlink]
    rfl
  · change Controlled s _ 4 f ((u.modLink (.mesh d dir lane seg) (fun l => Link.drainWait 64 (l.ackTo 128 (flitByte f 0)).resendMesh)).countReg
      (Reg.replay d) 1)
    refine ⟨(linksRegs_of_linksOnly (hframe.trans (linksOnly_modLink ..))).trans (linksRegs_countReg ..), m, p, ?_, hspent⟩
    rw [link_countReg, State.link_modLink, hnak, hlink]
    rfl

end mesh

/-- A fabric link's record after a control flit. -/
def fabricAnswered (ty : Nat) (f : BitVec 288) (k : Link) : Link :=
  fabricCredits f (if ty = 2 then k else k.ackTo (2 ^ 32)
    (flitByte f 0 + 256 * flitByte f 1 + 2 ^ 16 * flitByte f 2 + 2 ^ 24 * flitByte f 3))

theorem fabricAnswered_eq {e : LinkEnd} (he : e.isMesh = false) (ty : Nat) (f : BitVec 288) (k : Link) : ∃ m p,
    fabricAnswered ty f k = { k with replay := answered e ty (flitData f).toNat k, credRcvd := m, spent := p } := by
  have hack : k.ackTo (2 ^ 32) (flitByte f 0 + 256 * flitByte f 1 + 2 ^ 16 * flitByte f 2 + 2 ^ 24 * flitByte f 3) =
      { k with replay := keptFlits (2 ^ 32) (flitData f).toNat k } := ackTo_eq (by rw [flitBytes_count, Nat.mod_mod]) k
  unfold fabricAnswered answered ackMod
  rw [he, if_neg (fun h : ty = 4 ∧ false = true => absurd h.2 Bool.false_ne_true)]
  by_cases h : ty = 2
  · rw [if_pos h, if_pos h]
    exact fabricCredits_eq f k
  · rw [if_neg h, if_neg h, hack]
    exact fabricCredits_eq f { k with replay := keptFlits (2 ^ 32) (flitData f).toNat k }

/-- A control flit of a fabric link, once the flit has passed its checks: a NAK to a system port is counted as well. -/
theorem fabricControl_cases {s : State} {e : LinkEnd} {f : BitVec 288} {ty : Nat} (hup : (s.link e).failed = false) (hok : flitOk f = true)
    (hty : flitByte f 33 % 8 = ty) : s.fabricControl e ty f = (s.modLink e (fabricAnswered ty f)).drainLink e ∨
      ∃ o, s.fabricControl e ty f = ((s.modLink e (fabricAnswered ty f)).drainLink e).countReg o 1 := by
  unfold State.fabricControl
  dsimp only
  rw [hup, hok, if_neg Bool.false_ne_true, if_neg (by decide), if_neg (not_not.mpr hty)]
  split
  · exact .inr ⟨_, rfl⟩
  · exact .inl rfl

/-- A control flit of a fabric link on which no packet waits. -/
theorem controlled_fabric {s : State} {e : LinkEnd} {f : BitVec 288} {ty : Nat} (he : e.isMesh = false) (h : Hears s e) (hok : flitOk f = true)
    (hf : flitType e f = ty) (hw : (s.link e).held = []) : Controlled s e ty f (s.fabricControl e ty f) := by
  have hty : flitByte f 33 % 8 = ty := by rw [← hf, flitType, he]; rfl
  obtain ⟨m, p, hk⟩ := fabricAnswered_eq he ty f (s.link e)
  have hframe : LinksRegs s ((s.modLink e (fabricAnswered ty f)).drainLink e) := (linksRegs_modLink ..).trans (linksRegs_modLink ..)
  have hlink : ((s.modLink e (fabricAnswered ty f)).drainLink e).link e =
      { s.link e with replay := answered e ty (flitData f).toNat (s.link e), credRcvd := m, spent := p } := by
    rw [State.drainLink, State.link_modLink, State.link_modLink, hk, drainHeld_of_empty]
    exact hw
  have hmesh : ∀ d dir lane, e ≠ .mesh d dir lane 0 := by
    rintro _ _ _ rfl
    cases he
  rcases fabricControl_cases (runs_of_hears he h).1 hok hty with hrun | ⟨o, hrun⟩
  · rw [hrun]
    exact ⟨hframe, m, p, hlink, fun _ _ _ heq => absurd heq (hmesh _ _ _)⟩
  · rw [hrun]
    exact ⟨hframe.trans (linksRegs_countReg ..), m, p, (link_countReg ..).trans hlink, fun _ _ _ heq => absurd heq (hmesh _ _ _)⟩

end Sys2Proof.LinkEnds
end

section
/-! Flits are taken once and in order (R201, R202, R278, R279): the parts of the statement on the flits of a link, and the statement. -/
namespace Sys2Proof.LinkEnds

open Sys2Proof.Machine Sys2Proof.Claims Sys2Proof.TempoPorts Sys2Proof.Flits Sys2Proof.MeshMoves

section flits

variable {s : State} {e : LinkEnd} {f : BitVec 288}

/-! ### Flits that fail -/

/-- A DATA flit that fails counts, unless it follows another that is expected again. -/
theorem failCount_inOrder (s : State) (e : LinkEnd) (f : BitVec 288) : failCount (s.link e) true (inOrder s e f) =
    (s.link e).fails + (if (s.link e).nakked = true ∧ flitByte f 32 % e.seqMod ≠ (s.link e).expSeq % e.seqMod then 0 else 1) := by
  unfold failCount inOrder
  by_cases hq : flitByte f 32 % e.seqMod = (s.link e).expSeq % e.seqMod
  · simp [hq]
  · cases (s.link e).nakked <;> simp [hq]

/-- What a failed flit leaves of the link's record. -/
theorem Fails.spec {isData : Bool} {t : State} (ht : Fails s e f isData t) :
    (t.link e).fails = failCount (s.link e) isData (inOrder s e f) ∧
    (t.link e).failed = ((s.link e).failed || (isData && decide (max 1 (replayLimit s e) ≤ (t.link e).fails))) ∧
    (∃ c, (t.link e).ctl = some c ∧ flitType e c = 4) ∧ (t.link e).expSeq = (s.link e).expSeq ∧
    (t.link e).replay = (s.link e).replay ∧ (t.link e).asm = (s.link e).asm := by
  obtain ⟨c, m, o, hk, hty⟩ := crcFailed_eq e (s.link e) (replayLimit s e) isData (inOrder s e f)
  rw [ht.link, hk]
  exact ⟨rfl, rfl, ⟨c, rfl, hty⟩, rfl, rfl, rfl⟩

/-- Of the four commands that bring a flit, one brings a DATA flit. -/
theorem exec_failed (hok : flitOk f = false) {i : Instr} (hi : i ∈ [Instr.dataFlit e f, .idleFlit e f, .ackFlit e f, .nakFlit e f])
    (h : Hears s e) : ∃ t, exec i s = .next t ∧
      ((i = .dataFlit e f ∧ Fails s e f true t) ∨ (i ≠ .dataFlit e f ∧ Fails s e f false t)) := by
  simp only [List.mem_cons, List.not_mem_nil, or_false] at hi
  rcases hi with rfl | rfl | rfl | rfl
  · exact ⟨_, exec_dataFlit h, .inl ⟨rfl, fails_dataTaken h hok⟩⟩
  · exact ⟨_, exec_controlFlit h (.inl ⟨rfl, rfl⟩), .inr ⟨nofun, fails_controlTaken h hok _⟩⟩
  · exact ⟨_, exec_controlFlit h (.inr (.inl ⟨rfl, rfl⟩)), .inr ⟨nofun, fails_controlTaken h hok _⟩⟩
  · exact ⟨_, exec_controlFlit h (.inr (.inr ⟨rfl, rfl⟩)), .inr ⟨nofun, fails_controlTaken h hok _⟩⟩

/-! ### DATA flits out of order -/

/-- A flit out of order changes its link alone, and of the record the acknowledgements and credits. -/
theorem dataTaken_gap (h : Hears s e) (hok : flitOk f = true) (hty : flitType e f = 1) (hseq : flitByte f 32 ≠ (s.link e).expSeq % e.seqMod)
    (h0 : e.isMesh = true → flitByte f 33 % 16 = 0) (hlt : flitByte f 32 < e.seqMod) :
    ∃ m, dataTaken s e f = s.modLink e (fun l => (withCred m l).gap e.isMesh) := by
  rcases he : e.isMesh with _ | _
  · have hmod : e.seqMod = 256 := by rw [LinkEnd.seqMod, he]; rfl
    rw [hmod] at hseq
    refine ⟨(s.link e).credRcvd, ?_⟩
    rw [dataTaken_fabric he, fabricData_gap he h hok hty hseq]
    rfl
  · cases e with
    | mesh d dir lane seg =>
      obtain ⟨m, hgap, -⟩ := meshData_eq h hok hty (h0 he)
      exact ⟨m, hgap (by rwa [Nat.mod_eq_of_lt (show flitByte f 32 < 128 from hlt)])⟩
    | _ => cases he

/-- The record of a link end that has met a flit out of order. -/
theorem gap_withCred_spec (e : LinkEnd) (m : SMap Nat) (k : Link) :
    let k' := (withCred m k).gap e.isMesh
    k'.expSeq = k.expSeq ∧ k'.asm = k.asm ∧ k'.nakked = true ∧ (k.nakked = true → k'.ctl = k.ctl) ∧
      (k.nakked = false → ∃ c, k'.ctl = some c ∧ flitType e c = 4) := by
  rcases hn : k.nakked with _ | _
  · obtain ⟨c, m', o, hk, hty⟩ := gap_eq e (k := withCred m k) hn
    rw [hk]
    exact ⟨rfl, rfl, rfl, nofun, fun _ => ⟨c, rfl, hty⟩⟩
  · rw [gap_of_nakked e (k := withCred m k) hn]
    exact ⟨rfl, rfl, hn, fun _ => rfl, nofun⟩

end flits

/-! ### DATA flits of the mesh in order -/

theorem accept_withCred_spec (e : LinkEnd) (m : SMap Nat) (k : Link) :
    ((withCred m k).accept e.isMesh).expSeq = k.expSeq + 1 ∧ ((withCred m k).accept e.isMesh).fails = 0 := by
  obtain ⟨n, c, m', o, u, hk⟩ := accept_eq e (withCred m k)
  rw [hk]
  exact ⟨rfl, rfl⟩

section mesh

variable {s : State} {d : Fin 144} {dir : Dir} {lane : Fin 16} {f : BitVec 288}

/-- At a retimer the data go on along the channel. -/
theorem dataTaken_retimer {seg : Fin 3} (h : Hears s (.mesh d dir lane seg)) (hok : flitOk f = true) (hty : flitType (.mesh d dir lane seg) f = 1)
    (h0 : flitByte f 33 % 16 = 0) (hseq : flitByte f 32 % 128 = (s.link (.mesh d dir lane seg)).expSeq % 128) (hseg : seg ≠ 0) :
    let t := dataTaken s (.mesh d dir lane seg) f
    let e := LinkEnd.mesh d dir lane seg
    let o := relayEnd d dir lane seg
    LinksOnly s t ∧ (t.link e).expSeq = (s.link e).expSeq + 1 ∧ (t.link e).fails = 0 ∧ t.link o = (s.link o).relayMesh (flitData f) := by
  obtain ⟨m, -, htake⟩ := meshData_eq h hok hty h0
  intro t e o
  have ht : t = (s.modLink e (fun l => (withCred m l).accept true)).modLink o (fun l => l.relayMesh (flitData f)) :=
    (htake hseq).trans (if_neg fun hz => hseg (Fin.ext hz))
  have hne := relayEnd_ne d dir lane hseg
  obtain ⟨hexp, hfails⟩ := accept_withCred_spec e m (s.link e)
  have hlink : t.link e = (withCred m (s.link e)).accept true := by rw [ht, link_modLink_ne hne.symm, State.link_modLink]
  refine ⟨?_, ?_, ?_, ?_⟩
  · rw [ht]
    exact (linksOnly_modLink ..).trans (linksOnly_modLink ..)
  · rw [hlink]
    exact hexp
  · rw [hlink]
    exact hfails
  · rw [ht, State.link_modLink, link_modLink_ne hne]

/-- At the die the data enter the FIFO of the switch that the channel faces. -/
theorem dataTaken_die (h : Hears s (.mesh d dir lane 0)) (hok : flitOk f = true) (hty : flitType (.mesh d dir lane 0) f = 1)
    (h0 : flitByte f 33 % 16 = 0) (hseq : flitByte f 32 % 128 = (s.link (.mesh d dir lane 0)).expSeq % 128)
    (ha : (s.core (s.edgeSite d dir lane)).sw.active = false) (hs : (s.core (s.edgeSite d dir lane)).sw.standing = false)
    (hroom : (sget [] (s.core (s.edgeSite d dir lane)).sw.fifo dir.idx).length < s.fifoMax (s.edgeSite d dir lane) dir) :
    let t := dataTaken s (.mesh d dir lane 0) f
    (t.link (.mesh d dir lane 0)).expSeq = (s.link (.mesh d dir lane 0)).expSeq + 1 ∧
    sget [] (t.core (s.edgeSite d dir lane)).sw.fifo dir.idx = sget [] (s.core (s.edgeSite d dir lane)).sw.fifo dir.idx ++ [flitData f] ∧
    t.mem = s.mem := by
  obtain ⟨m, -, htake⟩ := meshData_eq h hok hty h0
  generalize hk : s.edgeSite d dir lane = k at *
  have ht : dataTaken s (.mesh d dir lane 0) f =
      (s.modLink (.mesh d dir lane 0) (fun l => (withCred m l).accept true)).modCore k (fun c => c.modSw (intoFifo dir (flitData f))) :=
    (htake hseq).trans ((if_pos rfl).trans (hk ▸ enterFifo_of_off
      (s := s.modLink (.mesh d dir lane 0) (fun l => (withCred m l).accept true)) (k := s.edgeSite d dir lane)
      (hk ▸ ha) (hk ▸ hs) (hk ▸ hroom) _))
  have hlink : (dataTaken s (.mesh d dir lane 0) f).link (.mesh d dir lane 0) = (withCred m (s.link (.mesh d dir lane 0))).accept true :=
    (congrArg (State.link · _) ht).trans (State.link_modLink s (.mesh d dir lane 0) fun l => (withCred m l).accept true)
  have hfifo : sget [] ((dataTaken s (.mesh d dir lane 0) f).core k).sw.fifo dir.idx = sget [] (s.core k).sw.fifo dir.idx ++ [flitData f] := by
    rw [ht, modSw_self]
    exact sget_smod_self [] (s.core k).sw.fifo dir.idx (· ++ [flitData f])
  exact ⟨hlink ▸ (accept_withCred_spec (.mesh d dir lane 0) m _).1, hfifo, ht ▸ rfl⟩

end mesh

/-! ### DATA flits of the fabric in order -/

/-- A flit in order is taken once, and its packet's bytes join those of its channel. -/
theorem dataTaken_joins {s : State} {e : LinkEnd} {f : BitVec 288} (he : e.isMesh = false) (h : Hears s e) (hok : flitOk f = true)
    (hty : flitType e f = 1) (hseq : flitByte f 32 = (s.link e).expSeq % 256) (hw : (∀ p, e ≠ .sys p) ∨ ¬ Whole (joined (s.link e) f)) :
    let t := dataTaken s e f
    LinksOnly s t ∧ (t.link e).expSeq = (s.link e).expSeq + 1 ∧ (t.link e).fails = 0 ∧
    (Whole (joined (s.link e) f) → sget [] (t.link e).asm (flitByte f 33 / 16) = []) ∧
    (¬ Whole (joined (s.link e) f) → sget [] (t.link e).asm (flitByte f 33 / 16) = joined (s.link e) f) := by
  obtain ⟨n, c, m, o, u, hacc⟩ := accept_eq e (s.link e)
  rw [he] at hacc
  obtain ⟨o', n', x, htake, hnone⟩ := takeFlit_spec ((s.link e).accept false) f
  have hjoined : joined ((s.link e).accept false) f = joined (s.link e) f := by rw [hacc]; rfl
  rw [hjoined] at htake hnone
  have ht : dataTaken s e f = s.modLink e (fun _ => (takeFlit f ((s.link e).accept false)).1) :=
    (dataTaken_fabric he).trans (fabricData_in_order he h hok hty hseq (hw.imp_right fun hno => by rw [htake]; exact hnone hno))
  intro t
  have hlink : t.link e = (takeFlit f ((s.link e).accept false)).1 := (congrArg (State.link · e) ht).trans (State.link_modLink ..)
  have hasm := congrArg (fun k : Link => sget [] k.asm (flitByte f 33 / 16)) (hlink.trans (congrArg Prod.fst htake))
  have hframe : LinksOnly s t := by
    rw [show t = _ from ht]
    exact linksOnly_modLink ..
  rw [sget_sput_self] at hasm
  refine ⟨hframe, ?_, ?_, fun hwhole => hasm.trans (if_pos hwhole), fun hno => hasm.trans (if_neg hno)⟩
  · rw [hlink, htake, hacc]
  · rw [hlink, htake, hacc]

/-! ### Control flits -/

/-- Flits sent again have their data and their numbers, and carry no credits. -/
theorem resent_spec (l : List (BitVec 288)) : (l.map resent).map flitData = l.map flitData ∧
    (l.map resent).map (flitByte · 32) = l.map (flitByte · 32) ∧ ∀ g ∈ l.map resent, flitByte g 33 = 0x10 := by
  refine ⟨?_, ?_, ?_⟩
  · rw [List.map_map]
    exact List.map_congr_left fun g _ => by rw [Function.comp, resent, flitData_mkFlit, BitVec.ofNat_toNat, BitVec.setWidth_eq]
  · rw [List.map_map]
    exact List.map_congr_left fun g _ => by rw [Function.comp, resent, flitByte_mkFlit_32, Nat.mod_eq_of_lt (flitByte_lt g 32)]
  · intro g hg
    obtain ⟨g', -, rfl⟩ := List.mem_map.mp hg
    rw [resent, flitByte_mkFlit_33]

/-- The replay buffer after a control flit, by its type. -/
theorem answered_spec (e : LinkEnd) (ty ack : Nat) (k : Link) :
    let n := (ack % ackMod e + ackMod e - (k.sendSeq - k.replay.length) % ackMod e) % ackMod e
    let left := if ty ≠ 2 ∧ n ≤ k.replay.length then k.replay.drop n else k.replay
    (ty ≠ 4 ∨ e.isMesh = false → answered e ty ack k = left) ∧ (ty = 4 → e.isMesh = true → answered e ty ack k = left.map resent) := by
  intro n left
  have hleft : ty ≠ 2 → left = keptFlits (ackMod e) ack k := fun hty => by simp only [left, keptFlits, hty, ne_eq, not_false_eq_true, true_and, n]
  unfold answered
  refine ⟨fun hplain => ?_, fun h4 he => ?_⟩
  · by_cases hty : ty = 2
    · rw [if_pos hty]
      exact (if_neg fun hc => hc.1 hty).symm
    · rw [if_neg hty, hleft hty, if_neg fun hc => hplain.elim (fun hn => hn hc.1) fun hf => by rw [hf] at hc; exact Bool.false_ne_true hc.2]
  · rw [hleft (by omega), if_neg (by omega), if_pos ⟨h4, he⟩]

/-- A control flit at a link end of either kind on which nothing waits. -/
theorem controlled_taken {s : State} {e : LinkEnd} {f : BitVec 288} {ty : Nat} (hty : ty = 2 ∨ ty = 3 ∨ ty = 4) (h : Hears s e)
    (hok : flitOk f = true)
    (hf : flitType e f = ty) (hheld : e.isMesh = false → (s.link e).held = []) (hwait : e.isMesh = true → (s.link e).wait = [])
    (hmesh : ∀ d dir lane seg, e = .mesh d dir lane seg → flitByte f 33 % 16 = 0 ∧
      ahead ((flitData f).toNat / 2 ^ 16 % 2 ^ 16) (s.link e).dackRcvd = 0 ∧
      (s.core (s.edgeSite d dir lane)).sw.active = false ∧ (s.core (s.edgeSite d dir lane)).sw.standing = false) :
    Controlled s e ty f (controlTaken s e ty f) := by
  rcases he : e.isMesh with _ | _
  · rw [controlTaken_fabric he]
    exact controlled_fabric he h hok hf (hheld he)
  · cases e with
    | mesh d dir lane seg =>
      obtain ⟨h0, hd, ha, hs⟩ := hmesh d dir lane seg rfl
      exact controlled_mesh ha hs hty h hok hf (hwait he) h0 hd
    | _ => cases he

theorem ControlOf.type {e : LinkEnd} {f : BitVec 288} {ty : Nat} {i : Instr} (hi : ControlOf e f ty i) : ty = 2 ∨ ty = 3 ∨ ty = 4 :=
  hi.imp And.left (Or.imp And.left And.left)

/-- Settles O26: a link end takes a flit by its checks in turn, and each outcome is one change of the link's record. -/
theorem flitsAreTakenOnceInOrder : Obligations.FlitsAreTakenOnceInOrder := by
  unfold Obligations.FlitsAreTakenOnceInOrder
  intro s e f h
  refine ⟨fun hok i hi => ?_, fun hok hty hseq h0 hlt => ?_, fun hok hty hseq => ⟨?_, ?_, ?_⟩, ?_⟩
  · obtain ⟨t, hrun, ⟨hi, ht⟩ | ⟨hi, ht⟩⟩ := exec_failed hok hi h
    · obtain ⟨hcount, hfailed, hkept⟩ := ht.spec
      exact ⟨t, hrun, ht.frame.eq, fun hne => absurd hi hne, fun _ => ⟨hcount.trans (failCount_inOrder s e f), hfailed⟩, hkept⟩
    · obtain ⟨hcount, hfailed, hkept⟩ := ht.spec
      exact ⟨t, hrun, ht.frame.eq, fun _ => ⟨hcount, hfailed.trans (Bool.or_false _)⟩, fun hd => absurd hd hi, hkept⟩
  · obtain ⟨m, ht⟩ := dataTaken_gap h hok hty hseq h0 hlt
    refine ⟨_, exec_dataFlit h, ?_⟩
    rw [ht, State.link_modLink]
    exact ⟨(linksRegs_modLink ..).eq, gap_withCred_spec e m (s.link e)⟩
  · rintro d dir lane seg rfl h0 hseg
    have hmod : flitByte f 32 % 128 = (s.link (.mesh d dir lane seg)).expSeq % 128 := by rw [hseq]; exact Nat.mod_mod _ _
    obtain ⟨hframe, hexp, hfails, hrelay⟩ := dataTaken_retimer h hok hty h0 hmod hseg
    refine ⟨_, exec_dataFlit h, (linksRegs_of_linksOnly hframe).eq, hexp, hfails, ?_⟩
    dsimp only
    rw [hrelay]
    exact relayMesh_spec _ _
  · rintro d dir lane rfl h0 k ha hs hroom
    have hmod : flitByte f 32 % 128 = (s.link (.mesh d dir lane 0)).expSeq % 128 := by rw [hseq]; exact Nat.mod_mod _ _
    exact ⟨_, exec_dataFlit h, dataTaken_die h hok hty h0 hmod ha hs hroom⟩
  · intro he vc cur whole hw
    have hmod : e.seqMod = 256 := by rw [LinkEnd.seqMod, he]; rfl
    rw [hmod] at hseq
    obtain ⟨hframe, hexp, hfails, hasm⟩ := dataTaken_joins he h hok hty hseq hw
    exact ⟨_, exec_dataFlit h, hframe.eq, hexp, hfails, hasm⟩
  · intro ty i hi hok hf hheld hwait hmesh
    have ht := controlled_taken (ControlOf.type hi) h hok hf hheld hwait hmesh
    obtain ⟨m, p, hlink, hspent⟩ := ht.link
    obtain ⟨hplain, hresent⟩ := answered_spec e ty (flitData f).toNat (s.link e)
    refine ⟨_, exec_controlFlit h hi, ht.frame.eq, ?_⟩
    rw [hlink]
    refine ⟨rfl, ⟨hplain, fun h4 he => ?_⟩, hspent⟩
    have hback := hresent h4 he
    dsimp only
    rw [hback]
    exact resent_spec _

end Sys2Proof.LinkEnds
end

section
/-! Transfers that arrive on an on-die wire: parity, and the FIFO of a switch without a cross-connect (R57, R183, R191, R200). -/
namespace Sys2Proof.MeshMoves

open Sys2Proof.Machine Sys2Proof.Claims Sys2Proof.Ecc

/-! ### Parity (R200) -/

/-- Is the number of ones among 64 bits of a transfer odd? -/
def oddOnes (data : BitVec 256) (q : Nat) : Bool := ((List.range 64).filter (fun i => data.getLsbD (64 * q + i))).length % 2 == 1

theorem parityOf_getLsbD (data : BitVec 256) {q : Nat} (hq : q < 4) : (parityOf data).getLsbD q = oddOnes data q := by
  rw [parityOf, BitVec.getLsbD_ofNat, VBits.testBit_maskOf, List.getD_eq_getElem?_getD, List.getElem?_map, List.getElem?_range hq, decide_eq_true hq]
  rfl

/-- The parity bits of a transfer are right where they are those of its data. -/
theorem parityOf_eq_iff (data : BitVec 256) (par : BitVec 4) : parityOf data = par ↔ ∀ q < 4, par.getLsbD q = oddOnes data q := by
  constructor
  · rintro rfl q hq
    exact parityOf_getLsbD data hq
  · exact fun h => BitVec.eq_of_getLsbD_eq fun q hq => (parityOf_getLsbD data hq).trans (h q hq).symm

/-! ### The oldest transfer of a wire -/

/-- A wire whose oldest transfer has arrived. -/
def offWire (i : Dir) (w : Switch) : Switch := { w with wire := smod [] w.wire i.idx (fun l => l.drop 1) }

/-- The state in which the oldest transfer of a wire has left it. -/
def arrived (s : State) (k : Nat) (dir : Dir) : State := s.modCore k (fun c => c.modSw (offWire dir))

theorem arrived_wire (s : State) (k : Nat) (dir : Dir) :
    sget [] ((arrived s k dir).core k).sw.wire dir.idx = (sget [] (s.core k).sw.wire dir.idx).drop 1 := by
  rw [arrived, modSw_self, offWire, sget_smod_self]

section receive

variable {s : State} {k : Fin 39168} {dir : Dir} {data : BitVec 256} {par : BitVec 4} {u : Nat} (hu : s.hop k dir = .core u)
include hu

theorem transferReceive_of_none (h : sget [] (s.core k).sw.wire dir.idx = [] ∨ s.meshOn (dieOf k) = false ∨
    (parityOf data = par ∧ (sget [] (s.core k).sw.wire dir.idx).head? ≠ some data)) :
    exec (.transferReceive k dir data par []) s = .next s := by
  refine congrArg Host.Outcome.next ?_
  rw [hu]
  refine if_pos ?_
  rw [List.isEmpty_iff]
  tauto

variable (hon : s.meshOn (dieOf k) = true)
include hon

theorem transferReceive_of_bad (hp : parityOf data ≠ par) (hw : sget [] (s.core k).sw.wire dir.idx ≠ []) :
    exec (.transferReceive k dir data par []) s = .next ((arrived s k dir).parityError k dir) := by
  refine congrArg Host.Outcome.next ?_
  rw [hu]
  refine (if_neg ?_).trans (if_pos hp)
  have hclock : (arrived s k dir).meshOn (dieOf k) = true := (meshOn_modCore ..).trans hon
  rw [List.isEmpty_iff]
  rintro (h | h | h)
  · exact Bool.false_ne_true (h.symm.trans hclock)
  · exact hw h
  · exact hp h.1

theorem transferReceive_of_good (hp : parityOf data = par) (hw : (sget [] (s.core k).sw.wire dir.idx).head? = some data) :
    exec (.transferReceive k dir data par []) s = .next ((arrived s k dir).enterFifo k dir data) := by
  refine congrArg Host.Outcome.next ?_
  rw [hu]
  refine (if_neg ?_).trans ((if_neg (not_not.mpr hp)).trans ?_)
  · have hclock : (arrived s k dir).meshOn (dieOf k) = true := (meshOn_modCore ..).trans hon
    rw [List.isEmpty_iff]
    rintro (h | h | h)
    · exact Bool.false_ne_true (h.symm.trans hclock)
    · rw [h] at hw
      cases hw
    · exact h.2 hw
  · dsimp only
    split
    · rw [List.isEmpty_nil, Bool.not_true, Bool.and_false, if_neg Bool.false_ne_true]
      rfl
    · rfl

end receive

/-! ### Bad parity (R200) -/

/-- The state in which a die has recorded a parity error in its register, and the input delivers nothing more. -/
def marked (o : Nat) (v : W32) (s : State) (k : Nat) (dir : Dir) : State := (s.setReg o v).modCore k (fun c => c.deaden dir)

/-- The exception of a parity error. -/
def parityExc (dir : Dir) : Exc := ⟨0x0C, 0xF, BitVec.ofNat 16 dir.idx⟩

/-- What follows of a parity error, once it is recorded: a halt, or an exception. -/
def parityRaised (s : State) (k : Nat) (dir : Dir) (m : State) : State :=
  if (s.core k).st = 7 ∨ (s.core k).st = 0 ∨ (s.core k).st = 5 then m.haltRank (rankOfDie (dieOf k)) .abort (.parity (Fin.ofNat _ k))
  else if (s.core k).st = 3 then m.engineExc k (parityExc dir)
  else m.coreException k (parityExc dir)

theorem parityError_eq (s : State) (k : Nat) (dir : Dir) : s.parityError k dir =
    parityRaised s k dir (marked (Reg.parerr (dieOf k)) (BitVec.ofNat 32 (2 ^ 31 + siteOf k * 2 ^ 16 + dir.idx)) s k dir) := rfl

section marked

variable (o : Nat) (v : W32) (s : State) (k : Nat) (dir : Dir)

theorem core_marked : (marked o v s k dir).core k = (s.core k).deaden dir := State.core_modCore (s.setReg o v) k _

/-- A parity error is recorded at every core: the register, the dead input, and memory as before. -/
theorem parityRaised_records : let t := parityRaised s k dir (marked o v s k dir)
    t.reg o = v ∧ (t.core k).sw = ((s.core k).deaden dir).sw ∧ t.mem = s.mem := by
  have hreg : (marked o v s k dir).reg o = v := State.reg_setReg s o v
  have hsw := congrArg Core.sw (core_marked o v s k dir)
  unfold parityRaised
  dsimp only
  split
  · obtain ⟨hcores, hmem, -⟩ := Present.haltRank_spec (marked o v s k dir) (rankOfDie (dieOf k)) .abort (.parity (Fin.ofNat _ k))
    exact ⟨(LinkEnds.haltRank_reg ..).trans hreg, by rw [State.core, hcores]; exact hsw, hmem⟩
  · split
    · next hst =>
      rw [CoreTempo.engineExc_of_running _ (by rw [core_marked]; exact hst)]
      exact ⟨hreg, by rw [State.core_modCore]; exact hsw, rfl⟩
    · refine ⟨?_, ?_, ?_⟩
      · rw [Present.coreException_eq, LinkEnds.haltRank_reg, Present.faulted, State.reg, State.raise_regs]
        exact hreg
      · rw [Present.coreException_core, State.core_modCore]
        exact hsw
      · rw [Present.coreException_eq, (Present.haltRank_spec ..).2.1, Present.faulted, State.raise_mem]
        rfl

/-- A running core takes the exception at its next bundle boundary. -/
theorem parityRaised_of_running (h : (s.core k).st = 3) :
    ((parityRaised s k dir (marked o v s k dir)).core k).excPend = (s.core k).excPend ++ [parityExc dir] := by
  rw [parityRaised, if_neg (by rw [h]; decide), if_pos h, CoreTempo.engineExc_of_running _ (by rw [core_marked]; exact h),
    State.core_modCore, core_marked]
  rfl

/-- At a core that is off the die hub raises the halt. -/
theorem parityRaised_of_unpowered (h : (s.core k).st = 7) :
    ((parityRaised s k dir (marked o v s k dir)).core k).excPend = (s.core k).excPend ∧ ∀ p, s.partOfRank (rankOfDie (dieOf k)) = some p →
      ((parityRaised s k dir (marked o v s k dir)).part p).haltPend.map (·.1) = some .abort := by
  rw [parityRaised, if_pos (.inl h)]
  refine ⟨?_, fun p hp => (LinkEnds.part_haltRank_abort (s := marked o v s k dir) hp _).1⟩
  rw [State.core, (Present.haltRank_spec ..).1, ← State.core, core_marked]
  rfl

end marked

theorem mem_deaden (c : Core) (dir : Dir) : dir ∈ (c.deaden dir).sw.dead := by
  unfold Core.deaden Core.modSw
  dsimp only
  split
  · next h => exact List.contains_iff_mem.mp h
  · exact List.mem_append_right _ List.mem_cons_self

end Sys2Proof.MeshMoves
end

section
/-! Local delivery of a transfer that arrives, and acknowledgements that arrive (R191, R195, R197). -/
namespace Sys2Proof.MeshMoves

open Sys2Proof.Machine Sys2Proof.Claims Sys2Proof.Ecc

/-- A byte of a vector, as its little-endian bytes hold it. -/
theorem leBytes_getElem_bits {w n j : Nat} (v : BitVec w) (h : j < (leBytes n v.toNat).length) :
    (leBytes n v.toNat)[j] = v.extractLsb' (8 * j) 8 := by
  have hb := CSlot.leBytes_getElem? n v.toNat j (by simpa using h)
  rw [List.getElem?_eq_getElem h, Option.some.injEq] at hb
  rw [hb, BitVec.extractLsb', Nat.shiftRight_eq_div_pow]

theorem Dir.idx_injective : Function.Injective Dir.idx := by
  intro a b h
  cases a <;> cases b <;> simp_all [Dir.idx]

/-! ### What one switch lets leave -/

/-- The one direction of which a predicate holds is the first. -/
theorem find_dirs_eq {p : Dir → Bool} {i : Dir} (h : p i = true) (hne : ∀ j, j ≠ i → p j = false) : dirs.find? p = some i := by
  have hi : i ∈ dirs := by cases i <;> simp [dirs]
  rcases hf : dirs.find? p with _ | j
  · exact absurd h (List.find?_eq_none.mp hf i hi)
  · by_contra hji
    exact Bool.false_ne_true ((hne j fun e => hji (by rw [e])).symm.trans (List.find?_some hf))

theorem canLeave_of_empty {s : State} {k : Nat} {i : Dir} (h : sget [] (s.core k).sw.fifo i.idx = []) : s.canLeave k i = false := by
  simp [State.canLeave, h]

theorem find_canLeave_of_empty {s : State} {k : Nat} (h : (s.core k).sw.fifo = []) : dirs.find? (s.canLeave k) = none :=
  List.find?_eq_none.mpr fun i _ => by rw [canLeave_of_empty (by rw [h]; rfl)]; exact Bool.false_ne_true

/-- Work on a switch from which one transfer leaves, and after it no other anywhere. -/
theorem runSwitch_of_one {s : State} {k : Nat} {i : Dir} (hi : dirs.find? (s.canLeave k) = some i)
    (hrest : ∀ j, dirs.find? ((s.leave k i).1.canLeave j) = none) : s.runSwitch k = (s.leave k i).1 := by
  unfold State.runSwitch
  dsimp only
  rw [State.runSwitches, hi]
  exact runSwitches_of_none _ _ fun j _ => hrest j

/-! ### The lists of a switch -/

section lists

variable {f : Switch → Switch} (s : State) (j k : Nat) (i : Dir)

theorem inList_modSw (hset : ∀ w, (f w).set = w.set) : (s.modCore j (fun c => c.modSw f)).inList k i = s.inList k i := by
  have hcls : ((s.modCore j (fun c => c.modSw f)).core k).cls = (s.core k).cls :=
    core_modCore_field (f := fun c => c.modSw f) Core.cls (fun _ => rfl) s j k
  unfold State.inList State.xset State.classOf
  rw [hcls, modSw_field Switch.set (f := f) hset]
  rfl

theorem inDone_modSw (hset : ∀ w, (f w).set = w.set) (hon : ∀ w, (f w).active = w.active) (htaken : ∀ w, (f w).inTaken = w.inTaken) :
    (s.modCore j (fun c => c.modSw f)).inDone k i = s.inDone k i := by
  unfold State.inDone
  dsimp only
  rw [inList_modSw s j k i hset, modSw_field Switch.active (f := f) hon, modSw_field Switch.inTaken (f := f) htaken]

end lists

/-! ### A transfer leaves to the local engine (R195, R197) -/

/-- An input FIFO without transfers; the count of a transfer that the local engine took; an acknowledgement and a credit that go back. -/
def emptied (i : Dir) (w : Switch) : Switch := { w with fifo := sput [] w.fifo i.idx [] }
def counted (i : Dir) (n : Nat) (w : Switch) : Switch :=
  { w with inTaken := sput 0 w.inTaken i.idx (n + 1), rcvd := BitVec.ofNat 32 (satAdd 32 w.rcvd.toNat 1) }
def acked (o : Dir) (w : Switch) : Switch := { w with ackWire := smod 0 w.ackWire o.idx (· + 1) }
def credited (o : Dir) (w : Switch) : Switch := { w with spent := smod 0 w.spent o.idx (· - 1) }

/-- The bytes of a transfer at the address of its list entry; a zero entry stores none. -/
def stored (s : State) (k : Nat) (e : XEntry) (j : Nat) (t : BitVec 256) : State :=
  if e.zero then s else s.spadWr k (entryAddr e j) (leBytes 32 t.toNat)

theorem stored_sw (s : State) (k : Nat) (e : XEntry) (n : Nat) (t : BitVec 256) (j : Nat) :
    ((stored s k e n t).core j).sw = (s.core j).sw := by
  unfold stored
  split
  · rfl
  · by_cases hj : j = k
    · rw [hj]
      exact (errors_spadWr s k (entryAddr e n) (leBytes 32 t.toNat)).field Core.sw rfl
    · rw [spadWr_core_ne _ _ _ _ hj]

theorem spadAddr_add (k a n : Nat) : spadAddr k (a + n) = spadAddr k a + n := by
  unfold spadAddr
  omega

theorem stored_mem (s : State) (k : Nat) (e : XEntry) (j : Nat) (t : BitVec 256) :
    (∀ n < 32, e.zero = false → rd (stored s k e j t).mem (spadAddr k (entryAddr e j + n)) = t.extractLsb' (8 * n) 8) ∧
    ∀ a, e.zero = true ∨ a < spadAddr k (entryAddr e j) ∨ spadAddr k (entryAddr e j) + 32 ≤ a →
      rd (stored s k e j t).mem a = rd s.mem a := by
  unfold stored
  rcases e.zero with _ | _
  · refine ⟨fun n hn _ => ?_, fun a ha => ?_⟩
    · rw [if_neg Bool.false_ne_true, spadWr_mem, spadAddr_add, rd_wrN _ _ _ _ (by simpa using hn), leBytes_getElem_bits]
    · rw [if_neg Bool.false_ne_true, spadWr_mem, rd_wrN_ne _ _ _ _ (by simpa using ha)]
  · exact ⟨fun _ _ h => (nomatch h), fun _ _ => rfl⟩

/-- The state in which a switch has handed a transfer to its local engine, and told the switch that sent it. -/
def handed (s : State) (k u : Nat) (i : Dir) (e : XEntry) (j : Nat) (t : BitVec 256) : State :=
  (((stored (s.modCore k (fun c => c.modSw (emptied i))) k e j t).modCore k
    (fun c => c.modSw (counted i (sget 0 (s.core k).sw.inTaken i.idx)))).modCore u (fun c => c.modSw (acked i.opp))).modCore u
    (fun c => c.modSw (credited i.opp))

section handed

variable {s : State} {k u : Nat} {i : Dir} {e : XEntry} {j : Nat} {t : BitVec 256}

/-- The local engine stores a transfer by its list entry, and counts it. -/
theorem deliver_of_entry (he : listAt (s.inList k i) (sget 0 (s.core k).sw.inTaken i.idx) = some (e, j)) :
    s.deliver k i t = (stored s k e j t).modCore k (fun c => c.modSw (counted i (sget 0 (s.core k).sw.inTaken i.idx))) := by
  unfold State.deliver
  dsimp only
  rw [he]
  rfl

theorem leave_local (hu : s.hop k i = .core u) (hf : sget [] (s.core k).sw.fifo i.idx = [t]) (hloc : xcLocal (s.core k).sw.xc i = true)
    (hbr : xcBranches (s.core k).sw.xc i = []) (he : listAt (s.inList k i) (sget 0 (s.core k).sw.inTaken i.idx) = some (e, j)) :
    s.leave k i = (handed s k u i e j t, [u]) := by
  have hleave : s.leave k i = (((s.modCore k (fun c => c.modSw (emptied i))).deliver k i t).ackUp k i).creditUp k i := by
    unfold State.leave
    dsimp only
    rw [hf, hloc, hbr]
    rfl
  have htaken : ((s.modCore k (fun c => c.modSw (emptied i))).core k).sw.inTaken = (s.core k).sw.inTaken :=
    modSw_field Switch.inTaken (f := emptied i) (fun _ => rfl) s k k
  have hdeliver := deliver_of_entry (s := s.modCore k (fun c => c.modSw (emptied i))) (t := t)
    (by rw [htaken, inList_modSw s k k i (f := emptied i) (fun _ => rfl)]; exact he)
  rw [htaken] at hdeliver
  have hop1 : ((s.modCore k (fun c => c.modSw (emptied i))).deliver k i t).hop k i = .core u :=
    (hop_of_regs (by rw [hdeliver, stored]; split <;> rfl) k i).trans hu
  have hack : ((s.modCore k (fun c => c.modSw (emptied i))).deliver k i t).ackUp k i =
      ((s.modCore k (fun c => c.modSw (emptied i))).deliver k i t).modCore u (fun c => c.modSw (acked i.opp)) := by
    unfold State.ackUp
    rw [hop1]
    rfl
  rw [hleave, hack, State.creditUp, hop_modCore, hop1, hdeliver]
  rfl

theorem handed_fifo (o : Nat) : ((handed s k u i e j t).core o).sw.fifo = ((s.modCore k (fun c => c.modSw (emptied i))).core o).sw.fifo := by
  rw [handed, modSw_field Switch.fifo (f := credited i.opp) (fun _ => rfl), modSw_field Switch.fifo (f := acked i.opp) (fun _ => rfl),
    modSw_field Switch.fifo (f := counted i _) (fun _ => rfl), stored_sw]

/-- The local engine counts the transfer. -/
theorem handed_counts : sget 0 ((handed s k u i e j t).core k).sw.inTaken i.idx = sget 0 (s.core k).sw.inTaken i.idx + 1 ∧
    ((handed s k u i e j t).core k).sw.rcvd.toNat = min (2 ^ 32 - 1) ((s.core k).sw.rcvd.toNat + 1) := by
  constructor
  · rw [handed, modSw_field Switch.inTaken (f := credited i.opp) (fun _ => rfl), modSw_field Switch.inTaken (f := acked i.opp) (fun _ => rfl),
      modSw_self, counted, sget_sput_self]
  · rw [handed, modSw_field Switch.rcvd (f := credited i.opp) (fun _ => rfl), modSw_field Switch.rcvd (f := acked i.opp) (fun _ => rfl),
      modSw_self, counted, satAdd_toNat, stored_sw, modSw_field Switch.rcvd (f := emptied i) (fun _ => rfl)]

/-- The acknowledgement and the credit go back to the switch that sent the transfer. -/
theorem handed_back : sget 0 ((handed s k u i e j t).core u).sw.ackWire i.opp.idx = sget 0 (s.core u).sw.ackWire i.opp.idx + 1 ∧
    sget 0 ((handed s k u i e j t).core u).sw.spent i.opp.idx = sget 0 (s.core u).sw.spent i.opp.idx - 1 := by
  constructor
  · rw [handed, modSw_field Switch.ackWire (f := credited i.opp) (fun _ => rfl), modSw_self, acked, sget_smod_self,
      modSw_field Switch.ackWire (f := counted i _) (fun _ => rfl), stored_sw, modSw_field Switch.ackWire (f := emptied i) (fun _ => rfl)]
  · rw [handed, modSw_self, credited, sget_smod_self, modSw_field Switch.spent (f := acked i.opp) (fun _ => rfl),
      modSw_field Switch.spent (f := counted i _) (fun _ => rfl), stored_sw, modSw_field Switch.spent (f := emptied i) (fun _ => rfl)]

theorem handed_mem : (handed s k u i e j t).mem = (stored (s.modCore k (fun c => c.modSw (emptied i))) k e j t).mem := by
  rw [handed, State.modCore_mem, State.modCore_mem, State.modCore_mem]

end handed

/-! ### A transfer arrives -/

/-- A transfer off its wire and in the FIFO. -/
def landed (s : State) (k : Nat) (i : Dir) (data : BitVec 256) : State := (arrived s k i).modCore k (fun c => c.modSw (intoFifo i data))

section landed

variable {s : State} {k : Nat} {i : Dir} {data : BitVec 256}

theorem landed_field {α : Type} (g : Switch → α) (hg : ∀ w a b, g { w with wire := a, fifo := b } = g w) (o : Nat) :
    g ((landed s k i data).core o).sw = g (s.core o).sw := by
  rw [landed, modSw_field g (f := intoFifo i data) (fun w => hg w w.wire _), arrived, modSw_field g (f := offWire i) (fun w => hg w _ w.fifo)]

theorem landed_wire : sget [] ((landed s k i data).core k).sw.wire i.idx = (sget [] (s.core k).sw.wire i.idx).drop 1 := by
  rw [landed, modSw_field Switch.wire (f := intoFifo i data) (fun _ => rfl), arrived_wire]

theorem landed_fifo : ((landed s k i data).core k).sw.fifo = smod [] (s.core k).sw.fifo i.idx (· ++ [data]) := by
  rw [landed, modSw_self, intoFifo, arrived, modSw_field Switch.fifo (f := offWire i) (fun _ => rfl)]

theorem landed_core_ne {o : Nat} (h : o ≠ k) : (landed s k i data).core o = s.core o :=
  (State.core_modCore_ne _ _ h).trans (State.core_modCore_ne _ _ h)

theorem hop_landed : (landed s k i data).hop k i = s.hop k i :=
  (hop_modCore (arrived s k i) k _ k i).trans (hop_modCore s k _ k i)

/-- A transfer that has landed can leave to the local engine. -/
theorem canLeave_landed (hon : s.meshOn (dieOf k) = true) (hdead : i ∉ (s.core k).sw.dead) (hact : (s.core k).sw.active = true)
    (hloc : xcLocal (s.core k).sw.xc i = true) (hbr : xcBranches (s.core k).sw.xc i = []) (hdone : s.inDone k i = false) :
    (landed s k i data).canLeave k i = true := by
  have hmesh : (landed s k i data).meshOn (dieOf k) = true := by rw [landed, meshOn_modCore, arrived, meshOn_modCore, hon]
  have hlist : (landed s k i data).inDone k i = false := by
    rw [landed, inDone_modSw _ _ _ _ (f := intoFifo i data) (fun _ => rfl) (fun _ => rfl) (fun _ => rfl), arrived,
      inDone_modSw _ _ _ _ (f := offWire i) (fun _ => rfl) (fun _ => rfl) (fun _ => rfl), hdone]
  unfold State.canLeave Switch.on
  dsimp only
  rw [landed_field Switch.active (fun _ _ _ => rfl), landed_field Switch.dead (fun _ _ _ => rfl), landed_field Switch.xc (fun _ _ _ => rfl),
    landed_fifo, sget_smod_self, hact, hmesh, hloc, hbr, hlist]
  simpa using hdead

/-- Where no other transfer waits, it is the only one that can. -/
theorem canLeave_landed_ne (hempty : (s.core k).sw.fifo = []) {j : Dir} (hj : j ≠ i) : (landed s k i data).canLeave k j = false := by
  have hfifo : sget [] ((landed s k i data).core k).sw.fifo j.idx = [] := by
    rw [landed_fifo, hempty, smod, sget_sput_ne _ _ _ (fun h => hj (Dir.idx_injective h))]
    rfl
  exact canLeave_of_empty hfifo

theorem arrived_fifo (o : Nat) : ((arrived s k i).core o).sw.fifo = (s.core o).sw.fifo :=
  modSw_field Switch.fifo (f := offWire i) (fun _ => rfl) s k o

theorem inList_landed : (landed s k i data).inList k i = s.inList k i := by
  rw [landed, inList_modSw _ _ _ _ (f := intoFifo i data) (fun _ => rfl), arrived, inList_modSw _ _ _ _ (f := offWire i) (fun _ => rfl)]

/-- A FIFO into which one transfer has come and from which it has gone. -/
theorem fifo_of_passed (n : Nat) (data : BitVec 256) : sput [] (smod [] [] n (· ++ [data])) n [] = [] := by
  simp [smod, sput, sget, sdel, sins]

section passing

variable {u j : Nat} {e : XEntry} (hempty : ∀ o, (s.core o).sw.fifo = [])
include hempty

theorem handed_landed_fifo (o : Nat) : ((handed (landed s k i data) k u i e j data).core o).sw.fifo = [] := by
  rw [handed_fifo]
  by_cases ho : o = k
  · rw [ho, modSw_self, emptied, landed_fifo, hempty, fifo_of_passed]
  · rw [State.core_modCore_ne _ _ ho, landed_core_ne ho, hempty]

variable (hu : s.hop k i = .core u) (hloc : xcLocal (s.core k).sw.xc i = true) (hbr : xcBranches (s.core k).sw.xc i = [])
include hu hloc hbr

theorem leave_landed (he : listAt (s.inList k i) (sget 0 (s.core k).sw.inTaken i.idx) = some (e, j)) :
    (landed s k i data).leave k i = (handed (landed s k i data) k u i e j data, [u]) := by
  have hin : sget [] ((landed s k i data).core k).sw.fifo i.idx = [data] := by rw [landed_fifo, sget_smod_self, hempty]; rfl
  refine leave_local (hop_landed.trans hu) hin ?_ ?_ ?_
  · rw [landed_field Switch.xc (fun _ _ _ => rfl), hloc]
  · rw [landed_field Switch.xc (fun _ _ _ => rfl), hbr]
  · rw [landed_field Switch.inTaken (fun _ _ _ => rfl), inList_landed, he]

/-- The transfer that landed is handed to the local engine, and after it none can leave anywhere. -/
theorem enterFifo_local (hon : s.meshOn (dieOf k) = true) (hdead : i ∉ (s.core k).sw.dead) (hact : (s.core k).sw.active = true)
    (hdone : s.inDone k i = false) (he : listAt (s.inList k i) (sget 0 (s.core k).sw.inTaken i.idx) = some (e, j)) :
    (arrived s k i).enterFifo k i data = handed (landed s k i data) k u i e j data := by
  have hleave := leave_landed (data := data) hempty hu hloc hbr he
  have hroom : (sget [] ((arrived s k i).core k).sw.fifo i.idx).length < (arrived s k i).fifoMax k i := by
    rw [arrived_fifo, hempty, State.fifoMax, arrived, hop_modCore, hu]
    exact Nat.zero_lt_succ 7
  have hrun : (landed s k i data).runSwitch k = ((landed s k i data).leave k i).1 := by
    refine runSwitch_of_one (find_dirs_eq (canLeave_landed hon hdead hact hloc hbr hdone) fun _ => canLeave_landed_ne (hempty k)) fun o => ?_
    rw [hleave]
    change dirs.find? ((handed (landed s k i data) k u i e j data).canLeave o) = none
    exact find_canLeave_of_empty (handed_landed_fifo hempty o)
  have henter : (arrived s k i).enterFifo k i data = (landed s k i data).runSwitch k := if_pos hroom
  rw [henter, hrun, hleave]

end passing

end landed

end Sys2Proof.MeshMoves
end

section
/-! Acknowledgements that arrive at an output, and what a transfer that arrives leaves (R57, R191, R195, R197, R200). -/
namespace Sys2Proof.MeshMoves

open Sys2Proof.Machine Sys2Proof.Claims Sys2Proof.Ecc

/-! ### Acknowledgements (R197) -/

theorem ackUp_mem (s : State) (k : Nat) (i : Dir) : (s.ackUp k i).mem = s.mem := by
  unfold State.ackUp
  split <;> rfl

theorem ackUp_core {s : State} {k u : Nat} {i : Dir} (h : s.hop k i = .core u) :
    s.ackUp k i = s.modCore u (fun c => c.modSw (acked i.opp)) := by
  unfold State.ackUp
  rw [h]
  rfl

/-- An acknowledgement off its wire; a local transfer acknowledged; the routes that wait. -/
def ackOff (o : Dir) (w : Switch) : Switch := { w with ackWire := smod 0 w.ackWire o.idx (· - 1) }
def unackOne (o : Dir) (w : Switch) : Switch := { w with unack := smod 0 w.unack o.idx (· - 1) }
def withRoutes (rs : List Route) (w : Switch) : Switch := { w with routes := rs }

/-- What the acknowledgements of an output leave of memory. -/
theorem ackArrives_mem (s : State) (k : Nat) (o : Dir) : (s.ackArrives k o).mem = s.mem := by
  unfold State.ackArrives
  dsimp only
  split
  · rfl
  · split
    · rfl
    · split
      · exact ackUp_mem ..
      · rfl

section arrives

variable {s : State} {k : Nat} {o : Dir}

theorem ackArrives_local (h : xcOut (s.core k).sw.xc o = 1) : s.ackArrives k o = s.modCore k (fun c => c.modSw (unackOne o)) := if_pos h

theorem findIdx_first {r : Route} {rs l : List Route} (hr : l = r :: rs) (ho : o ∈ r.wait) :
    l.findIdx? (fun r => r.wait.contains o) = some 0 := by
  rw [hr, List.findIdx?_cons, if_pos (List.contains_iff_mem.mpr ho)]

variable (hx : xcOut (s.core k).sw.xc o ≠ 1)
include hx

/-- No route waits for the acknowledgement. -/
theorem ackArrives_of_none (h : ∀ r ∈ (s.core k).sw.routes, o ∉ r.wait) : s.ackArrives k o = s := by
  have hfind : (s.core k).sw.routes.findIdx? (fun r => r.wait.contains o) = none :=
    List.findIdx?_eq_none_iff.mpr fun r hr => by simpa using h r hr
  unfold State.ackArrives
  dsimp only
  rw [if_neg hx, hfind]

variable {r : Route} {rs : List Route} (hr : (s.core k).sw.routes = r :: rs) (ho : o ∈ r.wait)
include hr ho

/-- The first route waits for other branches as well. -/
theorem ackArrives_branch (h : r.wait.erase o ≠ []) :
    s.ackArrives k o = s.modCore k (fun c => c.modSw (fun w => withRoutes (w.routes.set 0 { r with wait := r.wait.erase o }) w)) := by
  have hno : (r.wait.erase o).isEmpty = false := by rwa [List.isEmpty_eq_false_iff]
  unfold State.ackArrives
  dsimp only
  rw [if_neg hx, findIdx_first hr ho]
  simp only [hr, List.getD_cons_zero, hno, Bool.false_eq_true, if_false]
  rfl

/-- The acknowledgement is the last of the first route. -/
theorem ackArrives_last (h : r.wait.erase o = []) :
    s.ackArrives k o = (s.modCore k (fun c => c.modSw (fun w => withRoutes (w.routes.eraseIdx 0) w))).ackUp k r.inp := by
  unfold State.ackArrives
  dsimp only
  rw [if_neg hx, findIdx_first hr ho]
  simp only [hr, List.getD_cons_zero, h, List.isEmpty_nil, if_true]
  rfl

end arrives

/-- The state in which an acknowledgement has left its wire. -/
def ackLeft (s : State) (k : Nat) (o : Dir) : State := s.modCore k (fun c => c.modSw (ackOff o))

section command

variable {s : State} {k : Fin 39168} {o : Dir}

theorem deliveryAcknowledgement_of_none (h : sget 0 (s.core k).sw.ackWire o.idx = 0) : exec (.deliveryAcknowledgement k o) s = .next s :=
  congrArg Host.Outcome.next (if_pos h)

theorem deliveryAcknowledgement_eq (h : 0 < sget 0 (s.core k).sw.ackWire o.idx) :
    exec (.deliveryAcknowledgement k o) s = .next ((ackLeft s k o).ackArrives k o) :=
  congrArg Host.Outcome.next (if_neg h.ne')

end command

section left

variable (s : State) (k : Nat) (o : Dir)

theorem ackLeft_field {α : Type} (g : Switch → α) (hg : ∀ w a, g { w with ackWire := a } = g w) (j : Nat) :
    g ((ackLeft s k o).core j).sw = g (s.core j).sw := modSw_field g (f := ackOff o) (fun w => hg w _) s k j

theorem ackLeft_wire : sget 0 ((ackLeft s k o).core k).sw.ackWire o.idx = sget 0 (s.core k).sw.ackWire o.idx - 1 := by
  rw [ackLeft, modSw_self, ackOff, sget_smod_self]

/-- A local transfer is counted off. -/
theorem acknowledged_local (h : xcOut (s.core k).sw.xc o = 1) : let t := (ackLeft s k o).ackArrives k o
    sget 0 (t.core k).sw.ackWire o.idx = sget 0 (s.core k).sw.ackWire o.idx - 1 ∧
    sget 0 (t.core k).sw.unack o.idx = sget 0 (s.core k).sw.unack o.idx - 1 ∧ (t.core k).sw.routes = (s.core k).sw.routes := by
  have hx : xcOut ((ackLeft s k o).core k).sw.xc o = 1 := by rw [ackLeft_field s k o Switch.xc (fun _ _ => rfl), h]
  dsimp only
  rw [ackArrives_local hx]
  refine ⟨?_, ?_, ?_⟩
  · rw [modSw_field Switch.ackWire (f := unackOne o) (fun _ => rfl), ackLeft_wire]
  · rw [modSw_self, unackOne, sget_smod_self, ackLeft_field s k o Switch.unack (fun _ _ => rfl)]
  · rw [modSw_field Switch.routes (f := unackOne o) (fun _ => rfl), ackLeft_field s k o Switch.routes (fun _ _ => rfl)]

variable (h : xcOut (s.core k).sw.xc o ≠ 1)
include h

theorem xcOut_ackLeft_ne : xcOut ((ackLeft s k o).core k).sw.xc o ≠ 1 := by rwa [ackLeft_field s k o Switch.xc (fun _ _ => rfl)]

theorem acknowledged_none (hr : ∀ r ∈ (s.core k).sw.routes, o ∉ r.wait) : let t := (ackLeft s k o).ackArrives k o
    (t.core k).sw.routes = (s.core k).sw.routes ∧ (t.core k).sw.unack = (s.core k).sw.unack := by
  dsimp only
  rw [ackArrives_of_none (xcOut_ackLeft_ne s k o h) (by rwa [ackLeft_field s k o Switch.routes (fun _ _ => rfl)])]
  exact ⟨ackLeft_field s k o Switch.routes (fun _ _ => rfl) k, ackLeft_field s k o Switch.unack (fun _ _ => rfl) k⟩

/-- One branch of a route is acknowledged, others wait. -/
theorem acknowledged_branch {r : Route} {rs : List Route} (hr : (s.core k).sw.routes = r :: rs) (ho : o ∈ r.wait) (hne : r.wait.erase o ≠ []) :
    (((ackLeft s k o).ackArrives k o).core k).sw.routes = { r with wait := r.wait.erase o } :: rs := by
  have hr' : ((ackLeft s k o).core k).sw.routes = r :: rs := (ackLeft_field s k o Switch.routes (fun _ _ => rfl) k).trans hr
  rw [ackArrives_branch (xcOut_ackLeft_ne s k o h) hr' ho hne, modSw_self, withRoutes, hr', List.set_cons_zero]

/-- The last branch of a route is acknowledged: the route waits no more, and the switch that sent it is told. -/
theorem acknowledged_last {r : Route} {rs : List Route} {u : Nat} (hr : (s.core k).sw.routes = r :: rs) (ho : r.wait = [o])
    (hu : s.hop k r.inp = .core u) (hne : u ≠ k) : let t := (ackLeft s k o).ackArrives k o
    (t.core k).sw.routes = rs ∧ sget 0 (t.core u).sw.ackWire r.inp.opp.idx = sget 0 (s.core u).sw.ackWire r.inp.opp.idx + 1 := by
  have hr' : ((ackLeft s k o).core k).sw.routes = r :: rs := (ackLeft_field s k o Switch.routes (fun _ _ => rfl) k).trans hr
  have hlast : r.wait.erase o = [] := by rw [ho, List.erase_cons_head]
  have hup : ((ackLeft s k o).modCore k (fun c => c.modSw (fun w => withRoutes (w.routes.eraseIdx 0) w))).hop k r.inp = .core u := by
    rw [hop_modCore, ackLeft, hop_modCore, hu]
  dsimp only
  rw [ackArrives_last (xcOut_ackLeft_ne s k o h) hr' (by rw [ho]; exact List.mem_cons_self) hlast, ackUp_core hup]
  constructor
  · rw [State.core_modCore_ne _ _ hne.symm, modSw_self, withRoutes, hr', List.eraseIdx_cons_zero]
  · rw [modSw_self, acked, sget_smod_self, State.core_modCore_ne _ _ hne, ackLeft, State.core_modCore_ne _ _ hne]

end left

/-! ### What a transfer that arrives leaves -/

section receive

variable (s : State) (k : Nat) (i : Dir)

theorem core_arrived : (arrived s k i).core k = (s.core k).modSw (offWire i) := State.core_modCore ..

/-- With bad parity it is recorded, raised and discarded, and the input is dead. -/
theorem parityError_arrived : let t := (arrived s k i).parityError k i
    t.reg (Reg.parerr (dieOf k)) = BitVec.ofNat 32 (2 ^ 31 + siteOf k * 2 ^ 16 + i.idx) ∧
    ((s.core k).st = 3 → (t.core k).excPend = (s.core k).excPend ++ [parityExc i]) ∧
    ((s.core k).st = 7 → (t.core k).excPend = (s.core k).excPend ∧
      ∀ p, s.partOfRank (rankOfDie (dieOf k)) = some p → (t.part p).haltPend.map (·.1) = some .abort) ∧
    sget [] (t.core k).sw.wire i.idx = (sget [] (s.core k).sw.wire i.idx).drop 1 ∧ (t.core k).sw.fifo = (s.core k).sw.fifo ∧
    (t.core k).sw.inTaken = (s.core k).sw.inTaken ∧ i ∈ (t.core k).sw.dead ∧ t.mem = s.mem := by
  have hc := core_arrived s k i
  dsimp only
  rw [parityError_eq]
  generalize Reg.parerr (dieOf k) = o, BitVec.ofNat 32 (2 ^ 31 + siteOf k * 2 ^ 16 + i.idx) = v
  obtain ⟨hreg, hsw, hmem⟩ := parityRaised_records o v (arrived s k i) k i
  refine ⟨hreg, fun h => ?_, fun h => ?_, ?_, ?_, ?_, ?_, hmem⟩
  · rw [parityRaised_of_running o v (arrived s k i) k i (by rw [hc]; exact h), hc]
    rfl
  · obtain ⟨hexc, hhalt⟩ := parityRaised_of_unpowered o v (arrived s k i) k i (by rw [hc]; exact h)
    exact ⟨hexc.trans (by rw [hc]; rfl), hhalt⟩
  · rw [hsw]
    exact arrived_wire s k i
  · rw [hsw, hc]
    rfl
  · rw [hsw, hc]
    rfl
  · rw [hsw]
    exact mem_deaden ..

/-- Where the switch names no destination it waits in the FIFO. -/
theorem enterFifo_rests {data : BitVec 256} {u : Nat} (hu : s.hop k i = .core u) (ha : (s.core k).sw.active = false)
    (hs : (s.core k).sw.standing = false) (hroom : (sget [] (s.core k).sw.fifo i.idx).length < 8) :
    (arrived s k i).enterFifo k i data = landed s k i data := by
  have hmax : (arrived s k i).fifoMax k i = 8 := by rw [State.fifoMax, arrived, hop_modCore, hu]
  refine enterFifo_of_off ?_ ?_ ?_ data
  · rw [core_arrived]
    exact ha
  · rw [core_arrived]
    exact hs
  · rw [hmax, arrived_fifo]
    exact hroom

variable {s k i} {data : BitVec 256}

theorem landed_fifo_at (n : Nat) :
    sget [] ((landed s k i data).core k).sw.fifo n = sget [] (s.core k).sw.fifo n ++ if n = i.idx then [data] else [] := by
  rw [landed_fifo]
  by_cases h : n = i.idx
  · rw [if_pos h, h, sget_smod_self]
  · rw [if_neg h, smod, sget_sput_ne _ _ _ h, List.append_nil]

theorem landed_mem : (landed s k i data).mem = s.mem := by rw [landed, State.modCore_mem, arrived, State.modCore_mem]

/-- Handed to the local engine, it is stored at its entry's address, counted, and acknowledged with its credit. -/
theorem handed_landed {u j : Nat} {e : XEntry} : let t := handed (landed s k i data) k u i e j data
    (∀ n < 32, e.zero = false → rd t.mem (spadAddr k (entryAddr e j + n)) = data.extractLsb' (8 * n) 8) ∧
    (∀ a, e.zero = true ∨ a < spadAddr k (entryAddr e j) ∨ spadAddr k (entryAddr e j) + 32 ≤ a → rd t.mem a = rd s.mem a) ∧
    sget 0 (t.core k).sw.inTaken i.idx = sget 0 (s.core k).sw.inTaken i.idx + 1 ∧
    (t.core k).sw.rcvd.toNat = min (2 ^ 32 - 1) ((s.core k).sw.rcvd.toNat + 1) ∧
    sget 0 (t.core u).sw.ackWire i.opp.idx = sget 0 (s.core u).sw.ackWire i.opp.idx + 1 ∧
    sget 0 (t.core u).sw.spent i.opp.idx = sget 0 (s.core u).sw.spent i.opp.idx - 1 := by
  obtain ⟨hbytes, hrest⟩ := stored_mem ((landed s k i data).modCore k (fun c => c.modSw (emptied i))) k e j data
  obtain ⟨htaken, hcount⟩ := handed_counts (s := landed s k i data) (k := k) (u := u) (i := i) (e := e) (j := j) (t := data)
  obtain ⟨hack, hcred⟩ := handed_back (s := landed s k i data) (k := k) (u := u) (i := i) (e := e) (j := j) (t := data)
  rw [landed_field Switch.inTaken (fun _ _ _ => rfl)] at htaken
  rw [landed_field Switch.rcvd (fun _ _ _ => rfl)] at hcount
  rw [landed_field Switch.ackWire (fun _ _ _ => rfl)] at hack
  rw [landed_field Switch.spent (fun _ _ _ => rfl)] at hcred
  dsimp only
  rw [handed_mem]
  refine ⟨hbytes, fun a ha => (hrest a ha).trans ?_, htaken, hcount, hack, hcred⟩
  rw [State.modCore_mem, landed_mem]

end receive

end Sys2Proof.MeshMoves
end

section
/-! Beats of a rank bus: the words that a beat writes, the one site that it reaches, and the bus's last driver (R175, R206 to R210). -/
namespace Sys2Proof.Beats

open Sys2Proof.Machine Sys2Proof.Claims Sys2Proof.Ecc Sys2Proof.MeshMoves

/-! ### Dies that an exception leaves alone -/

theorem dies_coreException (s : State) (k : Nat) (e : Exc) : (s.coreException k e).dies = s.dies := by
  rw [Present.coreException_eq, State.haltRank]
  split
  · exact (State.raise_dies ..).trans rfl
  · exact (State.raise_dies ..).trans rfl

theorem dies_engineExc (s : State) (k : Nat) (e : Exc) : (s.engineExc k e).dies = s.dies := by
  unfold State.engineExc
  split
  · rfl
  · split
    · exact dies_coreException s k e
    · rfl

/-! ### The words that a beat writes (R207) -/

/-- The first n words of a beat, those that WEN names, at a scratchpad offset. -/
def writeWords (s : State) (k off : Nat) (wen : Byte) (data : W512) (n : Nat) : State :=
  (List.range n).foldl (fun a w =>
    if wen.getLsbD w then a.spadWr k (off + 8 * w) (leBytes 8 (data.extractLsb' (64 * w) 64).toNat) else a) s

theorem beatWrite_eq (s : State) (k row : Nat) (wen : Byte) (data : W512) :
    s.beatWrite k row wen data = writeWords s k (row * 64) wen data 8 := rfl

section words

variable (s : State) (k off : Nat) (wen : Byte) (data : W512)

theorem writeWords_succ (n : Nat) : writeWords s k off wen data (n + 1) =
    if wen.getLsbD n then (writeWords s k off wen data n).spadWr k (off + 8 * n) (leBytes 8 (data.extractLsb' (64 * n) 64).toNat)
    else writeWords s k off wen data n := by
  rw [writeWords, List.range_succ, List.foldl_append]
  rfl

theorem writeWords_dies (n : Nat) : (writeWords s k off wen data n).dies = s.dies := by
  induction n with
  | zero => rfl
  | succ n ih =>
    rw [writeWords_succ]
    split
    · exact ih
    · exact ih

theorem writeWords_core_ne {j : Nat} (h : j ≠ k) (n : Nat) : (writeWords s k off wen data n).core j = s.core j := by
  induction n with
  | zero => rfl
  | succ n ih =>
    rw [writeWords_succ]
    split
    · rw [spadWr_core_ne _ _ _ _ h, ih]
    · exact ih

theorem errors_writeWords (n : Nat) : ErrorsOnly (s.core k) ((writeWords s k off wen data n).core k) := by
  induction n with
  | zero => exact .refl _
  | succ n ih =>
    rw [writeWords_succ]
    split
    · exact ih.trans (errors_spadWr ..)
    · exact ih

theorem extractLsb'_word (w i : Nat) (hi : i < 8) : (data.extractLsb' (64 * w) 64).extractLsb' (8 * i) 8 = data.extractLsb' (64 * w + 8 * i) 8 := by
  refine BitVec.eq_of_getLsbD_eq fun q hq => ?_
  have hlt : 8 * i + q < 64 := by omega
  simp only [BitVec.getLsbD_extractLsb', hq, hlt, decide_true, Bool.true_and, Nat.add_assoc]

/-- A word that WEN names holds the beat's data, and every other byte is as before. -/
theorem writeWords_mem (n : Nat) :
    (∀ w < n, ∀ i < 8, rd (writeWords s k off wen data n).mem (spadAddr k (off + 8 * w + i)) =
      if wen.getLsbD w then data.extractLsb' (64 * w + 8 * i) 8 else rd s.mem (spadAddr k (off + 8 * w + i))) ∧
    ∀ a, a < spadAddr k off ∨ spadAddr k off + 8 * n ≤ a → rd (writeWords s k off wen data n).mem a = rd s.mem a := by
  induction n with
  | zero => exact ⟨fun _ h => absurd h (Nat.not_lt_zero _), fun _ _ => rfl⟩
  | succ n ih =>
    obtain ⟨hwords, hrest⟩ := ih
    have hlen : (leBytes 8 (data.extractLsb' (64 * n) 64).toNat).length = 8 := CSlot.leBytes_length ..
    rw [writeWords_succ]
    rcases hn : wen.getLsbD n with _ | _
    · refine ⟨fun w hw i hi => ?_, fun a ha => hrest a (by omega)⟩
      rcases Nat.lt_succ_iff_lt_or_eq.mp hw with hw | rfl
      · exact hwords w hw i hi
      · rw [hn]
        exact hrest _ (by rw [Nat.add_assoc, spadAddr_add]; omega)
    · rw [if_pos rfl]
      refine ⟨fun w hw i hi => ?_, fun a ha => ?_⟩
      · rcases Nat.lt_succ_iff_lt_or_eq.mp hw with hw | rfl
        · rw [spadWr_mem, rd_wrN_ne _ _ _ _ (.inl (by rw [Nat.add_assoc, spadAddr_add, spadAddr_add]; omega)), hwords w hw i hi]
        · rw [spadWr_mem, hn, if_pos rfl, spadAddr_add k (off + 8 * w) i,
            rd_wrN _ _ _ _ (by rw [hlen]; exact hi), leBytes_getElem_bits, extractLsb'_word _ _ _ hi]
      · rw [spadWr_mem, rd_wrN_ne _ _ _ _ (by rw [hlen, spadAddr_add]; omega), hrest a (by omega)]

end words

/-! ### Combined bytes -/

/-- A byte of a number that byte strings give. -/
theorem leNat_byte (bs : List Byte) (j : Nat) : leNat bs / 2 ^ (8 * j) % 2 ^ 8 = (bs.getD j 0).toNat := by
  induction bs generalizing j with
  | nil => simp [leNat]
  | cons b bs ih =>
    have hb := b.isLt
    cases j with
    | zero =>
      rw [leNat, List.getD_cons_zero]
      omega
    | succ j =>
      rw [List.getD_cons_succ, ← ih, leNat, Nat.mul_succ, Nat.add_comm (8 * j), Nat.pow_add, ← Nat.div_div_eq_div_mul,
        Nat.add_mul_div_left _ _ (by decide), Nat.div_eq_of_lt hb, Nat.zero_add]

theorem extractLsb'_leNat (bs : List Byte) {j : Nat} (hj : j < 64) : (BitVec.ofNat 512 (leNat bs)).extractLsb' (8 * j) 8 = bs.getD j 0 := by
  refine BitVec.eq_of_toNat_eq ?_
  rw [← leNat_byte, BitVec.extractLsb', BitVec.toNat_ofNat, BitVec.toNat_ofNat, Nat.shiftRight_eq_div_pow]
  refine Nat.eq_of_testBit_eq fun q => ?_
  simp only [Nat.testBit_mod_two_pow, Nat.testBit_div_two_pow]
  by_cases hq : q < 8
  · rw [decide_eq_true hq, decide_eq_true (show q + 8 * j < 512 by omega), Bool.true_and, Bool.true_and]
  · rw [decide_eq_false hq, Bool.false_and, Bool.false_and]

/-- Elements of every type below FP8 are shorter than 16 bytes. -/
theorem atomSize_ne : ∀ ty < 4, (atomSize ty).getD 4 ≠ 16 := by decide

/-! ### A beat takes its bank cycle -/

section bank

variable {s : State} {k : Nat} {b : Beat}

theorem beatDo_write (h : b.kind = 1 ∨ b.kind = 4) : s.beatDo k b = writeWords s k (b.row.toNat * 64) b.wen b.data 8 :=
  (if_pos h).trans (beatWrite_eq s k b.row.toNat b.wen b.data)

/-- No beat changes the dies. -/
theorem beatDo_dies : (s.beatDo k b).dies = s.dies := by
  unfold State.beatDo
  dsimp only
  split
  · exact writeWords_dies ..
  · split
    · exact dies_engineExc ..
    · split
      · rfl
      · split
        · rfl
        · exact writeWords_dies ..

variable (hue : (s.core k).spadUe = []) (hpo : (s.core k).poison = [])
include hue hpo

/-- A read request answers the row. -/
theorem beatDo_read (h : b.kind = 2) : let t := s.beatDo k b
    t.answer = s.spadRd k (b.row.toNat * 64) 64 ∧ t.mem = s.mem ∧ (t.core k).excPend = (s.core k).excPend := by
  unfold State.beatDo
  dsimp only
  rw [h, if_neg (by decide), if_pos rfl, Copying.badRow_of_clean hue hpo]
  exact ⟨rfl, rfl, (Copying.reads_engineRead hue hpo _).exc⟩

/-- What an atomic beat combines. -/
def atomicBytes (s : State) (k : Nat) (b : Beat) : List Byte :=
  combineBytes (field b.attr.toNat 12 4) (field b.attr.toNat 8 4) (s.spadRd k (b.row.toNat * 64) 64) (leBytes 64 b.data.toNat)

theorem beatDo_atomic (h : b.kind = 3) (hty : field b.attr.toNat 8 4 < 4) : ∃ ws, s.beatDo k b =
    writeWords (s.modCore k (fun c => c.engineRead ws)) k (b.row.toNat * 64) b.wen (BitVec.ofNat 512 (leNat (atomicBytes s k b))) 8 := by
  unfold State.beatDo
  dsimp only
  rw [h, if_neg (by decide), if_neg (by decide), Copying.badRow_of_clean hue hpo]
  exact ⟨_, (if_neg (by decide)).trans (if_neg fun hz => atomSize_ne _ hty hz.1)⟩

theorem beatDo_atomic_spec (h : b.kind = 3) (hty : field b.attr.toNat 8 4 < 4) : let t := s.beatDo k b
    (∀ w < 8, ∀ i < 8, rd t.mem (spadAddr k (b.row.toNat * 64 + 8 * w + i)) =
      if b.wen.getLsbD w then (atomicBytes s k b).getD (8 * w + i) 0 else rd s.mem (spadAddr k (b.row.toNat * 64 + 8 * w + i))) ∧
    (∀ a, a < spadAddr k (b.row.toNat * 64) ∨ spadAddr k (b.row.toNat * 64) + 64 ≤ a → rd t.mem a = rd s.mem a) ∧
    (t.core k).excPend = (s.core k).excPend := by
  obtain ⟨ws, hrun⟩ := beatDo_atomic hue hpo h hty
  have hread := Copying.reads_engineRead hue hpo ws
  dsimp only
  rw [hrun]
  obtain ⟨hwords, hrest⟩ := writeWords_mem (s.modCore k (fun c => c.engineRead ws)) k (b.row.toNat * 64) b.wen
    (BitVec.ofNat 512 (leNat (atomicBytes s k b))) 8
  refine ⟨fun w hw i hi => (hwords w hw i hi).trans ?_, hrest, ((errors_writeWords ..).field Core.excPend rfl).trans hread.exc⟩
  rw [show 64 * w + 8 * i = 8 * (8 * w + i) by omega, extractLsb'_leNat _ (by omega), State.modCore_mem]

end bank

/-! ### The one site of a beat (R17, R206, R210) -/

/-- Only the named logical file is in a mask of one bit. -/
theorem filter_one_bit : ∀ l : Fin 16, (List.range 16).filter (fun i => (BitVec.ofNat 16 (2 ^ l.val)).getLsbD i) = [l.val] := by decide

theorem beatSites_one {b : Beat} (s : State) (d rank : Nat) {l : Fin 16} (hb : b.diebc = false) (hf : b.fmask = BitVec.ofNat 16 (2 ^ l.val)) :
    s.beatSites d rank b = [d * 272 + rank * 17 + physFile (s.coreHole d rank) l] := by
  rw [State.beatSites, beatRanks, hb, hf, filter_one_bit]
  rfl

/-- The buses of which E has driven last. -/
def turned (rank : Nat) (fromE : Bool) (e : Die) : Die := { e with turnE := if fromE then e.turnE.erase rank else addNew rank e.turnE }

theorem siteFenced_turned (s : State) (d rank : Nat) (fromE : Bool) (k : Nat) : (s.modDie d (turned rank fromE)).siteFenced k = s.siteFenced k := by
  unfold State.siteFenced
  by_cases h : dieOf k = d
  · rw [h, State.die_modDie, turned]
  · rw [State.die_modDie_ne _ _ h]

theorem turnOf_one {rank : Nat} {b : Beat} (hb : b.diebc = false) {e : Die} (h : b.both = true → (rank ∈ e.turnE ↔ b.fromE = true)) :
    e.turnOf rank b = true := by
  rw [Die.turnOf, beatRanks, hb]
  rcases hboth : b.both with _ | _
  · rfl
  · have hturn := h hboth
    cases hfrom : b.fromE <;> simp_all

theorem beatAt_of_deaf {s : State} {k : Nat} {b : Beat} (h : s.siteFenced k = true ∨ (s.core k).st = 7) : s.beatAt k b [] = s := if_pos h

/-- A beat that no other waits before takes its bank cycle at once. -/
theorem beatAt_of_hearing {s : State} {k : Nat} {b : Beat} (h : ¬ (s.siteFenced k = true ∨ (s.core k).st = 7)) (hrx : (s.core k).rx = []) :
    s.beatAt k b [] = s.beatDo k b := by
  have hd : s.drainRx k = s := by simp [State.drainRx, hrx]
  refine (if_neg h).trans ?_
  dsimp only
  rw [hd]
  refine if_neg ?_
  rw [rivalReqs, List.map_nil, Copying.cycleLosers_single, List.any_nil]
  exact Bool.false_ne_true

theorem beatAt_dies {s : State} {k : Nat} {b : Beat} (hrx : (s.core k).rx = []) : (s.beatAt k b []).dies = s.dies := by
  by_cases h : s.siteFenced k = true ∨ (s.core k).st = 7
  · rw [beatAt_of_deaf h]
  · rw [beatAt_of_hearing h hrx, beatDo_dies]

section command

variable {s : State} {d : Fin 144} {rank : Fin 16} {b : Beat}

theorem beat_of_refused (h : b.ok = false ∨ s.meshOn d = false ∨ (s.die d).turnOf rank b = false) : exec (.beat d rank b []) s = .next s := by
  refine congrArg Host.Outcome.next (if_neg ?_)
  simp only [Bool.and_eq_true]
  rintro ⟨⟨⟨hok, hon⟩, hturn⟩, -⟩
  rcases h with h | h | h
  · exact Bool.false_ne_true (h.symm.trans hok)
  · exact Bool.false_ne_true (h.symm.trans hon)
  · exact Bool.false_ne_true (h.symm.trans hturn)

theorem beat_one (hok : b.ok = true) (hon : s.meshOn d = true) (hturn : b.both = true → (rank.val ∈ (s.die d).turnE ↔ b.fromE = true))
    (hb : b.diebc = false) {l : Fin 16} (hf : b.fmask = BitVec.ofNat 16 (2 ^ l.val))
    (hrx : (s.core (d.val * 272 + rank.val * 17 + physFile (s.coreHole d rank) l)).rx = []) :
    exec (.beat d rank b []) s = .next ((s.modDie d (turned rank b.fromE)).beatAt
      (d.val * 272 + rank.val * 17 + physFile (s.coreHole d rank) l) b []) := by
  have hsites := beatSites_one s d rank hb hf
  have hgo : (b.ok && s.meshOn d.val && (s.die d.val).turnOf rank.val b &&
      (s.beatSites d.val rank.val b).all (fun k => s.beatCredit k b)) = true := by
    rw [hok, hon, turnOf_one hb hturn, hsites, List.all_cons, List.all_nil, State.beatCredit, hrx]
    rfl
  refine congrArg Host.Outcome.next ((if_pos hgo).trans ?_)
  rw [hsites, beatRanks, hb]
  rfl

end command

/-- Settles O25: at an input a transfer is `arrived`, then refused, resting or handed to the local engine; at an output an acknowledgement
has left its wire; a beat is `beatDo` at its one site. -/
theorem inputsAndBeatsReachTheirSite : Obligations.InputsAndBeatsReachTheirSite := by
  unfold Obligations.InputsAndBeatsReachTheirSite
  refine ⟨fun s k dir => ?_, fun s d rank b => ⟨beat_of_refused, ?_⟩⟩
  · intro c w
    refine ⟨fun data par u hu => ?_, deliveryAcknowledgement_of_none, fun hack => ⟨_, deliveryAcknowledgement_eq hack, ?_⟩⟩
    · intro good wire run
      have hgood : good ↔ parityOf data = par := (parityOf_eq_iff data par).symm
      refine ⟨fun h => ?_, fun hbad hw hon => ?_, fun hg hon hw ha hs hroom => ?_,
        fun e i hg hon hw hdead hempty hact hloc hbr hdone he => ?_⟩
      · exact transferReceive_of_none hu (h.imp_right (Or.imp_right (And.imp_left hgood.mp)))
      · exact ⟨_, transferReceive_of_bad hu hon (hbad ∘ hgood.mpr) hw, parityError_arrived s k dir⟩
      · refine ⟨_, transferReceive_of_good hu hon (hgood.mp hg) hw, ?_⟩
        rw [enterFifo_rests s k dir hu ha hs hroom]
        exact ⟨landed_fifo_at, landed_wire, landed_field Switch.inTaken (fun _ _ _ => rfl) k.val, landed_mem, fun j hj => landed_core_ne hj⟩
      · refine ⟨_, transferReceive_of_good hu hon (hgood.mp hg) hw, ?_⟩
        rw [enterFifo_local hempty hu hloc hbr hon hdead hact hdone he]
        obtain ⟨hbytes, hrest, htaken, hcount, hack, hcred⟩ :=
          handed_landed (s := s) (k := k) (i := dir) (data := data) (u := u) (j := i) (e := e)
        exact ⟨fun n hn hz _ => hbytes n hn hz, hrest, htaken, hcount, handed_landed_fifo hempty, hack, hcred⟩
    · exact ⟨(ackArrives_mem ..).trans (State.modCore_mem ..), acknowledged_local s k dir, acknowledged_none s k dir,
        fun r rs hx hr hmem hne => acknowledged_branch s k dir hx hr hmem hne,
        fun r rs u hx hr hwait hu hne => acknowledged_last s k dir hx hr hwait hu hne⟩
  · intro l hok hon hturn hb hf k hrx deaf row
    refine ⟨_, beat_one hok hon hturn hb hf hrx, ?_⟩
    have hdies := beatAt_dies (s := s.modDie d.val (turned rank.val b.fromE)) (b := b) hrx
    have hdie : (((s.modDie d.val (turned rank.val b.fromE)).beatAt k b []).die d.val).turnE = (turned rank.val b.fromE (s.die d.val)).turnE := by
      rw [State.die, hdies, ← State.die, State.die_modDie]
    have hdeaf : deaf ↔ (s.modDie d.val (turned rank.val b.fromE)).siteFenced k = true ∨
        ((s.modDie d.val (turned rank.val b.fromE)).core k).st = 7 := by rw [siteFenced_turned]; rfl
    have hears (h : ¬ deaf) := beatAt_of_hearing (b := b) (hdeaf.not.mp h) hrx
    refine ⟨fun hw => ?_, fun he => ?_, fun h => ?_, fun h hkind => ?_, fun h hkind hue hpo => ?_, fun h hkind hue hpo hty => ?_⟩
    · rw [hdie, hw]
      exact TempoPorts.mem_addNew_self ..
    · rw [hdie, he]
      rfl
    · rw [beatAt_of_deaf (hdeaf.mp h)]
      exact ⟨rfl, rfl⟩
    · rw [hears h, beatDo_write hkind]
      obtain ⟨hwords, hrest⟩ := writeWords_mem (s.modDie d.val (turned rank.val b.fromE)) k row b.wen b.data 8
      exact ⟨hwords, hrest, fun j hj => writeWords_core_ne _ _ _ _ _ hj 8⟩
    · rw [hears h]
      exact beatDo_read (s := s.modDie d.val (turned rank.val b.fromE)) hue hpo hkind
    · rw [hears h]
      exact beatDo_atomic_spec (s := s.modDie d.val (turned rank.val b.fromE)) hue hpo hkind hty

end Sys2Proof.Beats
end
